-- ==== Sys2Proof/Word.lean ====
section
/-! DEFINITION. The word types of the CZ-4816: registers are 32 bits wide (R3), memory and frames are made of bytes. -/

namespace Sys2Proof

/-- A register or a memory word: every software-visible register is 32 bits wide (R3). -/
abbrev Word := BitVec 32

/-- One byte of memory, of a frame or of a record. -/
abbrev Byte := BitVec 8

/-- A vehicle port VP0 to VP7 and the outlet it serves (fixed terms of 00_scope.md). -/
abbrev Port := Fin 8

/-- A meter M0 to M11 (R91). -/
abbrev MeterId := Fin 12

/-- A bitstream channel 0 to 31 (04_sampling_and_filter_chain.md). -/
abbrev ChanId := Fin 32

/-- A coil switch pair 0 to 11 and its contactor (13_caldera_io_and_safety_link.md). -/
abbrev Pair := Fin 12

end Sys2Proof
end

