-- ==== Sys2Proof/Syntax.lean ====
section
/-! DEFINITION. The commands the block takes, and the data that an event or an access brings with it. -/

namespace Sys2Proof

/-- The header of the waveform tables as the engine reads it from the NOR flash (R167 to R169): the band limits L0 to
L15 and LTOP in °C, and per mode and band the number of frames and the power P in mW per million pixels. The area's
layout is not in the spec, so the load brings the decoded header. -/
structure Waveform where
  limits : List Int
  frames : List (List Nat)
  power : List (List Nat)
  deriving DecidableEq, Repr

/-- What the link tells of a received frame beside its bytes (R216, R217). -/
inductive FrameKind where
  | own (xr6 : Bool)         -- from a station of the port's own network or link; whether it came in XR6
  | outside                  -- from a station outside every network
  | foreign                  -- a frame of another network
  | malformed
  | badCheck
  deriving DecidableEq, Repr

/-- A service call as the caller writes it: the service version, and the argument registers written from ARG0 on; the
argument registers that are not written keep their values (R431). -/
structure Call where
  sver : Byte
  args : List Word
  deriving DecidableEq, Repr

/-- A safety-link PDU as it is received (R290): the Ethernet port, the sender's MAC address, the PDU's fields, the payload
after its type byte, and the CRC. Its LEN is the payload's length. -/
structure LinkPdu where
  net : Fin 2
  mac : BitVec 48
  connid : Word
  seq : BitVec 16
  flags : Byte
  tstamp : Word
  body : List Byte
  crc : Word
  deriving DecidableEq, Repr

/-- A G-partition signal: a bit of THL_GIN, the n-th user source 176 + n, or MB0 to MB31 and PLS0 to PLS7 as the output of a
partition that owns the ball (R330, R346). -/
inductive GSignal where
  | gin (bit : Fin 32) (v : Bool)
  | source (n : Fin 80) (v : Bool)
  | ball (n : Fin 40) (v : Bool)
  deriving DecidableEq, Repr

/-- The size of an access. -/
inductive AccSize where
  | byte | half | word
  deriving DecidableEq, Repr

/-- The bytes of an access. -/
def AccSize.bytes : AccSize → Nat
  | .byte => 1
  | .half => 2
  | .word => 4

/-- A CAN FD frame on a bus (R440). The data bytes beyond the length that DLC spells are not sent. -/
structure CanFrame where
  ide : Bool
  fdf : Bool
  brs : Bool
  esi : Bool
  rtr : Bool
  id : BitVec 29
  dlc : BitVec 4
  data : List Byte
  deriving DecidableEq, Repr

/-- A mesh request of the DMA engine for a burst: the read of its source or the write of its destination, a FIFO's among
them, the reads of its index table, and the read of a descriptor. With the operand of a row it says which request met a
parity error, on the request itself (false) or on its response (true) (R366). -/
inductive DmaReq where
  | source | dest | sourceIndex | destIndex | descriptor
  deriving DecidableEq, Repr

/-- A legally relevant area of Sinter of which recovery keeps no complete record (R34). -/
inductive SinterArea where
  | acc | tariffs | sessions | interval | audit | records | demand | ledger
  deriving DecidableEq, Repr

/-- Where a power-fail warning comes from (R58): the internal comparator, with VSUP in units of 10 mV as it has stayed for
20 µs, or the PFW ball, high for 5 µs. -/
inductive PfwSource where
  | comparator (vsup : BitVec 12)
  | ball
  deriving DecidableEq, Repr

/-- Sixteen modulator bits of each channel of a clock group, earliest first, and which of them came without a mid-bit
transition (R66). -/
structure FastBits where
  g : Fin 2
  bits : Vector (BitVec 16) 32
  miss : Vector (BitVec 16) 32
  deriving DecidableEq, Repr

/-- What a start meets from outside (R29): the straps and the LORST level sampled at step 2; the cycles that the RTC has run
by step 2 without a step of the block, or none when it has lost time; the supply voltages in units of 10 mV; the result of
Caldera's self-test, 0 for a pass, else the failing step; whether the two SP copies differ on the first safety tick after the
load; whether the kernel's ROM checksum holds; whether the junction is above 110 °C at step 8; the system time of steps 3, 4,
5 and 7 in periods of 40 ns; the areas that damage has taken from Sinter, and those of which recovery keeps only the
generation before the newest; the header of the waveform tables and their CRC-32C. -/
structure StartUp where
  straps : BitVec 3
  lorst : Bool
  rtc : Option Nat
  vsup : BitVec 12
  vhold : BitVec 12
  selftest : Byte
  spDiff : Bool
  romOk : Bool
  hot : Bool
  at3 : Nat
  at4 : Nat
  at5 : Nat
  at7 : Nat
  lost : List SinterArea
  older : List SinterArea
  wf : Waveform
  wfCrc : Word
  deriving DecidableEq, Repr

/-- The commands of the CZ-4816: one constructor per row of the table of operations and events. -/
inductive Instr where
  /-- VSUP_RISE (R27). VSUP rises above 7.5 V and the device enters START and runs the start-up sequence. -/
  | vsupRise (u : StartUp)
  /-- NRST_RESET (R27). nRST is asserted for at least 10 µs and released; any running save completes first, then start-up runs. -/
  | nrstReset (u : StartUp)
  /-- HOLDUP_CAP_MEASURED (R55). VHOLD reaches V_top after charging from 2.0 V and the hold-up capacitance is computed and stored. -/
  | holdupCapMeasured (t : Nat) (vsup : BitVec 12)
  /-- POWER_FAIL_WARNING (R59). The selected warning source is raised and the ordered power-fail save runs. -/
  | powerFailWarning (src : PfwSource) (vhold : BitVec 12) (tail : List FastBits)
  /-- PFW_CLEAR (R47). The warning clears after a completed save with VSUP at or above 7.0 V, and the full start-up runs. -/
  | pfwClear (ball : Bool) (u : StartUp)
  /-- VSUP_BELOW_RETAIN (R49). VSUP falls below 7.0 V after a completed save and the device enters RETAIN. -/
  | vsupBelowRetain
  /-- CUT_WITHOUT_SAVE (R60). VCORE falls below 0.88 V before the save commit and the device stops all logic and holds in reset. -/
  | cutWithoutSave (steps : Fin 7) (tail : List FastBits)
  /-- WDOG_KICK (R37). A write to SYS_WDKICK restarts the watchdog with 0x0000_C0DE or counts as expiry otherwise. -/
  | wdogKick (v : Word)
  /-- WDOG_EXPIRY (R38). The application-complex watchdog expires and the device enters DEGRADED. -/
  | wdogExpiry
  /-- MESH_ACK_TIMEOUT (R38). A mesh transaction outside the island windows gets no acknowledge within 100 µs and the device enters DEGRADED. -/
  | meshAckTimeout
  /-- SRAM_UNCORRECTABLE_FETCH (R367). A core fetches or loads a poisoned SRAM word and the device enters DEGRADED. -/
  | sramUncorrectableFetch (core : Fin 4) (a : Word)
  /-- THERMAL_STAGE_1 (R38). Junction temperature rises above 115 °C; THERM1 is set and VC3 or VC4 drops to VC2. -/
  | thermalStage1
  /-- THERMAL_STAGE_2 (R38). Junction temperature rises above 125 °C and the device enters DEGRADED. -/
  | thermalStage2
  /-- THERMAL_CLEAR (R38). Junction temperature falls below 110 °C and both thermal stages clear. -/
  | thermalClear
  /-- DEGRADED_AUTO_RESET (R41). With AUTORST_EN set, the device resets itself once sessions are signed, the delay has run and temperature allows. -/
  | degradedAutoReset (u : StartUp)
  /-- DEGCFG_WRITE (R41). A write to SYS_DEGCFG sets the automatic-reset fields, journaled in Sinter, and the watchdog timeout unless locked. -/
  | degcfgWrite (v : Word)
  /-- LORST_PULSE (R44). The falling edge of a LORST high pulse is evaluated as a deliberate reset request. -/
  | lorstPulse (step : Byte)
  /-- VCORE_LEVEL_WRITE (R52). A write of LEVEL 1 to 4 to SYS_VCORE moves VCORE to that level within 100 µs. -/
  | vcoreLevelWrite (v : Word)
  /-- BUDGET_SHED (R53). Every 10 ms the budget manager sheds the lowest-priority load switch while the average exceeds LIMIT. -/
  | budgetShed (avg : BitVec 16)
  /-- BUDGET_GRANT_TIMEOUT (R54). No grant is possible within 50 ms; the close request fails with REFUSED and SUPPLY_BUDGET is raised. -/
  | budgetGrantTimeout (c : Fin 12)
  /-- SHED_REENABLE (R328). Under fail-safe the manager switches one shed channel on again each second while the budget allows. -/
  | shedReenable
  /-- FINE_SAMPLE (R70). A CIC decimation instant produces a FIR output that is calibrated and passed to the energy engine. -/
  | fineSample (g : Fin 2)
  /-- FAST_SAMPLE (R72). A fast-path CIC output is calibrated and delivered on the trip lane. -/
  | fastSample (g : Fin 2) (bits miss : Vector (BitVec 16) 32)
  /-- RANGE_SWITCH_DOWN (R79). The count of consecutive LR fast samples at or below 60 % reaches its length and state returns to LOW. -/
  | rangeSwitchDown (p : Fin 8)
  /-- RANGE_SELFCHECK_BLOCK (R81). A block of 8,192 fine samples ends and the pair deviation is evaluated, possibly setting DISAGREE. -/
  | rangeSelfcheckBlock (p : Fin 8)
  /-- MANCHESTER_LOSS (R66). 16 consecutive substituted bits put the channel into LOSS. -/
  | manchesterLoss (n : ChanId)
  /-- MANCHESTER_LOSS_CLEAR (R66). 64 consecutive good bits clear LOSS and the channel re-settles. -/
  | manchesterLossClear (n : ChanId)
  /-- STUCK (R67). A run of RUNLEN identical bits puts the channel into STUCK. -/
  | stuck (n : ChanId)
  /-- STUCK_CLEAR (R67). 64 bits without a run reaching RUNLEN clear STUCK and the channel re-settles. -/
  | stuckClear (n : ChanId)
  /-- GAIN_REFRESH (R74). At each whole second of system time the temperature-corrected gain of each channel is refreshed. -/
  | gainRefresh
  /-- LINE_LOST (R87). No acceptable crossing for 40 ms; S is held, LINE_LOST set and source 67 raised. -/
  | lineLost
  /-- FILTER_SELFTEST (R89). Once per second a spare instance runs the ROM pattern; a second mismatch sets FILTER_FAULT and stops sessions. -/
  | filterSelftest (first second : Bool)
  /-- ADC_SLOT_DWELL_END (R84). A converter slot's dwell ends and the multiplexer moves to the next slot, adjusting stored gain. -/
  | adcSlotDwellEnd (a : Fin 4)
  /-- ADC_COARSE_VALUE (R83). A converter produces a coarse value on its fast path. -/
  | adcCoarseValue (a : Fin 4) (bits : BitVec 16)
  /-- ADC_FINE_VALUE (R83). A converter produces a calibrated fine value for its slot. -/
  | adcFineValue (a : Fin 4)
  /-- ADC_CAL_STALE (R85). A converter has had no idle slot for 10 s; CAL_STALE is set and source 68 raised. -/
  | adcCalStale (a : Fin 4)
  /-- METER_INVALID (R99). After the held samples run out, q becomes zero, INVALID is set and audit-logged. -/
  | meterInvalid (m : MeterId)
  /-- METER_INVALID_STOP (R99). INVALID has lasted 100 ms and the kernel demands a safe stop of the outlet's session. -/
  | meterInvalidStop (m : MeterId)
  /-- METER_SECOND (R100). Each second the kernel evaluates mean power against 4.5 MW, setting or clearing POWER_OVR. -/
  | meterSecond (m : MeterId)
  /-- PHSEQ_TIMEOUT (R106). 40 ms without crossings returns PHSEQ to unknown. -/
  | phseqTimeout (m : MeterId)
  /-- PULSE_EMIT (R111). A queued pulse is emitted on its output once the spacing from the previous pulse has passed. -/
  | pulseEmit (q : Fin 8)
  /-- READ_ACC (R114). MET call returning a meter accumulator with its residue, carry and sample instant. -/
  | readAcc (c : Call)
  /-- SNAPSHOT (R115). MET call taking all masked accumulators at one common instant into the snapshot buffer. -/
  | snapshot (c : Call)
  /-- READ_PQ (R114). MET call returning RMS, power, power factor, frequency and THD of a meter phase. -/
  | readPq (c : Call)
  /-- READ_HARM (R114). MET call returning harmonic magnitudes of a resampled channel. -/
  | readHarm (c : Call)
  /-- READ_BALANCE (R114). MET call returning a past cross-meter balance evaluation. -/
  | readBalance (c : Call)
  /-- CLEAR_STATS (R116). MET call clearing the selected sticky flags and statistics counters. -/
  | clearStats (c : Call)
  /-- JOURNAL_PERIOD (R33). Every 100 ms the kernel journals the accumulators, running sessions and event-log entries to Sinter. -/
  | journalPeriod
  /-- DEMAND_BOUNDARY (R122). A demand-interval boundary closes slices and the part, runs the balance and writes a signed demand record. -/
  | demandBoundary
  /-- BILLING_PERIOD_CLOSE (R124). At 00:00 on BPDAY, BPC increments and a signed billing-period record is written per meter. -/
  | billingPeriodClose
  /-- TARIFF_SWITCH (R120). The calendar's active tariff pair changes and every meter's slice closes. -/
  | tariffSwitch
  /-- SESSION_OPEN (R126). BILL call opening a session in OPENED for a port and returning its session ID. -/
  | sessionOpen (c : Call)
  /-- SESSION_CANCEL (R126). BILL call cancelling an OPENED session without a record. -/
  | sessionCancel (c : Call)
  /-- SESSION_STATUS (R146). BILL call returning the state, energy and cost so far of a port's session. -/
  | sessionStatus (c : Call)
  /-- SESSION_OPENED_TIMEOUT (R126). A session left in OPENED for 120 s is cancelled and logged. -/
  | sessionOpenedTimeout (n : Port)
  /-- SIGN_REQUEST_DONE (R139). A kernel signing request completes on the shared crypto engine and the record is stored. -/
  | signRequestDone
  /-- READ_RECORD (R146). BILL call copying a held record into the buffer. -/
  | readRecord (c : Call)
  /-- ACK_RECORD (R141). BILL call acknowledging a record so its store entry becomes free. -/
  | ackRecord (c : Call)
  /-- READ_OCMF (R142). BILL call starting the rendering of a stop record as an OCMF string. -/
  | readOcmf (c : Call)
  /-- READ_OCMF_DONE (R142). The OCMF string is in the buffer and the call completes with source 83. -/
  | readOcmfDone
  /-- READ_DEMAND (R146). BILL call copying a demand record from the ring into the buffer. -/
  | readDemand (c : Call)
  /-- CREDIT_CHECK (R159). Every 100 ms the remaining credit of a token session is compared with the reserve, demanding a stop if exhausted. -/
  | creditCheck (n : Port)
  /-- READ_AUDIT (R147). MET call copying audit entries into the buffer. -/
  | readAudit (c : Call)
  /-- ARCHIVE_BEGIN (R145). MET call starting the seal of the oldest audit entries up to a SEQ. -/
  | archiveBegin (c : Call)
  /-- ARCHIVE_SEAL_DONE (R145). The audit seal is signed, journaled and shown in the seal buffer; the call completes. -/
  | archiveSealDone
  /-- ARCHIVE_COMMIT (R145). MET call freeing the sealed audit entries and writing ARCHIVED. -/
  | archiveCommit (c : Call)
  /-- SET_TIME (R419). MET call setting legal time; the adjustment applies within or beyond the limit. -/
  | setTime (c : Call)
  /-- READ_TIME (R421). MET call returning legal time, system time and the high-water mark. -/
  | readTime (c : Call)
  /-- RTC_TRIM (R421). MET call setting the RTC compensation TRIM, K2 and T0, audit-logged. -/
  | rtcTrim (c : Call)
  /-- KEY_PRESS (R446). The scanner reports a debounced key press, routed to an island entry or to the host FIFO. row and
  col say which key has read closed for 5 scans; twin, that another first read closed in the same scan (R445). -/
  | keyPress (row col : Fin 4) (twin : Bool)
  /-- TOKEN_ENTRY_TIMEOUT (R149). TMO seconds pass without a key and the token entry ends with result CANCELLED. -/
  | tokenEntryTimeout
  /-- PENDING_TOKEN_EXPIRY (R150). A pending token is discarded after 60 s. -/
  | pendingTokenExpiry (n : Port)
  /-- TOKEN_LOCK_EXPIRY (R151). 10 minutes after the fifth INVALID entry the LOCKED state ends. -/
  | tokenLockExpiry
  /-- TOKEN_RESULT (R162). BILL call returning the result and fields of the last token entry. -/
  | tokenResult (c : Call)
  /-- TOKEN_OPEN (R158). BILL call binding the pending token in the ledger and opening a token session. -/
  | tokenOpen (c : Call)
  /-- TOKEN_DISCARD (R162). BILL call discarding a port's pending token. -/
  | tokenDiscard (c : Call)
  /-- LEDGER_READ (R162). BILL call copying ledger entries into the buffer. -/
  | ledgerRead (c : Call)
  /-- TOKEN_KEY_LOAD (R161). BILL call loading or disabling a token key slot into the open BILL transaction. -/
  | tokenKeyLoad (c : Call)
  /-- TOKEN_KEY_INFO (R162). BILL call returning a slot's enable state and key check value. -/
  | tokenKeyInfo (c : Call)
  /-- KEY_FIFO_READ (R446). A read of KEY_FIFO returns and removes the oldest key code. -/
  | keyFifoRead
  /-- DISP_UPDATE_REQUEST (R175). A write to DISP_UPDREQ requests a host update of a region, refused for legal regions. -/
  | dispUpdateRequest (region : Fin 16) (mode : BitVec 3)
  /-- LEGAL_REDRAW_PERIOD (R173). Every LPERIOD seconds of a running session the kernel requests a legal-region update. -/
  | legalRedrawPeriod (n : Port)
  /-- UPDATE_START (R176). A drive slot becomes free and the engine starts the next pending update, journaling its intent. -/
  | updateStart (slot : Fin 4)
  /-- UPDATE_END (R178). A region update completes its frames, its intent becomes DONE and front-light permission is re-evaluated. -/
  | updateEnd (region : Fin 16)
  /-- RAIL_IDLE_TIMEOUT (R166). IDLE ms after the last update the rails are lowered. -/
  | railIdleTimeout
  /-- RAIL_FAULT (R183). A rail fails to come up or sags during a frame; running updates are abandoned and regions marked DAMAGED. -/
  | railFault (rail : Fin 5)
  /-- RAIL_RETRY (R183). 1 s after a rail fault the engine retries, redrawing the damaged regions. -/
  | railRetry
  /-- DISP_CLRCNT (R422). A write of 1 to DISP_EVT.CLRCNT clears the display statistics counters. -/
  | dispClrcnt
  /-- PILOT_PERIOD_END (R190). A pilot period ends; plateaus and proximity are measured, classified and delivered to Caldera. -/
  | pilotPeriodEnd (n : Port) (samples : List (BitVec 12))
  /-- PILOT_CTL_WRITE (R188). A write to VP_CPCTL sets mode and duty, taking effect at the next period start. -/
  | pilotCtlWrite (n : Port) (w : Word)
  /-- VP_PEVT_CLRCNT (R422). A write of 1 to VP_PEVT.CLRCNT clears the pilot counters. -/
  | vpPevtClrcnt (n : Port)
  /-- CM_START_ATTEN_CHAR_IND (R203). A received start message begins a SLAC run heard by the port. -/
  | cmStartAttenCharInd (n : Port) (mac : BitVec 48) (run : BitVec 64) (announced : Nat)
  /-- CM_MNBC_SOUND_IND (R203). A received sounding adds to the port's attenuation average for the run. -/
  | cmMnbcSoundInd (n : Port) (mac : BitVec 48) (run : BitVec 64) (groups : List Nat)
  /-- CM_SLAC_PARAM_REQ (R203). A received parameter request is answered by every candidate port. -/
  | cmSlacParamReq (mac : BitVec 48) (run : BitVec 64)
  /-- SLAC_WINDOW_CLOSE (R204). A run's window closes and the device assigns it to the best port or defers it. -/
  | slacWindowClose (mac : BitVec 48) (run : BitVec 64)
  /-- CM_ATTEN_CHAR_RSP (R205). The vehicle's response to the assigned port's attenuation indication continues the match. -/
  | cmAttenCharRsp (n : Port) (mac : BitVec 48) (run : BitVec 64)
  /-- CM_SLAC_MATCH_REQ (R205). A received match request is answered with keys and the port becomes MATCHED. -/
  | cmSlacMatchReq (n : Port) (mac : BitVec 48) (run : BitVec 64)
  /-- CM_VALIDATE_REQ (R201). A received validate request is answered with result not required. -/
  | cmValidateReq (n : Port) (mac : BitVec 48)
  /-- SLAC_MATCH_TIMEOUT (R205). The vehicle does not complete the match within the ISO 15118-3 timers and the assignment lapses. -/
  | slacMatchTimeout (n : Port)
  /-- XR_CAP_CNF (R209). A peer answers XR_CAP with version 1 and becomes an XR6 peer. -/
  | xrCapCnf (n : Port) (version : Nat)
  /-- XR_CAP_TIMEOUT (R209). No XR_CAP answer within 200 ms and the port keeps STD-ROBO. -/
  | xrCapTimeout (n : Port)
  /-- XR6_FALLBACK (R210). Four consecutive failed XR6 frames return the port to STD-ROBO for the peer. -/
  | xr6Fallback (n : Port)
  /-- SWITCHING_ANNOUNCEMENT (R212). A coil or switching-frame announcement opens a switching window on every port. -/
  | switchingAnnouncement (src : Fin 4) (at_ : BitVec 64)
  /-- SWITCHING_WINDOW_END (R213). A switching window ends and held transmissions contend again. -/
  | switchingWindowEnd (n : Port)
  /-- FRAME_RECEIVE (R216). A link frame is received whole, filtered, counted and stored as a record or consumed. -/
  | frameReceive (n : Port) (kind : FrameKind) (frame : List Byte) (samples : List (BitVec 12))
  /-- RX_COAL_TIMEOUT (R217). 1 ms after the first uncounted completed record the receive event is raised. -/
  | rxCoalTimeout (n : Port)
  /-- TX_PUSH (R219). A write to VP_TXPUSH queues a frame slot for transmission or fails it. -/
  | txPush (n : Port) (w : Word)
  /-- FRAME_TRANSMIT_DONE (R219). A pushed frame is sent and its slot's SENT bit is set. -/
  | frameTransmitDone (n : Port) (air : Nat)
  /-- TX_TIMEOUT (R219). A frame not sent within TMO ms is discarded and its slot fails. -/
  | txTimeout (n : Port) (slot : Fin 8)
  /-- LINK_SUPERVISION_TIMEOUT (R215). A 10BASE-T1S port receives no valid frame for LSUP × 10 ms and reports the link down. -/
  | linkSupervisionTimeout (n : Port)
  /-- TLS_KEY_WORD (R220). A write to VP_TLSKEYDAT stores a key word and increments WORD. -/
  | tlsKeyWord (n : Port) (w : Word)
  /-- TLS_INSTTX (R220). INSTTX installs the protect keys and zeroes that direction's sequence number. -/
  | tlsInsttx (n : Port)
  /-- TLS_INSTRX (R220). INSTRX installs the unprotect keys and zeroes that direction's sequence number. -/
  | tlsInstrx (n : Port)
  /-- TLS_CLEAR (R220). CLEAR erases both directions' keys and queues. -/
  | tlsClear (n : Port)
  /-- TLS_PROTECT (R221). A VP_TLSOP write with DIR 0 queues a protect operation. -/
  | tlsProtect (n : Port) (ctype : Byte) (len : BitVec 15)
  /-- TLS_UNPROTECT (R221). A VP_TLSOP write with DIR 1 queues an unprotect operation. -/
  | tlsUnprotect (n : Port) (len : BitVec 15)
  /-- TLS_OP_COMPLETE (R221). A record operation completes and writes RESULT, OLEN and ITYPE, stopping the direction on AUTH_FAIL. -/
  | tlsOpComplete (n : Port) (unprotect : Bool)
  /-- SLAC_REARM (R206). A write of REARM to VP_LEVT clears AMBIG and the deferral count. -/
  | slacRearm (n : Port)
  /-- VP_LEVT_CLRCNT (R422). A write of 1 to VP_LEVT.CLRCNT clears the link counters. -/
  | vpLevtClrcnt (n : Port)
  /-- SAFETY_TICK (R242). Every 250 µs Caldera samples inputs, forms tick means, compares SP copies, evaluates SF01 to SF10 and issues outputs. -/
  | safetyTick (si : BitVec 16) (lorst spDiff : Bool)
  /-- RAMP_TIMEOUT (R259). t0 + T_RAMP passes without a tick below 5 A and the coil command is issued as an emergency opening. -/
  | rampTimeout (n : Port)
  /-- COIL_ANNOUNCE_EXPIRY (R24). 1 ms after a coil announcement Caldera issues the coil command. -/
  | coilAnnounceExpiry (c : Fin 12)
  /-- CLOSE_CONDITIONS_MET (R231). The close conditions have held for 10 ticks and the budget grant and announcement follow. -/
  | closeConditionsMet (c : Fin 12)
  /-- PULLIN_END (R274). T_PULL ends and the coil pair switches to economiser hold. -/
  | pullinEnd (c : Fin 12)
  /-- COIL_PULLIN_SLOW (R276). Coil current does not reach 2.0 A within 20 ms of pull-in; a coil fault latches. -/
  | coilPullinSlow (c : Fin 12)
  /-- COIL_OVERCURRENT (R276). Coil current exceeds 4.0 A; both switches turn off in hardware and a coil fault latches. -/
  | coilOvercurrent (c : Fin 12)
  /-- COIL_HOLD_UNDERCURRENT (R276). Hold current below 50 % of IHOLD for 4 ticks; a coil fault latches. -/
  | coilHoldUndercurrent (c : Fin 12)
  /-- PULSE_TEST (R277). Every TTEST Caldera pulse-tests each switch of every enabled pair, latching code 9 on failure. -/
  | pulseTest (c : Fin 12) (high pass : Bool)
  /-- PULSE_TEST_STALE (R278). No completed test on a pair for 3 × TTEST sets TSTALE and raises source 101. -/
  | pulseTestStale (c : Fin 12)
  /-- LOCKOUT_COIL_RETEST (R279). In LOCKOUT Caldera repeats bright-pulse tests of a failed pair every 100 ms. -/
  | lockoutCoilRetest (c : Fin 12) (high pass : Bool)
  /-- TEST_PULSE (R281). Every TPPER a test-pulse output pulses and its inputs are checked for INFAULT. -/
  | testPulse (b : Bool) (low : BitVec 16)
  /-- DISCREPANCY_LOCKOUT (R283). A pair's discrepancy count reaches DT and the latching fault of code 8 is raised. -/
  | discrepancyLockout (j : Fin 8)
  /-- REARM_INPUT_EDGE (R285). The falling edge of a valid high pulse on the re-arm input ends eligible stop demands. -/
  | rearmInputEdge
  /-- FEEDBACK_CHANGE (R286). A feedback input's debounced value changes and is checked against the commanded contactor state. -/
  | feedbackChange (k : Fin 16)
  /-- FEEDBACK_CLOSE_TIMEOUT (R286). After a close command feedback does not reach 0 within T_PULL + 10 ms; coil off and FBCLOSE set. -/
  | feedbackCloseTimeout (c : Fin 12)
  /-- FEEDBACK_OPEN_TIMEOUT (R262). Feedback does not show open within T_FBO after coil-off and a weld is declared. -/
  | feedbackOpenTimeout (c : Fin 12)
  /-- WELD_WINDOW_END (R263). At T_WELD after coil-off an unproven opening is declared a weld or held unproven. -/
  | weldWindowEnd (c : Fin 12)
  /-- TRIP_CHANNEL_INVALID (R248). A safety-function channel is not valid for 4 ticks and a category 0 demand is raised. -/
  | tripChannelInvalid (n : Port)
  /-- IMD_DWELL_END (R254). A bridge dwell ends; riso is computed and the insulation state or pre-check updated. -/
  | imdDwellEnd (g : Fin 6)
  /-- IMD_UNKNOWN_TIMEOUT (R256). UNKNOWN lasts 1 s while an outlet of the group is closed and a category 1 demand is raised. -/
  | imdUnknownTimeout (g : Fin 6)
  /-- TEMP_SENSOR_STALE (R266). A connector temperature sensor has no new fine value for 200 ms and a category 1 demand is raised. -/
  | tempSensorStale (n : Port) (k : Fin 2)
  /-- OVERVOLTAGE_SLOW (R269). Tick means above the voltage limit on 8 consecutive ticks raise a category 0 demand. -/
  | overvoltageSlow (n : Port)
  /-- OVERCURRENT_SECOND (R269). The 1 s mean current above the limit raises a category 1 demand. -/
  | overcurrentSecond (n : Port)
  /-- PILOT_DISAGREEMENT (R197). Caldera's classification disagrees with the engine's for NDEB + 1 periods and a pilot fault is declared. -/
  | pilotDisagreement (n : Port)
  /-- LOCKSTEP_MISMATCH (R239). The two cores' tokens differ and the safe-state command is issued. -/
  | lockstepMismatch
  /-- LOCKSTEP_TOKEN_TIMEOUT (R239). The second token does not arrive within 2 RC periods and the safe-state command is issued. -/
  | lockstepTokenTimeout
  /-- CALDERA_SRAM_UNCORRECTABLE (R241). An uncorrectable Caldera SRAM error causes the safe-state command. -/
  | calderaSramUncorrectable
  /-- CALDERA_PATH_PARITY (R241). A parity error on a path into Caldera causes the safe-state command. onMesh names the
  requester and the offset of its request, where the path is the mesh's. -/
  | calderaPathParity (onMesh : Option (Fin 10 × BitVec 16))
  /-- CALDERA_RESTART_SELFTEST (R246). After a command both cores restart and complete their self-test, then serve LOCKOUT or halt. -/
  | calderaRestartSelftest (step : Byte)
  /-- TIE_MATCH_TIMEOUT (R233). Tie close or open conditions do not hold within MATCH_TMO; TIEFAIL is set. -/
  | tieMatchTimeout (c : Fin 12)
  /-- CLOSE_REQ_TIMEOUT (R232). Outlet close conditions do not hold within PRECH_TMO and the request ends with TIMEOUT. -/
  | closeReqTimeout (c : Fin 12)
  /-- CAN_BUS_OFF (R236). A CAN FD bus carrying an allocated module goes bus-off; safe stops are demanded. -/
  | canBusOff (b : Fin 3)
  /-- HOURS_LIMIT (R306). HOURS reaches 8,760 and SELFTEST_DUE is set with a PT_OVERDUE log entry. -/
  | hoursLimit
  /-- TRIPDUE_LIMIT (R308). An outlet's 8,760 h count since its last passing TRIP_TEST runs out and TRIPDUE is set. -/
  | tripdueLimit (n : Port)
  /-- CONFIRM_ENTRY_TIMEOUT (R288). 30 s without a key ends the confirmation entry with its result. -/
  | confirmEntryTimeout
  /-- CONFIRM_BLOCK_EXPIRY (R289). 60 s after three mismatches confirmation is allowed again. -/
  | confirmBlockExpiry
  /-- CONNECT (R295). A received CONNECT PDU negotiates the version and moves the connection toward OPEN. -/
  | connect (p : LinkPdu)
  /-- DATA (R293). A received DATA PDU restarts the watchdog and its stop bits raise demands. -/
  | data (p : LinkPdu)
  /-- RESET_PRESS (R297). A received RESET_PRESS acts as the rising edge of a deliberate reset. -/
  | resetPress (p : LinkPdu)
  /-- RESET_RELEASE (R45). A received RESET_RELEASE acts as the falling edge and the reset is evaluated under R44. -/
  | resetRelease (p : LinkPdu) (step : Byte)
  /-- LINK_REARM (R285). A received REARM message acts as the re-arm edge for the ports in its mask. -/
  | linkRearm (p : LinkPdu)
  /-- LINK_CONFIRM (R289). A received CONFIRM message is compared with the computed safety check value. -/
  | linkConfirm (p : LinkPdu)
  /-- LINK_CYCLE (R295). Each CYCLE a connection sends CONNECT or DATA as its state requires. -/
  | linkCycle (k : Fin 16)
  /-- LINK_WATCHDOG_EXPIRY (R271). WD ms pass without an accepted PDU; the connection fails and its loss demand is raised. -/
  | linkWatchdogExpiry (k : Fin 16)
  /-- LINK_RETRY (R295). 100 ms after FAILED the connection returns to CONNECTING. -/
  | linkRetry (k : Fin 16)
  /-- LINK_DUAL_SKEW_EXPIRY (R296). No second copy within SKEW; the miss is counted and NETDEG may be set. -/
  | linkDualSkewExpiry (k : Fin 16)
  /-- CLOSE_REQ (R232). SAFE call requesting the close of an outlet contactor with vehicle limits. -/
  | closeReq (c : Call)
  /-- STOP (R19). SAFE call demanding a category 1 stop of the outlets in the mask. -/
  | stop (c : Call)
  /-- SET_LIMITS (R267). SAFE call lowering an outlet's vehicle voltage and current limits. -/
  | setLimits (c : Call)
  /-- REARM (R300). SAFE call re-arming ports whose demands have cleared. -/
  | rearm (c : Call)
  /-- SET_OOS (R27). SAFE call setting the out-of-service set and requesting the mode transition. -/
  | setOos (c : Call)
  /-- CONTACTOR_REPLACED (R235). SAFE call recording a contactor replacement and clearing EMOPEN_CNT and LIMIT. -/
  | contactorReplaced (c : Call)
  /-- READ_CHKVAL (R299). SAFE call returning the computed and confirmed safety check values. -/
  | readChkval (c : Call)
  /-- LINK_KEY_LOAD (R299). SAFE call loading or disabling a connection key into the open SAFE transaction. -/
  | linkKeyLoad (c : Call)
  /-- TRIP_TEST (R308). SAFE call injecting 125 % values into each fast-trip comparator of an outlet. -/
  | tripTest (c : Call) (pass : BitVec 4)
  /-- READ_SLOG (R311). SAFE call copying safety-log entries with their current protection. -/
  | readSlog (c : Call)
  /-- SLOG_RELEASE (R310). SAFE call releasing the protection of a safety-log entry. -/
  | slogRelease (c : Call)
  /-- LOAD_CMD_WRITE (R316). A write of CMD to LOAD_CHCTL sets a channel's command, kept while fail-safe applies. -/
  | loadCmdWrite (n : Fin 10) (cmd : BitVec 2)
  /-- LOAD_CLRLATCH (R320). CLRLATCH clears LATCH, TSD and RCNT when the temperature conditions hold, else sets CLRREF. -/
  | loadClrlatch (n : Fin 10) (cool : Bool)
  /-- LOAD_THERMAL_EVENT (R319). A channel reaches its thermal or differential limit, turns off and latches or awaits restart. -/
  | loadThermalEvent (n : Fin 10) (guard : Bool) (temp : BitVec 16)
  /-- LOAD_CHANNEL_RESTART (R319). A tripped channel has cooled and RDLY has passed; it restarts with a new inrush window. -/
  | loadChannelRestart (n : Fin 10)
  /-- LOAD_ILIM_ENTRY (R317). A channel's current reaches its limit; ILIM is set and ILIM_CNT increments. -/
  | loadIlimEntry (n : Fin 10)
  /-- INRUSH_WINDOW_END (R317). INRUSH ms after turn-on the channel's limit becomes 3.5 A. -/
  | inrushWindowEnd (n : Fin 10)
  /-- UVHOLD_SET (R321). VSUP stays below 6.0 V for 2 µs; turn-ons are deferred. -/
  | uvholdSet
  /-- UVHOLD_CLEAR (R321). VSUP stays above 7.0 V for 100 µs and UVHOLD clears. -/
  | uvholdClear
  /-- DEFERRED_TURN_ON (R321). Each millisecond after UVHOLD clears one deferred channel turns on. -/
  | deferredTurnOn
  /-- LOAD_SENSESEL_WRITE (R322). A write of CH to LOAD_SENSESEL redirects the LSENSE mirror. -/
  | loadSenseselWrite (ch : BitVec 4)
  /-- SENSETEST (R323). A write of SENSETEST drives the 3.0 mA fault level on LSENSE. -/
  | sensetest
  /-- SENSETEST_END (R323). 1 ms after SENSETEST LSENSE returns to the mirror current. -/
  | sensetestEnd
  /-- LOAD_WDOG_START (R326). A write of EN to LOAD_WDCFG starts the serial watchdog and locks its window. -/
  | loadWdogStart
  /-- LOAD_WDOG_SERVICE (R326). A write to LOAD_WDSVC is a correct service advancing CHAL, or an early or wrong one causing expiry. -/
  | loadWdogService (resp : BitVec 16)
  /-- LOAD_WDOG_LATE (R327). CLOSE ms pass without a correct service; FORCED is set and channels take their FS states. -/
  | loadWdogLate
  /-- LOAD_WDREL (R327). WDREL after two correct services releases FORCED. -/
  | loadWdrel
  /-- LOAD_CLRCNT (R422). A write of LOAD_CTL.CLRCNT clears the load statistics counters. -/
  | loadClrcnt
  /-- SLOT_ERASE (R339). THL slot command erasing the inactive slot. -/
  | slotErase (k : Fin 2)
  /-- SLOT_WRITE (R339). THL slot command writing PROGLEN bytes into the slot. -/
  | slotWrite (k : Fin 2)
  /-- SLOT_VERIFY (R339). THL slot command running load checks 1 to 8 on the slot. -/
  | slotVerify (k : Fin 2)
  /-- SLOT_SWITCH (R340). THL slot command making the inactive verified slot active from the next start. -/
  | slotSwitch (k : Fin 2)
  /-- SLOT_COMMAND_DONE (R339). A running slot command ends, writes RESULT and raises source 4. -/
  | slotCommandDone (ok : Bool)
  /-- PR_STAGE (R343). STAGE starts checking and copying a patch into the shadow store. -/
  | prStage
  /-- PR_STAGING_DONE (R343). Staging ends with the patch staged or a RESULT failure code. -/
  | prStagingDone
  /-- PR_DISCARD (R345). DISCARD removes a staged patch from the shadow store. -/
  | prDiscard
  /-- CONFIG_SCRUB_CORRECT (R341). The scrubber corrects a single-bit configuration error and counts it. -/
  | configScrubCorrect (p : Fin 8)
  /-- CONFIG_UNCORRECTABLE (R342). An uncorrectable configuration word is found; SP latches code 6, others are rewritten. -/
  | configUncorrectable (p : Fin 8) (chans : BitVec 32)
  /-- FABRIC_PARITY_ERROR (R330). A parity error on a boundary port sets PARERR or is a Caldera path fault. -/
  | fabricParityError (p : Fin 8)
  /-- THL_GOUT_WRITE (R346). A write to THL_GOUT drives signals into the G partitions. -/
  | thlGoutWrite (v : Word)
  /-- THL_CLRCNT (R422). A write of THL_CTL.CLRCNT clears the fabric counters. -/
  | thlClrcnt
  /-- VERSIONS (R360). Mailbox command 0x0000 returning the supported service versions. -/
  | versions (svc : Fin 5) (c : Call)
  /-- TXN_BEGIN (R348). TXN call opening a transaction of a domain with a lease and reason code. -/
  | txnBegin (c : Call)
  /-- TXN_COMMIT (R351). TXN call accepting a commit into the queue and freezing the shadow. -/
  | txnCommit (c : Call)
  /-- TXN_COMMIT_DONE (R351). A queued commit is validated, journaled and takes effect, or fails and stays OPEN. -/
  | txnCommitDone (agree : Bool)
  /-- TXN_ROLLBACK (R350). TXN call discarding an open transaction's shadow. -/
  | txnRollback (c : Call)
  /-- TXN_RENEW (R350). TXN call restarting a transaction's lease. -/
  | txnRenew (c : Call)
  /-- TXN_PUT (R349). TXN call placing a register value in a domain's shadow. -/
  | txnPut (c : Call)
  /-- TXN_LEASE_EXPIRY (R350). The lease runs out and the transaction rolls back. -/
  | txnLeaseExpiry (d : Fin 6)
  /-- RWT_SHADOW_WRITE (R349). A write to an RWT register goes to the open transaction's shadow or is discarded. -/
  | rwtShadowWrite (a v : Word)
  /-- COMPAT_WRITE (R358). A write to a block's COMPAT requests a level and the block grants one or disables itself. -/
  | compatWrite (blk : Fin 28) (req : BitVec 16)
  /-- TXN_CLRCNT (R422). A write of TXN_CTL.CLRCNT clears the transaction counters. -/
  | txnClrcnt
  /-- MESH_PARITY_ERROR (R366). A parity error on a mesh link returns a bus error and is recorded. -/
  | meshParityError (req : Fin 10) (a : Word) (onResponse : Bool)
  /-- SRAM_SCRUB_CORRECT (R367). An SRAM bank corrects a single-bit error and writes it back. -/
  | sramScrubCorrect
  /-- MESH_CLRCNT (R422). A write of MESH_EVT.CLRCNT clears the mesh counters and PEAK. -/
  | meshClrcnt
  /-- DMA_ENABLE (R372). A write of EN 1 to DMA_CHCFG enables a channel or is refused with ENREF. -/
  | dmaEnable (c : Fin 32) (par : Option Bool)
  /-- DMA_DISABLE (R383). A write of EN 0 stops the channel within 2 µs without writing a status. -/
  | dmaDisable (c : Fin 32)
  /-- DMA_ABORT (R384). ABORT completes bursts in flight and writes the running descriptor as ABORTED. -/
  | dmaAbort (c : Fin 32)
  /-- DMA_KICK (R372). KICK makes the channel re-read the descriptor at HEAD. -/
  | dmaKick (c : Fin 32) (par : Option Bool)
  /-- DMA_REQUEST_ASSERT (R382). A peripheral asserts its request and its paced channel becomes ready for a burst. -/
  | dmaRequestAssert (r : Fin 32)
  /-- DMA_BURST_GRANT (R378). A burst buffer becomes free and is granted to the highest-priority ready channel. -/
  | dmaBurstGrant (prefetch ecc : Bool) (par : Option (DmaReq × Bool))
  /-- DMA_BURST_DONE (R377). A burst's writes complete; descriptor status, errors and halts follow as applicable. -/
  | dmaBurstDone (c : Fin 32) (par : Option (DmaReq × Bool))
  /-- DMA_CLRCNT (R422). A write of DMA_CTL.CLRCNT clears every channel's counters. -/
  | dmaClrcnt
  /-- UPD_BEGIN (R397). UPD call checking a manifest and envelope and starting or resuming a download. -/
  | updBegin (c : Call)
  /-- UPD_BEGIN_DONE (R397). The staging erase finishes and the download enters DOWNLOADING. -/
  | updBeginDone (ok : Bool)
  /-- UPD_SPORE (R398). UPD call decrypting, programming and journaling one spore record. -/
  | updSpore (c : Call)
  /-- UPD_MISSING (R411). UPD call returning the ranges of spores still needed. -/
  | updMissing (c : Call)
  /-- UPD_VERIFY (R401). UPD call starting verification of the staged image. -/
  | updVerify (c : Call)
  /-- UPD_VERIFY_DONE (R401). Verification ends in VERIFIED, DOWNLOADING or COMPLETE with RESULT. -/
  | updVerifyDone (ok : Bool)
  /-- UPD_ACTIVATE (R402). UPD call journaling an activation record and entering PENDING. -/
  | updActivate (c : Call)
  /-- ACTIVATION_RESET (R402). With RESET set, the device resets itself at the first instant with no session. -/
  | activationReset (u : StartUp)
  /-- UPD_CANCEL (R400). UPD call abandoning a download or withdrawing a pending activation. -/
  | updCancel (c : Call)
  /-- UPD_CONFIRM (R407). UPD call confirming the image in trial. -/
  | updConfirm (c : Call)
  /-- UPD_REPORT (R406). UPD call reporting a trial failure, which rejects the image. -/
  | updReport (c : Call)
  /-- UPD_STATUS (R411). UPD call returning the update state and versions. -/
  | updStatus (c : Call)
  /-- CONF_WINDOW_WARNING (R404). 5 minutes remain in the confirmation window and source 162 is raised. -/
  | confWindowWarning
  /-- CONF_WINDOW_EXPIRY (R406). The confirmation window runs out and the image is rejected. -/
  | confWindowExpiry
  /-- REJECTION_RESET (R406). After a rejection the device resets at the first instant with no session and the swap-back runs. -/
  | rejectionReset (u : StartUp)
  /-- TRIAL_DEGRADED_RESET (R405). After a DEGRADED entry in trial the device resets once every session is signed. -/
  | trialDegradedReset (u : StartUp)
  /-- SET_OPEN (R408). UPD call starting the erase of the spare settings copy. -/
  | setOpen (c : Call)
  /-- SET_OPEN_DONE (R408). The spare settings copy is erased and the call completes. -/
  | setOpenDone (ok : Bool)
  /-- SET_WRITE (R408). UPD call writing data into the opened spare copy. -/
  | setWrite (c : Call)
  /-- SET_COMMIT (R408). UPD call writing the spare copy's header, making it current. -/
  | setCommit (c : Call)
  /-- KEY_ROTATE (R387). UPD call replacing FKD or SKD with a signed rotation message. -/
  | keyRotate (c : Call)
  /-- SEC_SHA256 (R391). SEC operation 0x01 computing a SHA-256 digest. -/
  | secSha256 (p : BitVec 4) (k : BitVec 6) (len : BitVec 16)
  /-- SEC_SHA384 (R391). SEC operation 0x02 computing a SHA-384 digest. -/
  | secSha384 (p : BitVec 4) (k : BitVec 6) (len : BitVec 16)
  /-- SEC_HMAC_SHA256 (R391). SEC operation 0x03 computing an HMAC-SHA-256. -/
  | secHmacSha256 (p : BitVec 4) (k : BitVec 6) (len : BitVec 16)
  /-- SEC_GCM_ENCRYPT (R391). SEC operation 0x04 encrypting with AES-256-GCM. -/
  | secGcmEncrypt (p : BitVec 4) (k : BitVec 6) (len : BitVec 16)
  /-- SEC_GCM_DECRYPT (R391). SEC operation 0x05 decrypting with AES-256-GCM. -/
  | secGcmDecrypt (p : BitVec 4) (k : BitVec 6) (len : BitVec 16)
  /-- SEC_CMAC (R391). SEC operation 0x06 computing an AES-CMAC. -/
  | secCmac (p : BitVec 4) (k : BitVec 6) (len : BitVec 16)
  /-- SEC_ECDSA_SIGN (R391). SEC operation 0x07 signing a digest with a host EC key. -/
  | secEcdsaSign (p : BitVec 4) (k : BitVec 6) (len : BitVec 16)
  /-- SEC_ECDSA_VERIFY (R391). SEC operation 0x08 verifying a signature. -/
  | secEcdsaVerify (p : BitVec 4) (k : BitVec 6) (len : BitVec 16)
  /-- SEC_ECDH (R391). SEC operation 0x09 computing an ECDH shared secret. -/
  | secEcdh (p : BitVec 4) (k : BitVec 6) (len : BitVec 16)
  /-- SEC_GENKEY (R391). SEC operation 0x0A generating a host key in a slot. -/
  | secGenkey (p : BitVec 4) (k : BitVec 6) (len : BitVec 16)
  /-- SEC_IMPORT (R388). SEC operation 0x0B importing a host key from a blob. -/
  | secImport (p : BitVec 4) (k : BitVec 6) (len : BitVec 16)
  /-- SEC_RANDOM (R391). SEC operation 0x0C writing random bytes. -/
  | secRandom (p : BitVec 4) (k : BitVec 6) (len : BitVec 16)
  /-- SEC_ATTEST (R391). SEC operation 0x0D signing an attestation over a challenge with DIK. -/
  | secAttest (p : BitVec 4) (k : BitVec 6) (len : BitVec 16)
  /-- SEC_OP_COMPLETE (R391). A queued SEC operation completes, writes SEC_RES and raises source 164. -/
  | secOpComplete
  /-- TAMPER (R389). The tamper monitor trips and SEC zeroises the host and transport keys. -/
  | tamper (det : Word)
  /-- UPD_CLRCNT (R422). A write of UPD_EVT.CLRCNT clears the update counters. -/
  | updClrcnt
  /-- RTC_LOAD (R414). At every whole legal second the RTC is loaded from legal time. -/
  | rtcLoad
  /-- RTC_COMP_READING (R416). The RTC reads its temperature sensor and applies the rate correction. n is the number of cycles
  that it has run since the last command that gave them, without a step of the block. -/
  | rtcCompReading (t : BitVec 12) (n : Nat)
  /-- REFDEV_MEASURE (R417). Every 64 RTC seconds the 25 MHz reference deviation is measured and checked against 50 ppm. -/
  | refdevMeasure (dev : BitVec 16)
  /-- VBAK_MEASURE (R418). Once a minute VBAK is measured and VBAK_LOW set or cleared. -/
  | vbakMeasure (v : Byte)
  /-- EVL_DROP_SECOND (R425). At the end of a second with dropped entries one DROPPED entry is written. -/
  | evlDropSecond
  /-- EVL_CLRCNT (R425). A write of TIME_EVLDROP.CLRCNT clears EVL_DROP. -/
  | evlClrcnt
  /-- ROS_LOW_READ (R103). A read of a multi-word value's low word latches the whole value for that requester. -/
  | rosLowRead (req : Fin 10) (a : Word) (size : AccSize)
  /-- PLIC_CLAIM (R434). A read of a context's claim register returns and claims the highest pending source. -/
  | plicClaim (ctx : Fin 8)
  /-- PLIC_COMPLETE (R434). A write to a context's complete register ends the claim of a source. -/
  | plicComplete (ctx : Fin 8) (src : Word)
  /-- ETH_FRAME_RECEIVE (R437). An Ethernet frame is received, filtered and stored as a record or dropped. -/
  | ethFrameReceive (m : Fin 2) (frame : List Byte) (good : Bool) (step : Byte)
  /-- ETH_FRAME_TRANSMIT (R438). A whole transmit frame in the FIFO is sent or dropped. -/
  | ethFrameTransmit (m : Fin 2)
  /-- ETH_LINK_CHANGE (R436). The SGMII link state changes and LINKCHG is set. -/
  | ethLinkChange (m : Fin 2) (up : Bool) (speed : Fin 3) (full : Bool)
  /-- ETH_CLRCNT (R422). A write of ETH_EVT.CLRCNT clears the MAC statistics counters. -/
  | ethClrcnt (m : Fin 2)
  /-- CAN_FRAME_RECEIVE (R440). A CAN FD frame is received and stored as a record or dropped. -/
  | canFrameReceive (b : Fin 3) (f : CanFrame)
  /-- CAN_FRAME_TRANSMIT (R441). A CAN FD frame is sent, stop frames first, with switching frames announced. -/
  | canFrameTransmit (b : Fin 3) (sent : Bool)
  /-- CAN_TX_TIMEOUT (R441). A queued frame not sent within TXTMO is discarded and counted. -/
  | canTxTimeout (b : Fin 3)
  /-- CAN_SF_LOAD (R442). LOAD writes CAN_SFBUF into a stop-frame entry unless its module is allocated. -/
  | canSfLoad (b : Fin 3) (e : Fin 16)
  /-- CAN_SF_CLEAR (R442). CLEAR empties a stop-frame entry unless its module is allocated. -/
  | canSfClear (b : Fin 3) (e : Fin 16)
  /-- CAN_RECOV (R443). RECOV starts bus-off recovery of a controller when ARECOV is 0. -/
  | canRecov (b : Fin 3)
  /-- CAN_BUSOFF_RECOVERED (R443). 128 × 11 recessive bits pass and the controller leaves bus-off. -/
  | canBusoffRecovered (b : Fin 3)
  /-- CAN_ERROR_STATE_CHANGE (R443). A controller's error state changes and its error source is raised. -/
  | canErrorStateChange (b : Fin 3) (tec rcc : Byte)
  /-- CAN_CLRCNT (R422). A write of CAN_EVT.CLRCNT clears the controller's statistics counters. -/
  | canClrcnt (b : Fin 3)
  /-- GPIO_EDGE (R447). A configured edge on a GP pin sets its event bit and raises source 7. -/
  | gpioEdge (n : Fin 8) (v : Bool)
  /-- REGISTER_WRITE (R16). A write to a register without a row of its own takes effect under its access code or gets a bus error. -/
  | registerWrite (req : Fin 10) (a : Word) (size : AccSize) (v : Word)
  /-- HOLD_READY (R55). VHOLD comes within 1 V of VSUP minus 0.3 V, or leaves that band, and HOLD_READY sets or clears, which gates session opens under R56. -/
  | holdReady (vsup vhold : BitVec 12)
  /-- KEY_RELEASE (R445). After 5 scans that read it open, a held key counts as released, so that other keys can be accepted again. -/
  | keyRelease
  /-- CORE_RESUME (R444). With the HALT strap, the first resume of the halted application cores through the debug port starts the watchdog of R37. -/
  | coreResume
  /-- DMA_REQUEST_WITHDRAW (R382). A peripheral withdraws its DMA request, so the channel waits for the request and any burst still running counts as run after a withdrawal. -/
  | dmaRequestWithdraw (r : Fin 32)
  /-- CONFIG_SCRUB_PASS (R341). The fabric scrubber completes a pass over all 2,048 frames, so PASS_CNT increments and LASTPASS is updated. -/
  | configScrubPass (ms : Byte)
  /-- SRAM_SCRUB_PASS (R368). The SRAM scrubber completes a pass over all 2 MiB and MESH_CORRCNT.LASTPASS is updated. -/
  | sramScrubPass (ms : BitVec 16)
  /-- G_PARTITION_SIGNAL (R346). A G-partition signal changes, driving its THL_GIN bit or asserting or latching the PLIC source 176 to 255 that the port map assigns to it. -/
  | gPartitionSignal (g : GSignal)
  /-- WEAR_LEVELLING_MOVE (R33). The Sinter journal controller starts or completes a wear-levelling move, recorded in its journal entry. -/
  | wearLevellingMove
  /-- LOAD_ILIM_EXIT (R317). A channel's current falls below its limit, ILIM clears, and the LSENSE start-up fault level of R323 ends. -/
  | loadIlimExit (n : Fin 10)
  /-- RAILS_UP (R165). VCOM reaches 90 % of its target at the end of the rail sequence, RAILS_UP is set and the first frame of the pending updates may start. -/
  | railsUp
  deriving DecidableEq, Repr

end Sys2Proof
end

