-- ==== Sys2Proof/Decode.lean ====
section
/-! DEFINITION. The commands that table words spell. -/

namespace Sys2Proof

/-- The command that a word spells by the table's bits. No row of the table of operations and events gives bits: a command
comes with its operands, not as a word. -/
def decodeTableWord (_nbits _w : Nat) : Option Instr := none

end Sys2Proof
end

