-- ==== Sys2Proof/Config.lean ====
section
/-! DEFINITION. What production or an implementation fixes and the spec does not state, and the free values: every
constant here is opaque, so no proof can use a value of it. -/

namespace Sys2Proof

/-- A fresh random number of the device's generator: the n-th draw (R202, R386, R391). -/
opaque Config.random : Nat → Nat

/-- A free value: the n-th value that the spec leaves open. -/
opaque Config.freeWord : Nat → BitVec 32

/-- A free number that depends on a place and on the draw: results whose computation the spec does not state. -/
opaque Config.freeAt : Nat → Nat → BitVec 32

/-- A free byte of the n-th draw at an offset. -/
opaque Config.freeByte : Nat → Nat → BitVec 8

/-- The address of a peripheral's FIFO, by the request that fixes it (R371). -/
opaque Config.fifoAddr : Nat → BitVec 32

/-- The resampler's coefficient hr[phase][t] of R88, in units of 2^−17: its ROM values are not in the spec. -/
opaque Config.resampCoef : Nat → Nat → BitVec 18

/-- The temperature in 1/16 °C that a converter value of a source stands for, referred to the input at ×1: IEC 60751 for a
PT1000 input, whose excitation the spec does not give, and the junction sensor's own law (R83). -/
opaque Config.tempOf : Nat → Int → BitVec 24

/-- Words of the ROM that hold no value stated in the spec, by address. -/
opaque Config.romWord : Nat → BitVec 32

/-- The metrology signing key on P-256 and on P-384 (R138), fixed at production. -/
opaque Config.metKey256 : Nat
opaque Config.metKey384 : Nat

/-- The device identity key DIK of R386. -/
opaque Config.dik : Nat

/-- The transport keys UTK, TTK and LTK of R386, by generation: the first is made at production, and the device makes new
ones at the start after each zeroisation (R389). -/
opaque Config.utk : Nat → Nat
opaque Config.ttk : Nat → Nat
opaque Config.ltk : Nat → Nat

/-- The DER forms of the key certificate: the signed part from the public keys and the device serial, and the certificate
from that part and DIK's signature; and DIK's own certificate (R386). The spec gives no fields. -/
opaque Config.certBody : List (List (BitVec 8)) → List (BitVec 8) → List (BitVec 8)
opaque Config.certDer : List (BitVec 8) → List (BitVec 8) → List (BitVec 8)
opaque Config.dikCert : List (BitVec 8)

/-- KW, the AES-256 key that wraps what Sinter keeps of CEKs and host keys, and that never leaves SEC (R386). -/
opaque Config.kw : BitVec 256

/-- VP_LCFG of a port as the image with an IMAGE_ID gives it: no section of R334 is stated to carry it (R201). -/
opaque Config.linkCfg : Nat → Nat → BitVec 32

/-- What a port map assigns, from its section, whose form is not in the spec: the code of the G partition that owns a ball (0
to 31 MB0 to MB31, 32 to 39 PLS0 to PLS7, 40 to 47 GP0 to GP7) or drives a bit of THL_GIN, and any other number for none
(R330, R346). -/
opaque Config.portBall : List (BitVec 8) → Nat → Nat
opaque Config.portGin : List (BitVec 8) → Nat → Nat

/-- Whether the G partition that a port map gives a ball drives it, rather than takes it as an input (R330). -/
opaque Config.portDrives : List (BitVec 8) → Nat → Bool

/-- The partition that a port map assigns to PLIC source 176 + n, and whether as a rising edge (R346). -/
opaque Config.portSource : List (BitVec 8) → Nat → Nat × Bool

/-- The value of a boundary output after the restart of a partition with a frame image: bit of THL_GIN, 32 + user source,
112 + ball (R344). -/
opaque Config.initBit : List (BitVec 8) → Nat → Bool

/-- The place of a cluster address among the fabric's 2,048 clusters, in the order of R329's table, any other number where no
cluster lies there: the spec gives no addresses. -/
opaque Config.clusterIndex : Nat → Nat

/-- Whether a frame of SP belongs to copy B (R332): the bit-level format is not in the spec. -/
opaque Config.frameCopyB : List (BitVec 8) → Bool

/-- The cells of its cluster that a frame configures, which R329 bounds by 64: the bit-level format is not in the spec. -/
opaque Config.cellsUsed : List (BitVec 8) → Nat

/-- Whether a patch's port map changes only assignments that involve the partitions the patch carries (R334), from their
codes, the section in force and the patch's. -/
opaque Config.portMapOk : List Nat → List (BitVec 8) → List (BitVec 8) → Bool

/-- The kernel's ROM checksum that the legal display shows (R2). -/
opaque Config.kernelSum : BitVec 32

/-- The drive code of a frame table (08_legal_display.md): mode, band, frame, old level, new level. The tables lie in their
area of the NOR flash, whose layout is not in the spec. -/
opaque Config.waveCode : Nat → Nat → Nat → Nat → Nat → BitVec 2

/-- The grey level of a pixel of a legal region that shows a content: the spec gives the lines and not their drawing. -/
opaque Config.legalPixel : List Nat → Nat → Nat → Nat

/-- The Sinter read window's content where the spec gives no layout (R8, R426), by address. -/
opaque Config.sinterByte : Nat → BitVec 8

/-- The trimmed pull-up RPU of each port in 0.1 Ω (R199), a factory value. -/
opaque Config.rpu : Nat → BitVec 16

/-- The two bridge channels of a segment, from its positive and its negative bus to PE (R227): the site image fixes them,
and no register field of the spec names them. -/
opaque Config.bridge : Nat → Bool → Fin 32

/-- The MAC address of a port's link (R216): no register holds it. -/
opaque Config.portMac : Nat → BitVec 48

/-- Whether host firmware has enabled a multicast group on a port's link, by port, draw and address: R216 speaks of it and
no register enables one. -/
opaque Config.portGroup : Nat → Nat → BitVec 48 → Bool

/-- The voltage on the supply side of an AC outlet's contactor, by port and safety tick: no channel measures it, and R263
takes it from there (R225). -/
opaque Config.acVolt : Nat → Nat → Rat

/-- The OUI of the XR_CAP messages (R209). -/
opaque Config.oui : BitVec 24

/-- The MAGIC of a settings copy (R408): the spec gives no value. -/
opaque Config.setMagic : BitVec 32

/-- TIME_EVLBASE: the Sinter window address of entry 0, fixed in the device (R426). -/
opaque Config.evlBase : BitVec 32

end Sys2Proof
end

