-- ==== Sys2Proof/Machine/Bits.lean ====
section
/-! DEFINITION. Bit fields, byte strings, rounding and saturation: the plain functions that every chapter uses. -/

namespace Sys2Proof.Machine

/-- Field [hi:lo] of a number read as bits. -/
def bitsOf (w hi lo : Nat) : Nat := (w >>> lo) % 2 ^ (hi + 1 - lo)

/-- Field [hi:lo] of a register word. -/
def field (w : Word) (hi lo : Nat) : Nat := bitsOf w.toNat hi lo

/-- Bit n of a register word. -/
def bitAt (w : Word) (n : Nat) : Bool := w.getLsbD n

/-- A Bool as a register bit. -/
def b2n (b : Bool) : Nat := if b then 1 else 0

/-- A number as a register word, modulo 2^32. -/
def wd (n : Nat) : Word := BitVec.ofNat 32 n

/-- A signed number as a register word, in two's complement. -/
def wdI (n : Int) : Word := BitVec.ofInt 32 n

/-- A field value placed at bit lo. -/
def at_ (v lo : Nat) : Nat := v * 2 ^ lo

/-- The two's-complement value of an n-bit field. -/
def signedOf (n v : Nat) : Int := if v % 2 ^ n < 2 ^ (n - 1) then (v % 2 ^ n : Nat) else ((v % 2 ^ n : Nat) : Int) - 2 ^ n

/-- Saturation to a signed n-bit range, as sat16, sat24, sat26 and sat48 of chapters 04 and 05. -/
def satS (n : Nat) (x : Int) : Int :=
  if x < -(2 ^ (n - 1)) then -(2 ^ (n - 1)) else if 2 ^ (n - 1) ≤ x then 2 ^ (n - 1) - 1 else x

/-- round_half_up(x, n) of chapters 05, 06 and 20: x / n rounded to the nearest integer, halves up. -/
def roundHalfUp (x : Int) (n : Nat) : Int := (2 * x + n) / (2 * n)

/-- A value clamped to a range, for the fields whose values outside are clamped to the nearer end. -/
def clamp (lo hi x : Nat) : Nat := if x < lo then lo else if hi < x then hi else x

/-- A statistics counter of R422: it sticks at 2^n − 1. -/
def satInc {n : Nat} (x : BitVec n) : BitVec n := if x = BitVec.allOnes n then x else x + 1

/-- Whether a statistics counter stands at its limit, which is its CNT_SAT flag (R422). -/
def atLimit {n : Nat} (x : BitVec n) : Bool := x == BitVec.allOnes n

/-- Serial-number comparison of R423: whether b is newer than a, for n-bit sequence numbers. -/
def newer (n a b : Nat) : Bool :=
  let d := (b + 2 ^ n - a % 2 ^ n) % 2 ^ n
  0 < d && d < 2 ^ (n - 1)

/-- One entry of a fixed-length vector replaced through a function. -/
def vmod {α : Type} {n : Nat} (v : Vector α n) (i : Fin n) (f : α → α) : Vector α n := v.set i (f v[i])

/-- Every index below n, in order. -/
def fins (n : Nat) : List (Fin n) := List.finRange n

/-- Apply a state change for every index of a list, in order. -/
def forAll {α σ : Type} (l : List α) (f : σ → α → σ) (s : σ) : σ := l.foldl f s

/-- n least significant bytes of a number, low byte first. -/
def leBytes : Nat → Nat → List Byte
  | 0, _ => []
  | n + 1, v => BitVec.ofNat 8 v :: leBytes n (v / 256)

/-- n least significant bytes of a number, high byte first. -/
def beBytes (n v : Nat) : List Byte := (leBytes n v).reverse

/-- The number that bytes spell, low byte first. -/
def leNat : List Byte → Nat
  | [] => 0
  | b :: r => b.toNat + 256 * leNat r

/-- The number that bytes spell, high byte first. -/
def beNat (l : List Byte) : Nat := leNat l.reverse

/-- The bytes of words, each low byte first. -/
def wordsBytes : List Word → List Byte
  | [] => []
  | w :: r => leBytes 4 w.toNat ++ wordsBytes r

/-- n bytes of a list from an offset; bytes beyond its end read zero. -/
def slice (l : List Byte) (off n : Nat) : List Byte :=
  let t := (l.drop off).take n
  t ++ List.replicate (n - t.length) 0

/-- The little-endian number at an offset of a byte list. -/
def leAt (l : List Byte) (off n : Nat) : Nat := leNat (slice l off n)

/-- A byte list cut or zero-filled to n bytes. -/
def fit (n : Nat) (l : List Byte) : List Byte := slice l 0 n

/-- One byte's eight steps of the Ethernet CRC-32, polynomial 0x04C11DB7 in reflected form 0xEDB88320. -/
def fcsBits : Nat → Nat → Nat
  | 0, c => c
  | n + 1, c => fcsBits n (if c % 2 = 1 then (c / 2) ^^^ 0xEDB88320 else c / 2)

/-- A frame as the MAC sends it: padded to 64 bytes with its FCS, which goes low byte first (R438). PRESUMED: the FCS is
that of IEEE 802.3, and the padding is of zeros. -/
def ethLine (f : List Byte) : List Byte :=
  let p := f ++ List.replicate (60 - f.length) 0
  p ++ leBytes 4 ((p.foldl (fun c b => fcsBits 8 (c ^^^ b.toNat)) 0xFFFFFFFF) ^^^ 0xFFFFFFFF)

/-- One byte's eight steps of CRC-32C, polynomial 0x1EDC6F41 in reflected form 0x82F63B78. -/
def crcBits : Nat → Nat → Nat
  | 0, c => c
  | n + 1, c => crcBits n (if c % 2 = 1 then (c / 2) ^^^ 0x82F63B78 else c / 2)

/-- CRC-32C over bytes: initial value and final complement all ones. -/
def crc32c (l : List Byte) : Nat :=
  (l.foldl (fun c b => crcBits 8 (c ^^^ b.toNat)) 0xFFFFFFFF) ^^^ 0xFFFFFFFF

/-- Newton's steps toward the integer square root. -/
def isqrtGo : Nat → Nat → Nat → Nat
  | 0, _, x => x
  | f + 1, n, x => let y := (x + n / x) / 2; if y < x then isqrtGo f n y else x

/-- floor of the square root. -/
def isqrt (n : Nat) : Nat := if n = 0 then 0 else isqrtGo (2 * Nat.log2 n + 8) n (2 ^ (Nat.log2 n / 2 + 1))

/-- A lookup in a list of key and value pairs. -/
def lookupD {κ α : Type} [BEq κ] (k : κ) (d : α) : List (κ × α) → α
  | [] => d
  | (a, v) :: r => if a == k then v else lookupD k d r

/-- A write into a list of numbered words kept strictly rising. -/
def bankSet (a : Nat) (w : Word) : List (Nat × Word) → List (Nat × Word)
  | [] => [(a, w)]
  | (b, v) :: r => if a < b then (a, w) :: (b, v) :: r else if a = b then (a, w) :: r else (b, v) :: bankSet a w r

/-- Several writes into a list of numbered words. -/
def bankMerge (b new : List (Nat × Word)) : List (Nat × Word) := new.foldl (fun acc p => bankSet p.1 p.2 acc) b

/-- floor of a quotient by zero reads zero, as Lean's division has it; named so that a reader sees the case. -/
def divZ (a b : Nat) : Nat := a / b

/-- Count of set bits of a vector. -/
def popCount {n : Nat} (x : BitVec n) : Nat := (List.range n).countP (fun i => x.getLsbD i)

/-- Saturating addition to a statistics counter. -/
def satAdd {n : Nat} (x : BitVec n) (k : Nat) : BitVec n :=
  if 2 ^ n - 1 ≤ x.toNat + k then BitVec.allOnes n else x + BitVec.ofNat n k

end Sys2Proof.Machine
end

