-- ==== Sys2Proof/Machine/RegMap.lean ====
section
/-! DEFINITION. The register map as a table (R428, R429 and the register tables of the chapters): which words each block
holds, and which bits of a word are of which access code (R6). -/

namespace Sys2Proof.Machine

/-- The kinds of block of R429. -/
inductive BlkKind where
  | sys | time | dma | txn | sec | upd | thl | eth | can | load | gpio | mesh | intc | vp | met | bill | disp | safe
  deriving DecidableEq, Repr

/-- One word, or one family of words, of a block: its offset, the counts and strides of its indices, and the masks of its
fields: RWT; of the block's parameter set in the site image (R492); RW; W1C; and WO or W1S. Every other bit is RO, ROS or
reserved. -/
structure RegRow where
  off : Nat
  dims : List (Nat × Nat)
  rwt : Nat
  set : Nat
  rw : Nat
  w1c : Nat
  act : Nat

/-- SYS: the words with bits that a write can reach. -/
def rowsSys : List RegRow :=
  [⟨0x4, [], 0x0, 0x0, 0x0, 0x0, 0xFFFF⟩,  -- COMPAT
   ⟨0x14, [], 0x0, 0x0, 0x0, 0x1FFF, 0x0⟩,  -- SYS_RSTCAUSE
   ⟨0x20, [], 0x0, 0x0, 0x8FFF3FFF, 0x0, 0x0⟩,  -- SYS_DEGCFG
   ⟨0x24, [], 0x0, 0x0, 0x0, 0x0, 0xFFFFFFFF⟩,  -- SYS_WDKICK
   ⟨0x30, [], 0x0, 0x0, 0x7, 0x0, 0x0⟩,  -- SYS_VCORE
   ⟨0x34, [], 0x0, 0x0, 0x33F, 0x0, 0x0⟩,  -- SYS_PFWCFG
   ⟨0x38, [], 0x0, 0x0, 0x3FFF, 0x0, 0x0⟩,  -- SYS_HOLDCFG
   ⟨0x3C, [], 0x0, 0x0, 0x0, 0x38, 0x0⟩,  -- SYS_SUPSTAT
   ⟨0x40, [], 0x0, 0x0, 0x3FFF, 0x0, 0x0⟩  -- SYS_BUDGET
  ]

/-- SYS: runs of words that are read-only throughout, as first offset and count. -/
def roRunsSys : List (Nat × Nat) :=
  [(0x0, 1), (0x10, 1), (0x60, 2)]

/-- TIME: the words with bits that a write can reach. -/
def rowsTime : List RegRow :=
  [⟨0x4, [], 0x0, 0x0, 0x0, 0x0, 0xFFFF⟩,  -- COMPAT
   ⟨0x30, [], 0x0, 0x0, 0x0, 0x20000000, 0x0⟩,  -- TIME_STAT
   ⟨0x4C, [], 0x0, 0x0, 0x0, 0x0, 0x80000000⟩  -- TIME_EVLDROP
  ]

/-- TIME: runs of words that are read-only throughout, as first offset and count. -/
def roRunsTime : List (Nat × Nat) :=
  [(0x0, 1), (0x10, 3), (0x20, 4), (0x34, 2), (0x40, 3)]

/-- DMA: the words with bits that a write can reach. -/
def rowsDma : List RegRow :=
  [⟨0x4, [], 0x0, 0x0, 0x0, 0x0, 0xFFFF⟩,  -- COMPAT
   ⟨0x10, [], 0x0, 0x0, 0x3FF0000, 0x0, 0x80000000⟩,  -- DMA_CTL
   ⟨0x1C, [], 0x0, 0x0, 0x0, 0xFFFFFFFF, 0x0⟩,  -- DMA_EVT
   ⟨0x100, [(32, 0x40)], 0x0, 0x0, 0x831F0000, 0x10000000, 0x60000000⟩,  -- DMA_CHCFG
   ⟨0x104, [(32, 0x40)], 0x0, 0x0, 0xFFFFFFE0, 0x0, 0x0⟩,  -- DMA_CHRING
   ⟨0x108, [(32, 0x40)], 0x0, 0x0, 0x1FFF, 0x0, 0x0⟩,  -- DMA_CHRLEN
   ⟨0x10C, [(32, 0x40)], 0x0, 0x0, 0xFFF, 0x0, 0x0⟩,  -- DMA_CHHEAD
   ⟨0x110, [(32, 0x40)], 0x0, 0x0, 0x0, 0x0, 0x0⟩,  -- DMA_CHSTAT
   ⟨0x114, [(32, 0x40)], 0x0, 0x0, 0x0, 0x0, 0x0⟩,  -- DMA_CHDONE
   ⟨0x118, [(32, 0x40)], 0x0, 0x0, 0x0, 0x0, 0x0⟩,  -- DMA_CHCNT
   ⟨0x11C, [(32, 0x40)], 0x0, 0x0, 0x0, 0x0, 0x0⟩  -- DMA_CHDESC
  ]

/-- DMA: runs of words that are read-only throughout, as first offset and count. -/
def roRunsDma : List (Nat × Nat) :=
  [(0x0, 1), (0x14, 2)]

/-- TXN: the words with bits that a write can reach. -/
def rowsTxn : List RegRow :=
  [⟨0x4, [], 0x0, 0x0, 0x0, 0x0, 0xFFFF⟩,  -- COMPAT
   ⟨0x28, [], 0x0, 0x0, 0x0, 0x0, 0x80000000⟩,  -- TXN_CTL
   ⟨0x100, [], 0x0, 0x0, 0xFFFFFFFF, 0x0, 0x0⟩,  -- MBX_CMD
   ⟨0x110, [(16, 0x4)], 0x0, 0x0, 0xFFFFFFFF, 0x0, 0x0⟩,  -- MBX_ARG
   ⟨0x180, [], 0x0, 0x0, 0x0, 0x20000000, 0x0⟩,  -- MBX_STS
   ⟨0x1F0, [], 0x0, 0x0, 0x0, 0x0, 0x1⟩,  -- MBX_RING
   ⟨0x200, [(6, 0x10)], 0x0, 0x0, 0x0, 0x18000000, 0x0⟩  -- TXN_DSTAT
  ]

/-- TXN: runs of words that are read-only throughout, as first offset and count. -/
def roRunsTxn : List (Nat × Nat) :=
  [(0x0, 1), (0x10, 1), (0x20, 2), (0x190, 16), (0x204, 3), (0x214, 3), (0x224, 3), (0x234, 3), (0x244, 3),
   (0x254, 3)]

/-- SEC: the words with bits that a write can reach. -/
def rowsSec : List RegRow :=
  [⟨0x4, [], 0x0, 0x0, 0x0, 0x0, 0xFFFF⟩,  -- COMPAT
   ⟨0x10, [], 0x0, 0x0, 0x0, 0x90000000, 0x0⟩,  -- SEC_STAT
   ⟨0x20, [], 0x0, 0x0, 0x0, 0x0, 0xFFFFFFFF⟩,  -- SEC_OP
   ⟨0x24, [], 0x0, 0x0, 0xFFFFFFFF, 0x0, 0x0⟩,  -- SEC_SRC
   ⟨0x28, [], 0x0, 0x0, 0xFFFFFFFF, 0x0, 0x0⟩,  -- SEC_DST
   ⟨0x2C, [], 0x0, 0x0, 0xFFFFFFFF, 0x0, 0x0⟩  -- SEC_AUX
  ]

/-- SEC: runs of words that are read-only throughout, as first offset and count. -/
def roRunsSec : List (Nat × Nat) :=
  [(0x0, 1), (0x30, 1), (0x100, 16), (0x1000, 512)]

/-- UPD: the words with bits that a write can reach. -/
def rowsUpd : List RegRow :=
  [⟨0x4, [], 0x0, 0x0, 0x0, 0x0, 0xFFFF⟩,  -- COMPAT
   ⟨0x18, [], 0x0, 0x0, 0xFF, 0x0, 0x0⟩,  -- UPD_CONFCFG
   ⟨0x38, [], 0x0, 0x0, 0x0, 0x3, 0x80000000⟩,  -- UPD_EVT
   ⟨0x100, [], 0x0, 0x0, 0xFFFFFFFF, 0x0, 0x0⟩,  -- MBX_CMD
   ⟨0x110, [(16, 0x4)], 0x0, 0x0, 0xFFFFFFFF, 0x0, 0x0⟩,  -- MBX_ARG
   ⟨0x180, [], 0x0, 0x0, 0x0, 0x20000000, 0x0⟩,  -- MBX_STS
   ⟨0x1F0, [], 0x0, 0x0, 0x0, 0x0, 0x1⟩,  -- MBX_RING
   ⟨0x3C00, [(32, 0x4)], 0x0, 0x0, 0xFFFFFFFF, 0x0, 0x0⟩  -- UPD_MBXIN
  ]

/-- UPD: runs of words that are read-only throughout, as first offset and count. -/
def roRunsUpd : List (Nat × Nat) :=
  [(0x0, 1), (0x10, 2), (0x1C, 7), (0x190, 16), (0x3000, 64)]

/-- THL: the words with bits that a write can reach. -/
def rowsThl : List RegRow :=
  [⟨0x4, [], 0x0, 0x0, 0x0, 0x0, 0xFFFF⟩,  -- COMPAT
   ⟨0x40, [], 0x0, 0x0, 0x100, 0x0, 0x7⟩,  -- THL_SLOTCTL
   ⟨0x44, [], 0x0, 0x0, 0xFFFFFFFF, 0x0, 0x0⟩,  -- THL_PROGSRC
   ⟨0x48, [], 0x0, 0x0, 0x7FFFFF, 0x0, 0x0⟩,  -- THL_PROGLEN
   ⟨0x4C, [], 0x0, 0x0, 0x3FFFFF, 0x0, 0x0⟩,  -- THL_PROGOFS
   ⟨0x60, [], 0x0, 0x0, 0x0, 0x0, 0x3⟩,  -- THL_PRCTL
   ⟨0x64, [], 0x0, 0x0, 0xFFFFFFFF, 0x0, 0x0⟩,  -- THL_PRSRC
   ⟨0x68, [], 0x0, 0x0, 0x7FFFF, 0x0, 0x0⟩,  -- THL_PRLEN
   ⟨0x88, [], 0x0, 0x0, 0x0, 0xFFFFFF03, 0x0⟩,  -- THL_EVT
   ⟨0x8C, [], 0x0, 0x0, 0x0, 0x0, 0x80000000⟩,  -- THL_CTL
   ⟨0x200, [], 0x0, 0x0, 0xFFFFFFFF, 0x0, 0x0⟩  -- THL_GOUT
  ]

/-- THL: runs of words that are read-only throughout, as first offset and count. -/
def roRunsThl : List (Nat × Nat) :=
  [(0x0, 1), (0x10, 3), (0x20, 8), (0x80, 2), (0x100, 32), (0x204, 1)]

/-- ETH: the words with bits that a write can reach. -/
def rowsEth : List RegRow :=
  [⟨0x4, [], 0x0, 0x0, 0x0, 0x0, 0xFFFF⟩,  -- COMPAT
   ⟨0x10, [], 0x0, 0x0, 0xE0000000, 0x0, 0x0⟩,  -- ETH_CTL
   ⟨0x14, [], 0x0, 0x0, 0xFFFFFFFF, 0x0, 0x0⟩,  -- ETH_MACLO
   ⟨0x18, [], 0x0, 0x0, 0xFFFF, 0x0, 0x0⟩,  -- ETH_MACHI
   ⟨0x20, [(8, 0x8)], 0x0, 0x0, 0xFFFFFFFF, 0x0, 0x0⟩,  -- ETH_MCF_LO
   ⟨0x24, [(8, 0x8)], 0x0, 0x0, 0x8000FFFF, 0x0, 0x0⟩,  -- ETH_MCF_HI
   ⟨0x74, [], 0x0, 0x0, 0x0, 0x7, 0x80000000⟩  -- ETH_EVT
  ]

/-- ETH: runs of words that are read-only throughout, as first offset and count. -/
def roRunsEth : List (Nat × Nat) :=
  [(0x0, 1), (0x60, 5)]

/-- CAN: the words with bits that a write can reach. -/
def rowsCan : List RegRow :=
  [⟨0x4, [], 0x0, 0x0, 0x0, 0x0, 0xFFFF⟩,  -- COMPAT
   ⟨0x10, [], 0x0, 0x0, 0xD000FFFF, 0x0, 0x20000000⟩,  -- CAN_CTL
   ⟨0x14, [], 0x0, 0x0, 0xFFFFFFFC, 0x0, 0x0⟩,  -- CAN_NBT
   ⟨0x18, [], 0x0, 0x0, 0xFFFFF8FF, 0x0, 0x0⟩,  -- CAN_DBT
   ⟨0x1C, [], 0x0, 0x0, 0x0, 0x20000000, 0x0⟩,  -- CAN_STAT
   ⟨0x20, [], 0x0, 0x0, 0xF, 0x0, 0xC0000000⟩,  -- CAN_SFCMD
   ⟨0x34, [], 0x0, 0x0, 0x0, 0x0, 0x80000000⟩,  -- CAN_EVT
   ⟨0x100, [(20, 0x4)], 0x0, 0x0, 0xFFFFFFFF, 0x0, 0x0⟩  -- CAN_SFBUF
  ]

/-- CAN: runs of words that are read-only throughout, as first offset and count. -/
def roRunsCan : List (Nat × Nat) :=
  [(0x0, 1), (0x24, 4)]

/-- LOAD: the words with bits that a write can reach. -/
def rowsLoad : List RegRow :=
  [⟨0x4, [], 0x0, 0x0, 0x0, 0x0, 0xFFFF⟩,  -- COMPAT
   ⟨0x14, [], 0x0, 0x0, 0xF, 0x0, 0x80000000⟩,  -- LOAD_SENSESEL
   ⟨0x18, [], 0x0, 0x0, 0x0, 0x0, 0x80000000⟩,  -- LOAD_CTL
   ⟨0x20, [(2, 0x4)], 0x0, 0x801FFFFF, 0x801FFFFF, 0x0, 0x0⟩,  -- LOAD_PG
   ⟨0x30, [], 0x0, 0x0, 0x3FF03FF, 0x0, 0x80000000⟩,  -- LOAD_WDCFG
   ⟨0x34, [], 0x0, 0x0, 0x0, 0x0, 0xFFFF⟩,  -- LOAD_WDSVC
   ⟨0x3C, [], 0x0, 0x0, 0x0, 0x0, 0x80000000⟩,  -- LOAD_WDSTAT
   ⟨0x100, [(10, 0x20)], 0x0, 0xE000F000, 0x1FFFFFC0, 0x0, 0x0⟩,  -- LOAD_CHCFG
   ⟨0x104, [(10, 0x20)], 0x0, 0xFF000000, 0xFF03FF, 0x0, 0x0⟩,  -- LOAD_CHPWM
   ⟨0x108, [(10, 0x20)], 0x0, 0x0, 0x3, 0x0, 0x80000000⟩,  -- LOAD_CHCTL
   ⟨0x10C, [(10, 0x20)], 0x0, 0x0, 0x0, 0x200000, 0x0⟩,  -- LOAD_CHSTAT
   ⟨0x114, [(10, 0x20)], 0x0, 0x0, 0x0, 0xF, 0x0⟩  -- LOAD_CHEVT
  ]

/-- LOAD: runs of words that are read-only throughout, as first offset and count. -/
def roRunsLoad : List (Nat × Nat) :=
  [(0x0, 1), (0x10, 1), (0x38, 1), (0x110, 1), (0x130, 1), (0x150, 1), (0x170, 1), (0x190, 1), (0x1B0, 1),
   (0x1D0, 1), (0x1F0, 1), (0x210, 1), (0x230, 1)]

/-- GPIO: the words with bits that a write can reach. -/
def rowsGpio : List RegRow :=
  [⟨0x4, [], 0x0, 0x0, 0x0, 0x0, 0xFFFF⟩,  -- COMPAT
   ⟨0x14, [(2, 0x4)], 0x0, 0x0, 0xFF, 0x0, 0x0⟩,  -- GPIO_DIR GPIO_OUT
   ⟨0x20, [], 0x0, 0x0, 0xFFFF, 0x0, 0x0⟩,  -- GPIO_IRQCFG
   ⟨0x24, [], 0x0, 0x0, 0x0, 0xFF, 0x0⟩,  -- GPIO_EVT
   ⟨0x40, [], 0x0, 0x0, 0x0, 0x10000000, 0x0⟩  -- KEY_STAT
  ]

/-- GPIO: runs of words that are read-only throughout, as first offset and count. -/
def roRunsGpio : List (Nat × Nat) :=
  [(0x0, 1), (0x10, 1), (0x1C, 1), (0x28, 1), (0x44, 1)]

/-- MESH: the words with bits that a write can reach. -/
def rowsMesh : List RegRow :=
  [⟨0x4, [], 0x0, 0x0, 0x0, 0x0, 0xFFFF⟩,  -- COMPAT
   ⟨0x24, [], 0x0, 0x0, 0x0, 0xF, 0x80000000⟩  -- MESH_EVT
  ]

/-- MESH: runs of words that are read-only throughout, as first offset and count. -/
def roRunsMesh : List (Nat × Nat) :=
  [(0x0, 1), (0x10, 5)]

/-- INTC: the words with bits that a write can reach. -/
def rowsIntc : List RegRow :=
  [⟨0x4, [], 0x0, 0x0, 0x0, 0x0, 0xFFFF⟩,  -- COMPAT
   ⟨0x400, [(256, 0x4)], 0x0, 0x0, 0x7, 0x0, 0x0⟩,  -- INTC_PRIORITY
   ⟨0x1000, [(8, 0x80), (8, 0x4)], 0x0, 0x0, 0xFFFFFFFF, 0x0, 0x0⟩,  -- INTC_ENABLE
   ⟨0x2000, [(8, 0x10)], 0x0, 0x0, 0x7, 0x0, 0x0⟩,  -- INTC_THRESHOLD
   ⟨0x2004, [(8, 0x10)], 0x0, 0x0, 0x0, 0x0, 0xFFFFFFFF⟩  -- INTC_CLAIM
  ]

/-- INTC: runs of words that are read-only throughout, as first offset and count. -/
def roRunsIntc : List (Nat × Nat) :=
  [(0x0, 1), (0x800, 8)]

/-- VP: the words with bits that a write can reach. -/
def rowsVp : List RegRow :=
  [⟨0x4, [], 0x0, 0x0, 0x0, 0x0, 0xFFFF⟩,  -- COMPAT
   ⟨0x10, [], 0x0, 0x0, 0x7FF0003, 0x0, 0x0⟩,  -- VP_CPCTL
   ⟨0x14, [], 0x0, 0xFF0F1F, 0x0, 0x0, 0x0⟩,  -- VP_CPTIM
   ⟨0x18, [], 0x0, 0xFFFFFFFF, 0x0, 0x0, 0x0⟩,  -- VP_CPTH1
   ⟨0x1C, [], 0x0, 0xFFFFFFFF, 0x0, 0x0, 0x0⟩,  -- VP_CPTH2
   ⟨0x20, [], 0x0, 0xFFFFFFFF, 0x0, 0x0, 0x0⟩,  -- VP_CPTH3
   ⟨0x24, [], 0x0, 0xFFFFFFFF, 0x0, 0x0, 0x0⟩,  -- VP_CPTH4
   ⟨0x28, [], 0x0, 0xFFFFFFFF, 0x0, 0x0, 0x0⟩,  -- VP_CPCAL
   ⟨0x38, [], 0x0, 0xFFFFFFFF, 0x0, 0x0, 0x0⟩,  -- VP_PPWIN1
   ⟨0x3C, [], 0x0, 0xFFFFFFFF, 0x0, 0x0, 0x0⟩,  -- VP_PPWIN2
   ⟨0x40, [], 0x0, 0xFFFFFFFF, 0x0, 0x0, 0x0⟩,  -- VP_PPWIN3
   ⟨0x50, [], 0x0, 0x0, 0x0, 0x7F, 0x80000000⟩,  -- VP_PEVT
   ⟨0x100, [], 0x0, 0x0, 0x11F03FF, 0x0, 0x0⟩,  -- VP_LCFG
   ⟨0x104, [], 0x0, 0x0, 0xDF1F000F, 0x0, 0x0⟩,  -- VP_BLANK
   ⟨0x108, [], 0x0, 0x0, 0xFFFF07FF, 0x0, 0x0⟩,  -- VP_SWCOIL
   ⟨0x10C, [(3, 0x4)], 0x0, 0x0, 0xFFFFFFFF, 0x0, 0x0⟩,  -- VP_SWCAN
   ⟨0x118, [], 0x0, 0x0, 0xFF071F, 0x0, 0x0⟩,  -- VP_SLACCFG
   ⟨0x130, [], 0x0, 0x0, 0x801F03FF, 0x0, 0x0⟩,  -- VP_QCFG
   ⟨0x140, [], 0x0, 0x0, 0x0, 0x0, 0xC0707FF⟩,  -- VP_TXPUSH
   ⟨0x144, [], 0x0, 0x0, 0x0, 0xFF00FF, 0x0⟩,  -- VP_TXSTAT
   ⟨0x160, [], 0x0, 0x0, 0x0, 0x3FE, 0xC0000000⟩,  -- VP_LEVT
   ⟨0x180, [], 0x0, 0x0, 0x8F000000, 0x0, 0x7⟩,  -- VP_TLSCFG
   ⟨0x184, [], 0x0, 0x0, 0x8000001F, 0x0, 0x0⟩,  -- VP_TLSKEYSEL
   ⟨0x188, [], 0x0, 0x0, 0x0, 0x0, 0xFFFFFFFF⟩,  -- VP_TLSKEYDAT
   ⟨0x190, [], 0x0, 0x0, 0x0, 0x0, 0xFF807FFF⟩,  -- VP_TLSOP
   ⟨0x194, [], 0x0, 0x0, 0xFFFFFFFF, 0x0, 0x0⟩,  -- VP_TLSSRC
   ⟨0x198, [], 0x0, 0x0, 0xFFFFFFFF, 0x0, 0x0⟩,  -- VP_TLSDST
   ⟨0x8000, [(4096, 0x4)], 0x0, 0x0, 0xFFFFFFFF, 0x0, 0x0⟩  -- the transmit buffer
  ]

/-- VP: runs of words that are read-only throughout, as first offset and count. -/
def roRunsVp : List (Nat × Nat) :=
  [(0x0, 1), (0x2C, 3), (0x44, 3), (0x120, 2), (0x150, 4), (0x19C, 1)]

/-- MET: the words with bits that a write can reach. -/
def rowsMet : List RegRow :=
  [⟨0x4, [], 0x0, 0x0, 0x0, 0x0, 0xFFFF⟩,  -- COMPAT
   ⟨0x10, [], 0x3FF03FF0, 0x3FF03FF0, 0x0, 0x0, 0x0⟩,  -- MET_MCLKCFG
   ⟨0x20, [], 0x8000001F, 0x8000001F, 0x0, 0x0, 0x0⟩,  -- MET_RSMPCFG
   ⟨0x30, [], 0x8F000000, 0x8F000000, 0x0, 0x0, 0x0⟩,  -- MET_BALCFG
   ⟨0x34, [], 0xFFFFFFFF, 0xFFFFFFFF, 0x0, 0x0, 0x0⟩,  -- MET_BALLOSS
   ⟨0x38, [], 0xFFFF00FF, 0xFFFF00FF, 0x0, 0x0, 0x0⟩,  -- MET_BALTOL
   ⟨0x100, [], 0x0, 0x0, 0xFFFFFFFF, 0x0, 0x0⟩,  -- MBX_CMD
   ⟨0x110, [(16, 0x4)], 0x0, 0x0, 0xFFFFFFFF, 0x0, 0x0⟩,  -- MBX_ARG
   ⟨0x180, [], 0x0, 0x0, 0x0, 0x20000000, 0x0⟩,  -- MBX_STS
   ⟨0x1F0, [], 0x0, 0x0, 0x0, 0x0, 0x1⟩,  -- MBX_RING
   ⟨0x400, [(8, 0x10)], 0x9F1FF0FF, 0x9F1FF0FF, 0x0, 0x0, 0x0⟩,  -- MET_RPCFG
   ⟨0x404, [(8, 0x10)], 0x0, 0x0, 0x0, 0x0, 0x0⟩,  -- MET_RPSTAT
   ⟨0x408, [(8, 0x10)], 0x0, 0x0, 0x0, 0x0, 0x0⟩,  -- MET_RPDEV
   ⟨0x600, [(4, 0x40)], 0x8F000000, 0x8F000000, 0x0, 0x0, 0x0⟩,  -- MET_ADCFG
   ⟨0x604, [(4, 0x40)], 0x0, 0x0, 0x0, 0x0, 0x0⟩,  -- MET_ADSTAT
   ⟨0x610, [(4, 0x40), (8, 0x4)], 0xFFC0FFFF, 0xFFE0FFFF, 0x0, 0x0, 0x0⟩,  -- MET_ADSLOT
   ⟨0xA00, [(8, 0x10)], 0xFF003FFF, 0xFF003FFF, 0x0, 0x0, 0x0⟩,  -- MET_PLSCFG
   ⟨0xA04, [(8, 0x10)], 0xFFFFF, 0xFFFFF, 0x0, 0x0, 0x0⟩,  -- MET_PLSCONST
   ⟨0xA08, [(8, 0x10)], 0x0, 0x0, 0x0, 0x0, 0x0⟩,  -- MET_PLSSTAT
   ⟨0xA0C, [(8, 0x10)], 0x0, 0x0, 0x0, 0x0, 0x0⟩,  -- MET_PLSCNT
   ⟨0x1000, [(32, 0x20)], 0xFFFFFF00, 0xFFFFFFC0, 0x0, 0x0, 0x0⟩,  -- MET_CHCFG
   ⟨0x1004, [(32, 0x20)], 0xFFFFFF, 0xFFFFFF, 0x0, 0x0, 0x0⟩,  -- MET_CHOFS
   ⟨0x1008, [(32, 0x20)], 0xFFFFFF, 0xFFFFFF, 0x0, 0x0, 0x0⟩,  -- MET_CHGAIN
   ⟨0x100C, [(32, 0x20)], 0xF00FFFFF, 0xF00FFFFF, 0x0, 0x0, 0x0⟩,  -- MET_CHTC
   ⟨0x1010, [(32, 0x20)], 0xFFF, 0xFFF, 0x0, 0x0, 0x0⟩,  -- MET_CHTCAL
   ⟨0x1014, [(32, 0x20)], 0x0, 0x0, 0x0, 0x0, 0x0⟩,  -- MET_CHSTAT
   ⟨0x1018, [(32, 0x20)], 0x0, 0x0, 0x0, 0x0, 0x0⟩,  -- MET_CHCNT
   ⟨0x101C, [(32, 0x20)], 0x0, 0x0, 0x0, 0x0, 0x0⟩,  -- MET_CHVAL
   ⟨0x2000, [(12, 0x100)], 0xFF7FC000, 0xFF7FC000, 0x0, 0x0, 0x0⟩,  -- MET_MCFG
   ⟨0x2004, [(12, 0x100)], 0x3FFFFFFF, 0x3FFFFFFF, 0x0, 0x0, 0x0⟩,  -- MET_MCH
   ⟨0x2008, [(12, 0x100)], 0x8000001F, 0x8000001F, 0x0, 0x0, 0x0⟩,  -- MET_MCHN
   ⟨0x200C, [(12, 0x100)], 0xFFFFF, 0xFFFFF, 0x0, 0x0, 0x0⟩,  -- MET_MVFS
   ⟨0x2010, [(12, 0x100)], 0xFFFFFF, 0xFFFFFF, 0x0, 0x0, 0x0⟩,  -- MET_MIFS
   ⟨0x2014, [(12, 0x100)], 0xFFFFF, 0xFFFFF, 0x0, 0x0, 0x0⟩,  -- MET_MCABLE
   ⟨0x2018, [(12, 0x100)], 0xF1F, 0xF1F, 0x0, 0x0, 0x0⟩,  -- MET_MRGW
   ⟨0x201C, [(12, 0x100)], 0x0, 0x0, 0x0, 0x0, 0x0⟩,  -- MET_MKE
   ⟨0x2020, [(12, 0x100)], 0x0, 0x0, 0x0, 0x0, 0x0⟩,  -- MET_MKE
   ⟨0x2024, [(12, 0x100)], 0x0, 0x0, 0x0, 0x0, 0x0⟩,  -- MET_MKE
   ⟨0x2028, [(12, 0x100)], 0x0, 0x0, 0x0, 0x0, 0x0⟩,  -- MET_MKE
   ⟨0x202C, [(12, 0x100)], 0x0, 0x0, 0x0, 0x0, 0x0⟩,  -- MET_MSTAT
   ⟨0x2030, [(12, 0x100)], 0x0, 0x0, 0x0, 0x0, 0x0⟩,  -- MET_MPWR
   ⟨0x2034, [(12, 0x100)], 0x0, 0x0, 0x0, 0x0, 0x0⟩,  -- MET_MHELD
   ⟨0x2040, [(12, 0x100), (2, 0x8)], 0x0, 0x0, 0x0, 0x0, 0x0⟩,  -- MET_ELEG
   ⟨0x2044, [(12, 0x100), (2, 0x8)], 0x0, 0x0, 0x0, 0x0, 0x0⟩,  -- MET_ELEG
   ⟨0x2050, [(12, 0x100), (2, 0x8)], 0x0, 0x0, 0x0, 0x0, 0x0⟩,  -- MET_ESHORT
   ⟨0x2054, [(12, 0x100), (2, 0x8)], 0x0, 0x0, 0x0, 0x0, 0x0⟩,  -- MET_ESHORT
   ⟨0x2060, [(12, 0x100), (2, 0x8)], 0x0, 0x0, 0x0, 0x0, 0x0⟩,  -- MET_EDISP
   ⟨0x2064, [(12, 0x100), (2, 0x8)], 0x0, 0x0, 0x0, 0x0, 0x0⟩,  -- MET_EDISP
   ⟨0x3100, [(12, 0x20)], 0x0, 0x0, 0x0, 0x0, 0x0⟩,  -- MET_SNAPACC
   ⟨0x3104, [(12, 0x20)], 0x0, 0x0, 0x0, 0x0, 0x0⟩,  -- MET_SNAPACC
   ⟨0x3108, [(12, 0x20)], 0x0, 0x0, 0x0, 0x0, 0x0⟩,  -- MET_SNAPACC
   ⟨0x310C, [(12, 0x20)], 0x0, 0x0, 0x0, 0x0, 0x0⟩,  -- MET_SNAPACC
   ⟨0x3110, [(12, 0x20)], 0x0, 0x0, 0x0, 0x0, 0x0⟩,  -- MET_SNAPACC
   ⟨0x3114, [(12, 0x20)], 0x0, 0x0, 0x0, 0x0, 0x0⟩,  -- MET_SNAPACC
   ⟨0x3118, [(12, 0x20)], 0x0, 0x0, 0x0, 0x0, 0x0⟩,  -- MET_SNAPACC
   ⟨0x311C, [(12, 0x20)], 0x0, 0x0, 0x0, 0x0, 0x0⟩  -- MET_SNAPACC
  ]

/-- MET: runs of words that are read-only throughout, as first offset and count. -/
def roRunsMet : List (Nat × Nat) :=
  [(0x0, 1), (0x14, 2), (0x24, 2), (0x3C, 2), (0x50, 2), (0x190, 16), (0x200, 24), (0x800, 16), (0x3000, 4),
   (0x3400, 538), (0x8000, 1024)]

/-- BILL: the words with bits that a write can reach. -/
def rowsBill : List RegRow :=
  [⟨0x4, [], 0x0, 0x0, 0x0, 0x0, 0xFFFF⟩,  -- COMPAT
   ⟨0x10, [], 0xFFFFF800, 0xFFFFF800, 0x0, 0x0, 0x0⟩,  -- BILL_CFG
   ⟨0x14, [], 0xFFFFFFF, 0xFFFFFFF, 0x0, 0x0, 0x0⟩,  -- BILL_TIME
   ⟨0x30, [], 0x80FF0000, 0x80FF0000, 0x0, 0x0, 0x0⟩,  -- BILL_TOKCFG
   ⟨0x34, [], 0xFFFFFFFF, 0xFFFFFFFF, 0x0, 0x0, 0x0⟩,  -- BILL_TOKDOM
   ⟨0x100, [], 0x0, 0x0, 0xFFFFFFFF, 0x0, 0x0⟩,  -- MBX_CMD
   ⟨0x110, [(16, 0x4)], 0x0, 0x0, 0xFFFFFFFF, 0x0, 0x0⟩,  -- MBX_ARG
   ⟨0x180, [], 0x0, 0x0, 0x0, 0x20000000, 0x0⟩,  -- MBX_STS
   ⟨0x1F0, [], 0x0, 0x0, 0x0, 0x0, 0x1⟩,  -- MBX_RING
   ⟨0x200, [(12, 0x4)], 0xFFFFFFFF, 0xFFFFFFFF, 0x0, 0x0, 0x0⟩,  -- BILL_SFEE
   ⟨0x1000, [(12, 0x100), (16, 0x10)], 0xFFFFFFFF, 0xFFFFFFFF, 0x0, 0x0, 0x0⟩,  -- BILL_TPRICE
   ⟨0x1004, [(12, 0x100), (16, 0x10)], 0xFFFFFFFF, 0xFFFFFFFF, 0x0, 0x0, 0x0⟩,  -- BILL_TPRICE
   ⟨0x1008, [(12, 0x100), (16, 0x10)], 0xFFFFFFFF, 0xFFFFFFFF, 0x0, 0x0, 0x0⟩,  -- BILL_TPRICE
   ⟨0x100C, [(12, 0x100), (16, 0x10)], 0x0, 0x0, 0x0, 0x0, 0x0⟩,  -- BILL_TPRICE
   ⟨0x2000, [(32, 0x40), (12, 0x4)], 0x87FF00FF, 0x87FF00FF, 0x0, 0x0, 0x0⟩,  -- BILL_DAYPT
   ⟨0x2800, [(16, 0x10)], 0x87FC00FF, 0x87FC00FF, 0x0, 0x0, 0x0⟩,  -- BILL_SEASON
   ⟨0x2804, [(16, 0x10)], 0x3FFFFFFF, 0x3FFFFFFF, 0x0, 0x0, 0x0⟩,  -- BILL_SEASON
   ⟨0x2808, [(16, 0x10)], 0x1F, 0x1F, 0x0, 0x0, 0x0⟩,  -- BILL_SEASON
   ⟨0x280C, [(16, 0x10)], 0x0, 0x0, 0x0, 0x0, 0x0⟩,  -- BILL_SEASON
   ⟨0x2A00, [(64, 0x4)], 0xFFFFE01F, 0xFFFFE01F, 0x0, 0x0, 0x0⟩,  -- BILL_SPDAY
   ⟨0x3C00, [(32, 0x4)], 0x0, 0x0, 0xFFFFFFFF, 0x0, 0x0⟩,  -- BILL_MBXIN
   ⟨0x4000, [(12, 0x100), (16, 0x10), (2, 0x8)], 0x0, 0x0, 0x0, 0x0, 0x0⟩,  -- BILL_TREG
   ⟨0x4004, [(12, 0x100), (16, 0x10), (2, 0x8)], 0x0, 0x0, 0x0, 0x0, 0x0⟩  -- BILL_TREG
  ]

/-- BILL: runs of words that are read-only throughout, as first offset and count. -/
def roRunsBill : List (Nat × Nat) :=
  [(0x0, 1), (0x18, 3), (0x38, 3), (0x190, 16), (0x3000, 768), (0x5000, 1024)]

/-- DISP: the words with bits that a write can reach. -/
def rowsDisp : List RegRow :=
  [⟨0x4, [], 0x0, 0x0, 0x0, 0x0, 0xFFFF⟩,  -- COMPAT
   ⟨0x10, [], 0x7FF07FF, 0x7FF07FF, 0x0, 0x0, 0x0⟩,  -- DISP_PANEL
   ⟨0x14, [], 0xF1FF3FFF, 0xF1FF3FFF, 0x0, 0x0, 0x0⟩,  -- DISP_DRIVE
   ⟨0x18, [], 0xFF3FF, 0xFF3FF, 0x0, 0x0, 0x0⟩,  -- DISP_LEGCFG
   ⟨0x1C, [], 0xFFFFFFFF, 0xFFFFFFFF, 0x0, 0x0, 0x0⟩,  -- DISP_WFTCRC
   ⟨0x100, [(16, 0x10)], 0x7FF07FF, 0x7FF07FF, 0x0, 0x0, 0x0⟩,  -- DISP_RGN
   ⟨0x104, [(16, 0x10)], 0x7FF07FF, 0x7FF07FF, 0x0, 0x0, 0x0⟩,  -- DISP_RGN
   ⟨0x108, [(16, 0x10)], 0xF8C00000, 0xF8C00000, 0x0, 0x0, 0x0⟩,  -- DISP_RGN
   ⟨0x200, [(16, 0x4)], 0x0, 0x0, 0x0, 0x2, 0x0⟩,  -- DISP_RGNSTAT
   ⟨0x300, [], 0x0, 0x0, 0x0, 0x0, 0xEF⟩,  -- DISP_UPDREQ
   ⟨0x304, [], 0x0, 0x0, 0xFFFFFFFF, 0x0, 0x0⟩,  -- DISP_UPDSRC
   ⟨0x308, [], 0x0, 0x0, 0x0, 0x3, 0x0⟩,  -- DISP_UPDSTAT
   ⟨0x314, [], 0x0, 0x0, 0x0, 0x0, 0x1⟩  -- DISP_EVT
  ]

/-- DISP: runs of words that are read-only throughout, as first offset and count. -/
def roRunsDisp : List (Nat × Nat) :=
  [(0x0, 1), (0x20, 1), (0x10C, 1), (0x11C, 1), (0x12C, 1), (0x13C, 1), (0x14C, 1), (0x15C, 1), (0x16C, 1),
   (0x17C, 1), (0x18C, 1), (0x19C, 1), (0x1AC, 1), (0x1BC, 1), (0x1CC, 1), (0x1DC, 1), (0x1EC, 1), (0x1FC, 1),
   (0x30C, 2)]

/-- SAFE: the words with bits that a write can reach. -/
def rowsSafe : List RegRow :=
  [⟨0x4, [], 0x0, 0x0, 0x0, 0x0, 0xFFFF⟩,  -- COMPAT
   ⟨0x18, [], 0x0, 0x0, 0x0, 0x1F, 0x0⟩,  -- SAFE_SFEVT
   ⟨0x100, [], 0x0, 0x0, 0xFFFFFFFF, 0x0, 0x0⟩,  -- MBX_CMD
   ⟨0x110, [(16, 0x4)], 0x0, 0x0, 0xFFFFFFFF, 0x0, 0x0⟩,  -- MBX_ARG
   ⟨0x180, [], 0x0, 0x0, 0x0, 0x20000000, 0x0⟩,  -- MBX_STS
   ⟨0x1F0, [], 0x0, 0x0, 0x0, 0x0, 0x1⟩,  -- MBX_RING
   ⟨0x400, [], 0x0, 0xFFFFFF00, 0x0, 0x0, 0x0⟩,  -- SAFE_POOLCFG
   ⟨0x404, [], 0xFFF, 0x0, 0x0, 0x0, 0x0⟩,  -- SAFE_TIEREQ
   ⟨0x40C, [], 0x0, 0x0, 0x0, 0x1F, 0x0⟩,  -- SAFE_POOLEVT
   ⟨0x410, [], 0x0, 0xFFFF, 0x0, 0x0, 0x0⟩,  -- SAFE_POOLLIM
   ⟨0x420, [(6, 0x4)], 0x0, 0x8000, 0x0, 0x0, 0x0⟩,  -- SAFE_SEGSTAT
   ⟨0x440, [(12, 0x4)], 0x0, 0xFF7F3F00, 0x0, 0x0, 0x0⟩,  -- SAFE_CONCFG
   ⟨0x500, [(48, 0x4)], 0xF, 0x87000000, 0x0, 0x0, 0x0⟩,  -- SAFE_MOD
   ⟨0x600, [(8, 0x20)], 0x0, 0xE00007FF, 0x0, 0x0, 0x0⟩,  -- SAFE_OUTCFG
   ⟨0x604, [(8, 0x20)], 0x0, 0xFFFFFFFF, 0x0, 0x0, 0x0⟩,  -- SAFE_OUTCFG
   ⟨0x608, [(8, 0x20)], 0x0, 0xFFFFFFF0, 0x0, 0x0, 0x0⟩,  -- SAFE_OUTCFG
   ⟨0x60C, [(8, 0x20)], 0x0, 0xFFFFFFFF, 0x0, 0x0, 0x0⟩,  -- SAFE_OUTCFG
   ⟨0x610, [(8, 0x20)], 0x0, 0xF0FFFFFF, 0x0, 0x0, 0x0⟩,  -- SAFE_OUTCFG
   ⟨0x614, [(8, 0x20)], 0x0, 0xFFFF7C1F, 0x0, 0x0, 0x0⟩,  -- SAFE_OUTCFG
   ⟨0x618, [(8, 0x20)], 0x0, 0xFFFF8000, 0x0, 0x0, 0x0⟩,  -- SAFE_OUTCFG
   ⟨0x61C, [(8, 0x20)], 0x0, 0x0, 0x0, 0x0, 0x0⟩,  -- SAFE_OUTCFG
   ⟨0x700, [(8, 0x10)], 0x0, 0x0, 0x0, 0x0, 0x0⟩,  -- SAFE_OUTSTAT
   ⟨0x704, [(8, 0x10)], 0x0, 0x0, 0x0, 0x0, 0x0⟩,  -- SAFE_OUTSTAT
   ⟨0x708, [(8, 0x10)], 0x0, 0x0, 0x0, 0x0, 0x0⟩,  -- SAFE_OUTSTAT
   ⟨0x70C, [(8, 0x10)], 0x0, 0x0, 0x0, 0x0, 0x0⟩,  -- SAFE_OUTSTAT
   ⟨0x800, [(6, 0x10)], 0x0, 0xFFFFFFFF, 0x0, 0x0, 0x0⟩,  -- SAFE_IMDCFG
   ⟨0x804, [(6, 0x10)], 0x0, 0xFFFFC00F, 0x0, 0x0, 0x0⟩,  -- SAFE_IMDCFG
   ⟨0x808, [(6, 0x10)], 0x0, 0xFFFFFFFF, 0x0, 0x0, 0x0⟩,  -- SAFE_IMDCFG
   ⟨0x80C, [(6, 0x10)], 0x0, 0x0, 0x0, 0x0, 0x0⟩,  -- SAFE_IMDCFG
   ⟨0x8C0, [(8, 0x4)], 0x0, 0xE0F000FF, 0x0, 0x0, 0x0⟩,  -- SAFE_STOPCFG
   ⟨0x900, [(12, 0x8)], 0x0, 0xFFFF0001, 0x0, 0x0, 0x0⟩,  -- SAFE_COILCFG
   ⟨0x904, [(12, 0x8)], 0x0, 0x0, 0x0, 0xC000000, 0x0⟩,  -- SAFE_COILSTAT
   ⟨0x960, [], 0x0, 0xFFFFFF00, 0x0, 0x0, 0x0⟩,  -- SAFE_TPCFG
   ⟨0x980, [(16, 0x4)], 0x0, 0xFFFF00FF, 0x0, 0x0, 0x0⟩,  -- SAFE_SICFG
   ⟨0x9C4, [], 0x0, 0x0, 0x0, 0x1FFFF, 0x0⟩,  -- SAFE_SIEVT
   ⟨0xA00, [(2, 0x4)], 0x0, 0xFFFFFFFF, 0x0, 0x0, 0x0⟩,  -- SAFE_LINKID
   ⟨0xA40, [(16, 0x20)], 0x0, 0xFC00FFFF, 0x0, 0x0, 0x0⟩,  -- SAFE_LINKCFG
   ⟨0xA44, [(16, 0x20)], 0x0, 0xFFFFFFFF, 0x0, 0x0, 0x0⟩,  -- SAFE_LINKCFG
   ⟨0xA48, [(16, 0x20)], 0x0, 0xFFFF01FF, 0x0, 0x0, 0x0⟩,  -- SAFE_LINKCFG
   ⟨0xA4C, [(16, 0x20)], 0x0, 0xFFFFFFFF, 0x0, 0x0, 0x0⟩,  -- SAFE_LINKCFG
   ⟨0xA50, [(16, 0x20)], 0x0, 0xFFFF, 0x0, 0x0, 0x0⟩,  -- SAFE_LINKCFG
   ⟨0xA54, [(16, 0x20)], 0x0, 0xFFC0FFC0, 0x0, 0x0, 0x0⟩,  -- SAFE_LINKCFG
   ⟨0xA58, [(16, 0x20)], 0x0, 0x0, 0x0, 0x0, 0x0⟩,  -- SAFE_LINKCFG
   ⟨0xA5C, [(16, 0x20)], 0x0, 0x0, 0x0, 0x0, 0x0⟩,  -- SAFE_LINKCFG
   ⟨0xC40, [(16, 0x20)], 0x0, 0x0, 0x0, 0x0, 0x0⟩,  -- SAFE_LINKSTAT
   ⟨0xC44, [(16, 0x20)], 0x0, 0x0, 0x0, 0x0, 0x0⟩,  -- SAFE_LINKSTAT
   ⟨0xC48, [(16, 0x20)], 0x0, 0x0, 0x0, 0x0, 0x0⟩,  -- SAFE_LINKSTAT
   ⟨0xC4C, [(16, 0x20)], 0x0, 0x0, 0x0, 0x0, 0x0⟩,  -- SAFE_LINKSTAT
   ⟨0xC50, [(16, 0x20)], 0x0, 0x0, 0x0, 0x0, 0x0⟩,  -- SAFE_LINKSTAT
   ⟨0xC54, [(16, 0x20)], 0x0, 0x0, 0x0, 0x0, 0x0⟩,  -- SAFE_LINKSTAT
   ⟨0xC58, [(16, 0x20)], 0x0, 0x0, 0x0, 0x0, 0x0⟩,  -- SAFE_LINKSTAT
   ⟨0xC5C, [(16, 0x20)], 0x0, 0x0, 0x0, 0x0, 0x0⟩,  -- SAFE_LINKSTAT
   ⟨0xE40, [], 0x0, 0x0, 0x0, 0xFFFF, 0x0⟩,  -- SAFE_LINKEVT
   ⟨0xF00, [(32, 0x4)], 0x0, 0xC0FFFFFF, 0x0, 0x0, 0x0⟩,  -- SAFE_TLSCALE
   ⟨0x3C00, [(32, 0x4)], 0x0, 0x0, 0xFFFFFFFF, 0x0, 0x0⟩  -- SAFE_MBXIN
  ]

/-- SAFE: runs of words that are read-only throughout, as first offset and count. -/
def roRunsSafe : List (Nat × Nat) :=
  [(0x0, 1), (0x10, 2), (0x20, 2), (0x30, 3), (0x190, 16), (0x408, 1), (0x480, 12), (0x880, 6), (0x9C0, 1),
   (0x9D0, 8), (0x3400, 512)]

def rowsOf : BlkKind → List RegRow
  | .sys => rowsSys
  | .time => rowsTime
  | .dma => rowsDma
  | .txn => rowsTxn
  | .sec => rowsSec
  | .upd => rowsUpd
  | .thl => rowsThl
  | .eth => rowsEth
  | .can => rowsCan
  | .load => rowsLoad
  | .gpio => rowsGpio
  | .mesh => rowsMesh
  | .intc => rowsIntc
  | .vp => rowsVp
  | .met => rowsMet
  | .bill => rowsBill
  | .disp => rowsDisp
  | .safe => rowsSafe

def roRunsOf : BlkKind → List (Nat × Nat)
  | .sys => roRunsSys
  | .time => roRunsTime
  | .dma => roRunsDma
  | .txn => roRunsTxn
  | .sec => roRunsSec
  | .upd => roRunsUpd
  | .thl => roRunsThl
  | .eth => roRunsEth
  | .can => roRunsCan
  | .load => roRunsLoad
  | .gpio => roRunsGpio
  | .mesh => roRunsMesh
  | .intc => roRunsIntc
  | .vp => roRunsVp
  | .met => roRunsMet
  | .bill => roRunsBill
  | .disp => roRunsDisp
  | .safe => roRunsSafe

/-- One block in the memory map (R428, R429): its kind, its instance, its base and its size. -/
structure BlkInst where
  kind : BlkKind
  n : Nat
  base : Nat
  size : Nat

/-- The 28 blocks and windows. -/
def blockMap : List BlkInst :=
  [⟨.sys, 0, 0x20000000, 0x10000⟩, ⟨.time, 0, 0x20010000, 0x10000⟩, ⟨.dma, 0, 0x20020000, 0x10000⟩,
   ⟨.txn, 0, 0x20030000, 0x10000⟩, ⟨.sec, 0, 0x20040000, 0x10000⟩, ⟨.upd, 0, 0x20050000, 0x10000⟩,
   ⟨.thl, 0, 0x20060000, 0x10000⟩, ⟨.eth, 0, 0x20070000, 0x10000⟩, ⟨.eth, 1, 0x20080000, 0x10000⟩,
   ⟨.can, 0, 0x20090000, 0x1000⟩, ⟨.can, 1, 0x20091000, 0x1000⟩, ⟨.can, 2, 0x20092000, 0x1000⟩,
   ⟨.load, 0, 0x200A0000, 0x10000⟩, ⟨.gpio, 0, 0x200B0000, 0x10000⟩, ⟨.mesh, 0, 0x200C0000, 0x10000⟩,
   ⟨.intc, 0, 0x200D0000, 0x10000⟩, ⟨.vp, 0, 0x20100000, 0x10000⟩, ⟨.vp, 1, 0x20110000, 0x10000⟩,
   ⟨.vp, 2, 0x20120000, 0x10000⟩, ⟨.vp, 3, 0x20130000, 0x10000⟩, ⟨.vp, 4, 0x20140000, 0x10000⟩,
   ⟨.vp, 5, 0x20150000, 0x10000⟩, ⟨.vp, 6, 0x20160000, 0x10000⟩, ⟨.vp, 7, 0x20170000, 0x10000⟩,
   ⟨.met, 0, 0x20200000, 0x10000⟩, ⟨.bill, 0, 0x20240000, 0x10000⟩, ⟨.disp, 0, 0x20280000, 0x10000⟩,
   ⟨.safe, 0, 0x20300000, 0x10000⟩]

/-- Whether an offset is one of a row's words. -/
def rowHas : Nat → List (Nat × Nat) → Nat → Bool
  | o, [], a => a == o
  | o, (n, st) :: r, a => decide (o ≤ a) && decide ((a - o) / st < n) && rowHas (o + (a - o) / st * st) r a

/-- The offsets of a row's words, in rising order of its indices. -/
def rowOffs : List (Nat × Nat) → List Nat
  | [] => [0]
  | (n, st) :: r => (List.range n).flatMap fun i => (rowOffs r).map fun o => i * st + o

/-- The row of an offset in a block, where one has bits that a write can reach. -/
def rowAt (k : BlkKind) (o : Nat) : Option RegRow := (rowsOf k).find? fun r => rowHas r.off r.dims o

/-- Whether a block has a word at an offset. -/
def hasWord (k : BlkKind) (o : Nat) : Bool :=
  (rowAt k o).isSome || (roRunsOf k).any fun p => decide (p.1 ≤ o) && decide (o < p.1 + 4 * p.2) && o % 4 == 0

/-- The place of the block of an application address, with the index of R429's order. -/
def blkAt (a : Nat) : Option (Fin 28 × BlkInst) :=
  (blockMap.zipIdx.find? fun b => decide (b.1.base ≤ a) && decide (a < b.1.base + b.1.size)).map fun b => (Fin.ofNat 28 b.2, b.1)

/-- The block code of R429. -/
def blkCode : BlkKind → Nat
  | .sys => 0x4816 | .time => 0x544D | .dma => 0x444D | .txn => 0x5458 | .sec => 0x5345 | .upd => 0x5550
  | .thl => 0x5448 | .eth => 0x4554 | .can => 0x4346 | .load => 0x4C44 | .gpio => 0x4B59 | .mesh => 0x4D53
  | .intc => 0x4943 | .vp => 0x5650 | .met => 0x4D45 | .bill => 0x424C | .disp => 0x4450 | .safe => 0x5341

/-- The one level that each block grants on stepping B1 (R429, R430). -/
def blkLevel (k : BlkKind) : BitVec 16 := if k = .sys then 0x00B1 else 0x0100

end Sys2Proof.Machine
end

