-- ==== Sys2Proof/Machine/State.lean ====
section
/-! DEFINITION. The state of the CZ-4816 as plain data: every register, buffer, counter, mode and pin that the spec
gives it, the memories, what the Sinter journal keeps, and the queue of waiting commands; and the state after reset. -/

namespace Sys2Proof.Machine

/-- Why the machine stops with a fault: for no reason, since the spec gives every command an effect on every operand. -/
inductive Fault where
  deriving DecidableEq, Repr

/-- Why a command has no meaning. -/
inductive Refusal where
  /-- Raised by the dispatch for a command that is not modelled. Safe: nothing is claimed of it. -/
  | notModelled (mnemonic : String)
  deriving DecidableEq, Repr

/-! ### SYS: modes, supply, start-up (chapters 02 and 03) -/

/-- The eight modes of R25, in the order of their codes. -/
inductive Mode where
  | retain | start | commission | service | maintain | activate | degraded | lockout
  deriving DecidableEq, Repr

/-- Whether the blocks of the device run. `held` is the wait of R59 step 9 after a save, with every block stopped as at
its step 2; `cut` is the hold in reset of R60; RETAIN is `off`. -/
inductive Power where
  | running | held | off | cut
  deriving DecidableEq, Repr

/-- The three triggers of DEGRADED of R38. -/
inductive DegCause where
  | wdog | mesh | therm
  deriving DecidableEq, Repr

/-- The SYS block. -/
structure Sys where
  power : Power            -- R49, R59, R60
  mode : Mode              -- SYS_MODE.MODE
  prev : Mode              -- SYS_MODE.PREV
  oos : BitVec 8           -- SYS_MODE.OOS, kept in Sinter
  simgNone : Bool          -- R31
  degLatched : Bool        -- R28
  rtcInvalid : Bool        -- R36
  rstCause : BitVec 13     -- SYS_RSTCAUSE
  metFail : Bool           -- R32: every MET and BILL call refused until the next start
  step3Stop : Bool         -- R32: start-up stopped at step 3
  needAuditRead : Bool     -- R34: the audit log is to be read out before the affected outlets return
  lossOos : BitVec 8       -- R34: the outlets that return only through the exit from MAINTAIN
  autorstEn : Bool         -- SYS_DEGCFG, kept
  autorstDelay : BitVec 12
  wdogTimeout : BitVec 14
  kicked : Bool            -- R37: WDOG_TIMEOUT locked
  wdogRun : Bool           -- R37: the watchdog counts
  coresRun : Bool          -- the application cores are released (R29 step 8, R39)
  coresHalted : Bool       -- released halted at ENTRY by the HALT strap (R444)
  degCause : Option DegCause
  degSince : BitVec 64     -- system time of the entry to DEGRADED (R41, R48)
  straps : BitVec 3        -- GPIO_STRAP (R444)
  serial : BitVec 64       -- SYS_SERIALLO/HI (R430), production
  metChk : Word            -- the metrology check value of the loaded image (R335)
  vsup : BitVec 12         -- SYS_SUPSTAT, units of 10 mV
  vhold : BitVec 12
  holdReady : Bool
  pfwActive : Bool
  shed : Bool
  holdLow : Bool
  therm1e : Bool
  therm1 : Bool
  therm2 : Bool            -- thermal stage 2 in force (R38)
  hot : Bool               -- the junction has not been below 110 °C since a stage was raised, or was above it at start-up (R35, R38)
  level : BitVec 3         -- SYS_VCORE.LEVEL
  actual : BitVec 3        -- SYS_VCORE.ACTUAL
  pfwSrc : BitVec 2        -- SYS_PFWCFG
  pfwThresh : BitVec 6
  capNom : BitVec 14       -- SYS_HOLDCFG
  capArm : Bool            -- a measurement of the hold-up capacitance is due at this start (R55)
  capMeas : BitVec 16
  shedding : Bool          -- the average has exceeded LIMIT and has not fallen below it since (R53)
  pfwCmp : Bool            -- the comparator has raised the warning (R58)
  pfwBall : Bool           -- the PFW ball has raised it
  fresh : Bool
  limit : BitVec 14        -- SYS_BUDGET.LIMIT
  imeas : BitVec 16        -- SYS_BUDGET.IMEAS
  deriving DecidableEq, Repr

/-- The SYS registers at reset (chapters 02 and 03); what comes from Sinter is empty or never written. -/
def Sys.reset : Sys :=
  { power := .running, mode := .start, prev := .start, oos := 0, simgNone := false, degLatched := false,
    rtcInvalid := false, rstCause := 0, metFail := false, step3Stop := false, needAuditRead := false, lossOos := 0,
    autorstEn := false, autorstDelay := 60, wdogTimeout := 1000, kicked := false, wdogRun := false,
    coresRun := false, coresHalted := false, degCause := none, degSince := 0, straps := 0, serial := 0, metChk := 0,
    vsup := 0, vhold := 0, holdReady := false, pfwActive := false, shed := false, holdLow := false,
    therm1e := false, therm1 := false, therm2 := false, hot := false, level := 2, actual := 2, pfwSrc := 0,
    pfwThresh := 36, capNom := 2200, capArm := false, capMeas := 0, shedding := false, pfwCmp := false, pfwBall := false, fresh := false, limit := 11000, imeas := 0 }

/-! ### TIME: time scales and the general event log (chapter 20) -/

/-- One entry of the general event log (R425). -/
structure EvEntry where
  seq : Word
  lt : BitVec 64
  typ : BitVec 16
  tv : Bool
  source : Byte
  d0 : Word
  d1 : Word
  d2 : Word
  tshort : Word
  deriving DecidableEq, Repr

/-- How many entries of one TYPE were written and not written in the present second (R425). -/
structure EvCount where
  typ : Nat
  written : Nat
  dropped : Nat
  deriving DecidableEq, Repr

/-- The TIME block. -/
structure Time where
  sysNs : BitVec 64        -- system time (R412, R413)
  lofs : BitVec 64         -- LOFS, signed (R414)
  rtcSec : Word            -- RTC (R412)
  rtcFrac : BitVec 15
  rtcSub : Nat             -- the part of an RTC cycle that has passed, in 10^-8
  rtcGap : Nat             -- RTC cycles since the previous reading (R416)
  rtcAcc : Int             -- the accumulator of R416, in 2^-15 of 0.1 µs
  lvalid : Bool            -- LVALID, journaled (R415)
  hwm : BitVec 64          -- high-water mark in ms (R133)
  newestLegal : BitVec 64  -- newest legal time journaled, in ms (R415)
  outage : BitVec 64       -- newest legal time journaled before the start at which legal time was lost (R420)
  refdevE : Bool
  vbakLow : Bool
  vbak : Byte
  trim : BitVec 16         -- TIME_RTCCFG
  k2 : BitVec 8
  t0 : BitVec 8
  refdev : BitVec 16       -- TIME_RTCSTAT
  temp : BitVec 12
  evl : List EvEntry       -- the ring of R424, newest first, at most 16,384
  evlNext : BitVec 14
  evlSeq : Word
  evlDrop : BitVec 16
  evlSec : Nat             -- the second of system time that evlCounts counts
  evlCounts : List EvCount
  evlTail : Nat            -- how many of the newest entries are not yet journaled (R424)
  deriving DecidableEq, Repr

/-- The TIME registers at reset. -/
def Time.reset : Time :=
  { sysNs := 0, lofs := 0, rtcSec := 0, rtcFrac := 0, rtcSub := 0, rtcGap := 0, rtcAcc := 0, lvalid := false, hwm := 0, newestLegal := 0,
    outage := 0, refdevE := false, vbakLow := false, vbak := 0, trim := 0, k2 := BitVec.ofInt 8 (-34), t0 := 25, refdev := 0, temp := 0,
    evl := [], evlNext := 0, evlSeq := 0, evlDrop := 0, evlSec := 0, evlCounts := [], evlTail := 0 }

/-! ### Mailboxes, interrupts, Ethernet, CAN FD, GPIO and keypad (chapter 21) -/

/-- The five mailboxes of R431. -/
inductive MbxId where
  | met | bill | safe | txn | upd
  deriving DecidableEq, Repr

/-- The calls that return ACCEPTED, or that keep BUSY set, and end by a step of their own (R433). -/
inductive Pending where
  | readOcmf | archive | closeReq | setOos | commit | updBegin | updVerify | setOpen | tieClose | snapshot
  deriving DecidableEq, Repr

/-- One mailbox (R431 to R433). -/
structure Mailbox where
  cmd : Word
  arg : Vector Word 16
  busy : Bool
  pend : Bool
  coll : Bool
  callNo : Byte
  status : Byte
  res : Vector Word 16
  what : Option Pending    -- the call that PEND announces
  deriving DecidableEq, Repr

def Mailbox.reset : Mailbox :=
  { cmd := 0, arg := Vector.replicate 16 0, busy := false, pend := false, coll := false, callNo := 0, status := 0,
    res := Vector.replicate 16 0, what := none }

/-- The five mailboxes. -/
structure Mailboxes where
  met : Mailbox
  bill : Mailbox
  safe : Mailbox
  txn : Mailbox
  upd : Mailbox
  deriving DecidableEq, Repr

def Mailboxes.reset : Mailboxes :=
  { met := Mailbox.reset, bill := Mailbox.reset, safe := Mailbox.reset, txn := Mailbox.reset, upd := Mailbox.reset }

/-- INTC, the platform-level interrupt controller (R434). `raised` holds the sources whose chapter raises them without a
register flag to hold them; `claimed` the sources between claim and complete. -/
structure Intc where
  prio : Vector (BitVec 3) 256
  enable : Vector (BitVec 256) 8
  thresh : Vector (BitVec 3) 8
  raised : BitVec 256
  claimed : BitVec 256
  deriving DecidableEq, Repr

def Intc.reset : Intc :=
  { prio := Vector.replicate 256 0, enable := Vector.replicate 8 0, thresh := Vector.replicate 8 0, raised := 0, claimed := 0 }

/-- The last bus response: whether it was a bus error, and the data of a read (R3, R364). -/
structure Bus where
  err : Bool
  data : Word
  deriving DecidableEq, Repr

/-- One Ethernet MAC (R436 to R438). -/
structure Eth where
  en : Bool
  promisc : Bool
  allmc : Bool
  mac : BitVec 48
  mcfEn : BitVec 8
  mcf : Vector (BitVec 48) 8
  up : Bool
  speed : BitVec 2
  duplex : Bool
  rxfrm : Word
  txfrm : Word
  rxerr : BitVec 16
  rxdrop : BitVec 16
  txdrop : BitVec 16
  linkchg : Bool
  txe : Bool
  rxe : Bool
  rxFifo : List (List Byte)   -- records not yet taken by DMA, oldest first
  rxOff : Nat                 -- bytes of the oldest record that DMA has taken
  txFifo : List Byte          -- the transmit FIFO: the bytes of one 2,048-byte transmit record
  safeTx : List (List Byte)   -- the safety queue of R290, outward
  line : List Byte            -- the frame last sent, as the line carries it: padded and with its FCS (R438)
  deriving DecidableEq, Repr

def Eth.reset (mac : BitVec 48) : Eth :=
  { en := false, promisc := false, allmc := false, mac := mac, mcfEn := 0, mcf := Vector.replicate 8 0, up := false,
    speed := 0, duplex := false, rxfrm := 0, txfrm := 0, rxerr := 0, rxdrop := 0, txdrop := 0, linkchg := false,
    txe := false, rxe := false, rxFifo := [], rxOff := 0, txFifo := [], safeTx := [], line := [] }

/-- The error state of a CAN FD controller (CAN_STAT.STATE, R443). -/
inductive CanState where
  | active | passive | busOff
  deriving DecidableEq, Repr

/-- One CAN FD controller (R439 to R443). -/
structure Can where
  en : Bool
  arecov : Bool
  fden : Bool
  txtmo : BitVec 16
  nbt : Word
  dbt : Word
  state : CanState
  sfref : Bool
  tec : Byte
  rec_ : Byte
  sfEntry : BitVec 4
  store : Vector (Option (List Byte)) 16  -- the stop-frame store, kept in Sinter (R442)
  released : BitVec 16                    -- entries whose stop frame Caldera has released (R23)
  rxfrm : Word
  txfrm : Word
  txtmoCnt : BitVec 16
  busoffCnt : BitVec 16
  rxdrop : BitVec 16
  sfbuf : List Byte
  txq : List (List Byte)                  -- the 16-frame queue
  rxFifo : List (List Byte)               -- the 8-record receive FIFO
  txPart : List Byte                      -- bytes that DMA has brought and the queue has not yet taken
  recovering : Bool                       -- the 128 × 11 recessive bits are being counted
  line : Option CanFrame                  -- the frame last sent (R440)
  deriving DecidableEq, Repr

def Can.reset : Can :=
  { en := false, arecov := true, fden := true, txtmo := 100,
    nbt := BitVec.ofNat 32 (1 * 2^24 + 78 * 2^16 + 19 * 2^9 + 19 * 2^2),
    dbt := BitVec.ofNat 32 (38 * 2^21 + 9 * 2^16 + 9 * 2^11 + 2^7 + 40),
    state := .active, sfref := false, tec := 0, rec_ := 0, sfEntry := 0, store := Vector.replicate 16 none,
    released := 0, rxfrm := 0, txfrm := 0, txtmoCnt := 0, busoffCnt := 0, rxdrop := 0,
    sfbuf := List.replicate 80 0, txq := [], rxFifo := [], txPart := [], recovering := false, line := none }

/-- The queue takes the next record of its bytes while it holds fewer than 16 frames (R441). -/
def canFill (c : Can) : Can :=
  if c.txq.length < 16 ∧ 80 ≤ c.txPart.length then { c with txq := c.txq ++ [c.txPart.take 80], txPart := c.txPart.drop 80 }
  else c

/-- GPIO and KEY (R444 to R447). -/
structure Gpio where
  dir : Byte
  out : Byte
  inp : Byte
  irqcfg : BitVec 16
  evt : Byte
  fifo : List (BitVec 4)     -- the 8-entry host FIFO, oldest first
  ovf : Bool
  held : Option (BitVec 4)   -- the key that is held down (R445)
  deriving DecidableEq, Repr

def Gpio.reset : Gpio :=
  { dir := 0, out := 0, inp := 0, irqcfg := 0, evt := 0, fifo := [], ovf := false, held := none }

/-! ### MET: sampling, filters, converters and meters (chapters 04 and 05) -/

/-- The order-4 CIC of R69: four integrators and four comb registers, 44 bits each. -/
structure Cic where
  i1 : BitVec 44
  i2 : BitVec 44
  i3 : BitVec 44
  i4 : BitVec 44
  z1 : BitVec 44
  z2 : BitVec 44
  z3 : BitVec 44
  z4 : BitVec 44
  deriving DecidableEq, Repr

def Cic.reset : Cic := { i1 := 0, i2 := 0, i3 := 0, i4 := 0, z1 := 0, z2 := 0, z3 := 0, z4 := 0 }

/-- The order-2 CIC of R72: two integrators and two comb registers, 12 bits each. -/
structure FastCic where
  j1 : BitVec 12
  j2 : BitVec 12
  w1 : BitVec 12
  w2 : BitVec 12
  deriving DecidableEq, Repr

def FastCic.reset : FastCic := { j1 := 0, j2 := 0, w1 := 0, w2 := 0 }

/-- One bitstream channel (R65 to R77). -/
structure Chan where
  delayLine : List Bool      -- the last bits before the delay trim, newest first (R68)
  cic : Cic
  fcic : FastCic
  hist : List Int            -- the last 48 normalised CIC outputs c, newest first (R69, R70)
  fast : Int                 -- f_cal of R75
  fastValid : Bool
  x2 : Int                   -- MET_CHVAL
  valid : Bool               -- MET_CHSTAT
  settling : Bool
  stuck : Bool
  loss : Bool
  satf : Bool
  tcStale : Bool
  manerrCnt : BitVec 16
  satCnt : BitVec 16
  gainEff : Int              -- R74
  dt : Int                   -- the dt in use, in 1/16 K
  bits : Nat                 -- modulator bits since the last restart (R77)
  fines : Nat                -- fine samples since the last restart (R98)
  unroutedTo : BitVec 64     -- the system time to which a frame that routes the channel is being rewritten (R342)
  subRun : Nat               -- consecutive substituted Manchester bits (R66)
  goodRun : Nat              -- consecutive good Manchester bits
  lossDue : Bool             -- 16 substituted bits have come in a row and LOSS has not been entered
  goodDue : Bool             -- in LOSS, 64 good bits have come in a row
  stuckDue : Bool            -- a run has reached RUNLEN and STUCK has not been entered (R67)
  freeDue : Bool             -- in STUCK, 64 bits have come in which no run reached RUNLEN
  lastSub : Bool             -- the previous substitute
  run : Nat                  -- length of the present run of identical bits (R67)
  lastBit : Bool
  noRun : Nat                -- bits since a run last reached RUNLEN
  rgw : Int                  -- the integrator r of R98
  xs : List Int              -- the last 32 calibrated fine samples, newest first (R88)
  outs : List Int            -- the last 256 resampled values, newest first (R88)
  deriving DecidableEq, Repr

/-- The tick sum of one trip-lane signal (R242 step 2). -/
structure TickSum where
  sum : Int
  n : Nat
  sq : Nat                   -- sum of squares, for the RMS of R269
  ok : Bool                  -- every sample of the tick was valid
  deriving DecidableEq, Repr

def Chan.reset : Chan :=
  { delayLine := [], cic := Cic.reset, fcic := FastCic.reset, hist := [], fast := 0, fastValid := false, x2 := 0,
    valid := false, settling := true, stuck := false, loss := false, satf := false, tcStale := false, manerrCnt := 0,
    satCnt := 0, gainEff := 0, dt := 0, bits := 0, fines := 0, unroutedTo := 0, subRun := 0, goodRun := 0, lossDue := false,
    goodDue := false, stuckDue := false, freeDue := false, lastSub := false, run := 0,
    lastBit := false, noRun := 0, rgw := 0, xs := [], outs := [] }

/-- One clock group, MCLK0 or MCLK1 (R63). -/
structure Group where
  bit : Nat                  -- the group's bit counter
  cicIdx : Nat               -- CIC outputs since the group's last restart (R70)
  due : Bool                 -- an odd CIC output has come and its fine sample has not
  lastNs : BitVec 64         -- system time of the last modulator bit (R101)
  prevNs : BitVec 64         -- that of the fast sample before
  idx : Nat                  -- fine samples of the group, the index of R87 and R88
  deriving DecidableEq, Repr

def Group.reset : Group := { bit := 0, cicIdx := 0, due := false, lastNs := 0, prevNs := 0, idx := 0 }

/-- One ranging pair (R78 to R82). -/
structure RPair where
  high : Bool                -- MET_RPSTAT.STATE
  disagree : Bool
  swupCnt : BitVec 16
  dev : Word
  downCnt : Nat              -- R79
  exceed : Nat               -- consecutive evaluated blocks beyond TOL (R81)
  lowBits : Nat              -- bits since the state was last HIGH (R80)
  sl : Int                   -- block sums (R81)
  sh : Int
  blkN : Nat
  blkLow : Bool
  out : Int                  -- the pair output of R78
  outValid : Bool
  deriving DecidableEq, Repr

def RPair.reset : RPair :=
  { high := false, disagree := false, swupCnt := 0, dev := 0, downCnt := 0, exceed := 0, lowBits := 0, sl := 0, sh := 0,
    blkN := 0, blkLow := true, out := 0, outValid := false }

/-- The order-3 CIC of a converter (R83): three integrators and three comb registers, 32 bits each. -/
structure Cic3 where
  i1 : BitVec 32
  i2 : BitVec 32
  i3 : BitVec 32
  z1 : BitVec 32
  z2 : BitVec 32
  z3 : BitVec 32
  deriving DecidableEq, Repr

def Cic3.reset : Cic3 := { i1 := 0, i2 := 0, i3 := 0, z1 := 0, z2 := 0, z3 := 0 }

/-- One on-module converter (R83 to R86). -/
structure Adc where
  slot : Nat
  cnt : Nat                  -- its bit counter
  cic : Cic3
  fcic : FastCic
  hist : List Int            -- the last 48 normalised CIC outputs, newest first
  due : Bool                 -- a CIC output of odd index has come and its fine value has not
  bits : Nat                 -- bits since the last multiplexer or gain switch
  fast : Int                 -- the trip lane's value of a slot owned by SAFE (R73, R75)
  fastValid : Bool
  drops : Nat                -- gain reductions in the present slot (R84)
  gain : Nat                 -- gain code in use
  lastFine : Option Int      -- the slot's last fine value, before its reference to ×1
  calAt : Nat                -- which draw its offsets and gains come from (R85)
  calStale : Bool
  calCnt : BitVec 16
  deriving DecidableEq, Repr

def Adc.reset : Adc :=
  { slot := 0, cnt := 0, cic := Cic3.reset, fcic := FastCic.reset, hist := [], due := false, bits := 0, fast := 0,
    fastValid := false, drops := 0, gain := 0, lastFine := none, calAt := 0, calStale := false, calCnt := 0 }

/-- One word of MET_AINVAL, with the newest fine value that a slot reported of it as a temperature (R74), that value as the
last refresh of the gains took it, and its instant (R266). -/
structure Ain where
  fine : Bool
  gain : BitVec 3
  value : BitVec 24
  last : Option (BitVec 24)
  tref : Option (BitVec 24)
  lastNs : BitVec 64
  deriving DecidableEq, Repr

def Ain.reset : Ain := { fine := false, gain := 0, value := 0, last := none, tref := none, lastNs := 0 }

/-- The line-synchronous resampler (R87, R88). -/
structure Resamp where
  step : Nat                 -- S, unsigned 8.24
  pos : Vector Nat 2         -- pos of R88 in the fine samples of each clock group
  lastX : Int
  armed : Bool               -- the signal was below −1 % of full scale
  lastCross : Option Nat     -- last crossing, in 2^-16 fine samples
  freq : BitVec 17           -- MET_LINEFREQ
  lineLost : Bool
  deriving DecidableEq, Repr

def Resamp.reset : Resamp :=
  { step := 0, pos := Vector.replicate 2 0, lastX := 0, armed := false, lastCross := none, freq := 0, lineLost := false }

/-- The zero-crossing search on one phase voltage (R106). -/
structure Cross where
  lastX : Int
  armed : Bool
  last : Option Nat
  deriving DecidableEq, Repr

def Cross.reset : Cross := { lastX := 0, armed := false, last := none }

/-- One meter (R91 to R107). Accumulators are the 160-bit values of R96, in 2^-64 nWh. -/
structure Meter where
  imp : BitVec 160
  exp : BitVec 160
  lastInst : BitVec 64
  lastQ : Int
  heldRun : Nat
  heldNs : Nat               -- held time since the last valid sample
  zeroNs : Nat               -- zero time since the last valid sample
  invalid : Bool             -- MET_MSTAT
  held : Bool
  powerOvr : Bool
  phseq : BitVec 2
  neutralLost : Bool
  holdCnt : BitVec 16
  gapCnt : BitVec 16
  mpwr : Word
  invalidSince : BitVec 64   -- system time at which INVALID was set, or its timers restarted (R93, R99)
  invalidLong : Bool         -- INVALID has lasted 100 ms
  gapInt : Bool              -- held, INVALID or GAP_ESTIMATED in the present interval (R108)
  secQ : Int                 -- sum of q over the present second (R100)
  secAbs : Int               -- sum of |q|
  secN : Nat
  secU0 : Nat                -- sums of squares of v1 + v2 + v3 and of the phases (R107)
  secV1 : Nat
  secV2 : Nat
  secV3 : Nat
  cr1 : Cross
  cr2 : Cross
  cr3 : Cross
  seqCand : BitVec 2         -- candidate class and its run (R106)
  seqRun : Nat
  intImp : BitVec 160        -- accumulators at the start of the present interval or part (R108)
  intExp : BitVec 160
  deriving DecidableEq, Repr

def Meter.reset : Meter :=
  { imp := 0, exp := 0, lastInst := 0, lastQ := 0, heldRun := 0, heldNs := 0, zeroNs := 0, invalid := false,
    held := false, powerOvr := false, phseq := 0, neutralLost := false, holdCnt := 0, gapCnt := 0, mpwr := 0,
    invalidSince := 0, invalidLong := false, gapInt := false, secQ := 0, secAbs := 0, secN := 0, secU0 := 0, secV1 := 0, secV2 := 0,
    secV3 := 0, cr1 := Cross.reset, cr2 := Cross.reset, cr3 := Cross.reset, seqCand := 0, seqRun := 0, intImp := 0,
    intExp := 0 }

/-- One evaluation of the cross-meter balance as READ_BALANCE returns it (R108, R114). -/
structure BalEval where
  start : BitVec 64
  dur : Word
  g : Word
  o : Word
  a : Word
  l : Word
  d : Word
  fail : Bool
  skipped : Bool
  outage : Bool
  split : Bool
  deriving DecidableEq, Repr

/-- The cross-meter balance (R108, R109). -/
structure Balance where
  alarm : Bool
  run : BitVec 4
  failCnt : BitVec 16
  dev : Word
  hist : List BalEval        -- newest first, at most 16
  skip : Bool                -- a commit of R93 fell within the present interval
  deriving DecidableEq, Repr

def Balance.reset : Balance := { alarm := false, run := 0, failCnt := 0, dev := 0, hist := [], skip := false }

/-- One pulse output (R110 to R112). -/
structure Pulse where
  e0 : Nat
  queued : Nat               -- pulses queued since e0
  endNs : Nat                -- system time at which the pulse on the output ends
  pend : BitVec 16
  sat : Bool
  cnt : Word
  lastNs : Option Nat        -- system time of the start of the previous pulse
  deriving DecidableEq, Repr

def Pulse.reset : Pulse := { e0 := 0, queued := 0, endNs := 0, pend := 0, sat := false, cnt := 0, lastNs := none }

/-- A snapshot that waits: T, its meters, and the accumulators of those that have had a sample at or after T (R115). -/
structure SnapWait where
  t : BitVec 64
  mask : BitVec 12
  acc : Vector (Option (BitVec 160 × BitVec 160)) 12
  deriving DecidableEq, Repr

/-- The snapshot buffer (R115). -/
structure Snap where
  t : BitVec 64
  seq : Word
  mask : BitVec 12
  acc : Vector (BitVec 160 × BitVec 160) 12
  wait : Option SnapWait     -- a snapshot is being taken
  deriving DecidableEq, Repr

def Snap.reset : Snap := { t := 0, seq := 0, mask := 0, acc := Vector.replicate 12 (0, 0), wait := none }

/-- The MET block. -/
structure Met where
  ch : Vector Chan 32
  tick : Vector TickSum 32   -- tick sums of the trip lane (R242)
  grp : Vector Group 2
  rp : Vector RPair 8
  adc : Vector Adc 4
  ainGain : Vector Nat 16    -- the stored gain of each input (R84)
  ain : Vector Ain 16
  rs : Resamp
  filterFault : Bool
  m : Vector Meter 12
  bal : Balance
  pls : Vector Pulse 8
  snap : Snap
  wrapStart : Vector (Nat × Nat) 12 -- import and export wrap numbers at the end of start-up (R104)
  deriving DecidableEq, Repr

def Met.reset : Met :=
  { ch := Vector.replicate 32 Chan.reset, tick := Vector.replicate 32 { sum := 0, n := 0, sq := 0, ok := true },
    grp := Vector.replicate 2 Group.reset, rp := Vector.replicate 8 RPair.reset, adc := Vector.replicate 4 Adc.reset,
    ainGain := Vector.replicate 16 0, ain := Vector.replicate 16 Ain.reset, rs := Resamp.reset, filterFault := false,
    m := Vector.replicate 12 Meter.reset, bal := Balance.reset, pls := Vector.replicate 8 Pulse.reset,
    snap := Snap.reset, wrapStart := Vector.replicate 12 (0, 0) }

/-! ### BILL: slices, sessions, records, audit log and tokens (chapters 06 and 07) -/

/-- One line of a session: a tariff and a direction with energy or time (R129). -/
structure Line where
  tariff : Nat
  exp : Bool
  price : Word
  energy : Nat               -- mWh
  ecost : Int                -- 10^-6 currency
  tfee : Word
  timeNs : Nat
  tcost : Nat
  deriving DecidableEq, Repr

/-- The three states of a session (R126 to R128). -/
inductive SessState where
  | opened | running | stopping
  deriving DecidableEq, Repr

/-- The key of a token in the ledger (R155). -/
structure TokenKey where
  kid : BitVec 3
  iday : BitVec 14
  serial : BitVec 14
  deriving DecidableEq, Repr

/-- One session (R126 to R129, R158). -/
structure Session where
  state : SessState
  meter : MeterId
  id : BitVec 64
  auth : Byte
  extref : List Byte
  openNs : BitVec 64
  pimp : Vector Word 16      -- prices copied at S (R119)
  pexp : Vector Word 16
  tfee : Vector Word 16
  sfee : Word
  currency : BitVec 10
  minor : BitVec 2
  ltStart : BitVec 64
  nsStart : BitVec 64
  eiStart : BitVec 64
  eeStart : BitVec 64
  tariffS : Byte             -- [7:4] import, [3:0] export tariff at S
  startSeq : Word
  lines : List Line
  flags : BitVec 16          -- the flags of R140 gathered so far
  metered : Bool             -- its slices are priced: the values at S are taken, and those at E are not (R127, R128)
  lostAt : Nat               -- audit entries lost before the session's span
  lost : Bool                -- audit entries were lost within it, once it has ended (R140)
  reason : Option Byte       -- the stop reason of R128, from the first demand
  ltStop : BitVec 64
  eiStop : BitVec 64
  eeStop : BitVec 64
  durNs : Nat                -- system-time length (R129, R137)
  gapBound : Nat
  credit : Nat               -- 0.01 currency, token sessions
  token : Option TokenKey
  deriving DecidableEq, Repr

/-- The running slice of a meter (R117). -/
structure Slice where
  imp : BitVec 64            -- legal views at its start
  exp : BitVec 64
  ns : BitVec 64             -- system time of its start
  enImp : Option (BitVec 64 × BitVec 64) -- the legal views recorded in METER_ENABLED (R118)
  deriving DecidableEq, Repr

/-- The running demand-interval part (R122). -/
structure Part where
  lt : BitVec 64             -- its start, legal time in ms
  ns : BitVec 64             -- system time from which it has been metered
  imp : Vector (BitVec 64) 12 -- the meters' legal views at its start
  exp : Vector (BitVec 64) 12
  flags : BitVec 16
  gaps : BitVec 12           -- the meters with samples held or zeroed within it (R140)
  ovrs : BitVec 12           -- the meters with POWER_OVR within it (R140)
  lostAt : Nat               -- audit entries lost before it
  deriving DecidableEq, Repr

/-- A part that has closed and whose demand record is not yet written: at the power-fail warning the part closes, and the
next start writes its record (R136, R420). -/
structure ClosedPart where
  lt : BitVec 64
  durNs : Nat
  imp : Nat                  -- mWh in the part
  exp : Nat
  flags : BitVec 16          -- with the flags of the balance
  balD : Word
  lost : Bool                -- audit entries were lost within it (R140)
  deriving DecidableEq, Repr

/-- What a boundary does at its instant, with the increments that precede it (R101, R117). -/
inductive BoundKind where
  | demand | period | switch           -- of the calendar (R120, R122, R124)
  | start (n : Fin 8)                  -- a session's S (R127)
  | stop (n : Fin 8)                   -- a session's E (R128)
  | pass (old new : Int)               -- what a forward adjustment within the limit steps over (R130)
  | back (new : Nat)                   -- a set-back within the limit (R130, R132)
  | adjust (old : Nat) (adj : Int) (new : Nat) -- an adjustment beyond the limit (R131)
  | first (new : Nat)                  -- the first SET_TIME while legal time is lost (R420)
  | commit (cal part bp : Bool)        -- a BILL commit: of the calendar, of DINT or TZOFS, of BPDAY or TZOFS (R117, R122)
  | skip                               -- a MET commit whose interval the balance skips (R93)
  deriving DecidableEq, Repr

/-- The place of a boundary among those of the same instant (R125). -/
def BoundKind.rank : BoundKind → Option Nat
  | .demand => some 0
  | .period => some 1
  | .switch => some 2
  | .stop _ => some 3
  | .start _ => some 4
  | .pass _ _ => none
  | .back _ => none
  | .adjust _ _ _ => none
  | .first _ => none
  | .commit _ _ _ => none
  | .skip => none

/-- A boundary that waits until no sample with an instant before it is still to come: its system time, the LOFS, LVALID and
high-water mark of legal time and the parameter registers at it, the accumulators of each meter that has passed it, and the
meters with a gap after it. -/
structure Bound where
  ns : BitVec 64
  lofs : BitVec 64
  lvalid : Bool
  hwm : BitVec 64
  params : List (Nat × Word)
  acc : Vector (Option (BitVec 160 × BitVec 160)) 12
  gaps : BitVec 12
  what : BoundKind
  deriving DecidableEq, Repr

/-- What the legal region shows of the session that ended last, until the next one opens (R173). -/
structure Ended where
  startView : Nat            -- import legal view at S, mWh
  energy : Nat
  price : Word
  billed : Int               -- COST_BILLED in minor units
  currency : BitVec 10
  minor : BitVec 2
  flags : BitVec 16
  deriving DecidableEq, Repr

/-- The session, tariff and interval state that the kernel journals and recovery restores (R33, R137). -/
structure BillCore where
  slices : Vector Slice 12
  treg : Vector (Vector (BitVec 64 × BitVec 64) 16) 12
  part : Part
  bounds : List Bound        -- the boundaries that wait for their samples, oldest first (R101, R117)
  due : BitVec 64            -- legal time in ms after which the next demand boundary lies: the start of the part, or an earlier time after a small set-back (R130, R132)
  bpFrom : BitVec 64         -- legal time in ms after which the next billing-period close lies (R124, R132)
  ti : BitVec 4              -- active import and export tariffs (R120)
  te : BitVec 4
  season : BitVec 4
  special : Bool
  sess : Vector (Option Session) 8
  ended : Vector (Option Ended) 8
  held : List ClosedPart     -- the parts that a warning or a cut closed, oldest first
  bpLost : Nat               -- audit entries lost before the running billing period (R140)
  bpShift : Bool             -- an adjustment beyond the limit lies within it (R133)
  bpc : Word
  lastBp : BitVec 64         -- instant of the last billing-period close in ms (R132)
  maxDem : Nat               -- R124
  adjSum : Nat               -- small adjustments of one demand interval, in ms (R130)
  adjInt : BitVec 64         -- the start of that interval, legal time in ms
  lostW : Nat                -- audit entries lost before the last warning or cut (R140)
  deriving DecidableEq, Repr

/-- A record of R138 without its signature, or with it once signed. -/
structure Record where
  rtype : Byte
  seq : Word
  body : List Byte
  sig : List Byte
  acked : Bool
  port : Option (Fin 8)      -- the session it starts or stops
  deriving DecidableEq, Repr

/-- One entry of the metrology audit log (R143). -/
structure AuditEntry where
  seq : Word
  lt : BitVec 64
  typ : BitVec 16
  source : Byte
  reason : Byte
  item : Word
  old : Word
  new : Word
  chain : Word
  deriving DecidableEq, Repr

/-- The seal of R145. -/
structure Seal where
  first : Word
  last : Word
  digest : List Byte
  sig : List Byte
  deriving DecidableEq, Repr

/-- One entry of the used-token ledger (R155). -/
structure LedgerEntry where
  key : TokenKey
  spent : Bool
  credit : BitVec 16
  id : BitVec 64
  lt : BitVec 64
  deriving DecidableEq, Repr

/-- A verified token: its fields of R153. -/
structure Token where
  key : TokenKey
  credit : BitVec 16
  deriving DecidableEq, Repr

/-- A token entry in progress and the results of R149 to R151. -/
structure Tokens where
  entry : Bool
  keys : List (BitVec 4)     -- keys so far, first key first
  lastPort : Option (Fin 8)  -- the port entered for the last result (R162)
  lastCode : Option Byte
  lastTok : Option Token
  pendTok : Vector (Option (Token × BitVec 64)) 8 -- the pending tokens and the system time of each (R150)
  invalidAt : List (BitVec 64) -- system times of INVALID results, newest first, at most 5 (R151)
  lockedAt : Option (BitVec 64)
  invalidCnt : BitVec 16
  acceptCnt : BitVec 16
  ledgerFull : Bool
  ledger : List (Option LedgerEntry) -- the ledger's entries by index; never longer than 8,192
  ledgerOld : List (Option LedgerEntry) -- the ledger before its newest change, its older generation (R34)
  slots : Vector (Option (BitVec 128)) 8 -- KT of each key slot (R161)
  deriving DecidableEq, Repr

/-- The BILL block, with the audit log. -/
structure Bill where
  core : BillCore
  sessCount : BitVec 64      -- sessions opened since manufacture (R126)
  recSeq : Word              -- the SEQ of the next record (R138)
  store : List Record        -- the record store, oldest first (R141)
  demand : List Record       -- the demand ring, newest first (R122)
  signing : List Record      -- records whose signing request waits, oldest first (R139)
  adjBig : BitVec 16
  adjSmall : BitVec 16
  audit : List AuditEntry    -- newest first
  auditSeq : Word            -- SEQ of the next entry
  auditRead : Nat            -- how many of the oldest entries READ_AUDIT has copied without a gap (R34)
  auditChain : Word          -- w7 of the newest entry ever written
  lostCnt : BitVec 16
  lostTotal : Nat            -- entries lost since manufacture, for AUDIT_LOST
  sealPend : Option (Word × Word) -- a seal being made: first and last SEQ
  seal_ : Option Seal        -- the pending seal (R145)
  ocmfPend : Option Word     -- SEQ of a READ_OCMF in progress
  recBuf : List Byte         -- BILL 0x3000
  ocmfBuf : List Byte        -- BILL 0x5000
  auditBuf : List Byte       -- MET 0x3400
  sealBuf : List Byte        -- MET 0x3C00
  mbxin : List Byte          -- BILL_MBXIN
  tok : Tokens
  deriving DecidableEq, Repr

def Part.reset : Part :=
  { lt := 0, ns := 0, imp := Vector.replicate 12 0, exp := Vector.replicate 12 0, flags := 0, gaps := 0, ovrs := 0, lostAt := 0 }

def BillCore.reset : BillCore :=
  { slices := Vector.replicate 12 { imp := 0, exp := 0, ns := 0, enImp := none },
    treg := Vector.replicate 12 (Vector.replicate 16 (0, 0)), part := Part.reset, bounds := [], due := 0, bpFrom := 0, ti := 0, te := 0, season := 0,
    special := false, sess := Vector.replicate 8 none, ended := Vector.replicate 8 none, held := [],
    bpLost := 0, bpShift := false, bpc := 0, lastBp := 0, maxDem := 0, adjSum := 0, adjInt := 0, lostW := 0 }

def Tokens.reset : Tokens :=
  { entry := false, keys := [], lastPort := none, lastCode := none, lastTok := none, pendTok := Vector.replicate 8 none,
    invalidAt := [], lockedAt := none, invalidCnt := 0, acceptCnt := 0, ledgerFull := false, ledger := [],
    ledgerOld := [], slots := Vector.replicate 8 none }

def Bill.reset : Bill :=
  { core := BillCore.reset, sessCount := 0, recSeq := 0, store := [], demand := [], signing := [],
    adjBig := 0, adjSmall := 0, audit := [], auditSeq := 0, auditRead := 0, auditChain := 0, lostCnt := 0, lostTotal := 0,
    sealPend := none, seal_ := none, ocmfPend := none, recBuf := [], ocmfBuf := [], auditBuf := [], sealBuf := [],
    mbxin := List.replicate 128 0, tok := Tokens.reset }

/-! ### DISP: the legal display (chapter 08) -/

/-- A request that waits in a region's pending slot (R175). -/
structure PendUpd where
  mode : BitVec 3
  legal : Bool
  initFirst : Bool           -- it begins with INIT (R181)
  redraw : Bool              -- it counts as a redraw of R181 for R182
  mark : Bool                -- REDRAW_NEEDED is set when it ends (R181 item 3)
  order : Nat                -- age in the oldest-first order
  src : Word                 -- DISP_UPDSRC at the request
  deriving DecidableEq, Repr

/-- What a legal region shows (the table under R172, R2). -/
structure LegalContent where
  outlet : Nat
  state : Nat                -- 0 FREE, 1 SESSION, 2 ENDED, 3 OUT OF SERVICE
  impWh : Nat
  expWh : Option Nat
  startView : Option Nat
  energy : Nat
  price : Nat
  cost : Int                 -- the cost so far in 10^-6 of the currency, or COST_BILLED in its minor unit
  billed : Option (BitVec 10 × BitVec 2) -- after the stop: the site currency and the decimals of its minor unit
  flags : BitVec 16
  ident : String             -- line 6: "MK 3.2", the kernel checksum and the metrology check value
  ksum : Word
  mchk : Word
  deriving DecidableEq, Repr

/-- What a region of the panel shows. -/
inductive Shown where
  | unknown                  -- its levels were lost with the engine's memory (R181)
  | white                    -- after INIT
  | legal (c : LegalContent)
  | pixels (l : List Byte)   -- a host image: packed 4-bit levels, row by row
  | hatched                  -- parked: white with the border of R180
  | mixed                    -- an abandoned update's mixture of old and new (R180)
  deriving DecidableEq, Repr

/-- A running update (R174, R178). -/
structure RunUpd where
  mode : BitVec 3
  next : Option (BitVec 3)   -- the mode that follows INIT
  legal : Bool
  redraw : Bool
  mark : Bool
  src : Word
  frames : Nat               -- frames of the waveform
  band : BitVec 4
  startNs : BitVec 64        -- system time of the first frame
  order : Nat                -- the age of its request
  target : Shown             -- what the region shows at its end
  deriving DecidableEq, Repr

/-- One region (R170, R178). -/
structure Region where
  run : Option RunUpd
  pend : Option PendUpd
  useq : BitVec 16
  intentOpen : Bool          -- the last intent record (R178): its state, its mode and its legal time in ms
  intentMode : BitVec 3
  intentLt : BitVec 64
  parked : Bool
  damaged : Bool
  redrawNeeded : Bool
  needInit : Bool            -- no update of the region has been drawn since the start (R181)
  drawn : Bool               -- the GC16 redraw of R30 is done
  shown : Shown
  deriving DecidableEq, Repr

/-- The rails of R165, in the order in which they come up. -/
inductive Rail where
  | vgl | vsl | vsh | vgh | vcom
  deriving DecidableEq, Repr

/-- The rails together: down; rising, with k of them up and the next on its way since a system time; up; or falling, with k + 1
not yet down and the last of these on its way (R165). -/
inductive Rails where
  | down
  | rising (k : Fin 5) (since : BitVec 64)
  | up
  | falling (k : Fin 5) (since : BitVec 64)
  deriving DecidableEq, Repr

/-- The DISP block. -/
structure Disp where
  rgn : Vector Region 16
  rails : Rails
  railFault : Bool
  wftBad : Bool
  tempRange : Bool
  tempStale : Bool
  flPermit : Bool
  pfwBlock : Bool
  band : BitVec 4
  temp : BitVec 12
  lastT : Option Int         -- last valid panel temperature, in 1/16 °C
  faultRun : Nat             -- consecutive rail faults (R184)
  retry : Bool               -- a retry of R183 is due
  updsrc : Word
  replaced : Bool
  refused : Bool
  replacedCnt : BitVec 16
  parkCnt : BitVec 16
  railfCnt : BitVec 8
  order : Nat                -- the next request's age
  vcom : BitVec 9            -- VCOM_SET, SDDIV and geometry in effect since the rails' last power-up (R166)
  sddiv : BitVec 4
  panel : Word
  wf : Waveform              -- the waveform tables' header, as loaded (R167)
  deriving DecidableEq, Repr

def Region.reset : Region :=
  { run := none, pend := none, useq := 0, intentOpen := false, intentMode := 0, intentLt := 0, parked := false, damaged := false,
    redrawNeeded := false, needInit := true, drawn := false, shown := .unknown }

def Disp.reset : Disp :=
  { rgn := Vector.replicate 16 Region.reset, rails := .down, railFault := false, wftBad := false, tempRange := false,
    tempStale := false, flPermit := false, pfwBlock := false, band := 0, temp := 0, lastT := none, faultRun := 0,
    retry := false, updsrc := 0, replaced := false, refused := false, replacedCnt := 0, parkCnt := 0, railfCnt := 0,
    order := 0, vcom := 0, sddiv := 0, panel := 0, wf := { limits := [], frames := [], power := [] } }

/-! ### VPn: pilot, proximity and vehicle link (chapters 09 and 10) -/

/-- The pilot classes of VP_CPSTAT.STATE, in the order of their codes. -/
inductive PState where
  | a | b | c | d | e | f | invalid | unknown
  deriving DecidableEq, Repr

/-- Pilot output modes of R187. -/
inductive PMode where
  | f | x1 | pwm
  deriving DecidableEq, Repr

/-- A debounced fault flag of R194 and R195: the flag and the run of periods against it. -/
structure PFlag where
  on : Bool
  run : Nat
  deriving DecidableEq, Repr

/-- A classifier of the high plateau: the engine's or Caldera's copy (R193, R197). -/
structure PClass where
  cls : PState
  cand : PState              -- candidate class and its run
  run : Nat
  deriving DecidableEq, Repr

def PClass.reset : PClass := { cls := .unknown, cand := .unknown, run := 0 }

/-- The pilot and proximity engine of one port. -/
structure Pilot where
  duty : BitVec 11           -- VP_CPCTL
  mode : BitVec 2
  effMode : PMode            -- VP_CPSTAT.OUT
  effDuty : BitVec 11
  cutShort : Bool            -- an override interrupted the period in progress (R189)
  ovr : Option PMode         -- the override in force (R189)
  diode : PFlag
  lowRange : PFlag
  outFault : PFlag
  senseFault : PFlag
  state : PState
  eng : PClass               -- the engine's class: STATE but for SENSE_FAULT (R193, R195)
  cal : PClass               -- Caldera's class of the same values (R197)
  lastMv : Option Int        -- the last pilot sample of the period before, in mV (R195)
  vhigh : Int                -- VP_CPMEAS, in 10 mV
  vlow : Int
  mduty : BitVec 11
  res : BitVec 16            -- VP_PPSTAT
  ppclass : BitVec 4
  ppCand : BitVec 4
  ppRun : Nat
  stchgCnt : BitVec 16
  faultCnt : BitVec 16
  evt : Byte                 -- VP_PEVT [6:0]
  disagree : Nat             -- consecutive periods in which Caldera's class differs (R197)
  demandF : Bool             -- a safety demand from a pilot fault holds the output in F until re-armed (R189)
  deriving DecidableEq, Repr

def Pilot.reset : Pilot :=
  { duty := 100, mode := 0, effMode := .f, effDuty := 100, cutShort := false, ovr := none,
    diode := { on := false, run := 0 }, lowRange := { on := false, run := 0 }, outFault := { on := false, run := 0 },
    senseFault := { on := false, run := 0 }, state := .unknown, eng := PClass.reset, cal := PClass.reset,
    lastMv := none, vhigh := 0, vlow := 0,
    mduty := 0, res := 0xFFFF, ppclass := 0xF, ppCand := 0xF, ppRun := 0, stchgCnt := 0, faultCnt := 0, evt := 0,
    disagree := 0, demandF := false }

/-- VP_LSTAT.LSTATE. -/
inductive LState where
  | off | idle | sounding | assigned | matched | linkUp | linkDown
  deriving DecidableEq, Repr

/-- A pushed transmit slot (R219). -/
structure Push where
  slot : Fin 8
  len : Nat
  cap : BitVec 2
  deriving DecidableEq, Repr

/-- The robust mode of a transmitted frame: STD-ROBO, XR6, or one that the profile gives its kind (R209). -/
inductive Robust where
  | std | xr6 | profile
  deriving DecidableEq, Repr

/-- A management message that a port has sent of its own (R201 to R209). -/
inductive Mme where
  | slacParamCnf (mac : BitVec 48) (run : BitVec 64)
  | attenCharInd (mac : BitVec 48) (run : BitVec 64) (atten : Nat)
  | slacMatchCnf (mac : BitVec 48) (run : BitVec 64) (nmk : BitVec 128) (nid : BitVec 56)
  | validateCnf (mac : BitVec 48)
  | xrCapReq (oui : BitVec 24) (version : Nat)
  deriving DecidableEq, Repr

/-- A queued record operation (R221). -/
structure TlsOp where
  src : Word
  dst : Word
  len : Nat
  ctype : Byte
  deriving DecidableEq, Repr

/-- One direction of a record engine (R220, R221). -/
structure TlsDir where
  stage : Vector Word 19
  keys : Option (Nat × List Word)  -- suite and key words installed
  seq : Nat
  stopped : Bool
  queue : List TlsOp
  deriving DecidableEq, Repr

def TlsDir.reset : TlsDir := { stage := Vector.replicate 19 0, keys := none, seq := 0, stopped := false, queue := [] }

/-- The vehicle link of one port. -/
structure Link where
  xr6en : Bool               -- VP_LCFG
  txatt : BitVec 5
  lsup : BitVec 10
  blen : Bool                -- VP_BLANK
  swdefer : Bool
  thr : BitVec 5
  swthr : BitVec 5
  ext : BitVec 4
  swLen : Vector (BitVec 16) 4   -- VP_SWCOIL, then VP_SWCAN[0..2]
  swDly : Vector (BitVec 16) 4
  margin : Byte              -- VP_SLACCFG
  defmax : BitVec 3
  minsnd : BitVec 5
  lstate : LState
  ambigMacs : List (BitVec 48)   -- the vehicles deferred until REARM; AMBIG while there is one (R206)
  xr6 : Bool
  xrWait : Bool              -- an XR_CAP.REQ awaits its answer (R209)
  atten : BitVec 16          -- VP_SLACRES
  mrg : BitVec 12
  result : BitVec 4
  assigned : Option (BitVec 48 × BitVec 64)
  rspSeen : Bool             -- CM_ATTEN_CHAR.RSP of the assigned run has come (R205)
  nmk : Option (BitVec 128)
  nid : BitVec 56
  rxen : Bool                -- VP_QCFG
  coal : BitVec 5
  tmo : BitVec 10
  slots : Vector (List (Nat × Word)) 8   -- the transmit buffer's words, those that are not zero
  pushes : List Push         -- in push order
  sent : Byte
  failB : Byte
  rxStore : List (List Byte) -- records not yet taken by DMA, oldest first
  rxOff : Nat                -- bytes of the oldest record that DMA has taken
  rxSince : Nat              -- records completed since the last receive event (R217)
  fseq : Word
  windows : List (Nat × Nat) -- open and announced switching windows: start and end in ns of system time
  winHeard : List (Nat × Nat × Nat) -- the announced windows that have not ended before the last frame sent: the instant of the
                             -- announcement, start and end (R212, R213)
  robust : Option Robust     -- the robust mode of the last frame sent (R209)
  rms2 : Option Nat          -- the running mean of R211, in 1/1024; none before the first sample
  mmeOut : List Mme          -- messages the port has sent, newest first
  mmeHeld : List Mme         -- its own messages that switching windows hold, oldest first (R213)
  rxdrop : BitVec 16
  rxerr : BitVec 16
  erased : BitVec 16
  frameLost : BitVec 16
  mmedrop : BitVec 16
  txtmoCnt : BitVec 16
  blankSym : BitVec 16
  deferCnt : BitVec 16
  evt : BitVec 11            -- VP_LEVT [9:1]
  mmeSec : Nat               -- the second of system time that mmeCnt counts (R223)
  mmeCnt : Nat
  deriving DecidableEq, Repr

def Link.reset : Link :=
  { xr6en := true, txatt := 0, lsup := 100, blen := true, swdefer := false, thr := 14, swthr := 6, ext := 8,
    swLen := Vector.set (Vector.replicate 4 0) 0 2000, swDly := Vector.replicate 4 0, margin := 60, defmax := 3,
    minsnd := 5, lstate := .off, ambigMacs := [], xr6 := false, xrWait := false, atten := 0, mrg := 0,
    result := 0, assigned := none, rspSeen := false, nmk := none, nid := 0, rxen := false, coal := 4, tmo := 100,
    slots := Vector.replicate 8 [], pushes := [], sent := 0, failB := 0, rxStore := [], rxOff := 0, rxSince := 0,
    fseq := 0, windows := [], winHeard := [], robust := none, rms2 := none, mmeOut := [], mmeHeld := [], rxdrop := 0, rxerr := 0, erased := 0, frameLost := 0, mmedrop := 0,
    txtmoCnt := 0, blankSym := 0, deferCnt := 0, evt := 0, mmeSec := 0, mmeCnt := 0 }

/-- The record engine of one port. -/
structure Tls where
  en : Bool
  suite : BitVec 4
  selDir : Bool
  selWord : BitVec 5
  tx : TlsDir
  rx : TlsDir
  src : Word
  dst : Word
  result : BitVec 4
  itype : Byte
  olen : BitVec 15
  deriving DecidableEq, Repr

def Tls.reset : Tls :=
  { en := false, suite := 0, selDir := false, selWord := 0, tx := TlsDir.reset, rx := TlsDir.reset, src := 0, dst := 0,
    result := 0, itype := 0, olen := 0 }

/-- One vehicle port. -/
structure Vp where
  pilot : Pilot
  link : Link
  tls : Tls
  deriving DecidableEq, Repr

def Vp.reset : Vp := { pilot := Pilot.reset, link := Link.reset, tls := Tls.reset }

/-- One matching attempt of one vehicle (R203 to R207). -/
structure SlacRun where
  mac : BitVec 48
  run : BitVec 64
  announced : Nat
  starts : Byte              -- ports that heard the start
  snd : Vector Nat 8         -- soundings received per port
  sum : Vector Nat 8         -- sum of the per-group attenuation in dB over them
  decided : Bool
  deriving DecidableEq, Repr

/-- The device-wide part of the arbitration: runs, and per vehicle the consecutive deferrals (R206). -/
structure Slac where
  runs : List SlacRun
  deferred : List (BitVec 48 × Nat)
  deriving DecidableEq, Repr

/-! ### SAFE: Caldera (chapters 11 to 14) -/

/-- What a demand comes from, and so what ends it (R243, R247). -/
inductive Why where
  | sf01 | rcSensor                    -- SF01: residual current; sensor faulty
  | imdFault | imdUnknown              -- SF02
  | weld | dropOut | tieDrop           -- SF05 and the feedback check of R286, for an outlet and for a tie's group
  | overTemp | derate | sensor         -- SF07
  | fastTrip | overVolt | overCurr     -- SF08
  | pilotB | pilotLoss | pilotFault | prox -- SF09
  | invalid                            -- an invalid trip-lane channel (R248)
  | pair (j : Fin 8)                   -- SF06: a stop pair
  | link (k : Fin 16)                  -- SF10: a stop bit of a connection
  | loss (k : Fin 16)                  -- SF10: a connection's watchdog or dual-network mismatch
  | ends                               -- host, kernel, DEGRADED, bus-off and others that end with the contactors open
  deriving DecidableEq, Repr

/-- A demand that has been raised and waits for the end of the tick to be accepted (R242, R243). cause is the bit of
SAFE_OUTSTAT.CAUSE: 0 to 9 for SF01 to SF10, 10 for an invalid channel, 11 for host or kernel, 12 for none of them. -/
structure Raise where
  port : Fin 8
  cat : Nat
  cause : Nat
  reason : Byte              -- the stop reason of R128 it gives the session
  why : Why
  deriving DecidableEq, Repr

/-- An active demand of an outlet (R243). -/
structure Dem where
  cat : Nat
  cause : Nat
  why : Why
  deriving DecidableEq, Repr

/-- The states of SAFE_CONSTAT. -/
inductive ConState where
  | open_ | wait | closing | closed | opening | fault
  deriving DecidableEq, Repr

/-- SAFE_COILSTAT.DRIVE. A pulse test is one whole step, so no state between commands shows code 3. -/
inductive Drive where
  | off | pullIn | hold
  deriving DecidableEq, Repr

/-- Where a planned coil operation stands (R24, R54, R231). -/
inductive Phase where
  | none                     -- no operation planned
  | conds                    -- a close waits for its conditions
  | queued                   -- the conditions have held; the close waits for a pull-in place and the budget grant
  | annClose                 -- announced: the coil command follows
  | annOpen
  deriving DecidableEq, Repr

/-- The window of R263 after a coil-off command. -/
structure WeldWin where
  le10 : Bool                -- the across voltage stayed at or below 10 V
  ge60 : Bool                -- |V_group| stayed at or above 60 V
  lo : Rat                   -- range of V_group in the window
  hi : Rat
  any : Bool                 -- a tick has been counted
  deriving DecidableEq, Repr

/-- A tie request that the supervisor is carrying out (R230, R233, R234). -/
structure TieOp where
  open_ : Bool
  commit : Bool              -- part of a commit's sequence
  cmd : Bool                 -- the coil operation has been announced or queued
  join : List (Fin 6)        -- segments of the joining sides whose pre-check has been asked for (R233)
  deriving DecidableEq, Repr

/-- One coil pair with its contactor. -/
structure Coil where
  st : ConState
  drive : Drive
  ph : Phase
  run : Nat                  -- consecutive ticks on which the close conditions held (R231)
  cmdTick : Nat              -- the tick of the last coil command (R278)
  req : Nat                  -- the number of the last close request (R232)
  fbo : Bool                 -- a coil-off command awaits its feedback (R262)
  mbx : Bool                 -- a CLOSE_REQ awaits this contactor (R299)
  coilf : Bool
  tstale : Bool
  fbclose : Bool
  fbdrop : Bool
  emopen : BitVec 16         -- EMOPEN_CNT
  limit : Bool
  win : Option WeldWin
  unproven : Bool
  welded : Bool              -- a weld has been declared
  passH : Nat                -- consecutive passed bright-pulse tests of each switch, at most 3 (R279)
  passL : Nat
  tie : Option TieOp
  deriving DecidableEq, Repr

def Coil.reset : Coil :=
  { st := .open_, drive := .off, ph := .none, run := 0, cmdTick := 0, req := 0, fbo := false, mbx := false, coilf := false, tstale := false,
    fbclose := false, fbdrop := false, emopen := 0, limit := false, win := none, unproven := false,
    welded := false, passH := 0, passL := 0, tie := none }

/-- A running ramp (R258): I0 per phase as sum and count of the tick before t0, and the ticks since t0. -/
structure Ramp where
  i0 : List (Int × Nat)
  k : Nat
  deriving DecidableEq, Repr

/-- One tick of the 1 s current window: per phase the magnitude of the tick sum, the sum of squares, and the count. -/
structure ITick where
  mag : Nat
  sq : Nat
  n : Nat
  deriving DecidableEq, Repr

/-- The validity of one channel of an outlet, tick by tick (R248). -/
structure ChanRun where
  bad : Nat                  -- consecutive ticks on which it was not valid
  good : Nat
  barred : Bool              -- closes are refused until it has been valid for 4 ticks
  deriving DecidableEq, Repr

def ChanRun.reset : ChanRun := { bad := 0, good := 0, barred := true }

/-- One outlet. -/
structure Outlet where
  dems : List Dem            -- active demands
  stop : BitVec 3            -- SAFE_OUTSTAT.STOP
  ramp : Option Ramp
  lims : Option (Nat × Nat)  -- V_EV and I_EV of the close request (R267)
  vlim : BitVec 16
  ilim : BitVec 16
  iallow : BitVec 16
  temp : BitVec 16
  derating : Bool
  tstop : Bool               -- T reached T_STOP and has not fallen 10 K below it (R265)
  stale0 : Bool              -- a sensor without a new fine value (R266)
  stale1 : Bool
  overRun : Nat              -- consecutive ticks of over-voltage (R269)
  runs : List ChanRun        -- of each channel that the functions use (R248)
  itick : List (List ITick)  -- the last 4,000 ticks, newest first
  fastV : Nat                -- consecutive fast samples above the threshold (R268)
  fastI : Vector Nat 3
  fasttrip : BitVec 16
  rampfail : BitVec 16
  rc : List (Int × Nat)      -- SF01's window: values and their weight in 3.2 µs, newest first (R249, R251)
  rcSeen : Bool              -- a value came within the tick
  rcMiss : Nat               -- consecutive ticks without one, outside the gap
  rcOk : Nat                 -- consecutive ticks on which the close condition of R250 held
  deriving DecidableEq, Repr

def Outlet.reset : Outlet :=
  { dems := [], stop := 0, ramp := none, lims := none, vlim := 0, ilim := 0, iallow := 0, temp := 0,
    derating := false, tstop := false, stale0 := false, stale1 := false, overRun := 0, runs := [],
    itick := [], fastV := 0, fastI := Vector.replicate 3 0, fasttrip := 0, rampfail := 0, rc := [],
    rcSeen := false, rcMiss := 0, rcOk := 0 }

/-- SAFE_IMDSTAT.STATE. -/
inductive ImdState where
  | good | warning | fault | unknown
  deriving DecidableEq, Repr

/-- One dwell of a measurement (R254): the driver's state and the averages over its second half. -/
structure Dwell where
  on : Bool
  up : Rat
  un : Rat
  deriving DecidableEq, Repr

/-- Where a pre-check stands (R255). -/
inductive Pre where
  | idle | running | passed | failed
  deriving DecidableEq, Repr

/-- The insulation monitor of one segment (R253 to R257). -/
structure Imd where
  st : ImdState
  riso : BitVec 20
  active : Bool              -- this segment's driver switches for its group
  prechk : Bool
  pre : Pre
  on : Bool                  -- the driver
  ticks : Nat                -- ticks of the present dwell
  up : Rat                   -- sums of the tick means over its second half
  un : Rat
  n : Nat
  dw : List Dwell            -- finished dwells, newest first, at most two
  r0 : Option Rat            -- the last riso
  deriving DecidableEq, Repr

def Imd.reset : Imd :=
  { st := .unknown, riso := 0, active := false, prechk := false, pre := .idle, on := false, ticks := 0, up := 0, un := 0,
    n := 0, dw := [], r0 := none }

/-- One safe input (R280, R281, R286). -/
structure SafeIn where
  val : Bool                 -- sampled at the last tick
  infault : Bool
  passes : Nat               -- consecutive passing test pulses
  passTick : Option Nat      -- tick of the last passing pulse
  deb : Bool                 -- debounced value of a feedback input
  run : Nat                  -- consecutive ticks of the other value
  deriving DecidableEq, Repr

def SafeIn.reset : SafeIn := { val := false, infault := false, passes := 0, passTick := none, deb := true, run := 0 }

/-- One stop pair, by its entry of SAFE_STOPCFG (R282 to R285). -/
structure StopPair where
  diff : Nat                 -- consecutive ticks on which the channels differ
  fired : Bool               -- the present disagreement has reached DT
  agree : Nat                -- consecutive ticks on which they agree
  ones : Nat                 -- consecutive ticks on which both read 1
  step1 : Option Nat         -- tick at which step 1 of R285 completed
  ties : Bool                -- closed ties are to open after the stops (R264)
  disc : BitVec 16           -- DISC_CNT
  latched : Bool             -- it raised the code 8 that is latched
  deriving DecidableEq, Repr

def StopPair.reset : StopPair :=
  { diff := 0, fired := false, agree := 0, ones := 0, step1 := none, ties := false, disc := 0, latched := false }

/-- A high pulse on LORST or on the re-arm input, measured in ticks (R44, R285). -/
structure Pulse0 where
  high : Nat                 -- ticks the level has been high; 0 when low
  rise : Nat                 -- tick of the rising edge
  ignore : Bool              -- a level ignored until it has been low
  fell : Option (Nat × Nat)  -- the pulse that ended with the last tick: length and rise
  deriving DecidableEq, Repr

def Pulse0.reset : Pulse0 := { high := 0, rise := 0, ignore := true, fell := none }

/-- SAFE_LINKSTAT.STATE. -/
inductive LinkState where
  | closed | connecting | open_ | failed
  deriving DecidableEq, Repr

/-- A first copy of a PDU on a dual connection: its network, its bytes, and whether it still waits for its second (R296). -/
structure Copy where
  net : Fin 2
  pdu : List Byte
  waits : Bool
  deriving DecidableEq, Repr

/-- One safety-link connection (R290 to R298). -/
structure Conn where
  st : LinkState             -- R295
  netdeg : Bool
  verfail : Bool
  key : Option (BitVec 128)
  txseq : BitVec 16
  rxseq : BitVec 16
  lost : BitVec 16
  crcerr : BitVec 16
  seqerr : BitVec 16
  stale : BitVec 16
  wdexp : BitVec 16
  single : BitVec 16
  ref : Option (Rat × Word)  -- ref and ref_time of R294
  acked : Bool               -- its own CONNECT has been acknowledged
  seen : Bool                -- the peer's CONNECT has been received
  press : Option Nat         -- tick of an accepted RESET_PRESS (R297)
  bits : Byte                -- stop bits of the last accepted DATA
  ones : Vector Nat 8        -- ticks on which each stop bit has read 1
  step1 : Vector (Option Nat) 8 -- the tick at which each completed step 1 of R285
  copies : List Copy         -- first copies, oldest first, at most 32 (R296)
  miss : Vector Nat 2        -- consecutive misses per network
  pairs : Nat                -- consecutive compared copies
  deriving DecidableEq, Repr

def Conn.reset : Conn :=
  { st := .closed, netdeg := false, verfail := false, key := none, txseq := 0, rxseq := 0, lost := 0, crcerr := 0,
    seqerr := 0, stale := 0, wdexp := 0, single := 0, ref := none, acked := false, seen := false, press := none,
    bits := 0xFF, ones := Vector.replicate 8 0, step1 := Vector.replicate 8 none, copies := [], miss := Vector.replicate 2 0, pairs := 0 }

/-- One entry of the safety log (R309), with the protection in force and whether READ_SLOG has returned it. -/
structure SlogEntry where
  seq : Word
  lt : BitVec 64
  typ : BitVec 16
  p : Bool
  tv : Bool
  source : Byte
  d0 : Word
  d1 : Word
  mode : BitVec 4
  chain : Word
  prot : Bool
  returned : Bool
  deriving DecidableEq, Repr

/-- A keypad confirmation entry (R288). -/
structure Entry where
  digits : List (BitVec 4)   -- first digit first
  star : Bool
  deriving DecidableEq, Repr

/-- The SAFE block. -/
structure Safe where
  raises : List Raise
  tick : Nat                 -- safety ticks since reset
  tm : Vector TickSum 32     -- the tick sums of the last tick (R242)
  latch : Bool               -- SAFE_CSTAT
  stOk : Bool
  causes : BitVec 10
  first : BitVec 4
  halted : Bool              -- a failed self-test after a command or at a reset (R46, R246)
  restarting : Bool          -- both cores restart after a command (R246)
  stDone : Option Nat        -- tick at which the self-test of this start ended (R44)
  spOk : Nat                 -- consecutive ticks on which the SP copies agreed since the reload
  rcOk : Nat                 -- consecutive ticks on which the RC cross-check passed
  refAt : List (BitVec 64)   -- system time at the last 64 ticks, newest first (R12)
  release : List (Fin 8)     -- outlets whose stop frames wait for the runtime to act (R23)
  sfevt : BitVec 5
  poolevt : BitVec 5
  sievt : BitVec 17          -- SAFE_SIEVT [16:0]
  linkevt : BitVec 16
  coil : Vector Coil 12
  out : Vector Outlet 8
  imd : Vector Imd 6
  si : Vector SafeIn 16
  pair : Vector StopPair 8
  rain : Pulse0
  lorst : Pulse0
  q : List (Fin 12)          -- closes that wait for a pull-in place and a grant, in order of request
  reqs : Nat                 -- close requests so far (R232)
  seq : Bool                 -- SAFE_POOLSTAT
  poolref : Bool
  rule : BitVec 4
  sited : Bool               -- a SITE commit has taken effect since the start (R238)
  relTick : Vector (Option Nat) 6 -- tick of the last stop-frame release of a module of each segment (R231)
  oosReq : Option (BitVec 8) -- the set of a SET_OOS that waits for contactors to open (R27)
  conn : Vector Conn 16
  chk : Word                 -- SAFE_CHKVAL
  confirmed : Option Word
  entry : Option Entry
  result : BitVec 2
  mism : Nat                 -- consecutive mismatches
  blocked : Bool
  slog : List SlogEntry      -- newest first, at most 1,024
  slogSeq : Word             -- SEQ of the next entry
  slogChain : Word
  protDrop : BitVec 16
  slogBuf : List Byte        -- SAFE 0x3400
  mbxin : List Byte          -- SAFE_MBXIN
  hours0 : BitVec 16         -- HOURS at the start of the present system time (R306)
  stDue : Bool
  tripDue : Byte
  ftfail : Byte
  deriving DecidableEq, Repr

def Safe.reset : Safe :=
  { raises := [], tick := 0, tm := Vector.replicate 32 { sum := 0, n := 0, sq := 0, ok := true }, latch := false,
    stOk := false, causes := 0, first := 0, halted := false, restarting := false, stDone := none, spOk := 0, rcOk := 0, refAt := [],
    release := [], sfevt := 0, poolevt := 0, sievt := 0, linkevt := 0, coil := Vector.replicate 12 Coil.reset,
    out := Vector.replicate 8 Outlet.reset, imd := Vector.replicate 6 Imd.reset, si := Vector.replicate 16 SafeIn.reset,
    pair := Vector.replicate 8 StopPair.reset, rain := Pulse0.reset, lorst := Pulse0.reset, q := [], reqs := 0, seq := false,
    poolref := false, rule := 0, sited := false, relTick := Vector.replicate 6 none, oosReq := none,
    conn := Vector.replicate 16 Conn.reset, chk := 0, confirmed := none, entry := none, result := 0, mism := 0,
    blocked := false, slog := [], slogSeq := 0, slogChain := 0, protDrop := 0, slogBuf := [],
    mbxin := List.replicate 128 0, hours0 := 0, stDue := false, tripDue := 0, ftfail := 0 }

/-! ### LOAD: protected load switches (chapter 15) -/

/-- What a channel defers while UVHOLD is set (R321). -/
inductive Deferred where
  | none | turnOn | restart | clear
  deriving DecidableEq, Repr

/-- One load channel. -/
structure LoadCh where
  cmd : BitVec 2
  on : Bool                  -- effective state on or pulsing
  inrush : Bool
  ilim : Bool
  tsd : Bool
  dtg : Bool
  latch : Bool
  shed : Bool
  defer : Deferred           -- UVHELD and what waits
  clrref : Bool
  rcnt : BitVec 4
  temp : BitVec 16
  tsdCnt : BitVec 16
  ilimCnt : BitVec 16
  evt : BitVec 4             -- LOAD_CHEVT
  fs : BitVec 2              -- the journaled fail-safe state and duty (R315)
  fsduty : Byte
  await : Bool               -- on or pulsing, and its first pulse since it was off is still to come (R317)
  pg : Fin 2                 -- PGSEL, PHASE and DUTY in effect since the last period start (R324)
  phase : Byte
  duty : BitVec 9
  deriving DecidableEq, Repr

/-- A pulse generator that runs or not: the system time at which its present period began, and the period in effect, in
periods of the reference (R324). -/
structure Gen where
  on : Bool
  start : BitVec 64
  per : Nat
  deriving DecidableEq, Repr

def LoadCh.reset : LoadCh :=
  { cmd := 0, on := false, inrush := false, ilim := false, tsd := false, dtg := false, latch := false, shed := false,
    defer := .none, clrref := false, rcnt := 0, temp := 0, tsdCnt := 0, ilimCnt := 0, evt := 0, fs := 0, fsduty := 0
    await := false, pg := 0, phase := 0, duty := 0 }

/-- The LOAD block. -/
structure Load where
  ch : Vector LoadCh 10
  gen : Vector Gen 2
  uvhold : Bool
  forced : Bool
  sense : BitVec 4
  test : Bool                -- LSENSE sources the fault level for SENSETEST (R323)
  wdEn : Bool
  wdOpen : BitVec 10
  wdClose : BitVec 10
  chal : BitVec 16
  wdLast : BitVec 64         -- system time from which the window runs
  cause : BitVec 2
  good : BitVec 2
  wdexp : BitVec 16
  deriving DecidableEq, Repr

def Load.reset : Load :=
  { ch := Vector.replicate 10 LoadCh.reset, gen := Vector.replicate 2 { on := false, start := 0, per := 1000 }, uvhold := false, forced := false, sense := 0, test := false, wdEn := false,
    wdOpen := 0, wdClose := 100, chal := 0xACE1, wdLast := 0, cause := 0, good := 0, wdexp := 0 }

/-! ### THL: the Thallus fabric, the site-image slots and partial reconfiguration (chapter 16) -/

/-- A running slot command (R339, R340). -/
inductive SlotCmd where
  | erase | write | verify | switch
  deriving DecidableEq, Repr

/-- THL_PRCTL.STATE; write-in is one whole step. -/
inductive PrState where
  | none | staging | staged
  deriving DecidableEq, Repr

/-- One frame in force: its cluster address and its 512 bytes. -/
structure Frame where
  cluster : Nat
  data : List Byte
  deriving DecidableEq, Repr

/-- The counters of one partition. -/
structure PartCnt where
  corr : BitVec 16
  reload : BitVec 16
  deriving DecidableEq, Repr

/-- The THL block, and what the loader has put into the fabric. -/
structure Thl where
  act : Fin 2                -- ACTSLOT
  next : Fin 2               -- NEXTSLOT, kept in Sinter (R340)
  fmt : BitVec 16            -- FMT_MAJOR and FMT_MINOR of the loaded image
  imgId : Word
  applied : Nat              -- patches applied at this start or since
  frames : Vector (List Frame) 8   -- the frame image of each partition, in rising cluster address (R492)
  portMap : List Byte        -- the port map in force (R334)
  metSec : List Nat          -- the word addresses of the MET and of the SAFE parameter section as loaded (R492)
  safeSec : List Nat
  verified : Vector Bool 2
  patches : Vector (List (Nat × Nat)) 2 -- committed patches of each slot: offset in the slot and length
  cmd : Option SlotCmd       -- the command that runs (BUSY)
  cmdSlot : Fin 2            -- its slot
  slot : Fin 2               -- THL_SLOTCTL.SLOT
  result : BitVec 4
  progSrc : Word
  progLen : BitVec 23
  progOfs : BitVec 22
  runSrc : Word              -- the source, length and offset that the running command has taken at its start (R339)
  runLen : BitVec 23
  runOfs : BitVec 22
  pr : PrState
  prResult : BitVec 4
  prSrc : Word
  prLen : BitVec 19
  stgSrc : Word              -- the source and length that the running staging has taken at its start (R343)
  stgLen : BitVec 19
  shadow : List Byte         -- the staged patch in the shadow store
  lastPass : Byte
  passCnt : Word
  parErr : Byte
  uncorr : Byte
  corrEvt : Byte
  prDone : Bool
  slotDone : Bool
  part : Vector PartCnt 8
  gout : Word
  gin : Word
  user : BitVec 80           -- levels of the signals on PLIC sources 176 to 255
  ball : BitVec 40           -- what G partitions drive on MB0 to MB31 and PLS0 to PLS7
  lastImg : Option Word      -- IMAGE_ID of the last image that ran, kept in Sinter
  lastMchk : Word            -- its metrology check value, kept in Sinter (R337)
  journal : List (Nat × Word) -- the change journal of R338 and R357, kept in Sinter
  deriving DecidableEq, Repr

def Thl.reset : Thl :=
  { act := 0, next := 0, fmt := 0, imgId := 0, applied := 0, frames := Vector.replicate 8 [], portMap := [], metSec := [], safeSec := [],
    verified := Vector.replicate 2 false, patches := Vector.replicate 2 [], cmd := none, cmdSlot := 0, slot := 0,
    result := 0, progSrc := 0, progLen := 0, progOfs := 0, runSrc := 0, runLen := 0, runOfs := 0,
    pr := .none, prResult := 0, prSrc := 0, prLen := 0, stgSrc := 0, stgLen := 0,
    shadow := [], lastPass := 0, passCnt := 0, parErr := 0, uncorr := 0, corrEvt := 0,
    prDone := false, slotDone := false, part := Vector.replicate 8 { corr := 0, reload := 0 }, gout := 0, gin := 0,
    user := 0, ball := 0, lastImg := none, lastMchk := 0, journal := [] }

/-! ### TXN: transactions (chapter 17) -/

/-- TXN_DSTAT.STATE. -/
inductive TxnState where
  | idle | open_ | queued | committing
  deriving DecidableEq, Repr

/-- One domain of R347. -/
structure TxnDom where
  st : TxnState
  ovf : Bool
  latewr : Bool
  result : Byte
  lease : Nat                -- lease left at leaseAt, in ns
  leaseAt : BitVec 64
  id : Word
  reason : Byte
  shadow : List (Nat × Word) -- written words, by application address
  keys : List (Nat × Option (BitVec 128)) -- token or connection keys loaded or disabled in the transaction
  deriving DecidableEq, Repr

def TxnDom.reset : TxnDom :=
  { st := .idle, ovf := false, latewr := false, result := 0, lease := 0, leaseAt := 0, id := 0, reason := 0,
    shadow := [], keys := [] }

/-- The TXN block: domains 0 SITE, 1 MET, 2 BILL, 3 SAFE, 4 DISP, 5 THL. -/
structure Txn where
  dom : Vector TxnDom 6
  queue : List (Fin 6)       -- accepted commits, the one in progress first (R354)
  begun : Word               -- transactions begun since manufacture (R348)
  commitCnt : BitVec 16
  rollbackCnt : BitVec 16
  expireCnt : BitVec 16
  deriving DecidableEq, Repr

def Txn.reset : Txn :=
  { dom := Vector.replicate 6 TxnDom.reset, queue := [], begun := 0, commitCnt := 0, rollbackCnt := 0, expireCnt := 0 }

/-! ### MESH and DMA (chapter 18) -/

/-- The MESH block. -/
structure Mesh where
  peak : BitVec 7
  par : BitVec 16
  uncorr : BitVec 16
  corr : BitVec 16
  lastPass : BitVec 16
  errAddr : Word
  errKind : BitVec 4
  errReq : BitVec 4
  evt : BitVec 4             -- DECE, CORRE, UNCORRE, PARE
  poison : List Nat          -- addresses of the 8-byte SRAM words that are uncorrectable (R367)
  deriving DecidableEq, Repr

def Mesh.reset : Mesh :=
  { peak := 0, par := 0, uncorr := 0, corr := 0, lastPass := 0, errAddr := 0, errKind := 0, errReq := 0, evt := 0,
    poison := [] }

/-- DMA_CHSTAT.STATE. -/
inductive DmaState where
  | idle | waitDesc | waitReq | running | aborting | halted
  deriving DecidableEq, Repr

/-- The RESULT of a descriptor (R376). -/
inductive DmaResult where
  | done | withdrawn | busError | eccError | badDesc | aborted
  deriving DecidableEq, Repr

/-- A burst that has been granted a buffer and not completed (R377). -/
structure DmaBurst where
  off : Nat                  -- its first byte in the descriptor's stream
  data : List Byte           -- its source, after SWAP
  dst : Nat                  -- its destination address
  late : Bool                -- it ran after its request was withdrawn (R382)
  deriving DecidableEq, Repr

/-- A descriptor that runs. -/
structure DmaRun where
  addr : Word                -- where it lies
  w : Vector Word 8
  granted : Nat              -- bytes of the stream granted so far
  bytes : Nat                -- bytes written to the destination
  flight : List DmaBurst     -- oldest first
  late : Bool
  err : Option DmaResult
  deriving DecidableEq, Repr

/-- One DMA channel. -/
structure DmaCh where
  en : Bool
  enref : Bool
  prio : BitVec 2
  reqsel : BitVec 5
  ring : BitVec 27
  rlen : BitVec 13
  head : BitVec 12
  st : DmaState
  lastRes : BitVec 3
  bytes : BitVec 24          -- BYTES while no descriptor runs
  done : Word
  errCnt : BitVec 15
  wdrCnt : BitVec 16
  desc : Word
  run : Option DmaRun
  pre : Option (Vector Word 8)  -- the descriptor at HEAD + 1, read ahead (R372)
  level : Nat                -- effective priority (R378)
  age : Nat                  -- grants to others while it waits
  deriving DecidableEq, Repr

def DmaCh.reset (c : Nat) : DmaCh :=
  { en := false, enref := false, prio := 0, reqsel := if c < 8 then BitVec.ofNat 5 (c + 1) else 0, ring := 0, rlen := 1,
    head := 0, st := .idle, lastRes := 0, bytes := 0, done := 0, errCnt := 0, wdrCnt := 0, desc := 0, run := none,
    pre := none, level := 0, age := 0 }

/-- The DMA engine. -/
structure Dma where
  age : BitVec 11            -- AGE in effect, 16 to 1,024
  evt : Word
  last : Nat                 -- the channel granted last, for the round-robin
  req : Word                 -- the request lines of R371, by REQSEL value
  ch : Vector DmaCh 32
  deriving DecidableEq, Repr

def Dma.reset : Dma := { age := 64, evt := 0, last := 31, req := 0, ch := Vector.ofFn fun c : Fin 32 => DmaCh.reset c.val }

/-! ### SEC and UPD (chapter 19) -/

/-- A queued operation of R391. -/
structure SecOp where
  op : BitVec 6
  port : BitVec 4
  key : BitVec 6
  len : BitVec 16
  src : Word
  dst : Word
  aux : Word
  deriving DecidableEq, Repr

/-- A host key: its type (1 P-256, 2 P-384, 3 AES-256), its secret wrapped under KW (R386), and whether it was imported. -/
structure HostKey where
  typ : BitVec 3
  wrapped : BitVec 384
  imported : Bool
  deriving DecidableEq, Repr

/-- The SEC block. -/
structure Sec where
  tamper : Bool
  fkd : Option (List Byte)   -- FKD and SKD, 48 bytes each, or blank (R387)
  skd : Option (List Byte)
  qfull : Bool
  queue : List SecOp         -- oldest first
  last : BitVec 4            -- the tag served last, for the round-robin
  tlsLast : Fin 8            -- the port whose record operation was served last (R222)
  tlsRun : Option (Fin 8)    -- the port whose record operation runs, while others or the kernel wait behind it (R139, R222)
  src : Word
  dst : Word
  aux : Word
  result : BitVec 4
  port : BitVec 4
  olen : BitVec 24
  hk : Vector (Option HostKey) 16
  gen : Nat                  -- which generation of transport keys is in use (R389)
  zeroised : Bool            -- the transport keys are zeroised until the next start
  auditDue : List Word       -- the detector bitmaps of the TAMPER audit entries not yet written, oldest first
  deriving DecidableEq, Repr

def Sec.reset : Sec :=
  { tamper := false, fkd := none, skd := none, qfull := false, queue := [], last := 0xF, tlsLast := 7, tlsRun := none, src := 0, dst := 0, aux := 0,
    result := 0, port := 0, olen := 0, hk := Vector.replicate 16 none, gen := 0, zeroised := false, auditDue := [] }

/-- UPD_STAT.STATE. -/
inductive UpdState where
  | idle | erasing | downloading | complete | verifying | verified | pending_ | trial | rejected
  deriving DecidableEq, Repr

/-- The UPD block; what it keeps of an update stands in Sinter. -/
structure Upd where
  st : UpdState
  result : BitVec 4
  trials : BitVec 2
  fwnone : Bool
  setlock : Bool
  map : BitVec 16384         -- the progress bitmap (R398)
  eraseDue : Bool            -- the erase of a BEGIN is not finished
  cid : BitVec 64            -- container ID of the staged manifest
  cekStaged : Option (BitVec 256)  -- the CEKs in Sinter, wrapped under KW (R386, R392)
  cekActive : Option (BitVec 256)
  minsvn : BitVec 16
  reason : Byte
  hostcode : Byte
  confwin : Byte
  winMin : Byte              -- CONFWIN as step 8 read it
  winFrom : Option (BitVec 64) -- system time from which the confirmation window runs
  resetAct : Bool            -- a reset is due at the first instant with no session (R402)
  resetRej : Bool            -- the same after a rejection (R406)
  resetDeg : Bool            -- a reset is due once every session is signed (R405)
  swapBack : Bool            -- the swap-back runs at the next start
  superseded : Bool          -- the image in staging is never activated (R407)
  opened : Option Bool       -- the settings copy that SET_OPEN opened, true for B
  base : Option Bool         -- the base copy of R409, true for B
  tagerr : BitVec 16
  repair : BitVec 16
  winwarn : Bool
  stchg : Bool
  mbxin : List Byte
  missBuf : List Byte        -- UPD 0x3000
  deriving DecidableEq, Repr

def Upd.reset : Upd :=
  { st := .idle, result := 0, trials := 0, fwnone := false, setlock := false, map := 0, eraseDue := false, cid := 0,
    cekStaged := none, cekActive := none, minsvn := 0, reason := 0, hostcode := 0, confwin := 30, winMin := 30, winFrom := none,
    resetAct := false, resetRej := false, resetDeg := false, swapBack := false, superseded := false, opened := none,
    base := none, tagerr := 0, repair := 0, winwarn := false, stchg := false, mbxin := List.replicate 128 0,
    missBuf := [] }

/-- A block's granted level, and whether another register of it has been written since reset (R358). -/
structure BlkVer where
  level : BitVec 16
  locked : Bool
  deriving DecidableEq, Repr

/-! ### The whole device -/

/-- What the Sinter journal holds that a cut without a save would otherwise take back (R33, R34, R137). -/
structure Journal where
  acc : Vector (BitVec 160 × BitVec 160) 12
  mpwr : Vector Word 12
  core : BillCore
  legal : BitVec 64          -- legal time of the record, in ms
  ns : BitVec 64             -- system time of the record
  lost : Nat                 -- audit entries lost before it
  save : Bool                -- nothing has run since: it is a power-fail save record, or what recovery made of a cut
  gapDue : Bool              -- the GAP_ESTIMATED entries of R137 are still to be written
  deriving DecidableEq, Repr

def Journal.reset : Journal :=
  { acc := Vector.replicate 12 (0, 0), mpwr := Vector.replicate 12 0, core := BillCore.reset, legal := 0,
    ns := 0, lost := 0, save := true, gapDue := false }

/-- The state of the device. -/
structure State where
  sys : Sys
  time : Time
  bus : Bus
  mbx : Mailboxes
  intc : Intc
  eth : Vector Eth 2
  can : Vector Can 3
  gpio : Gpio
  met : Met
  bill : Bill
  disp : Disp
  vp : Vector Vp 8
  slac : Slac
  safe : Safe
  load : Load
  txn : Txn
  thl : Thl
  mesh : Mesh
  dma : Dma
  sec : Sec
  upd : Upd
  compat : Vector BlkVer 28                   -- COMPAT of each block, in the order of R429
  params : List (Nat × Word)                 -- the parameter registers in effect, by application address (R492)
  ros : List ((Nat × Nat) × Word)            -- ROS latches: requester and address of the higher word (R6, R103)
  wraps : List ((Nat × Nat) × Nat)           -- wrap number at each requester's last short-view latch (R104)
  jrn : Journal
  jrnOld : Journal                           -- the record before it, its older generation (R34)
  sram : List Host.Cell                      -- application SRAM, 2 MiB at 0x1000_0000 (R428)
  nor : List Host.Cell                       -- NOR flash, 64 MiB at 0x0800_0000 (R428)
  free : Nat                                 -- how many free values have been drawn; the model's own field
  pending : List Instr                       -- the commands that wait, first in first out
  deriving DecidableEq, Repr

/-- The device right after reset: every register at the value the spec states for reset, stores and memories empty. -/
def State.reset : State :=
  { sys := Sys.reset, time := Time.reset, bus := { err := false, data := 0 }, mbx := Mailboxes.reset,
    intc := Intc.reset, eth := Vector.replicate 2 (Eth.reset 0), can := Vector.replicate 3 Can.reset,
    gpio := Gpio.reset, met := Met.reset, bill := Bill.reset, disp := Disp.reset,
    vp := Vector.replicate 8 Vp.reset, slac := { runs := [], deferred := [] }, safe := Safe.reset, load := Load.reset, txn := Txn.reset,
    thl := Thl.reset, mesh := Mesh.reset, dma := Dma.reset, sec := Sec.reset, upd := Upd.reset,
    compat := (Vector.replicate 28 { level := 0x0100, locked := false }).set 0 { level := 0x00B1, locked := false }, params := [], ros := [], wraps := [],
    jrn := Journal.reset, jrnOld := Journal.reset, sram := [], nor := [], free := 0, pending := [] }

end Sys2Proof.Machine
end

