-- ==== Sys2Proof/Machine/Ops.lean ====
section
/-! DEFINITION. The operations every family shares: time scales, parameter registers, free values, the event log and the
metrology audit log, interrupt sources, statistics events, and the mailbox call. -/

namespace Sys2Proof.Machine

/-- A command that the device takes while its blocks run: while it holds after a save, is in RETAIN or is held in reset,
the command meets a stopped device and changes nothing (R49, R59, R60). -/
def live (s : State) (f : State → State) : Host.Outcome State Fault Refusal :=
  .next (if s.sys.power = .running then f s else s)

/-- Whether the metrology kernel runs: start-up did not stop at step 3, and the kernel's checksum held (R32). -/
def kernelUp (s : State) : Bool := !s.sys.metFail && !s.sys.step3Stop

/-- A step of the metrology kernel. -/
def kernel (s : State) (f : State → State) : Host.Outcome State Fault Refusal :=
  live s fun s => if kernelUp s then f s else s

/-! ### The bus (R3, R6, R16, R364, R366, R358) -/

/-- A transaction that completes. -/
def State.busOk (s : State) (v : Word) : State := { s with bus := { err := false, data := v } }

/-- A bus-error response: the access has no effect at its target (R364). -/
def State.busErr (s : State) : State := { s with bus := { err := true, data := 0 } }

/-- A bus-error response for a decode or an access-size error, with what MESH records of it (R364, R366). -/
def State.decodeErr (s : State) (a : Word) (req kind : Nat) : State :=
  { s.busErr with
    mesh.errAddr := a
    mesh.errKind := BitVec.ofNat 4 kind
    mesh.errReq := BitVec.ofNat 4 req
    mesh.evt := s.mesh.evt ||| 8 }

/-- The block of an address. -/
def blkIdx (k : BlkKind) (n : Nat) : Fin 28 :=
  match blockMap.findIdx? fun b => b.kind == k && b.n == n with
  | some i => Fin.ofNat 28 i
  | none => 0

/-- Whether a block answers: its COMPAT has not been left at 0x0000 (R358). -/
def blkUp (s : State) (k : BlkKind) (n : Nat) : Bool := (s.compat[blkIdx k n]).level != 0

/-- Whether a requester is the debug port while DBGEN was sampled 0: its lines are ignored (R448). -/
def portMute (s : State) (req : Nat) : Bool := req == 5 && !s.sys.straps.getLsbD 0

/-! ### Transaction tags (R363) -/

/-- The reserved tags and the maximum of each requester, by its number. -/
def tagTable : List (Nat × Nat) :=
  [(8, 16), (8, 16), (8, 16), (8, 16), (24, 48), (2, 2), (8, 16), (2, 4), (2, 4), (4, 8)]

/-- The shared tags: what the reservations leave of the mesh's 96. -/
def tagPool : Nat := 96 - (tagTable.map fun r => r.1).sum

/-- The most tags that a requester can hold while no other holds a shared one. -/
def tagLimit (req : Nat) : Nat :=
  let r := tagTable.getD req (0, 0)
  min r.2 (r.1 + tagPool)

/-- Burst buffers in use: a burst holds its buffer from its grant until its writes complete. -/
def inFlight (s : State) : Nat :=
  (s.dma.ch.toList.map fun c => match c.run with
    | some r => r.flight.length
    | none => 0).sum

/-- The tags that the DMA engine holds for the writes of its bursts: one each, up to its limit less the tag that it keeps for
its next read; the write of a burst beyond them waits in its buffer. -/
def dmaTags (s : State) : Nat := min (tagLimit 4 - 1) (inFlight s)

/-- A requester's access: it holds a tag beside those of DMA from its request to its response, which PEAK shows. -/
def State.tagged (s : State) : State := { s with mesh.peak := BitVec.ofNat 7 (max s.mesh.peak.toNat (dmaTags s + 1)) }

/-- A write to a register of a block other than IDENT and COMPAT: a block that answers takes it, and its COMPAT is
settled from then on; a block without a level gives a bus error (R358). The write holds a tag (R363). -/
def onBlock (k : BlkKind) (n : Nat) (s : State) (f : State → State) : State :=
  let s := s.tagged
  if blkUp s k n then
    { f { s with compat := vmod s.compat (blkIdx k n) fun v => { v with locked := true } } with
      bus := { err := false, data := 0 } }
  else s.busErr

/-- A command that is a write to a register of a block. -/
def access (k : BlkKind) (n : Nat) (s : State) (f : State → State) : Host.Outcome State Fault Refusal :=
  live s fun s => onBlock k n s f

/-! ### Changing one member of an indexed family -/

def State.modVp (s : State) (n : Port) (f : Vp → Vp) : State := { s with vp := vmod s.vp n f }
def State.modPilot (s : State) (n : Port) (f : Pilot → Pilot) : State := s.modVp n fun v => { v with pilot := f v.pilot }
def State.modLink (s : State) (n : Port) (f : Link → Link) : State := s.modVp n fun v => { v with link := f v.link }
def State.modTls (s : State) (n : Port) (f : Tls → Tls) : State := s.modVp n fun v => { v with tls := f v.tls }
def State.modRgn (s : State) (r : Fin 16) (f : Region → Region) : State := { s with disp.rgn := vmod s.disp.rgn r f }
def State.modCh (s : State) (n : ChanId) (f : Chan → Chan) : State := { s with met.ch := vmod s.met.ch n f }
def State.modM (s : State) (m : MeterId) (f : Meter → Meter) : State := { s with met.m := vmod s.met.m m f }
def State.modEth (s : State) (n : Fin 2) (f : Eth → Eth) : State := { s with eth := vmod s.eth n f }
def State.modCan (s : State) (n : Fin 3) (f : Can → Can) : State := { s with can := vmod s.can n f }
def State.modLoad (s : State) (n : Fin 10) (f : LoadCh → LoadCh) : State := { s with load.ch := vmod s.load.ch n f }
def State.modCoil (s : State) (c : Fin 12) (f : Coil → Coil) : State := { s with safe.coil := vmod s.safe.coil c f }
def State.modOut (s : State) (n : Port) (f : Outlet → Outlet) : State := { s with safe.out := vmod s.safe.out n f }
def State.modImd (s : State) (g : Fin 6) (f : Imd → Imd) : State := { s with safe.imd := vmod s.safe.imd g f }
def State.modConn (s : State) (k : Fin 16) (f : Conn → Conn) : State := { s with safe.conn := vmod s.safe.conn k f }
def State.modPair (s : State) (j : Fin 8) (f : StopPair → StopPair) : State := { s with safe.pair := vmod s.safe.pair j f }
def State.modTxn (s : State) (d : Fin 6) (f : TxnDom → TxnDom) : State := { s with txn.dom := vmod s.txn.dom d f }
def State.modCore (s : State) (f : BillCore → BillCore) : State := { s with bill.core := f s.bill.core }
def State.sess (s : State) (n : Port) : Option Session := s.bill.core.sess[n]
def State.setSess (s : State) (n : Port) (x : Option Session) : State :=
  s.modCore fun c => { c with sess := c.sess.set n x }
def State.modSess (s : State) (n : Port) (f : Session → Session) : State := s.setSess n ((s.sess n).map f)

/-! ### Time scales (R412 to R415, R133) -/

/-- System time in ns. -/
def State.now (s : State) : Nat := s.time.sysNs.toNat

/-- Legal time in ns: system time plus LOFS (R414). -/
def State.legalNs (s : State) : Int := s.time.sysNs.toNat + s.time.lofs.toInt

/-- Legal time in ms since 2020-01-01 (R414). -/
def State.legalMs (s : State) : Nat := (s.legalNs / 1000000).toNat

/-- The short time-stamp in µs (R412). -/
def State.tshort (s : State) : Word := wd (s.now / 1000)

/-- LOFS so that legal time reads a value in ms now (R414, R419); the high-water mark follows. -/
def State.setLofs (s : State) (ms : Nat) : State :=
  { s with
    time.lofs := BitVec.ofInt 64 ((ms : Int) * 1000000 - s.time.sysNs.toNat)
    time.hwm := BitVec.ofNat 64 (max (max s.time.hwm.toNat s.legalMs) ms) }

/-- The high-water mark: the latest legal time reached (R133). -/
def State.hwmMs (s : State) : Nat := max s.time.hwm.toNat s.legalMs

/-- Whether legal time stands below the high-water mark. -/
def State.shifted (s : State) : Bool := s.legalMs < s.time.hwm.toNat

/-! ### Parameter registers in effect -/

/-- The value of a parameter register that no site image or commit has set: the reset value of its field table. MCLK0 is at
20 MHz, DIV 5 (R63), with k = 7, the default of the table under R64; MCLK1's are the same. PRESUMED. -/
def parDefault (a : Nat) : Nat :=
  if a = 0x20200010 then 5 * 2 ^ 24 + 7 * 2 ^ 20 + 5 * 2 ^ 8 + 7 * 2 ^ 4
  else if a = 0x20200030 then 3 * 2 ^ 24
  else if 0x20200400 ≤ a ∧ a < 0x20200480 ∧ a % 16 = 0 then 20
  else if 0x20201000 ≤ a ∧ a < 0x20201400 ∧ a % 32 = 0 then 128 * 2 ^ 8
  else if 0x20202000 ≤ a ∧ a < 0x20202C00 ∧ a % 256 = 0 then 15 * 2 ^ 14
  else if a = 0x20240014 then 30 * 2 ^ 16
  else if a = 0x20240030 then 30 * 2 ^ 16
  else if 0x20300500 ≤ a ∧ a < 0x203005C0 then 15
  else if 0x200A0100 ≤ a ∧ a < 0x200A0240 ∧ a % 32 = 0 then 10 * 2 ^ 16 + 50 * 2 ^ 6
  else if a = 0x20280014 then 100
  else if a = 0x20280018 then 9 * 2 ^ 16 + 60
  else 0

/-- A word with one field clamped to a range. -/
def clampField (hi lo mn mx : Nat) (w : Word) : Word :=
  wd (w.toNat - at_ (field w hi lo) lo + at_ (clamp mn mx (field w hi lo)) lo)

/-- A parameter word as its register takes it: the fields whose values outside their range clamp (R78, R83, R107, R130, R149,
chapter 08). -/
def clampWord (a : Nat) (w : Word) : Word :=
  if 0x20200400 ≤ a ∧ a < 0x20200480 ∧ a % 16 = 0 then clampField 7 0 5 200 w
  else if 0x20200600 ≤ a ∧ a < 0x20200700 ∧ 16 ≤ a % 64 ∧ a % 64 < 48 then clampField 15 0 700 65535 w
  else if 0x20202000 ≤ a ∧ a < 0x20202C00 ∧ a % 256 = 0 then clampField 19 14 5 50 w
  else if a = 0x20240014 then clampField 27 16 1 3600 w
  else if a = 0x20240030 then clampField 23 16 5 120 w
  else if a = 0x20280014 then clampField 13 0 10 10000 (clampField 24 16 50 300 w)
  else if a = 0x20280018 then clampField 9 0 10 600 w
  else w

/-- A parameter register in effect, from a bank. -/
def bankAt (b : List (Nat × Word)) (a : Nat) : Word := lookupD a (wd (parDefault a)) b

/-- A parameter register in effect, by application address (R492). -/
def State.par (s : State) (a : Nat) : Word := bankAt s.params a

/-- A field of a parameter register in effect. -/
def State.pf (s : State) (a hi lo : Nat) : Nat := field (s.par a) hi lo

/-- A bit of a parameter register in effect. -/
def State.pb (s : State) (a n : Nat) : Bool := bitAt (s.par a) n

/-! ### Free values -/

/-- Draw one free value: the drawn index, and the state after the draw. -/
def State.draw (s : State) : Nat × State := (s.free, { s with free := s.free + 1 })

/-! ### Interrupt sources without a flag of their own -/

/-- Raise a PLIC source whose chapter names no register flag that holds it. -/
def State.raise (s : State) (n : Nat) : State := { s with intc.raised := s.intc.raised ||| BitVec.ofNat 256 (2 ^ n) }

/-! ### The general event log (R424, R425) -/

/-- Put an entry into the ring, with the next SEQ. -/
def State.evPut (s : State) (typ source : Nat) (d0 d1 d2 : Word) : State :=
  let seq := s.time.evlSeq + 1
  let e : EvEntry :=
    { seq := seq, lt := BitVec.ofNat 64 (if s.time.lvalid then s.legalMs else s.now / 1000000),
      typ := BitVec.ofNat 16 typ, tv := s.time.lvalid, source := BitVec.ofNat 8 source, d0 := d0, d1 := d1, d2 := d2,
      tshort := s.tshort }
  { s with
    time.evl := (e :: s.time.evl).take 16384
    time.evlSeq := seq
    time.evlNext := s.time.evlNext + 1
    time.evlTail := s.time.evlTail + 1 }

/-- The DROPPED entries of a second that has ended, and a new count (R425). -/
def State.evRoll (s : State) : State :=
  let done := s.time.evlCounts.filter (fun c => 0 < c.dropped)
  let s := forAll done (fun s c => s.evPut 0x000E 0xFF (wd c.typ) (wd c.dropped) 0) s
  { s with time.evlCounts := [], time.evlSec := s.now / 1000000000 }

/-- Count one entry of a TYPE: written when fewer than 64 were, else dropped. -/
def evCount (typ : Nat) : List EvCount → Bool × List EvCount
  | [] => (true, [{ typ := typ, written := 1, dropped := 0 }])
  | c :: r =>
    if c.typ = typ then
      if c.written < 64 then (true, { c with written := c.written + 1 } :: r)
      else (false, { c with dropped := c.dropped + 1 } :: r)
    else ((evCount typ r).1, c :: (evCount typ r).2)

/-- The count of event-log entries starts again in a new second. -/
def State.evSecond (s : State) : State := if s.now / 1000000000 ≤ s.time.evlSec then s else s.evRoll

/-- Write an event-log entry, at most 64 of a TYPE in one second of system time (R425). An entry made later than the instant
that it carries counts in the second in which it is made. -/
def State.evlog (s : State) (typ source : Nat) (d0 d1 d2 : Word) : State :=
  let s := s.evSecond
  let r := evCount typ s.time.evlCounts
  let s := { s with time.evlCounts := r.2 }
  if r.1 then s.evPut typ source d0 d1 d2 else { s with time.evlDrop := satInc s.time.evlDrop }

/-- The STATS_CLEARED entry of a clear action: the block code and the mask (R116, every CLRCNT). -/
def State.statsCleared (s : State) (block mask : Nat) : State := s.evlog 0x0005 0xFF (wd block) (wd mask) 0

/-! ### The metrology audit log (R143, R144) -/

/-- Occupied entries. -/
def State.auditUsed (s : State) : Nat := s.bill.audit.length

/-- WARN: 3,687 entries occupied. -/
def State.auditWarn (s : State) : Bool := 3687 ≤ s.auditUsed

/-- FULL: 4,032 entries occupied; legally relevant changes then return LOG_FULL. -/
def State.auditFull (s : State) : Bool := 4032 ≤ s.auditUsed

/-- The words w0 to w6 of an audit entry as bytes. -/
def auditWords (e : AuditEntry) : List Byte :=
  wordsBytes [e.seq, wd e.lt.toNat, wd (e.lt.toNat / 2 ^ 32),
    wd (at_ e.typ.toNat 16 + at_ e.source.toNat 8 + e.reason.toNat), e.item, e.old, e.new]

/-- Write an audit entry: chained by CRC-32C, or counted in LOST_CNT when all 4,096 entries are occupied. -/
def State.audit (s : State) (typ source reason : Nat) (item old new : Word) : State :=
  let e : AuditEntry :=
    { seq := s.bill.auditSeq, lt := BitVec.ofNat 64 s.legalMs, typ := BitVec.ofNat 16 typ, source := BitVec.ofNat 8 source,
      reason := BitVec.ofNat 8 reason, item := item, old := old, new := new, chain := 0 }
  let ch := wd (crc32c (auditWords e ++ leBytes 4 s.bill.auditChain.toNat))
  if s.auditUsed < 4096 then
    { s with
      bill.audit := { e with chain := ch } :: s.bill.audit
      bill.auditSeq := s.bill.auditSeq + 1
      bill.auditChain := ch }
  else { s with bill.lostCnt := satInc s.bill.lostCnt, bill.lostTotal := s.bill.lostTotal + 1 }

/-! ### Demands (R242, R243) -/

/-- Raise a demand: an outlet, a stop category, its cause bit, the stop reason and its source; it is accepted at the end
of the tick. A demand that is active or waits already is not raised again. -/
def State.raiseDem (s : State) (n : Port) (cat cause : Nat) (reason : Byte) (why : Why) : State :=
  if why != .ends && ((s.safe.out[n]).dems.any (fun d => d.why == why && d.cat == cat)
      || s.safe.raises.any (fun r => r.port == n && r.why == why && r.cat == cat)) then s
  else { s with safe.raises := s.safe.raises ++ [{ port := n, cat := cat, cause := cause, reason := reason, why := why }] }

/-- Raise a demand that ends when the contactors are confirmed open: of the host, of the kernel, or of a mode (R247). -/
def State.demand (s : State) (n : Port) (cat cause : Nat) (reason : Byte) : State := s.raiseDem n cat cause reason .ends

/-! ### The shared crypto engines (R139, R222) -/

/-- Whether a signature of the kernel waits for the shared engines; it goes ahead of every record operation that has not
started. -/
def kernelSigns (s : State) : Bool :=
  kernelUp s && (!s.bill.signing.isEmpty || s.bill.sealPend.isSome || s.bill.ocmfPend.isSome)

/-- Whether a port has a record operation to serve. -/
def tlsWaits (s : State) (n : Port) : Bool :=
  let t := s.vp[n].tls
  t.en && (!t.tx.queue.isEmpty || !t.rx.queue.isEmpty)

/-- The port whose turn it is: the next one after the port served last that has an operation waiting. -/
def tlsTurn (s : State) : Option Port :=
  ((List.range 8).map fun i => Fin.ofNat 8 (s.sec.tlsLast.val + 1 + i)).find? (tlsWaits s)

/-- The port whose record operation runs: the one that ran when the next request came, until it ends, and then the one whose
turn it is unless a signature of the kernel goes first (R139, R222). -/
def engineAt (s : State) : Option Port :=
  match s.sec.tlsRun.filter (tlsWaits s) with
  | some n => some n
  | none => if kernelSigns s then none else tlsTurn s

/-- A request joins those of the shared engines: the operation that runs ends first. -/
def holdEngine (s : State) : State := { s with sec.tlsRun := engineAt s }

/-! ### Ledger and session marks -/

/-- The token ledger takes a new value; the one before stays as its older generation (R34). -/
def State.setLedger (s : State) (l : List (Option LedgerEntry)) : State :=
  { s with bill.tok.ledgerOld := s.bill.tok.ledger, bill.tok.ledger := l }

/-- Mark the flag bits of a session whose span has begun and contains what they stand for (R140). -/
def State.flagSpan (s : State) (n : Port) (bits : BitVec 16) : State :=
  s.modSess n fun x => if x.metered then { x with flags := x.flags ||| bits } else x

/-- Mark a session's flag bits (R140), unless it is only OPENED. -/
def State.flagSess (s : State) (n : Port) (bits : BitVec 16) : State :=
  s.modSess n fun x => if x.state = .opened then x else { x with flags := x.flags ||| bits }

/-! ### Mailboxes (R431 to R433, R490) -/

/-- The status codes of R7. -/
inductive Status where
  | done | accepted | busy | refused | badArg | noTxn | logFull | version | timeout | notConfirmed | lockedOut
  | ledgerFull | migration
  deriving DecidableEq, Repr

/-- MBX_STS[7:0] of a status. -/
def Status.code : Status → Byte
  | .done => 0x00 | .accepted => 0x01 | .busy => 0x02 | .refused => 0x03 | .badArg => 0x04 | .noTxn => 0x05
  | .logFull => 0x06 | .version => 0x07 | .timeout => 0x08 | .notConfirmed => 0x09 | .lockedOut => 0x0A
  | .ledgerFull => 0x0B | .migration => 0x0C

/-- What a call's body answers: the state after it, its status, the results from RES0 on, and, with ACCEPTED, what is
pending. -/
structure Reply where
  s : State
  st : Status
  res : List Word
  what : Option Pending

/-- A call that is done. -/
def Reply.ok (s : State) (res : List Word) : Reply := { s := s, st := .done, res := res, what := none }

/-- A call that is turned away with a status and changes nothing. -/
def Reply.deny (s : State) (st : Status) : Reply := { s := s, st := st, res := [], what := none }

/-- A call that is accepted and completes by a later step. -/
def Reply.later (s : State) (p : Pending) : Reply := { s := s, st := .accepted, res := [], what := some p }

/-- The first status whose condition holds (R490), else the call's effect. -/
def checks (s : State) (l : List (Bool × Status)) (k : Reply) : Reply :=
  match l with
  | [] => k
  | (b, st) :: r => if b then Reply.deny s st else checks s r k

def Mailboxes.get (m : Mailboxes) : MbxId → Mailbox
  | .met => m.met | .bill => m.bill | .safe => m.safe | .txn => m.txn | .upd => m.upd

def Mailboxes.put (m : Mailboxes) (x : Mailbox) : MbxId → Mailboxes
  | .met => { m with met := x } | .bill => { m with bill := x } | .safe => { m with safe := x }
  | .txn => { m with txn := x } | .upd => { m with upd := x }

def State.box (s : State) (i : MbxId) : Mailbox := s.mbx.get i
def State.setBox (s : State) (i : MbxId) (x : Mailbox) : State := { s with mbx := s.mbx.put x i }

/-- The service codes of MBX_CMD. -/
def svcCode : MbxId → Nat
  | .met => 0x4D | .bill => 0x42 | .safe => 0x53 | .txn => 0x54 | .upd => 0x55

/-- The completion source of a service (R433). -/
def doneSource : MbxId → Nat
  | .met => 83 | .bill => 83 | .safe => 106 | .txn => 172 | .upd => 160

/-- The block that holds a mailbox. -/
def mbxBlk : MbxId → BlkKind
  | .met => .met | .bill => .bill | .safe => .safe | .txn => .txn | .upd => .upd

/-- Whether a service as a whole is refused: without a site image every SAFE, MET and BILL call (R31), and after a
failed kernel checksum every MET and BILL call (R32). -/
def wholeRefused (s : State) : MbxId → Bool
  | .met => s.sys.simgNone || s.sys.metFail
  | .bill => s.sys.simgNone || s.sys.metFail
  | .safe => s.sys.simgNone
  | .txn => false
  | .upd => false

/-- Write values into the result registers from RES0 on. -/
def setFrom (v : Vector Word 16) (i : Nat) : List Word → Vector Word 16
  | [] => v
  | w :: r => if h : i < 16 then setFrom (v.set i w) (i + 1) r else v

/-- VERSIONS (R360): the bitmap of service versions and the highest; BILL adds its token format versions and SAFE its
safety-link versions. -/
def versions (i : MbxId) (s : State) : Reply :=
  Reply.ok s ([2, 1] ++ if i == .bill || i == .safe then [2] else [])

/-- The command of a command word, by the service that takes it: a word that names another service asks for no command of
this one, which code 0xFFFF stands for (R431). DESIGN CHOICE. -/
def cmdOf (i : MbxId) (w : Word) : Nat := if field w 31 24 = svcCode i then field w 15 0 else 0xFFFF

/-- A call has answered: its status and results stand in the mailbox (R432). SNAPSHOT stays BUSY until its buffer is
written (R115). -/
def answered (i : MbxId) (r : Reply) : State :=
  let b := r.s.box i
  if r.what = some .snapshot then r.s.setBox i { b with busy := true, what := r.what }
  else r.s.setBox i { b with
    status := r.st.code, res := setFrom b.res 0 r.res, pend := r.st == .accepted, what := r.what }

/-- The ring of a doorbell: the copied command and arguments run, unless BUSY or PEND is set (R431, R432). The statuses that
every call of a service shares come before those of the call itself (R490). -/
def ring (i : MbxId) (body : Nat → Vector Word 16 → State → Reply) (s : State) : State :=
  let b := s.box i
  if b.busy || b.pend then s.setBox i { b with coll := true }
  else
    let cmd := cmdOf i b.cmd
    let s := s.setBox i { b with callNo := b.callNo + 1 }
    answered i
      (if cmd = 0 then versions i s
      else if field b.cmd 23 16 ≠ 1 then Reply.deny s .version
      else if wholeRefused s i then Reply.deny s .refused
      else body cmd b.arg s)

/-- A service call: the caller writes its arguments and the command word, then the doorbell (R431). -/
def mbxCall (i : MbxId) (cmd : Nat) (c : Call) (body : Vector Word 16 → State → Reply) (s : State) : State :=
  onBlock (mbxBlk i) 0 s fun s =>
    let b := s.box i
    let s := s.setBox i { b with
      arg := setFrom b.arg 0 c.args, cmd := wd (at_ (svcCode i) 24 + at_ c.sver.toNat 16 + cmd) }
    ring i (fun _ => body) s

/-- The completion of an accepted call: results, final status, PEND cleared and the service's source raised (R433). -/
def mbxDone (i : MbxId) (st : Status) (res : List Word) (s : State) : State :=
  let b := s.box i
  (s.setBox i { b with status := st.code, res := setFrom b.res 0 res, pend := false, what := none }).raise (doneSource i)

/-- Whether an accepted call of a kind is pending. -/
def isPending (s : State) (i : MbxId) (p : Pending) : Bool := (s.box i).pend && (s.box i).what == some p

end Sys2Proof.Machine
end

