-- ==== Sys2Proof/Machine/Calendar.lean ====
section
/-! DEFINITION. The tariff calendar (06_billing_and_tariffs.md, R120 to R122 and R124): dates, the active tariffs at a legal
instant, its validity, and the instants of demand-interval and billing-period boundaries. A calendar is read through a
function from application addresses to parameter words, so that a commit can be checked before it takes effect. -/

namespace Sys2Proof.Machine

/-! ### Dates -/

/-- A calendar date. -/
structure Date where
  y : Int
  m : Nat
  d : Nat
  deriving DecidableEq, Repr

/-- The date of a day number counted from 2020-01-01, in the proleptic Gregorian calendar. -/
def dateOf (day : Int) : Date :=
  let z := day + 737730
  let era := z / 146097
  let doe := (z % 146097).toNat
  let yoe := (doe - doe / 1460 + doe / 36524 - doe / 146096) / 365
  let doy := doe - (365 * yoe + yoe / 4 - yoe / 100)
  let mp := (5 * doy + 2) / 153
  let m := if mp < 10 then mp + 3 else mp - 9
  { y := yoe + era * 400 + (if m ≤ 2 then 1 else 0), m := m, d := doy - (153 * mp + 2) / 5 + 1 }

/-- The weekday of a day number, Monday 0 to Sunday 6; 2020-01-01 was a Wednesday. -/
def weekday (day : Int) : Nat := ((day + 2) % 7).toNat

/-- The length of a month; day 29 of February only when the leap argument is set. -/
def monthLen (m : Nat) (leap : Bool) : Nat :=
  if m = 2 then (if leap then 29 else 28) else if m = 4 ∨ m = 6 ∨ m = 9 ∨ m = 11 then 30 else 31

def isLeap (y : Nat) : Bool := y % 4 == 0 && (y % 100 != 0 || y % 400 == 0)

def dateOk (m d : Nat) (leap : Bool) : Bool := decide (1 ≤ m ∧ m ≤ 12 ∧ 1 ≤ d ∧ d ≤ monthLen m leap)

/-! ### Settings -/

def tzMin (p : Nat → Word) : Int := signedOf 16 (field (p 0x20240014) 15 0)

/-- DINT in minutes. -/
def dintOf (p : Nat → Word) : Nat :=
  match field (p 0x20240010) 19 17 with
  | 0 => 5 | 1 => 10 | 2 => 15 | 3 => 30 | _ => 60

def bpDay (p : Nat → Word) : Nat := field (p 0x20240010) 16 12

/-- TLIMIT in seconds, clamped. -/
def tlimit (p : Nat → Word) : Nat := clamp 1 3600 (field (p 0x20240014) 27 16)

/-- Standard time in minutes since 2020-01-01, of a legal time in ms (R120). -/
def stdMin (p : Nat → Word) (ms : Int) : Int := ms / 60000 + tzMin p

/-! ### The active tariffs (R120) -/

def seasonW (p : Nat → Word) (k i : Nat) : Word := p (0x20242800 + 0x10 * k + 4 * i)
def seasonEn (p : Nat → Word) (k : Nat) : Bool := bitAt (seasonW p k 0) 31

/-- A season's start as month × 32 + day, which orders dates within a year. -/
def seasonStart (p : Nat → Word) (k : Nat) : Nat := field (seasonW p k 0) 26 18

def seasonOfs (p : Nat → Word) (k : Nat) : Int := signedOf 8 (field (seasonW p k 0) 7 0)

/-- The profile of a weekday, Monday 0 to Sunday 6. -/
def seasonWeek (p : Nat → Word) (k wd : Nat) : Nat :=
  if wd < 6 then bitsOf (seasonW p k 1).toNat (5 * wd + 4) (5 * wd) else field (seasonW p k 2) 4 0

/-- The element with the largest key, the first of equals. -/
def argMax (key : Nat → Nat) : List Nat → Option Nat
  | [] => none
  | k :: r =>
    match argMax key r with
    | none => some k
    | some j => if key k < key j then some j else some k

/-- The active season of a date: the enabled season with the latest start on or before it, else the latest of the year. -/
def seasonAt (p : Nat → Word) (d : Date) : Nat :=
  let l := (List.range 16).filter (seasonEn p)
  let key := d.m * 32 + d.d
  match argMax (seasonStart p) (l.filter (fun k => decide (seasonStart p k ≤ key))) with
  | some k => k
  | none => (argMax (seasonStart p) l).getD 0

def spW (p : Nat → Word) (i : Nat) : Word := p (0x20242A00 + 4 * i)

/-- Whether a special day matches a date. -/
def spMatch (p : Nat → Word) (d : Date) (i : Nat) : Bool :=
  let w := spW p i
  bitAt w 31 && field w 21 18 == d.m && field w 17 13 == d.d
    && (bitAt w 30 || decide (((field w 29 22 : Nat) : Int) + 2020 = d.y))

/-- The enabled switch points of a profile as (minute, timp, texp). -/
def pointsOf (p : Nat → Word) (prof : Nat) : List (Nat × Nat × Nat) :=
  (List.range 12).filterMap fun i =>
    let w := p (0x20242000 + 0x40 * prof + 4 * i)
    if bitAt w 31 then some (field w 26 16, field w 7 4, field w 3 0) else none

/-- The point with the largest minute not after a minute of the day. -/
def pointAt (min : Nat) : List (Nat × Nat × Nat) → Option (Nat × Nat × Nat)
  | [] => none
  | q :: r =>
    match pointAt min r with
    | none => if q.1 ≤ min then some q else none
    | some b => if q.1 ≤ min ∧ b.1 < q.1 then some q else some b

/-- What the calendar says of a legal instant. -/
structure Tariff where
  ti : BitVec 4
  te : BitVec 4
  season : BitVec 4
  special : Bool
  deriving DecidableEq, Repr

/-- The active tariffs at a legal time in ms (R120). -/
def tariffAt (p : Nat → Word) (ms : Int) : Tariff :=
  let std := stdMin p ms
  let k := seasonAt p (dateOf (std / 1440))
  let loc := std + 15 * seasonOfs p k
  let d := dateOf (loc / 1440)
  let sp := (List.range 64).find? (spMatch p d)
  let prof := match sp with
    | some i => field (spW p i) 4 0
    | none => seasonWeek p k (weekday (loc / 1440))
  let pt := (pointAt (loc % 1440).toNat (pointsOf p prof)).getD (0, 0, 0)
  { ti := BitVec.ofNat 4 pt.2.1, te := BitVec.ofNat 4 pt.2.2, season := BitVec.ofNat 4 k, special := sp.isSome }

/-- What the calendar says at the present legal time; while that is lost, what it said last. -/
def calNow (s : State) : Tariff :=
  if s.time.lvalid then tariffAt s.par s.legalMs
  else { ti := s.bill.core.ti, te := s.bill.core.te, season := s.bill.core.season, special := s.bill.core.special }

/-! ### Validity (R121) -/

/-- No value twice. -/
def distinctL (l : List Nat) : Bool :=
  match l with
  | [] => true
  | a :: r => !r.contains a && distinctL r

/-- Whether two enabled special days match a common date. -/
def spClash (p : Nat → Word) (i j : Nat) : Bool :=
  let a := spW p i
  let b := spW p j
  field a 21 13 == field b 21 13 && (bitAt a 30 || bitAt b 30 || field a 29 22 == field b 29 22)

/-- The rules of R121. -/
def calendarOk (p : Nat → Word) : Bool :=
  let seas := (List.range 16).filter (seasonEn p)
  let spec := (List.range 64).filter (fun i => bitAt (spW p i) 31)
  let used := (seas.map fun k => (List.range 7).map (seasonWeek p k)).flatten ++ spec.map (fun i => field (spW p i) 4 0)
  !seas.isEmpty
    && used.all (fun f => (pointsOf p f).any (fun q => q.1 == 0))
    && (List.range 32).all (fun f => distinctL ((pointsOf p f).map (·.1)))
    && seas.all (fun k => dateOk (field (seasonW p k 0) 26 23) (field (seasonW p k 0) 22 18) false)
    && spec.all (fun i => dateOk (field (spW p i) 21 18) (field (spW p i) 17 13)
        (!bitAt (spW p i) 30 && isLeap (2020 + field (spW p i) 29 22)))
    && spec.all (fun i => spec.all (fun j => i == j || !spClash p i j))
    && distinctL (seas.map (seasonStart p))

/-! ### Boundaries (R122, R124) -/

/-- The latest demand-interval boundary at or before a legal time, in ms. -/
def lastDemand (p : Nat → Word) (ms : Int) : Int :=
  let m := stdMin p ms
  (m - m % dintOf p - tzMin p) * 60000

/-- Whether a legal time in whole minutes is a demand-interval boundary. -/
def isDemand (p : Nat → Word) (min : Int) : Bool := (min + tzMin p) % dintOf p == 0

/-- Whether a legal time in whole minutes is a billing-period close. -/
def isPeriod (p : Nat → Word) (min : Int) : Bool :=
  let std := min + tzMin p
  decide (1 ≤ bpDay p ∧ bpDay p ≤ 28) && std % 1440 == 0 && (dateOf (std / 1440)).d == bpDay p

/-- The latest billing-period close at or before a legal time, looked for over 62 days. -/
def lastPeriod (p : Nat → Word) (ms : Int) : Option Int :=
  let day := stdMin p ms / 1440
  ((List.range 62).map fun (i : Nat) => ((day - i) * 1440 - tzMin p)).find? (isPeriod p) |>.map (· * 60000)

end Sys2Proof.Machine
end

