-- ==== Sys2Proof/Machine/Crypto.lean ====
section
/-! DEFINITION. The cryptographic functions that the spec names by their standards: AES (FIPS 197), CMAC (SP 800-38B),
GCM (SP 800-38D), CBC, FF1 (SP 800-38G), SHA-2 (FIPS 180-4), HMAC (RFC 2104), ChaCha20-Poly1305 (RFC 8439), ECDSA and
ECDH on P-256 and P-384 (FIPS 186-4, SP 800-56A). PRESUMED: the standards' own text; log entry 7. -/

namespace Sys2Proof.Machine

/-- Bytewise exclusive or, as long as the shorter list. -/
def xorBytes (a b : List Byte) : List Byte := List.zipWith (· ^^^ ·) a b

/-- Cut a list into blocks of n; the fuel is the list's length. -/
def blocksGo {α : Type} (n : Nat) : Nat → List α → List (List α)
  | 0, _ => []
  | f + 1, l => if l.isEmpty then [] else l.take n :: blocksGo n f (l.drop n)

def blocks {α : Type} (n : Nat) (l : List α) : List (List α) := blocksGo n l.length l

/-! ### AES -/

/-- Multiplication by x in GF(2^8). -/
def xtime (a : Nat) : Nat := if a < 128 then 2 * a else (2 * a) ^^^ 0x11B

/-- Multiplication in GF(2^8), with the multiplier's bits as fuel. -/
def gmulGo : Nat → Nat → Nat → Nat
  | 0, _, _ => 0
  | f + 1, a, b => (if b % 2 = 1 then a else 0) ^^^ gmulGo f (xtime a) (b / 2)

def gmul (a b : Nat) : Nat := gmulGo 8 a b

/-- a^254, the inverse in GF(2^8). -/
def ginv (a : Nat) : Nat :=
  let a2 := gmul a a
  let a4 := gmul a2 a2
  let a8 := gmul a4 a4
  let a16 := gmul a8 a8
  let a32 := gmul a16 a16
  let a64 := gmul a32 a32
  let a128 := gmul a64 a64
  gmul a128 (gmul a64 (gmul a32 (gmul a16 (gmul a8 (gmul a4 a2)))))

def rotl8 (a n : Nat) : Nat := (a * 2 ^ n + a * 2 ^ n / 256) % 256

/-- The S-box entry of a byte. -/
def sboxOf (a : Nat) : Nat :=
  let b := ginv a
  b ^^^ rotl8 b 1 ^^^ rotl8 b 2 ^^^ rotl8 b 3 ^^^ rotl8 b 4 ^^^ 0x63

/-- The S-box. -/
def sboxTable : List Nat := (List.range 256).map sboxOf

/-- The inverse S-box. -/
def invSboxTable : List Nat := (List.range 256).map (fun a => (sboxTable.findIdx? (· == a)).getD 0)

def sbox (a : Nat) : Nat := sboxTable.getD a 0
def invSbox (a : Nat) : Nat := invSboxTable.getD a 0

def xorNat (a b : List Nat) : List Nat := List.zipWith (· ^^^ ·) a b

/-- The key schedule's words, newest first: nk words of key, then f more. -/
def expandGo (nk : Nat) : Nat → Nat → Nat → List (List Nat) → List (List Nat)
  | 0, _, _, w => w
  | f + 1, i, rcon, w =>
    let prev := w.headD []
    let t := if i % nk = 0 then
        match (prev.drop 1 ++ prev.take 1).map sbox with
        | a :: r => (a ^^^ rcon) :: r
        | [] => []
      else if 6 < nk ∧ i % nk = 4 then prev.map sbox else prev
    expandGo nk f (i + 1) (if i % nk = 0 then xtime rcon else rcon) (xorNat (w.getD (nk - 1) []) t :: w)

/-- The round keys of a 16- or 32-byte key, 16 bytes each. -/
def roundKeys (key : List Byte) : List (List Nat) :=
  let nk := key.length / 4
  let w := (blocks 4 (key.map BitVec.toNat)).reverse
  (blocks 4 (expandGo nk (4 * (nk + 7) - nk) nk 1 w).reverse).map List.flatten

/-- The byte order of ShiftRows on the column-major state. -/
def shiftRows (s : List Nat) : List Nat := (List.range 16).map fun i => s.getD ((i + 4 * (i % 4)) % 16) 0
def invShiftRows (s : List Nat) : List Nat := (List.range 16).map fun i => s.getD ((i + 12 * (i % 4)) % 16) 0

/-- One column through a circulant matrix. -/
def mixCol (m : List Nat) (c : List Nat) : List Nat :=
  (List.range 4).map fun i => (List.range 4).foldl (fun a j => a ^^^ gmul (m.getD ((j + 4 - i) % 4) 0) (c.getD j 0)) 0

def mixColumns (m : List Nat) (s : List Nat) : List Nat := ((blocks 4 s).map (mixCol m)).flatten

def aesRounds : List (List Nat) → List Nat → List Nat
  | [], s => s
  | [k], s => xorNat (shiftRows (s.map sbox)) k
  | k :: r, s => aesRounds r (xorNat (mixColumns [2, 3, 1, 1] (shiftRows (s.map sbox))) k)

/-- One block under a 16- or 32-byte key. -/
def aesEnc (key blk : List Byte) : List Byte :=
  match roundKeys key with
  | [] => []
  | k :: r => (aesRounds r (xorNat (blk.map BitVec.toNat) k)).map (BitVec.ofNat 8)

def aesInvRounds : List (List Nat) → List Nat → List Nat
  | [], s => s
  | [k], s => xorNat ((invShiftRows s).map invSbox) k
  | k :: r, s => aesInvRounds r (mixColumns [14, 11, 13, 9] (xorNat ((invShiftRows s).map invSbox) k))

/-- The inverse cipher. -/
def aesDec (key blk : List Byte) : List Byte :=
  match (roundKeys key).reverse with
  | [] => []
  | k :: r => (aesInvRounds r (xorNat (blk.map BitVec.toNat) k)).map (BitVec.ofNat 8)

/-- CBC encryption of whole blocks. -/
def cbcEnc (key : List Byte) : List Byte → List (List Byte) → List Byte
  | _, [] => []
  | iv, b :: r => let c := aesEnc key (xorBytes b iv); c ++ cbcEnc key c r

/-- CBC decryption of whole blocks. -/
def cbcDec (key : List Byte) : List Byte → List (List Byte) → List Byte
  | _, [] => []
  | iv, b :: r => xorBytes (aesDec key b) iv ++ cbcDec key b r

/-- Doubling in GF(2^128) for CMAC. -/
def dbl128 (a : Nat) : Nat := let b := 2 * a % 2 ^ 128; if a < 2 ^ 127 then b else b ^^^ 0x87

/-- AES-CMAC: 16 bytes. -/
def cmac (key msg : List Byte) : List Byte :=
  let l := beNat (aesEnc key (List.replicate 16 0))
  let k1 := dbl128 l
  let bs := blocks 16 msg
  let last := bs.getLastD []
  let fin := if last.length = 16 then beNat last ^^^ k1
    else beNat (fit 16 (last ++ [0x80])) ^^^ dbl128 k1
  let x := bs.dropLast.foldl (fun x b => aesEnc key (xorBytes x b)) (List.replicate 16 0)
  aesEnc key (xorBytes x (beBytes 16 fin))

/-! ### GCM -/

/-- Multiplication in GCM's GF(2^128), most significant bit first. -/
def ghMulGo : Nat → Nat → Nat → Nat → Nat
  | 0, z, _, _ => z
  | f + 1, z, v, x =>
    let z := if x.testBit f then z ^^^ v else z
    ghMulGo f z (if v % 2 = 1 then (v / 2) ^^^ (0xE1 * 2 ^ 120) else v / 2) x

def ghMul (x y : Nat) : Nat := ghMulGo 128 0 y x

/-- GHASH over byte strings padded to blocks. -/
def ghash (h : Nat) (y : Nat) (l : List Byte) : Nat :=
  (blocks 16 l).foldl (fun y b => ghMul (y ^^^ beNat (fit 16 b)) h) y

/-- Counter mode from a 32-bit counter value. -/
def ctrGo (key j0 : List Byte) : Nat → List (List Byte) → List Byte
  | _, [] => []
  | c, b :: r => xorBytes b (aesEnc key (j0.take 12 ++ beBytes 4 (c % 2 ^ 32))) ++ ctrGo key j0 (c + 1) r

/-- The pre-counter block of a nonce. -/
def gcmJ0 (h : Nat) (iv : List Byte) : List Byte :=
  if iv.length = 12 then iv ++ [0, 0, 0, 1]
  else beBytes 16 (ghMul (ghash h 0 iv ^^^ (iv.length * 8)) h)

/-- Ciphertext or plaintext of AES-GCM, and the tag over the given ciphertext. -/
def gcmTag (key iv aad ct : List Byte) : List Byte :=
  let h := beNat (aesEnc key (List.replicate 16 0))
  let j0 := gcmJ0 h iv
  let s := ghMul (ghash h (ghash h 0 aad) ct ^^^ (aad.length * 8 * 2 ^ 64 + ct.length * 8)) h
  xorBytes (beBytes 16 s) (aesEnc key j0)

def gcmCrypt (key iv txt : List Byte) : List Byte :=
  let h := beNat (aesEnc key (List.replicate 16 0))
  let j0 := gcmJ0 h iv
  ctrGo key j0 (beNat (j0.drop 12) + 1) (blocks 16 txt)

/-- Authenticated encryption: ciphertext and 16-byte tag. -/
def gcmEnc (key iv aad pt : List Byte) : List Byte × List Byte :=
  let ct := gcmCrypt key iv pt
  (ct, gcmTag key iv aad ct)

/-- Authenticated decryption: none when the tag fails. -/
def gcmDec (key iv aad ct tag : List Byte) : Option (List Byte) :=
  if gcmTag key iv aad ct = tag then some (gcmCrypt key iv ct) else none

/-! ### FF1, radix 10 -/

/-- The digits of a number, most significant first, n of them. -/
def digitsOf : Nat → Nat → List Nat
  | 0, _ => []
  | n + 1, v => digitsOf n (v / 10) ++ [v % 10]

/-- The numeral of digits, most significant first. -/
def numeral (l : List Nat) : Nat := l.foldl (fun a d => 10 * a + d) 0

/-- CBC-MAC of whole blocks. -/
def prf (key : List Byte) (msg : List Byte) : List Byte :=
  (blocks 16 msg).foldl (fun x b => aesEnc key (xorBytes x b)) (List.replicate 16 0)

/-- The number y of a round of FF1 for halves of ten digits: b is 5 bytes and d is 12 bytes, one block of R. -/
def ff1Y (key tweak : List Byte) (i b : Nat) : Nat :=
  let p : List Byte := [1, 2, 1] ++ beBytes 3 10 ++ [10, 10] ++ beBytes 4 20 ++ beBytes 4 tweak.length
  let pad := (16 - (tweak.length + 6) % 16) % 16
  let q := tweak ++ List.replicate pad 0 ++ [BitVec.ofNat 8 i] ++ beBytes 5 b
  beNat ((prf key (p ++ q)).take 12)

def ff1DecGo (key tweak : List Byte) : Nat → Nat → Nat → Nat × Nat
  | 0, a, b => (a, b)
  | i + 1, a, b => ff1DecGo key tweak i ((b + 10 ^ 10 - ff1Y key tweak i a % 10 ^ 10) % 10 ^ 10) a

/-- FF1 decryption of 20 decimal digits. -/
def ff1Decrypt (key tweak : List Byte) (digits : List Nat) : List Nat :=
  let r := ff1DecGo key tweak 10 (numeral (digits.take 10)) (numeral (digits.drop 10))
  digitsOf 10 r.1 ++ digitsOf 10 r.2

/-! ### SHA-2 and HMAC -/

/-- The primes below 410, of which SHA-2 uses the first 80. -/
def primes : List Nat := (List.range 410).filter fun n => decide (1 < n) && (List.range n).all fun d => d < 2 || n % d != 0

/-- floor of the cube root, bit by bit. -/
def icbrtGo : Nat → Nat → Nat → Nat
  | 0, _, r => r
  | f + 1, n, r => let t := r + 2 ^ f; icbrtGo f n (if t ^ 3 ≤ n then t else r)

/-- The round constants for words of w bits: fractional parts of cube roots. -/
def shaK (w rounds : Nat) : List Nat := (primes.take rounds).map fun p => icbrtGo (w + 4) (p * 2 ^ (3 * w)) 0 % 2 ^ w

/-- Initial values for words of w bits: fractional parts of square roots of eight primes. -/
def shaInit (w skip : Nat) : List Nat := ((primes.drop skip).take 8).map fun p => isqrt (p * 2 ^ (2 * w)) % 2 ^ w

def k256 : List Nat := shaK 32 64
def k512 : List Nat := shaK 64 80

def rotr (w x n : Nat) : Nat := x / 2 ^ n + x % 2 ^ n * 2 ^ (w - n)

/-- A sigma function: two rotations and a rotation or a shift. -/
def sig3 (w a b c : Nat) (shift : Bool) (x : Nat) : Nat :=
  rotr w x a ^^^ rotr w x b ^^^ (if shift then x / 2 ^ c else rotr w x c)

/-- The message schedule, newest word first. -/
def schedGo (w : Nat) (s0 s1 : Nat → Nat) : Nat → List Nat → List Nat
  | 0, l => l
  | f + 1, l => schedGo w s0 s1 f ((s1 (l.getD 1 0) + l.getD 6 0 + s0 (l.getD 14 0) + l.getD 15 0) % 2 ^ w :: l)

/-- One block. -/
def shaBlock (w : Nat) (ks : List Nat) (b0 b1 s0 s1 : Nat → Nat) (h : List Nat) (blk : List Byte) : List Nat :=
  let w0 := ((blocks (w / 8) blk).map beNat).reverse
  let ws := (schedGo w s0 s1 (ks.length - 16) w0).reverse
  let round := fun (v : List Nat) (kw : Nat × Nat) =>
    match v with
    | [a, b, c, d, e, f, g, hh] =>
      let t1 := hh + b1 e + ((e &&& f) ^^^ ((2 ^ w - 1 - e) &&& g)) + kw.1 + kw.2
      let t2 := b0 a + ((a &&& b) ^^^ (a &&& c) ^^^ (b &&& c))
      [(t1 + t2) % 2 ^ w, a, b, c, (d + t1) % 2 ^ w, e, f, g]
    | v => v
  List.zipWith (fun x y => (x + y) % 2 ^ w) h ((List.zip ks ws).foldl round h)

/-- Padding to whole blocks of 16 words. -/
def shaPad (w : Nat) (m : List Byte) : List Byte :=
  let bs := 2 * w
  let l := w / 4
  let z := (bs - (m.length + 1 + l) % bs) % bs
  m ++ [0x80] ++ List.replicate z 0 ++ beBytes l (8 * m.length)

def sha256 (m : List Byte) : List Byte :=
  let f := shaBlock 32 k256 (sig3 32 2 13 22 false) (sig3 32 6 11 25 false) (sig3 32 7 18 3 true) (sig3 32 17 19 10 true)
  (((blocks 64 (shaPad 32 m)).foldl f (shaInit 32 0)).map (beBytes 4)).flatten

def sha384 (m : List Byte) : List Byte :=
  let f := shaBlock 64 k512 (sig3 64 28 34 39 false) (sig3 64 14 18 41 false) (sig3 64 1 8 7 true) (sig3 64 19 61 6 true)
  ((((blocks 128 (shaPad 64 m)).foldl f (shaInit 64 8)).map (beBytes 8)).flatten).take 48

def hmac256 (key m : List Byte) : List Byte :=
  let k := fit 64 (if 64 < key.length then sha256 key else key)
  sha256 (k.map (· ^^^ 0x5C) ++ sha256 (k.map (· ^^^ 0x36) ++ m))

def hmac384 (key m : List Byte) : List Byte :=
  let k := fit 128 (if 128 < key.length then sha384 key else key)
  sha384 (k.map (· ^^^ 0x5C) ++ sha384 (k.map (· ^^^ 0x36) ++ m))

/-- HKDF with SHA-256 to at most 64 bytes (RFC 5869). -/
def hkdf256 (salt ikm info : List Byte) (n : Nat) : List Byte :=
  let prk := hmac256 (if salt.isEmpty then List.replicate 32 0 else salt) ikm
  let t1 := hmac256 prk (info ++ [1])
  (t1 ++ hmac256 prk (t1 ++ info ++ [2])).take n

/-! ### ChaCha20-Poly1305 -/

def add32 (a b : Nat) : Nat := (a + b) % 2 ^ 32
def rol32 (a n : Nat) : Nat := rotr 32 a (32 - n)

/-- A quarter round on four places of the state. -/
def quarter (s : List Nat) (a b c d : Nat) : List Nat :=
  let g := fun i => s.getD i 0
  let x := add32 (g a) (g b)
  let w := rol32 (g d ^^^ x) 16
  let z := add32 (g c) w
  let y := rol32 (g b ^^^ z) 12
  let x := add32 x y
  let w := rol32 (w ^^^ x) 8
  let z := add32 z w
  let y := rol32 (y ^^^ z) 7
  (((s.set a x).set b y).set c z).set d w

def doubleRound (s : List Nat) : List Nat :=
  let s := quarter (quarter (quarter (quarter s 0 4 8 12) 1 5 9 13) 2 6 10 14) 3 7 11 15
  quarter (quarter (quarter (quarter s 0 5 10 15) 1 6 11 12) 2 7 8 13) 3 4 9 14

def chachaBlock (key nonce : List Byte) (ctr : Nat) : List Byte :=
  let w := fun l => (blocks 4 l).map leNat
  let s := [0x61707865, 0x3320646E, 0x79622D32, 0x6B206574] ++ w key ++ [ctr] ++ w nonce
  let r := (List.range 10).foldl (fun s _ => doubleRound s) s
  ((List.zipWith add32 s r).map (leBytes 4)).flatten

def chachaGo (key nonce : List Byte) : Nat → List (List Byte) → List Byte
  | _, [] => []
  | c, b :: r => xorBytes b (chachaBlock key nonce c) ++ chachaGo key nonce (c + 1) r

def poly1305 (key m : List Byte) : List Byte :=
  let r := leNat (key.take 16) &&& 0x0FFFFFFC0FFFFFFC0FFFFFFC0FFFFFFF
  let p := 2 ^ 130 - 5
  let a := (blocks 16 m).foldl (fun a b => (a + leNat (b ++ [1])) * r % p) 0
  leBytes 16 (a + leNat (key.drop 16))

def pad16 (l : List Byte) : List Byte := l ++ List.replicate ((16 - l.length % 16) % 16) 0

def ccpTag (key nonce aad ct : List Byte) : List Byte :=
  poly1305 ((chachaBlock key nonce 0).take 32) (pad16 aad ++ pad16 ct ++ leBytes 8 aad.length ++ leBytes 8 ct.length)

def ccpCrypt (key nonce txt : List Byte) : List Byte := chachaGo key nonce 1 (blocks 64 txt)

/-! ### Elliptic curves -/

/-- A short Weierstrass curve with a = −3. -/
structure Curve where
  p : Nat
  b : Nat
  n : Nat
  gx : Nat
  gy : Nat
  len : Nat

def p256 : Curve :=
  { p := 2 ^ 256 - 2 ^ 224 + 2 ^ 192 + 2 ^ 96 - 1
    b := 0x5AC635D8AA3A93E7B3EBBD55769886BC651D06B0CC53B0F63BCE3C3E27D2604B
    n := 0xFFFFFFFF00000000FFFFFFFFFFFFFFFFBCE6FAADA7179E84F3B9CAC2FC632551
    gx := 0x6B17D1F2E12C4247F8BCE6E563A440F277037D812DEB33A0F4A13945D898C296
    gy := 0x4FE342E2FE1A7F9B8EE7EB4A7C0F9E162BCE33576B315ECECBB6406837BF51F5
    len := 32 }

def p384 : Curve :=
  { p := 2 ^ 384 - 2 ^ 128 - 2 ^ 96 + 2 ^ 32 - 1
    b := 0xB3312FA7E23EE7E4988E056BE3F82D19181D9C6EFE8141120314088F5013875AC656398D8A2ED19D2A85C8EDD3EC2AEF
    n := 0xFFFFFFFFFFFFFFFFFFFFFFFFFFFFFFFFFFFFFFFFFFFFFFFFC7634D81F4372DDF581A0DB248B0A77AECEC196ACCC52973
    gx := 0xAA87CA22BE8B05378EB1C71EF320AD746E1D3B628BA79B9859F741E082542A385502F25DBF55296C3A545E3872760AB7
    gy := 0x3617DE4A96262C6F5D9E98BF9292DC29F8F41DBD289A147CE9DA3113B5F0B8C00A60B1CE1D7E819D7A431D7C90EA0E5F
    len := 48 }

/-- Modular power with the exponent's length as fuel. -/
def powModGo : Nat → Nat → Nat → Nat → Nat
  | 0, _, _, _ => 1
  | f + 1, m, a, e =>
    let r := powModGo f m (a * a % m) (e / 2)
    if e % 2 = 1 then a * r % m else r

/-- Inverse modulo a prime. -/
def invMod (m a : Nat) : Nat := powModGo 400 m (a % m) (m - 2)

/-- Subtraction modulo m. -/
def subMod (m a b : Nat) : Nat := (a + m - b % m) % m

/-- Addition of points; none is the point at infinity. -/
def ecAdd (c : Curve) : Option (Nat × Nat) → Option (Nat × Nat) → Option (Nat × Nat)
  | none, q => q
  | p, none => p
  | some (x1, y1), some (x2, y2) =>
    if x1 = x2 ∧ (y1 + y2) % c.p = 0 then none
    else
      let l := if x1 = x2 then (3 * x1 * x1 + c.p - 3) * invMod c.p (2 * y1) % c.p
        else subMod c.p y2 y1 * invMod c.p (subMod c.p x2 x1) % c.p
      let x3 := subMod c.p (l * l) (x1 + x2)
      some (x3, subMod c.p (l * subMod c.p x1 x3) y1)

/-- Scalar multiplication with the scalar's length as fuel. -/
def ecMulGo (c : Curve) : Nat → Nat → Option (Nat × Nat) → Option (Nat × Nat)
  | 0, _, _ => none
  | f + 1, k, q =>
    let r := ecMulGo c f (k / 2) (ecAdd c q q)
    if k % 2 = 1 then ecAdd c q r else r

def ecMul (c : Curve) (k : Nat) (q : Option (Nat × Nat)) : Option (Nat × Nat) := ecMulGo c 384 k q

def ecG (c : Curve) : Option (Nat × Nat) := some (c.gx, c.gy)

/-- Whether a point lies on the curve. -/
def onCurve (c : Curve) (x y : Nat) : Bool :=
  decide (x < c.p) && decide (y < c.p) && decide (y * y % c.p = (x * x * x + 3 * (c.p - x) + c.b) % c.p)

/-- A digest as a number of the order's length. -/
def hashNum (c : Curve) (h : List Byte) : Nat := beNat (h.take c.len)

/-- ECDSA with private key d and nonce k: r ‖ s. -/
def ecdsaSign (c : Curve) (d k : Nat) (h : List Byte) : List Byte :=
  let k := k % (c.n - 1) + 1
  let r := match ecMul c k (ecG c) with
    | some (x, _) => x % c.n
    | none => 0
  let s := invMod c.n k * (hashNum c h + r * d) % c.n
  beBytes c.len r ++ beBytes c.len s

/-- ECDSA verification of r ‖ s under a public point. -/
def ecdsaVerify (c : Curve) (x y : Nat) (h sig : List Byte) : Bool :=
  let r := beNat (sig.take c.len)
  let s := beNat (sig.drop c.len)
  if sig.length ≠ 2 * c.len ∨ r = 0 ∨ c.n ≤ r ∨ s = 0 ∨ c.n ≤ s ∨ !onCurve c x y then false
  else
    let w := invMod c.n s
    match ecAdd c (ecMul c (hashNum c h * w % c.n) (ecG c)) (ecMul c (r * w % c.n) (some (x, y))) with
    | some (v, _) => v % c.n == r
    | none => false

/-- The x coordinate of a shared point; none for a bad point. -/
def ecdh (c : Curve) (d x y : Nat) : Option (List Byte) :=
  if onCurve c x y then (ecMul c d (some (x, y))).map fun q => beBytes c.len q.1 else none

/-- The point of a compressed encoding: 0x02 or 0x03 for the parity of y, then x; both primes are 3 modulo 4. -/
def ecDecompress (c : Curve) (l : List Byte) : Option (Nat × Nat) :=
  let tag := (l.headD 0).toNat
  let x := beNat (l.drop 1)
  let y := powModGo 400 c.p ((x * x * x + 3 * (c.p - x) + c.b) % c.p) ((c.p + 1) / 4)
  let y := if y % 2 = tag % 2 then y else c.p - y
  if (tag = 2 ∨ tag = 3) ∧ l.length = c.len + 1 ∧ onCurve c x y then some (x, y) else none

/-- The public point of a private key as X ‖ Y. -/
def ecPub (c : Curve) (d : Nat) : List Byte :=
  match ecMul c d (ecG c) with
  | some (x, y) => beBytes c.len x ++ beBytes c.len y
  | none => List.replicate (2 * c.len) 0

end Sys2Proof.Machine
end

