-- ==== Sys2Proof/Machine/DispReq.lean ====
section
/-! DEFINITION. Requests for region updates (08_legal_display.md, R173 and R175): the pending slot of a region, and the
kernel's requests for the legal region of a port. -/

namespace Sys2Proof.Machine

def rgnBase (r : Fin 16) : Nat := 0x20280100 + 0x10 * r.val
def rgnEn (s : State) (r : Fin 16) : Bool := s.pb (rgnBase r + 8) 31
def rgnLegal (s : State) (r : Fin 16) : Bool := s.pb (rgnBase r + 8) 30
def rgnPort (s : State) (r : Fin 16) : Port := Fin.ofNat 8 (s.pf (rgnBase r + 8) 29 27)
def rgnSlot (s : State) (r : Fin 16) : Fin 4 := Fin.ofNat 4 (s.pf (rgnBase r + 8) 23 22)

/-- The enabled legal region of a port (R170). -/
def legalRegion (s : State) (n : Port) : Option (Fin 16) :=
  (fins 16).find? (fun r => rgnEn s r && rgnLegal s r && rgnPort s r == n)

/-- A request enters its region's pending slot; one already there is replaced, and hands on its age and whether it was a
redraw of R181 (R175). From step 2 of a power-fail save every request is discarded (R179). -/
def State.putRequest (s : State) (r : Fin 16) (q : PendUpd) : State :=
  if s.disp.pfwBlock then s
  else
    match s.disp.rgn[r].pend with
    | none =>
      { s.modRgn r (fun g => { g with pend := some { q with order := s.disp.order } }) with
        disp.order := s.disp.order + 1 }
    | some old =>
      let new := { q with order := old.order, redraw := old.redraw || q.redraw, initFirst := old.initFirst || q.initFirst }
      { s.modRgn r (fun g => { g with pend := some new }) with
        disp.replaced := true, disp.replacedCnt := satInc s.disp.replacedCnt }

/-- The kernel's request for the legal region of a port: GC16 (R171, R173). -/
def State.legalReq (s : State) (n : Port) : State :=
  match legalRegion s n with
  | none => s
  | some r =>
    s.putRequest r { mode := 1, legal := true, initFirst := false, redraw := false, mark := false, order := 0, src := 0 }

end Sys2Proof.Machine
end

