-- ==== Sys2Proof/Machine/Views.lean ====
section
/-! DEFINITION. The configuration fields of channels, pairs and meters, and the views of an accumulator (chapters 04 and
05, R91 to R97, R102). -/

namespace Sys2Proof.Machine

/-! ### Channels and clock groups -/

def chBase (n : ChanId) : Nat := 0x20201000 + 0x20 * n.val
def chMode (s : State) (n : ChanId) : Nat := s.pf (chBase n) 31 30
def chGroup (s : State) (n : ChanId) : Fin 2 := if s.pb (chBase n) 29 then 1 else 0
def chDelay (s : State) (n : ChanId) : Nat := s.pf (chBase n) 23 16
def chRunlen (s : State) (n : ChanId) : Nat := max 32 (s.pf (chBase n) 15 8)
def chRsmp (s : State) (n : ChanId) : Bool := s.pb (chBase n) 24
def chOfs (s : State) (n : ChanId) : Int := signedOf 24 (s.pf (chBase n + 4) 23 0)
def chGain (s : State) (n : ChanId) : Nat := s.pf (chBase n + 8) 23 0
def chTsrc (s : State) (n : ChanId) : Nat := s.pf (chBase n + 0xC) 31 28
def chTc (s : State) (n : ChanId) : Int := signedOf 20 (s.pf (chBase n + 0xC) 19 0)
def chTcal (s : State) (n : ChanId) : Int := signedOf 12 (s.pf (chBase n + 0x10) 11 0)

/-- DIV of a clock group. -/
def grpDiv (s : State) (g : Fin 2) : Nat := if g = 0 then s.pf 0x20200010 12 8 else s.pf 0x20200010 28 24

/-- The decimation exponent k of a clock group. -/
def grpK (s : State) (g : Fin 2) : Nat := if g = 0 then s.pf 0x20200010 7 4 else s.pf 0x20200010 23 20

/-- MCLKn running. -/
def grpEn (s : State) (g : Fin 2) : Bool := if g = 0 then s.pb 0x20200010 13 else s.pb 0x20200010 29

/-- The window of a fine sample in modulator bits (R71). -/
def winBits (k : Nat) : Nat := 51 * 2 ^ k - 3

/-- One modulator bit in ns. -/
def bitNs (s : State) (g : Fin 2) : Nat := 10 * grpDiv s g

/-- The fine-sample period in ns. -/
def fineNs (s : State) (g : Fin 2) : Nat := bitNs s g * 2 ^ (grpK s g + 1)

/-- Fine samples that may be held before INVALID: floor(0.010 × f_fine) (R99). -/
def holdLimit (s : State) (g : Fin 2) : Nat := 1000000 / (grpDiv s g * 2 ^ (grpK s g + 1))

/-! ### Ranging pairs -/

def rpBase (p : Fin 8) : Nat := 0x20200400 + 0x10 * p.val
def rpEn (s : State) (p : Fin 8) : Bool := s.pb (rpBase p) 31
def rpLr (s : State) (p : Fin 8) : ChanId := Fin.ofNat 32 (s.pf (rpBase p) 28 24)
def rpHr (s : State) (p : Fin 8) : ChanId := Fin.ofNat 32 (s.pf (rpBase p) 20 16)
/-- RSHIFT, 1 to 8: a commit keeps it there. DESIGN CHOICE: an image's value outside stands as it is, and above 8 LR counts as
with 8, since the spec states no outcome for either. -/
def rpShift (s : State) (p : Fin 8) : Nat := s.pf (rpBase p) 15 12

/-- TOL in 0.01 %, clamped to 5 to 200. -/
def rpTol (s : State) (p : Fin 8) : Nat := clamp 5 200 (s.pf (rpBase p) 7 0)

/-- The enabled pair whose HR member is a channel. -/
def pairOfHr (s : State) (c : ChanId) : Option (Fin 8) := (fins 8).find? (fun p => rpEn s p && rpHr s p == c)

/-! ### Meters -/

def mBase (m : MeterId) : Nat := 0x20202000 + 0x100 * m.val

/-- A meter's EN bit. -/
def mOn (s : State) (m : MeterId) : Bool := s.pb (mBase m) 31

/-- A meter that is enabled, while the kernel runs. -/
def mEn (s : State) (m : MeterId) : Bool := mOn s m && kernelUp s

def mType (s : State) (m : MeterId) : Nat := s.pf (mBase m) 30 29
def mRole (s : State) (m : MeterId) : Nat := s.pf (mBase m) 28 27
def mRgw (s : State) (m : MeterId) : Bool := s.pb (mBase m) 26
def mSeqEn (s : State) (m : MeterId) : Bool := s.pb (mBase m) 25 && mType s m == 2
def mNeutEn (s : State) (m : MeterId) : Bool := s.pb (mBase m) 24 && mType s m == 2
def mPort (s : State) (m : MeterId) : Port := Fin.ofNat 8 (s.pf (mBase m) 22 20)
def mNtol (s : State) (m : MeterId) : Nat := clamp 5 50 (s.pf (mBase m) 19 14)
def mchAt (s : State) (m : MeterId) (hi lo : Nat) : ChanId := Fin.ofNat 32 (s.pf (mBase m + 4) hi lo)

/-- The voltage channels of a meter, by its type (R91). -/
def mVolt (s : State) (m : MeterId) : List ChanId :=
  if mType s m = 2 then [mchAt s m 29 25, mchAt s m 24 20, mchAt s m 19 15] else [mchAt s m 29 25]

/-- The current channels of a meter, by its type. -/
def mCurr (s : State) (m : MeterId) : List ChanId :=
  if mType s m = 2 then [mchAt s m 14 10, mchAt s m 9 5, mchAt s m 4 0] else [mchAt s m 14 10]

/-- A partition code that a port map gives, where it is that of a G partition. -/
def gPart (p : Nat) : Option (Fin 8) := if h : 2 ≤ p ∧ p < 8 then some ⟨p, h.2⟩ else none

/-- Whether the measurement partition uses one of its balls: an MBn that a MET channel takes its bits from, a PLSn whose
pulse output is enabled (R330). The GP balls, from 40, are no balls of that partition. -/
def mpUses (s : State) (b : Nat) : Bool :=
  if h : b < 32 then chMode s ⟨b, h⟩ != 0
  else decide (b < 40) && s.pb (0x20200A00 + 0x10 * (b - 32)) 31

/-- The G partition that owns a ball, that drives a bit of THL_GIN, or that drives a user source, by the port map in force;
none without an image (R330, R346). A ball that the measurement partition uses stays with it. -/
def ballOwner (s : State) (b : Nat) : Option (Fin 8) :=
  if s.thl.portMap.isEmpty || mpUses s b then none else gPart (Config.portBall s.thl.portMap b)
def ginOwner (s : State) (b : Nat) : Option (Fin 8) :=
  if s.thl.portMap.isEmpty then none else gPart (Config.portGin s.thl.portMap b)
def sourceOwner (s : State) (n : Nat) : Option (Fin 8) :=
  if s.thl.portMap.isEmpty then none else gPart (Config.portSource s.thl.portMap n).1

/-- Whether a user source is assigned as a rising edge. -/
def sourceRises (s : State) (n : Nat) : Bool := (Config.portSource s.thl.portMap n).2

/-- The clock group of a meter: that of its channels (R92). -/
def mGroup (s : State) (m : MeterId) : Fin 2 := chGroup s (mchAt s m 29 25)

def mVfs (s : State) (m : MeterId) : Nat := s.pf (mBase m + 0xC) 19 0
def mIfs (s : State) (m : MeterId) : Nat := s.pf (mBase m + 0x10) 23 0
def mCable (s : State) (m : MeterId) : Nat := s.pf (mBase m + 0x14) 19 0
def mIgs (s : State) (m : MeterId) : Nat := s.pf (mBase m + 0x18) 11 8
def mLeak (s : State) (m : MeterId) : Nat := s.pf (mBase m + 0x18) 4 0

/-- The enabled outlet meter of a port (R91). -/
def outletMeter (s : State) (n : Port) : Option MeterId :=
  (fins 12).find? (fun m => mEn s m && mRole s m == 0 && mPort s m == n)

/-- The grid meter, when exactly one exists (R108, R122). -/
def gridMeter (s : State) : Option MeterId :=
  match (fins 12).filter (fun m => mEn s m && mRole s m == 1) with
  | [m] => some m
  | _ => none

/-- The neutral current channel of a meter, where it has one. -/
def mNeutral (s : State) (m : MeterId) : List ChanId :=
  if mType s m = 2 && s.pb (mBase m + 8) 31 then [Fin.ofNat 32 (s.pf (mBase m + 8) 4 0)] else []

/-- Whether I1 of a meter is a ranging pair. -/
def mRanged (s : State) (m : MeterId) : Bool := (pairOfHr s (mchAt s m 14 10)).isSome

/-- KE of R94, in 2^-64 nWh per unit of v·i. -/
def keOf (s : State) (m : MeterId) : Nat :=
  let k := grpK s (mGroup s m)
  (roundHalfUp ((mVfs s m * mIfs s m * grpDiv s (mGroup s m) * 2 ^ (k + if mRanged s m then 11 else 19) : Nat) : Int) 3600000).toNat

/-- KL of R94, in 2^-64 nWh per unit of i². -/
def klOf (s : State) (m : MeterId) : Nat :=
  let k := grpK s (mGroup s m)
  (roundHalfUp ((mCable s m * mIfs s m ^ 2 * grpDiv s (mGroup s m) * 2 ^ (k + if mRanged s m then 3 else 19) : Nat) : Int)
    3600000000000).toNat

/-! ### Accumulators and their views (R96, R102) -/

/-- ACC, in nWh. -/
def accOf (a : BitVec 160) : Nat := a.toNat / 2 ^ 64

/-- RES, in 2^-32 nWh. -/
def resOf (a : BitVec 160) : Nat := a.toNat / 2 ^ 32 % 2 ^ 32

/-- CRY, in 2^-64 nWh. -/
def cryOf (a : BitVec 160) : Nat := a.toNat % 2 ^ 32

/-- The legal view in mWh. -/
def legalView (a : BitVec 160) : Nat := accOf a / 10 ^ 6

/-- The short view in 0.1 Wh. -/
def shortView (a : BitVec 160) : Nat := accOf a / 10 ^ 8 % 2 ^ 32

/-- The number of wraps of the short view. -/
def wrapNum (a : BitVec 160) : Nat := accOf a / (10 ^ 8 * 2 ^ 32)

/-- The display register in Wh. -/
def dispWh (a : BitVec 160) : Nat := accOf a / 10 ^ 9 % 10 ^ 10

/-- n decimal digits as BCD. -/
def bcd : Nat → Nat → Nat
  | 0, _ => 0
  | n + 1, v => v % 10 + 16 * bcd n (v / 10)

/-- A meter's accumulator in a direction: false import, true export. -/
def State.acc (s : State) (m : MeterId) (exp : Bool) : BitVec 160 := if exp then s.met.m[m].exp else s.met.m[m].imp

/-- A meter's legal view. -/
def State.view (s : State) (m : MeterId) (exp : Bool) : Nat := legalView (s.acc m exp)

/-- Mean power from an energy in 2^-64 nWh over a span of one second, in W, rounded half up. -/
def powerW (q : Int) : Int := roundHalfUp (q * 36) (10 ^ 7 * 2 ^ 64)

end Sys2Proof.Machine
end

