-- ==== Sys2Proof/Machine/Sampling.lean ====
section
/-! DEFINITION. Sampling and the filter chain (04_sampling_and_filter_chain.md): the filters bit for bit, calibration,
settling, ranging pairs, the on-module converters and the resampler. -/

namespace Sys2Proof.Machine

/-! ### Bits, the CIC filters and the FIR (R66 to R72) -/

/-- x of a modulator bit: +1 or −1. -/
def bitX {n : Nat} (b : Bool) : BitVec n := if b then 1 else -1

/-- The four integrators, modulo 2^44. -/
def Cic.integrate (c : Cic) (b : Bool) : Cic :=
  let i1 := c.i1 + bitX b
  let i2 := c.i2 + i1
  let i3 := c.i3 + i2
  { c with i1 := i1, i2 := i2, i3 := i3, i4 := c.i4 + i3 }

/-- The four combs: the output y as 44-bit two's complement, and the registers after it. -/
def Cic.comb (c : Cic) : Int × Cic :=
  let d1 := c.i4 - c.z1
  let d2 := d1 - c.z2
  let d3 := d2 - c.z3
  let d4 := d3 - c.z4
  (d4.toInt, { c with z1 := c.i4, z2 := d1, z3 := d2, z4 := d3 })

/-- The normalised value c of R69. -/
def cicNorm (k : Nat) (y : Int) : Int :=
  if k ≤ 7 then y * 2 ^ (30 - 4 * k) else (y + 2 ^ (4 * k - 31)) / 2 ^ (4 * k - 30)

/-- The order-2 CIC of the fast path: integrators. -/
def FastCic.integrate (c : FastCic) (b : Bool) : FastCic :=
  let j1 := c.j1 + bitX b
  { c with j1 := j1, j2 := c.j2 + j1 }

/-- The order-2 CIC of the fast path: combs. -/
def FastCic.comb (c : FastCic) : Int × FastCic :=
  let d1 := c.j2 - c.w1
  let d2 := d1 - c.w2
  (d2.toInt, { c with w1 := c.j2, w2 := d1 })

/-- h[0] to h[23] of R70. -/
def firHalf : List Int :=
  [-32, -294, 881, 1845, -3355, -5620, 8640, 12751, -18287, -25501, 34897, 46473, -61237, -79692, 103180, 131701,
   -167772, -214748, 276824, 394265, -536871, -780140, 1275068, 3801328]

/-- The 48 symmetric taps. -/
def firTaps : List Int := firHalf ++ firHalf.reverse

/-- The FIR's exact sum over the newest 48 values of c. -/
def firAcc (hist : List Int) : Int := (List.zipWith (· * ·) firTaps hist).foldl (· + ·) 0

/-- y24 before its saturation. -/
def firOut (hist : List Int) : Int := (firAcc hist + 2 ^ 29) / 2 ^ 30

/-- A Manchester bit: the received one, or the substitute when the mid-bit transition is missing (R66). -/
def manBit (man miss raw : Bool) (c : Chan) : Bool × Chan :=
  if man && miss then
    let b := !c.lastSub
    (b, { c with lastSub := b, manerrCnt := satInc c.manerrCnt, subRun := c.subRun + 1, goodRun := 0,
                 lossDue := c.lossDue || (!c.loss && decide (16 ≤ c.subRun + 1)) })
  else (raw, { c with subRun := 0, goodRun := c.goodRun + 1,
                      goodDue := c.goodDue || (c.loss && decide (64 ≤ c.goodRun + 1)) })

/-- The run of identical bits (R67). -/
def runBit (runlen : Nat) (b : Bool) (c : Chan) : Chan :=
  let run := if 0 < c.run ∧ b = c.lastBit then c.run + 1 else 1
  let noRun := if runlen ≤ run then 0 else c.noRun + 1
  { c with run := run, lastBit := b, noRun := noRun, stuckDue := c.stuckDue || (!c.stuck && decide (runlen ≤ run)),
           freeDue := c.freeDue || (c.stuck && decide (64 ≤ noRun)) }

/-- One modulator bit of a channel: decoding, run check, delay trim, both CIC filters (R66 to R72). cnt is the group's
bit counter. -/
def chanBit (k runlen delay cnt : Nat) (man miss raw : Bool) (c : Chan) : Chan :=
  let d := manBit man miss raw c
  let c := runBit runlen d.1 d.2
  let line := (d.1 :: c.delayLine).take 256
  let b := line.getD delay false
  let cic := c.cic.integrate b
  let f := c.fcic.integrate b
  let c := { c with delayLine := line, bits := c.bits + 1 }
  let c := if cnt % 2 ^ k = 2 ^ k - 1 then
      let y := cic.comb
      { c with cic := y.2, hist := (cicNorm k y.1 :: c.hist).take 48 }
    else { c with cic := cic }
  if cnt % 16 = 15 then
    let y := f.comb
    { c with fcic := y.2, fast := satS 16 (y.1 * 128) }
  else { c with fcic := f }

/-- f_cal of R75, from f16. -/
def fastCal (f16 ofs gainEff : Int) : Int := satS 16 (((f16 - ofs / 2 ^ 8) * (gainEff / 2 ^ 8) + 2 ^ 13) / 2 ^ 14)

/-- Whether no frame that routes a channel is being rewritten (R342). -/
def routed (s : State) (c : Chan) : Bool := decide (c.unroutedTo.toNat ≤ s.now)

/-- Sixteen modulator bits of a channel, earliest first, and its fast sample (R72, R75, R77). -/
def chanBits (s : State) (n : ChanId) (cnt : Nat) (bits miss : BitVec 16) (c : Chan) : Chan :=
  let g := chGroup s n
  let man := chMode s n == 2
  let c := (List.range 16).foldl (fun c i =>
    chanBit (grpK s g) (chRunlen s n) (chDelay s n) (cnt + i) man (miss.getLsbD i) (bits.getLsbD i) c) c
  { c with fast := fastCal c.fast (chOfs s n) c.gainEff,
           fastValid := decide (32 ≤ c.bits) && !c.stuck && !c.loss && routed s c }

/-- A channel takes part in a clock group whose modulator clock runs (R63). -/
def inGroup (s : State) (g : Fin 2) (n : ChanId) : Bool :=
  grpEn s g && chMode s n != 0 && chMode s n != 3 && chGroup s n == g

/-- Add a fast sample to the channel's tick sum (R242 step 2). -/
def tickAdd (c : Chan) (t : TickSum) : TickSum := 
  { sum := t.sum + c.fast, n := t.n + 1, sq := t.sq + (c.fast * c.fast).toNat, ok := t.ok && c.fastValid }

/-- The range state of a pair after an LR fast sample (R79, R80). -/
def rangeStep (lr : Chan) (p : RPair) : RPair :=
  let a := lr.fast.natAbs
  if !p.high && decide (26215 ≤ a) then
    { p with high := true, swupCnt := satInc p.swupCnt, downCnt := 0, lowBits := 0 }
  else if p.high then { p with downCnt := if a ≤ 19660 then p.downCnt + 1 else 0, lowBits := 0 }
  else { p with lowBits := p.lowBits + 16 }

/-- The fast samples of a clock group: 16 modulator bits of each of its channels, the trip lane's values, and the range
state of its pairs. A fine sample is due when a CIC output of odd index has come (R70). -/
def fastSample (g : Fin 2) (bits miss : Vector (BitVec 16) 32) (s : State) : State :=
  if !grpEn s g then s
  else
  let cnt := s.met.grp[g].bit
  let k := grpK s g
  let s := forAll (fins 32) (fun s n =>
    if inGroup s g n then
      let s := s.modCh n (chanBits s n cnt bits[n] miss[n])
      { s with met.tick := vmod s.met.tick n (tickAdd s.met.ch[n]) }
    else s) s
  let s := forAll (fins 8) (fun s p =>
    if rpEn s p && inGroup s g (rpLr s p) then
      { s with met.rp := vmod s.met.rp p (rangeStep s.met.ch[rpLr s p]) }
    else s) s
  let dec := (cnt + 16) / 2 ^ k - cnt / 2 ^ k
  let step := fun (r : Group) =>
    { r with bit := cnt + 16, cicIdx := r.cicIdx + dec, due := r.due || decide (r.cicIdx / 2 < (r.cicIdx + dec) / 2),
             lastNs := s.time.sysNs, prevNs := r.lastNs }
  { s with met.grp := vmod s.met.grp g step }

/-! ### Calibration and settling of the fine samples (R70, R74, R77) -/

/-- x2 of R74 from y24. -/
def calFine (y24 ofs gainEff : Int) : Int := satS 26 (((y24 - ofs) * gainEff + 2 ^ 21) / 2 ^ 22)

/-- A channel's fine sample. -/
def fineStep (s : State) (n : ChanId) (k : Nat) (c : Chan) : Chan :=
  let y := firOut c.hist
  let y24 := satS 24 y
  let x2 := calFine y24 (chOfs s n) c.gainEff
  let settling := decide (c.bits < winBits k)
  let c := if y24 = y then c else { c with satf := true, satCnt := satInc c.satCnt }
  { c with x2 := x2, settling := settling, valid := !settling && !c.stuck && !c.loss && routed s c, fines := c.fines + 1,
           xs := (x2 :: c.xs).take 32 }

/-- The pair's fine sample (R78, R80, R82) and its block sums (R81). -/
def pairFine (lr hr : Chan) (rshift k : Nat) (p : RPair) : RPair :=
  let olr := lr.x2 * 2 ^ (8 - rshift)
  let ohr := hr.x2 * 2 ^ 8
  let fromLr := decide (winBits k ≤ p.lowBits) && !p.high && lr.valid
  let susp := lr.stuck || lr.loss || hr.stuck || hr.loss
  { p with out := if fromLr then olr else ohr, outValid := if fromLr then lr.valid else hr.valid,
           sl := p.sl + olr.natAbs, sh := p.sh + ohr.natAbs, blkN := p.blkN + 1,
           blkLow := p.blkLow && !p.high && !susp }

/-- RANGE_SELFCHECK_BLOCK: a block of 8,192 fine samples is evaluated when it was LOW throughout and its mean is at least
5 % of full scale (R81, R82). -/
def selfCheck (p : Fin 8) (s : State) : State :=
  let r := s.met.rp[p]
  if r.blkN < 8192 then s
  else
    let set := fun (f : RPair → RPair) (s : State) => { s with met.rp := vmod s.met.rp p f }
    let clear := fun (r : RPair) => { r with sl := 0, sh := 0, blkN := 0, blkLow := true }
    if r.blkLow && decide (8192 * 2 ^ (31 - rpShift s p) ≤ 20 * r.sl) then
      let d := roundHalfUp (1000000 * (r.sh - r.sl)) r.sl.toNat
      let beyond := decide (rpTol s p * 100 < d.natAbs)
      let ex := if beyond then r.exceed + 1 else 0
      let s := set (fun r => clear { r with dev := wdI d, exceed := ex }) s
      if 3 ≤ ex ∧ !r.disagree then
        let s := set (fun r => { r with disagree := true }) s
        let s := s.audit 0x0005 0xFF 0 (wd p.val) 0 (wdI d)
        forAll (fins 8) (fun s n =>
          match outletMeter s n with
          | some m =>
            if (mCurr s m).contains (rpHr s p) then
              s.flagSess n 0x20
            else s
          | none => s) s
      else s
    else set clear s

def execRangeSelfcheckBlock (p : Fin 8) (s : State) : Host.Outcome State Fault Refusal := live s (selfCheck p)

/-- RANGE_SWITCH_DOWN: after floor(0.020 × f_mod / 16) consecutive LR fast samples at or below 60 % (R79). -/
def execRangeSwitchDown (p : Fin 8) (s : State) : Host.Outcome State Fault Refusal :=
  live s fun s =>
    let r := s.met.rp[p]
    if r.high && decide (125000 / grpDiv s (chGroup s (rpLr s p)) ≤ r.downCnt) then
      { s with met.rp := vmod s.met.rp p fun r => { r with high := false, downCnt := 0, lowBits := 0 } }
    else s

/-! ### LOSS and STUCK (R66, R67, R77) -/

/-- The restart of a channel: it settles again, and its Rogowski integrator is cleared (R77, R98). -/
def restart (c : Chan) : Chan :=
  { c with bits := 0, fines := 0, settling := true, valid := false, fastValid := false, rgw := 0 }

/-- The restart of a channel by a commit; LOSS exists only in Manchester mode (R67). -/
def recommit (s : State) (n : ChanId) (c : Chan) : Chan :=
  let c := restart c
  if chMode s n = 2 then c else { c with loss := false, lossDue := false, goodDue := false, subRun := 0, goodRun := 0 }

/-- MANCHESTER_LOSS: 16 consecutive substituted bits of a channel in Manchester mode. -/
def execManchesterLoss (n : ChanId) (s : State) : Host.Outcome State Fault Refusal :=
  live s fun s => s.modCh n fun c =>
    if c.lossDue && chMode s n == 2 then { c with loss := true, lossDue := false, valid := false, fastValid := false } else c

/-- MANCHESTER_LOSS_CLEAR: 64 consecutive good bits; the channel re-settles. -/
def execManchesterLossClear (n : ChanId) (s : State) : Host.Outcome State Fault Refusal :=
  live s fun s => s.modCh n fun c => if c.loss && c.goodDue then restart { c with loss := false, goodDue := false } else c

/-- STUCK: RUNLEN or more consecutive identical bits. -/
def execStuck (n : ChanId) (s : State) : Host.Outcome State Fault Refusal :=
  live s fun s => s.modCh n fun c =>
    if c.stuckDue then { c with stuck := true, stuckDue := false, valid := false, fastValid := false } else c

/-- STUCK_CLEAR: 64 bits in which no run reaches RUNLEN; the channel re-settles. -/
def execStuckClear (n : ChanId) (s : State) : Host.Outcome State Fault Refusal :=
  live s fun s => s.modCh n fun c => if c.stuck && c.freeDue then restart { c with stuck := false, freeDue := false } else c

/-! ### Temperature-corrected gain (R74) -/

/-- The MET_AINVAL index of a temperature source: 1 to 12 are AIN0 to AIN11, 13 the junction temperature. -/
def tsrcIdx (t : Nat) : Fin 16 := if t = 13 then 12 else Fin.ofNat 16 (t - 1)

/-- gain_eff of R74. -/
def gainEffOf (gain : Nat) (tc dt : Int) : Int := gain + ((gain * tc * dt + 2 ^ 33) / 2 ^ 34)

def adBase (a : Fin 4) : Nat := 0x20200600 + 0x40 * a.val
def adEn (s : State) (a : Fin 4) : Bool := s.pb (adBase a) 31
def adNslot (s : State) (a : Fin 4) : Nat := clamp 1 8 (s.pf (adBase a) 27 24)
def slotWord (a : Fin 4) (k : Nat) : Nat := adBase a + 0x10 + 4 * k
def slotSrc (s : State) (a : Fin 4) (k : Nat) : Nat := s.pf (slotWord a k) 31 28
def slotKind (s : State) (a : Fin 4) (k : Nat) : Nat := s.pf (slotWord a k) 27 26
def slotFixed (s : State) (a : Fin 4) (k : Nat) : Bool := s.pb (slotWord a k) 25
def slotGain (s : State) (a : Fin 4) (k : Nat) : Nat := min 6 (s.pf (slotWord a k) 24 22)

/-- Whether a slot reports a temperature: an input of KIND PT1000, or the junction sensor. -/
def slotTemp (s : State) (a : Fin 4) (k : Nat) : Bool := slotKind s a k == 1 || slotSrc s a k == 12

/-- Whether a temperature source is valid: a running converter has a slot for it, and a fine value of it has come. -/
def tempValid (s : State) (i : Fin 16) : Bool :=
  (s.met.ain[i]).last.isSome && (fins 4).any fun a =>
    adEn s a && (List.range (adNslot s a)).any fun k => slotSrc s a k == i.val && slotTemp s a k

/-- A refresh takes the newest valid value of every temperature source. -/
def tempTake (s : State) : State :=
  { s with met.ain := Vector.ofFn fun (i : Fin 16) =>
      { s.met.ain[i] with tref := if tempValid s i then (s.met.ain[i]).last else (s.met.ain[i]).tref } }

/-- dt of a channel against a temperature; a difference that its signed 13 bits do not hold gives a free dt. -/
def dtOf (s : State) (n : ChanId) (t : BitVec 24) : Int :=
  let d := t.toInt - chTcal s n
  if -4096 ≤ d ∧ d < 4096 then d else signedOf 13 (Config.freeAt (4000 + n.val) s.free).toNat

/-- The gain of a channel with the temperature that the last refresh took: what a commit of new calibration values and a
load put into effect (R74, R76). Without one the held dt stands. -/
def gainApply (s : State) (n : ChanId) (c : Chan) : Chan :=
  let t := chTsrc s n
  let dt := if t = 0 then 0 else match (s.met.ain[tsrcIdx t]).tref with
    | some v => dtOf s n v
    | none => c.dt
  { c with dt := dt, gainEff := gainEffOf (chGain s n) (chTc s n) dt }

/-- The refresh of one channel: the newest valid temperature, or the held dt with TC_STALE. -/
def gainRefresh (s : State) (n : ChanId) (c : Chan) : Chan :=
  let t := chTsrc s n
  let stale := t != 0 && !tempValid s (tsrcIdx t)
  let c := if stale then { c with gainEff := gainEffOf (chGain s n) (chTc s n) c.dt } else gainApply s n c
  { c with tcStale := stale }

/-- GAIN_REFRESH: every channel, at a whole second of system time. -/
def gainAll (s : State) : State := (forAll (fins 32) (fun s n => s.modCh n (gainRefresh s n)) (tempTake s)).draw.2

def execGainRefresh (s : State) : Host.Outcome State Fault Refusal := live s gainAll

/-! ### Line period and resampler (R87, R88) -/

/-- A positive zero crossing between two samples, in 2^-16 fine samples; idx is the index of the later one. DESIGN CHOICE: the
interpolated instant is rounded down, as the spec gives no rounding. -/
def crossing (armed : Bool) (x0 x1 : Int) (idx : Nat) : Option Nat :=
  if armed && decide (x0 < 0) && decide (0 ≤ x1) then
    some ((idx - 1) * 65536 + ((-x0 * 65536) / (x1 - x0)).toNat)
  else none

/-- Whether the signal has been below −1 % of full scale since the last crossing. -/
def armStep (armed : Bool) (crossed : Bool) (x1 : Int) : Bool := if crossed then false else armed || decide (x1 * 100 < -(2 ^ 23))

/-- Whether a period T in 2^-16 fine samples corresponds to 45 Hz to 65 Hz. -/
def lineOk (s : State) (g : Fin 2) (t : Nat) : Bool :=
  decide (45 * t * fineNs s g ≤ 65536 * 1000000000) && decide (65536 * 1000000000 ≤ 65 * t * fineNs s g)

/-- The reference channel's fine sample. The outputs start at the sample that completes the first accepted period.
DESIGN CHOICE. -/
def refStep (s : State) (g : Fin 2) (x1 : Int) (idx : Nat) (r : Resamp) : Resamp :=
  match crossing r.armed r.lastX x1 idx with
  | none => { r with lastX := x1, armed := armStep r.armed false x1 }
  | some c =>
    let r := { r with lastX := x1, armed := false }
    match r.lastCross with
    | none => { r with lastCross := some c }
    | some c0 =>
      let t := c - c0
      if lineOk s g t then
        { r with lastCross := some c, step := t, lineLost := false,
                 freq := BitVec.ofNat 17 (65536 * 1000000000 * 1000 / (t * fineNs s g)) }
      else { r with lastCross := some c }

/-- One output of the resampler for a channel: the samples x2[n − 7] to x2[n + 8], newest first in xs, whose newest has
index idx. -/
def resampOut (n phase idx : Nat) (xs : List Int) : Int :=
  let z := (List.range 16).foldl (fun a t => a + (Config.resampCoef phase t).toInt * xs.getD (idx + 7 - (n + t)) 0) 0
  satS 26 ((z + 2 ^ 16) / 2 ^ 17)

/-- The channels that are resampled: those with RSMP = 1, at most 16 of them. DESIGN CHOICE: the lowest numbers, as the spec
does not say which. -/
def rsmpChans (s : State) : List ChanId := ((fins 32).filter (chRsmp s)).take 16

/-- S in the fine samples of a clock group: REFCH's own group has R87's, and the other group's is scaled by its fine period.
DEDUCED. -/
def stepIn (s : State) (g : Fin 2) : Nat :=
  let ref := chGroup s (Fin.ofNat 32 (s.pf 0x20200020 4 0))
  if g = ref then s.met.rs.step else s.met.rs.step * fineNs s ref / fineNs s g

/-- pos of a clock group. -/
def Resamp.posOf (r : Resamp) (g : Fin 2) : Nat := r.pos[g]

/-- The resampler after a fine sample of index idx: an output when the samples it needs are there. -/
def resample (g : Fin 2) (idx : Nat) (s : State) : State :=
  let step := stepIn s g
  let pos := s.met.rs.posOf g + step
  let n0 := pos / 2 ^ 24
  let ph0 := (pos % 2 ^ 24 + 2 ^ 17) / 2 ^ 18
  let n := if ph0 = 64 then n0 + 1 else n0
  let ph := if ph0 = 64 then 0 else ph0
  if 0 < step ∧ n + 8 ≤ idx then
    let s := { s with met.rs.pos := s.met.rs.pos.set g pos }
    forAll (rsmpChans s) (fun s c =>
      if inGroup s g c then
        s.modCh c fun x => { x with outs := (resampOut n ph idx x.xs :: x.outs).take 256 }
      else s) s
  else s

/-- REFCH's fine sample for the line period; the outputs of both groups start with the first accepted period. Every fine
sample of REFCH takes part, valid or not: the spec excludes none. DESIGN CHOICE. -/
def refFine (g : Fin 2) (idx : Nat) (ref : ChanId) (s : State) : State :=
  let x := (s.met.ch[ref]).x2
  let r := refStep s g x idx s.met.rs
  let start := s.met.rs.step == 0 && r.step != 0
  { s with met.rs := if start then { r with pos := Vector.ofFn fun (h : Fin 2) => s.met.grp[h].idx * 2 ^ 24 } else r }

/-- The resampler's share of a fine sample. -/
def resampFine (g : Fin 2) (idx : Nat) (s : State) : State :=
  let ref : ChanId := Fin.ofNat 32 (s.pf 0x20200020 4 0)
  if s.pb 0x20200020 31 then resample g idx (if inGroup s g ref then refFine g idx ref s else s) else s

/-- LINE_LOST: no acceptable crossing for 40 ms; S is held (R87). -/
def execLineLost (s : State) : Host.Outcome State Fault Refusal :=
  live s fun s => if s.pb 0x20200020 31 then { s with met.rs.lineLost := true } else s

/-- The channels' and pairs' fine samples of a group, and the resampler (R70, R74, R78, R87). -/
def fineChannels (g : Fin 2) (s : State) : State :=
  let k := grpK s g
  let s := forAll (fins 32) (fun s n => if inGroup s g n then s.modCh n (fineStep s n k) else s) s
  let s := forAll (fins 8) (fun s p =>
    if rpEn s p && inGroup s g (rpHr s p) then
      let f := pairFine s.met.ch[rpLr s p] s.met.ch[rpHr s p] (rpShift s p) k
      { s with met.rp := vmod s.met.rp p f }
    else s) s
  let idx := s.met.grp[g].idx + 1
  let s := { s with met.grp := vmod s.met.grp g fun r => { r with due := false, idx := idx } }
  resampFine g idx s

/-! ### On-module converters (R83 to R86) -/

def State.modAdc (s : State) (a : Fin 4) (f : Adc → Adc) : State := { s with met.adc := vmod s.met.adc a f }

/-- The gain at a slot's start: the fixed gain, or the stored gain of the input (R84). -/
def startGain (s : State) (a : Fin 4) (k : Nat) : Nat :=
  if slotFixed s a k then slotGain s a k else s.met.ainGain[Fin.ofNat 16 (slotSrc s a k)]

/-- SF01's window takes a value of a converter input: its weight is the time it stands for, 8 × 3.2 µs for a fine value
and 3.2 µs for a coarse value while the slot settles (R83, R249, R251). Values beyond 40 ms in all are let go. -/
def trimRc (left : Nat) : List (Int × Nat) → List (Int × Nat)
  | [] => []
  | (v, w) :: r => if left < w then [] else (v, w) :: trimRc (left - w) r

def rcFeed (src : Nat) (v : Int) (w : Nat) (s : State) : State :=
  forAll (fins 8) (fun (s : State) n =>
    let a := 0x20300600 + 0x20 * n.val
    if s.pb a 31 && s.pb a 30 && s.pf (a + 0x10) 31 28 == src then
      s.modOut n fun o => { o with rc := trimRc 12500 ((v, w) :: o.rc), rcSeen := true }
    else s) s

/-- A temperature sensor of an outlet has a new fine value (R266). -/
def freshTemp (src : Nat) (s : State) : State :=
  forAll (fins 8) (fun (s : State) n =>
    let a := 0x20300600 + 0x20 * n.val
    s.modOut n fun o =>
      { o with stale0 := o.stale0 && s.pf (a + 0xC) 31 28 != src, stale1 := o.stale1 && s.pf (a + 0xC) 27 24 != src }) s

/-- The order-3 CIC of a converter: the integrators, and the combs with the output y (R83). -/
def Cic3.integrate (c : Cic3) (b : Bool) : Cic3 :=
  let i1 := c.i1 + bitX b
  let i2 := c.i2 + i1
  { c with i1 := i1, i2 := i2, i3 := c.i3 + i2 }

def Cic3.comb (c : Cic3) : Int × Cic3 :=
  let d1 := c.i3 - c.z1
  let d2 := d1 - c.z2
  let d3 := d2 - c.z3
  (d3.toInt, { c with z1 := c.i3, z2 := d1, z3 := d2 })

/-- One bit of a converter's modulator: the CIC of ratio 64, whose output is normalised by 2^(30 − 18), and the fast path,
whose f16 stands in fast at its instants (R72, R83). -/
def adcBit (b : Bool) (c : Adc) : Adc :=
  let cic := c.cic.integrate b
  let f := c.fcic.integrate b
  let cnt := c.cnt + 1
  let c := { c with cnt := cnt, bits := c.bits + 1 }
  let c := if cnt % 64 = 0 then
      let y := cic.comb
      { c with cic := y.2, hist := (y.1 * 4096 :: c.hist).take 48, due := c.due || cnt / 64 % 2 == 0 }
    else { c with cic := cic }
  if cnt % 16 = 0 then
    let y := f.comb
    { c with fcic := y.2, fast := satS 16 (y.1 * 128) }
  else { c with fcic := f }

/-- A converter's own offset and gain for a gain code: what its last calibration found. Its procedure is not in the spec, so
they are free values of the calibration's draw (R85). -/
def adOfs (a : Fin 4) (c : Adc) : Int := signedOf 24 (Config.freeAt (7000 + 16 * a.val + c.gain) c.calAt).toNat
def adGain (a : Fin 4) (c : Adc) : Int := (Config.freeAt (7100 + 16 * a.val + c.gain) c.calAt).toNat % 2 ^ 24

/-- Bits after a switch from which the window of a coarse value and of a fine value lies behind it: the 31 bits of R72, and
the 3 × 64 − 2 bits of the CIC with the 47 steps of 64 bits of the FIR. -/
def coarseBits : Nat := 31
def fineBits : Nat := 3198

/-- A converter value referred to the input at ×1, as MET_AINVAL shows it: a temperature in 1/16 °C where the slot reports
one. DESIGN CHOICE: the division by the gain rounds down. -/
def ainValue (s : State) (a : Fin 4) (c : Adc) (x : Int) : BitVec 24 :=
  let v := x / 2 ^ c.gain
  if slotTemp s a c.slot then Config.tempOf (slotSrc s a c.slot) v else BitVec.ofInt 24 (satS 24 v)

/-- ADC_COARSE_VALUE: sixteen modulator bits, earliest first, and the coarse value that they end with. It is shown while the
slot settles, and in an automatic slot a value above 90 % of full scale lowers the gain by 8 or to ×1, at most twice a slot,
and restarts settling (R83, R84). The trip lane takes the value calibrated under R75 (R73). -/
def adcCoarse (a : Fin 4) (bits : BitVec 16) (s : State) : State :=
  if !adEn s a then s
  else
    let c := (List.range 16).foldl (fun c i => adcBit (bits.getLsbD i) c) s.met.adc[a]
    let f16 := c.fast
    let c := { c with fast := fastCal f16 (adOfs a c) (adGain a c), fastValid := decide (32 ≤ c.bits) }
    let src := slotSrc s a c.slot
    let s := s.modAdc a fun _ => c
    if src = 15 ∨ c.bits < coarseBits then s
    else
      let s := if c.bits < fineBits then
          let f := fun (x : Ain) => { x with fine := false, gain := BitVec.ofNat 3 c.gain, value := ainValue s a c (f16 * 2 ^ 8) }
          rcFeed src (c.fast * 2 ^ 8 / 2 ^ c.gain) 1 { s with met.ain := vmod s.met.ain (Fin.ofNat 16 src) f }
        else s
      if !slotFixed s a c.slot && decide (9 * 32768 < 10 * f16.natAbs) && decide (c.drops < 2) && decide (0 < c.gain) then
        s.modAdc a fun c => { c with gain := c.gain - 3, drops := c.drops + 1, bits := 0 }
      else s

def execAdcCoarseValue (a : Fin 4) (bits : BitVec 16) (s : State) : Host.Outcome State Fault Refusal := live s (adcCoarse a bits)

/-- A fine value of a slot that reports a temperature: the newest of its source, for the gains, the outlets' sensors and the
panel (R74, R168, R266). -/
def takeTemp (src : Nat) (v : BitVec 24) (s : State) : State :=
  let s := { s with met.ain := vmod s.met.ain (Fin.ofNat 16 src) fun x => { x with last := some v, lastNs := s.time.sysNs } }
  let s := freshTemp src s
  if src = s.pf 0x20280018 15 12 then { s with disp.lastT := some v.toInt, disp.temp := BitVec.ofInt 12 v.toInt } else s

/-- ADC_FINE_VALUE: the FIR's output, calibrated by the converter's own offset and gain in the form of R74 (DEDUCED). It is
valid once its window lies behind the slot's last switch (R83). -/
def adcFine (a : Fin 4) (s : State) : State :=
  let c := s.met.adc[a]
  let src := slotSrc s a c.slot
  if !adEn s a ∨ !c.due then s
  else
    let s := s.modAdc a fun c => { c with due := false }
    if src = 15 ∨ c.bits < fineBits then s
    else
      let x2 := calFine (satS 24 (firOut c.hist)) (adOfs a c) (adGain a c)
      let v := ainValue s a c x2
      let f := fun (x : Ain) => { x with fine := true, gain := BitVec.ofNat 3 c.gain, value := v }
      let s := rcFeed src v.toInt 8 { s with met.ain := vmod s.met.ain (Fin.ofNat 16 src) f }
      let s := if slotTemp s a c.slot then takeTemp src v s else s
      s.modAdc a fun c => { c with lastFine := some x2 }

def execAdcFineValue (a : Fin 4) (s : State) : Host.Outcome State Fault Refusal := live s (adcFine a)

/-- A slot starts: the multiplexer switches, and settling begins (R83, R84). -/
def dwellStart (a : Fin 4) (k : Nat) (s : State) : State :=
  s.modAdc a fun c => { c with slot := k, bits := 0, fastValid := false, drops := 0, lastFine := none, gain := startGain s a k }

/-- The end of an idle slot is the end of a calibration (R85). -/
def calibrate (a : Fin 4) (s : State) : State :=
  let d := s.draw
  d.2.modAdc a fun c => { c with calAt := d.1, calCnt := satInc c.calCnt, calStale := false }

/-- The stored gain of an automatic input after its slot: the gain in use, doubled where the last fine value was below 10 % of
full scale (R84). That a gain which coarse values have lowered is stored is a DESIGN CHOICE: the rule names only the doubling,
and doubling an unlowered gain could pass ×64. -/
def storeGain (a : Fin 4) (s : State) : State :=
  let c := s.met.adc[a]
  let up := match c.lastFine with
    | some r => decide (10 * r.natAbs < 2 ^ 23) && decide (c.gain < 6)
    | none => false
  { s with met.ainGain := s.met.ainGain.set (Fin.ofNat 16 (slotSrc s a c.slot)) (if up then c.gain + 1 else c.gain) }

/-- ADC_SLOT_DWELL_END: the multiplexer moves on. With one slot the converter stays on it continuously. -/
def slotEnd (a : Fin 4) (s : State) : State :=
  let c := s.met.adc[a]
  if !adEn s a then s
  else
    let s := if slotSrc s a c.slot = 15 then calibrate a s else if slotFixed s a c.slot then s else storeGain a s
    if adNslot s a = 1 ∧ c.slot = 0 then s else dwellStart a ((c.slot + 1) % adNslot s a) s

def execAdcSlotDwellEnd (a : Fin 4) (s : State) : Host.Outcome State Fault Refusal := live s (slotEnd a)

/-- A change of a converter's slots: a slot that has left the sequence or changed its source, or whose fixed gain is another,
starts again. -/
def slotResync (a : Fin 4) (changed : Nat → Bool) (s : State) : State :=
  let c := s.met.adc[a]
  if adNslot s a ≤ c.slot then dwellStart a 0 s
  else if changed c.slot || (slotFixed s a c.slot && c.gain != slotGain s a c.slot) then dwellStart a c.slot s
  else s

/-- ADC_CAL_STALE: no idle slot for 10 s; the last calibration is kept (R85). -/
def execAdcCalStale (a : Fin 4) (s : State) : Host.Outcome State Fault Refusal :=
  live s fun s => if adEn s a then s.modAdc a fun c => { c with calStale := true } else s

end Sys2Proof.Machine
end

