-- ==== Sys2Proof/Machine/Meters.lean ====
section
/-! DEFINITION. Meters and energy (05_meters_and_energy.md): the exact increment of every fine sample, invalid samples,
the seconds' checks, pulse outputs and the MET read calls. -/

namespace Sys2Proof.Machine

/-! ### One sample of a meter (R95 to R101) -/

/-- The current value of a channel: the pair output for the HR member of a pair, else the fine sample. -/
def currRaw (s : State) (c : ChanId) : Int :=
  match pairOfHr s c with
  | some p => s.met.rp[p].out
  | none => s.met.ch[c].x2

/-- Whether a channel delivers a valid current sample. -/
def currValid (s : State) (c : ChanId) : Bool :=
  match pairOfHr s c with
  | some p => s.met.rp[p].outValid
  | none => s.met.ch[c].valid

/-- The Rogowski integrator r of R98. -/
def rgwStep (leak : Nat) (r x2 : Int) : Int := satS 48 (r - (r + 2 ^ (leak - 1)) / 2 ^ leak + x2)

/-- The integrated current i of R98. -/
def rgwOut (g : Nat) (r : Int) : Int := if g = 0 then satS 26 r else satS 26 ((r + 2 ^ (g - 1)) / 2 ^ g)

/-- Advance the Rogowski integrators of a meter's current channels. -/
def rgwAll (m : MeterId) (s : State) : State :=
  if mRgw s m then
    forAll (mCurr s m) (fun s c => s.modCh c fun x => { x with rgw := rgwStep (mLeak s m) x.rgw (currRaw s c) }) s
  else s

/-- The current i of a channel as the meter uses it. -/
def currOf (s : State) (m : MeterId) (c : ChanId) : Int :=
  if mRgw s m then rgwOut (mIgs s m) s.met.ch[c].rgw else currRaw s c

/-- Whether a meter's sample is valid: every channel delivers a valid fine sample, a used neutral channel too, and the
integrators have settled (R98, R99). -/
def sampleValid (s : State) (m : MeterId) : Bool :=
  (mVolt s m).all (fun c => s.met.ch[c].valid) && (mCurr s m ++ mNeutral s m).all (fun c => currValid s c)
    && (!mRgw s m || (mCurr s m).all (fun c => decide (4 * 2 ^ mLeak s m ≤ s.met.ch[c].fines)))

/-- The sum of v·i over the phases. -/
def sumVi (v i : List Int) : Int := (List.zipWith (· * ·) v i).foldl (· + ·) 0

/-- The sum of i·i over the phases. -/
def sumIi (i : List Int) : Int := (i.map fun x => x * x).foldl (· + ·) 0

/-- q of R95 in 2^-64 nWh. -/
def qOf (ke kl : Nat) (outlet : Bool) (v i : List Int) : Int := ke * sumVi v i - if outlet then kl * sumIi i else 0

/-- q of a meter's present sample. -/
def sampleQ (s : State) (m : MeterId) : Int :=
  qOf (keOf s m) (klOf s m) (mRole s m == 0) ((mVolt s m).map fun c => s.met.ch[c].x2) ((mCurr s m).map (currOf s m))

/-- Add |q| to the import accumulator when q is positive, to the export accumulator when it is negative (R96). -/
def addQ (q : Int) (x : Meter) : Meter :=
  if 0 < q then { x with imp := x.imp + BitVec.ofInt 160 q }
  else if q < 0 then { x with exp := x.exp + BitVec.ofInt 160 (-q) }
  else x

/-- The time from the centre of a fine sample's window to its last modulator bit (R101). -/
def lagNs (s : State) (g : Fin 2) : Nat := (51 * 2 ^ grpK s g / 2 - 2) * bitNs s g

/-- The instant of the centre of a sample's window (R101). -/
def sampleInst (s : State) (g : Fin 2) : BitVec 64 := s.met.grp[g].lastNs - BitVec.ofNat 64 (lagNs s g)

/-- A meter's accumulators as it passes a boundary with a sample of a given instant. -/
def Bound.cut (m : MeterId) (inst : BitVec 64) (v : BitVec 160 × BitVec 160) (b : Bound) : Bound :=
  { b with acc := vmod b.acc m fun a => if b.ns.toNat ≤ inst.toNat then some (a.getD v) else a }

/-- Every waiting boundary that a meter's next sample passes keeps the accumulators as they stand before it (R101). -/
def cutBounds (m : MeterId) (inst : BitVec 64) (s : State) : State :=
  s.modCore fun c => { c with bounds := c.bounds.map (Bound.cut m inst (s.met.m[m].imp, s.met.m[m].exp)) }

/-- The accumulators of a meter of a waiting snapshot, as they stand before its first sample at or after T (R115). -/
def SnapWait.take (m : MeterId) (inst : BitVec 64) (v : BitVec 160 × BitVec 160) (w : SnapWait) : SnapWait :=
  { w with acc := vmod w.acc m fun a => if w.t.toNat ≤ inst.toNat then some (a.getD v) else a }

/-- A waiting snapshot that a meter's next sample passes keeps the accumulators as they stand before it. -/
def snapTake (m : MeterId) (inst : BitVec 64) (s : State) : State :=
  { s with met.snap.wait := s.met.snap.wait.map (SnapWait.take m inst (s.met.m[m].imp, s.met.m[m].exp)) }

/-- Whether every meter of a snapshot's mask has had a sample at or after T. -/
def SnapWait.full (w : SnapWait) : Bool := (fins 12).all fun (m : MeterId) => !w.mask.getLsbD m.val || (w.acc[m]).isSome

/-- The results of a snapshot: T and the sequence number (R114). -/
def snapRes (w : SnapWait) (b : Snap) : List Word := [wd w.t.toNat, wd (w.t.toNat / 2 ^ 32), b.seq + 1]

/-- The snapshot buffer as it is written; a meter outside the mask reads zero (R115). -/
def snapOf (w : SnapWait) (b : Snap) : Snap :=
  { t := w.t, seq := b.seq + 1, mask := w.mask, wait := none
    acc := Vector.ofFn fun (m : MeterId) => if w.mask.getLsbD m.val then (w.acc[m]).getD (0, 0) else (0, 0) }

/-- A SNAPSHOT that kept BUSY is done with its results. -/
def snapDone (w : SnapWait) (s : State) : State :=
  let b := s.mbx.met
  if b.what = some .snapshot then
    { s with mbx.met := { b with busy := false, what := none, status := Status.done.code,
                                 res := setFrom b.res 0 (snapRes w s.met.snap) } }
  else s

/-- A waiting snapshot ends once each of its meters has had a sample at or after T (R115). -/
def snapEnd (s : State) : State :=
  match s.met.snap.wait with
  | none => s
  | some w => if w.full then { snapDone w s with met.snap := snapOf w s.met.snap } else s

/-- A gap of a meter at an instant belongs after the newest waiting boundary that the instant does not precede. -/
def gapAt (m : MeterId) (inst : Nat) : List Bound → List Bound
  | [] => []
  | b :: r =>
    if r.any (fun x => decide (x.ns.toNat ≤ inst)) then b :: gapAt m inst r
    else if b.ns.toNat ≤ inst then { b with gaps := b.gaps ||| BitVec.ofNat 12 (2 ^ m.val) } :: r
    else b :: r

/-- MEASURE_GAP for the session on the meter's outlet, and for the running part, whose flag it is where the meter is the grid
meter at the part's end (R99, R140). -/
def gapNow (m : MeterId) (s : State) : State :=
  let s := s.modM m fun x => { x with gapInt := true }
  let s := if mRole s m = 0 then s.flagSpan (mPort s m) 0x2 else s
  s.modCore fun c => { c with part.gaps := c.part.gaps ||| BitVec.ofNat 12 (2 ^ m.val) }

/-- The same for an invalid sample, after the boundaries that its instant does not precede. -/
def markGap (m : MeterId) (s : State) : State :=
  let inst := (sampleInst s (mGroup s m)).toNat
  if s.bill.core.bounds.any (fun b => decide (b.ns.toNat ≤ inst)) then
    s.modCore fun c => { c with bounds := gapAt m inst c.bounds }
  else gapNow m s

/-- METER_VALID_AGAIN: the first valid sample clears INVALID, with an audit entry of the held time, the zero time and the
bound last |P| × zero time (R99). -/
def validAgain (m : MeterId) (s : State) : State :=
  let x := s.met.m[m]
  let s := if x.invalid then
      let n := x.zeroNs / fineNs s (mGroup s m)
      let bound := (x.lastQ.natAbs * n + (10 ^ 9 * 2 ^ 64 - 1)) / (10 ^ 9 * 2 ^ 64)
      s.audit 0x0004 m.val 0 (wd (x.heldNs / 1000000)) (wd (x.zeroNs / 1000000)) (wd bound)
    else s
  s.modM m fun x => { x with invalid := false, invalidLong := false, held := false, heldRun := 0, heldNs := 0, zeroNs := 0 }

/-- DISP_ROLLOVER: an audit entry when floor(ACC / 10^19) has grown (R105). -/
def rollover (m : MeterId) (exp : Bool) (old : BitVec 160) (s : State) : State :=
  let n := accOf (s.acc m exp) / 10 ^ 19
  if accOf old / 10 ^ 19 < n then s.audit 0x000B m.val 0 (wd (b2n exp)) 0 (wd n) else s

/-- The quantity of a pulse output in nWh: import, export, or both (R110). -/
def pulseQty (x : Meter) (qty : Nat) : Nat :=
  if qty = 0 then accOf x.imp else if qty = 1 then accOf x.exp else accOf x.imp + accOf x.exp

def plsBase (q : Fin 8) : Nat := 0x20200A00 + 0x10 * q.val
def plsEn (s : State) (q : Fin 8) : Bool := s.pb (plsBase q) 31
def plsMeter (s : State) (q : Fin 8) : MeterId := Fin.ofNat 12 (s.pf (plsBase q) 27 24)
def plsConst (s : State) (q : Fin 8) : Nat := s.pf (plsBase q + 4) 19 0
def plsE (s : State) (q : Fin 8) : Nat := pulseQty s.met.m[plsMeter s q] (s.pf (plsBase q) 29 28)

/-- Queue the pulses of a target count: at most 65,535 wait, further ones are discarded with PLS_SAT (R110, R112). -/
def pulseTarget (target : Nat) (p : Pulse) : Pulse :=
  let n := p.pend.toNat + (target - p.queued)
  { p with queued := max p.queued target, pend := BitVec.ofNat 16 (min 65535 n), sat := p.sat || decide (65535 < n) }

/-- PULSE_QUEUE: the outputs of a meter against its accumulators. -/
def pulseQueue (m : MeterId) (s : State) : State :=
  forAll (fins 8) (fun s q =>
    if plsEn s q && plsMeter s q == m then
      let p := s.met.pls[q]
      { s with met.pls := vmod s.met.pls q (pulseTarget ((plsE s q - p.e0) * plsConst s q / 10 ^ 12)) }
    else s) s

/-- A new e0 for an output (R110, R112). DESIGN CHOICE: a restart also clears PLS_SAT, since from then on the count matches
the accumulator again. -/
def pulseRestart (q : Fin 8) (s : State) : State :=
  { s with met.pls := vmod s.met.pls q fun p => { p with e0 := plsE s q, queued := 0, pend := 0, sat := false } }

/-! ### Phase sequence (R106) -/

/-- One phase voltage's crossing search. -/
def crossStep (x1 : Int) (idx : Nat) (c : Cross) : Cross :=
  match crossing c.armed c.lastX x1 idx with
  | none => { c with lastX := x1, armed := armStep c.armed false x1 }
  | some t => { lastX := x1, armed := false, last := some t }

/-- Whether the angle of a delay d in a period t lies from a to b degrees. -/
def angleIn (d t a b : Nat) : Bool := decide (a * t ≤ 360 * d) && decide (360 * d ≤ b * t)

/-- The class of a period of V1 from t0 to t1: 1 correct, 2 reversed, 3 undefined. V2 and V3 have to cross within the
period. -/
def seqClass (t0 t1 : Nat) (v2 v3 : Option Nat) : BitVec 2 :=
  match v2, v3 with
  | some c2, some c3 =>
    let t := t1 - t0
    let d12 := c2 - t0
    let d23 := (c3 + t - c2) % t
    if c2 < t0 ∨ c3 < t0 ∨ t1 ≤ c2 ∨ t1 ≤ c3 then 3
    else if angleIn d12 t 90 150 && angleIn d23 t 90 150 then 1
    else if angleIn d12 t 210 270 && angleIn d23 t 210 270 then 2
    else 3
  | _, _ => 3

/-- PHSEQ changes with source 72 and an audit entry (R106). -/
def setPhseq (m : MeterId) (v : BitVec 2) (s : State) : State :=
  let old := s.met.m[m].phseq
  if old = v then s
  else ((s.modM m fun x => { x with phseq := v }).raise 72).audit 0x0008 m.val 0 0 (wd old.toNat) (wd v.toNat)

/-- The phase-sequence check of a fine sample: PHSEQ changes after 50 consecutive periods of a class. -/
def phaseStep (m : MeterId) (s : State) : State :=
  if mSeqEn s m then
    match mVolt s m with
    | [a, b, c] =>
      let idx := s.met.grp[mGroup s m].idx
      let x := s.met.m[m]
      let n1 := crossStep s.met.ch[a].x2 idx x.cr1
      let s := s.modM m fun x =>
        { x with cr1 := n1, cr2 := crossStep s.met.ch[b].x2 idx x.cr2, cr3 := crossStep s.met.ch[c].x2 idx x.cr3 }
      match x.cr1.last, n1.last with
      | some t0, some t1 =>
        if t0 < t1 then
          let k := seqClass t0 t1 x.cr2.last x.cr3.last
          let run := if k = x.seqCand then x.seqRun + 1 else 1
          let s := s.modM m fun x => { x with seqCand := k, seqRun := run }
          if 50 ≤ run then setPhseq m k s else s
        else s
      | _, _ => s
    | _ => s
  else s

/-- The second's sums of a meter: q, |q|, and the squares for the neutral check (R100, R107). -/
def secondSums (m : MeterId) (q : Int) (s : State) : State :=
  let v := (mVolt s m).map fun c => s.met.ch[c].x2
  let sq := fun (x : Int) => x.natAbs * x.natAbs
  s.modM m fun x =>
    { x with secQ := x.secQ + q, secAbs := x.secAbs + q.natAbs, secN := x.secN + 1,
             secU0 := x.secU0 + sq (v.foldl (· + ·) 0), secV1 := x.secV1 + sq (v.getD 0 0),
             secV2 := x.secV2 + sq (v.getD 1 0), secV3 := x.secV3 + sq (v.getD 2 0) }

/-- The q that a sample books, and the bookkeeping of held and zeroed samples (R99). -/
def bookQ (m : MeterId) (s : State) : Int × State :=
  let x := s.met.m[m]
  if sampleValid s m then
    let q := sampleQ s m
    let s := if 0 < x.heldRun ∨ x.invalid then validAgain m s else s
    (q, s.modM m fun x => { x with lastQ := q, held := false })
  else
    let s := markGap m s
    let dt := fineNs s (mGroup s m)
    if x.heldRun < holdLimit s (mGroup s m) then
      (x.lastQ, s.modM m fun x =>
        { x with held := true, heldRun := x.heldRun + 1, heldNs := x.heldNs + dt,
                 holdCnt := if x.heldRun = 0 then satInc x.holdCnt else x.holdCnt })
    else (0, s.modM m fun x => { x with held := false, heldRun := x.heldRun + 1, zeroNs := x.zeroNs + dt })

/-- ENERGY_INCREMENT: one fine sample of one meter, with the rollovers and the pulses it completes. -/
def meterFine (g : Fin 2) (m : MeterId) (s : State) : State :=
  if mEn s m && mGroup s m == g then
    let s := rgwAll m s
    let x := s.met.m[m]
    let inst := sampleInst s g
    let r := bookQ m (snapTake m inst (cutBounds m inst s))
    let s := r.2.modM m fun x => addQ r.1 { x with lastInst := inst }
    let s := rollover m true x.exp (rollover m false x.imp s)
    pulseQueue m (phaseStep m (secondSums m r.1 s))
  else s

/-- FINE_SAMPLE: a group's due fine sample: filters and calibration, ranging pairs, resampler, and every meter of the
group (R70, R74, R78, R87, R95). -/
def fineSample (g : Fin 2) (s : State) : State :=
  if s.met.grp[g].due then snapEnd (forAll (fins 12) (fun s m => meterFine g m s) (fineChannels g s)) else s

/-! ### Invalid meters (R99) -/

/-- METER_INVALID: an invalid sample has come after the last held one. -/
def execMeterInvalid (m : MeterId) (s : State) : Host.Outcome State Fault Refusal :=
  live s fun s =>
    let x := s.met.m[m]
    if mEn s m && !x.invalid && decide (holdLimit s (mGroup s m) < x.heldRun) then
      (s.modM m fun x => { x with invalid := true, invalidSince := s.time.sysNs, gapCnt := satInc x.gapCnt }).audit
        0x0003 m.val 0 0 0 (wd s.now)
    else s

/-- METER_INVALID_STOP: INVALID has lasted 100 ms; the kernel demands a safe stop of the outlet's session, and from now on
refuses new ones until INVALID clears. -/
def execMeterInvalidStop (m : MeterId) (s : State) : Host.Outcome State Fault Refusal :=
  live s fun s =>
    if s.met.m[m].invalid && mEn s m then
      let s := s.modM m fun x => { x with invalidLong := true }
      if mRole s m == 0 && (s.sess (mPort s m)).isSome then s.demand (mPort s m) 1 11 0x08 else s
    else s

/-! ### Every second (R100, R107) -/

/-- POWER_OVR of R100 from the second's sums: 4.5 MW over one second is 1.25 × 10^12 nWh. -/
def powerCheck (m : MeterId) (s : State) : State :=
  let x := s.met.m[m]
  let beyond := decide (1250000000000 * 2 ^ 64 < x.secAbs)
  let s := s.modM m fun x => { x with mpwr := wdI (powerW x.secQ), powerOvr := beyond }
  if beyond then
    let s := if x.powerOvr then s else s.audit 0x0007 m.val 0 0 0 (wdI (powerW x.secAbs / 1000))
    let s := if mRole s m = 0 then s.flagSess (mPort s m) 0x80 else s
    s.modCore fun c => { c with part.ovrs := c.part.ovrs ||| BitVec.ofNat 12 (2 ^ m.val) }
  else s

/-- Ports whose outlet meter uses one of a list of voltage channels. -/
def sharesVolt (s : State) (l : List ChanId) (n : Port) : Bool :=
  match outletMeter s n with
  | some m => (mVolt s m).any (fun c => l.contains c)
  | none => false

/-- Root mean squares scaled by 2^32, and the comparison of R107 with a percentage: RMS(u0) against pct % of the mean of
the phase RMS values. -/
def neutralRatio (x : Meter) : Nat × Nat :=
  let r := fun (sum : Nat) => if x.secN = 0 then 0 else isqrt (sum * 2 ^ 64 / x.secN)
  (r x.secU0, r x.secV1 + r x.secV2 + r x.secV3)

/-- NEUTRAL_CHECK of R107: set above NTOL percent, cleared below NTOL − 5 percent. -/
def neutralCheck (m : MeterId) (s : State) : State :=
  if mNeutEn s m then
    let x := s.met.m[m]
    let r := neutralRatio x
    let t := mNtol s m
    let new := if x.neutralLost then !decide (100 * r.1 < (t - 5) * r.2) else decide (t * r.2 < 100 * r.1)
    if new = x.neutralLost then s
    else
      ((s.modM m fun x => { x with neutralLost := new }).audit 0x0009 m.val 0 0 0 (wd (b2n new))).raise 73
  else s

/-- Whether an outlet shares a voltage channel with a meter that has NEUTRAL_LOST. -/
def neutralAt (s : State) (n : Port) : Bool := (fins 12).any (fun k => mEn s k && s.met.m[k].neutralLost && sharesVolt s (mVolt s k) n)

/-- Every session on an outlet that shares the voltages of a meter with NEUTRAL_LOST carries the flag (R107). -/
def neutralFlags (m : MeterId) (s : State) : State :=
  if s.met.m[m].neutralLost then
    forAll (fins 8) (fun s n =>
      if sharesVolt s (mVolt s m) n then s.modSess n fun x => { x with flags := x.flags ||| 0x100 } else s) s
  else s

/-- METER_SECOND: mean power, POWER_OVR and the missing-neutral check of the second that ends. -/
def execMeterSecond (m : MeterId) (s : State) : Host.Outcome State Fault Refusal :=
  live s fun s =>
    if mEn s m then
      let s := neutralFlags m (neutralCheck m (powerCheck m s))
      s.modM m fun x => { x with secQ := 0, secAbs := 0, secN := 0, secU0 := 0, secV1 := 0, secV2 := 0, secV3 := 0 }
    else s

/-- PHSEQ_TIMEOUT: 40 ms without crossings; PHSEQ reads unknown (R106). -/
def execPhseqTimeout (m : MeterId) (s : State) : Host.Outcome State Fault Refusal :=
  live s fun s =>
    if mSeqEn s m && mEn s m then setPhseq m 0 (s.modM m fun x => { x with seqCand := 0, seqRun := 0 }) else s

/-! ### Pulses and the filter self-test -/

/-- The least spacing of pulse starts in ns: the larger of twice the width and 50 µs (R111). -/
def plsSpace (s : State) (q : Fin 8) : Nat := max (20000 * s.pf (plsBase q) 13 0) 50000

/-- The width of a pulse in ns. -/
def plsWidth (s : State) (q : Fin 8) : Nat := 10000 * s.pf (plsBase q) 13 0

/-- The level of a pulse output: active while a pulse is on it, with POL as its inactive level (R111, R112). -/
def plsLevel (s : State) (q : Fin 8) : Bool :=
  (s.sys.power == .running && decide (s.now < s.met.pls[q].endNs)) != s.pb (plsBase q) 30

/-- PULSE_EMIT: a pending pulse leaves once the spacing from the previous one has passed (R111). -/
def execPulseEmit (q : Fin 8) (s : State) : Host.Outcome State Fault Refusal :=
  live s fun s =>
    let p := s.met.pls[q]
    let free := match p.lastNs with
      | some t => decide (t + plsSpace s q ≤ s.now)
      | none => true
    if plsEn s q && decide (0 < p.pend.toNat) && free then
      { s with met.pls := vmod s.met.pls q fun p =>
                { p with pend := p.pend - 1, cnt := satInc p.cnt, lastNs := some s.now, endNs := s.now + plsWidth s q } }
    else s

/-- FILTER_SELFTEST: whether the first run and its repetition mismatch; a second mismatch sets FILTER_FAULT, with an
audit entry and a safe stop of every running session (R89). -/
def execFilterSelftest (first second : Bool) (s : State) : Host.Outcome State Fault Refusal :=
  live s fun s =>
    if first && second then
      let s := ({ s with met.filterFault := true }).audit 0x0006 0xFF 0 0 0 0
      forAll (fins 8) (fun s n =>
        if (s.sess n).any (fun x => x.state == .running) then (s.flagSess n 0x40).demand n 1 11 0x08 else s) s
    else s

/-! ### MET read calls (R114 to R116) -/

/-- An enabled meter number from an argument. -/
def argMeter (s : State) (w : Word) : Option MeterId :=
  if h : w.toNat < 12 then if mEn s ⟨w.toNat, h⟩ then some ⟨w.toNat, h⟩ else none else none

/-- READ_ACC: the accumulator with its residue, carry and the instant of the last sample included. -/
def readAcc (a : Vector Word 16) (s : State) : Reply :=
  match argMeter s a[0] with
  | none => .deny s .badArg
  | some m =>
    if 1 < a[1].toNat then .deny s .badArg
    else
      let x := s.acc m (a[1] == 1)
      let acc := accOf x
      let t := s.met.m[m].lastInst.toNat
      .ok s [wd acc, wd (acc / 2 ^ 32), wd (acc / 2 ^ 64), wd (resOf x), wd (cryOf x), wd t, wd (t / 2 ^ 32)]

def execReadAcc (c : Call) (s : State) : Host.Outcome State Fault Refusal := live s (mbxCall .met 0x0101 c readAcc)

/-- n free words of a call whose results' computation the spec does not state. -/
def freeWords (place n : Nat) (s : State) : List Word × State :=
  ((List.range n).map (fun i => Config.freeAt (place + i) s.free), { s with free := s.free + 1 })

/-- The ten results of READ_PQ. The averaging of V, I, P, Q, both THD and the angle is not stated: free values. S is V × I
and the power factor P / S, rounded half up (DESIGN CHOICE), and the frequency is MET_LINEFREQ of R87. Without an S, or
with the resampler off, the power factor or the frequency has no stated value either. -/
def pqResults (s : State) (phase : Nat) : List Word :=
  let x := fun i => Config.freeAt (1000 + 10 * phase + i) s.free
  let sVa := (roundHalfUp ((x 0).toNat * (x 1).toNat : Nat) 1000000).toNat
  [x 0, x 1, x 2, x 3, wd sVa, if sVa = 0 then x 5 else wdI (roundHalfUp ((x 2).toInt * 10000) sVa),
   if s.pb 0x20200020 31 then wd s.met.rs.freq.toNat else x 6, x 7, x 8, x 9]

/-- READ_PQ: a phase the meter has, or 3 for a used neutral channel. -/
def readPq (a : Vector Word 16) (s : State) : Reply :=
  match argMeter s a[0] with
  | none => .deny s .badArg
  | some m =>
    let phase := a[1].toNat
    let ok := decide (phase < (mVolt s m).length) || (decide (phase = 3) && decide (mType s m = 2) && s.pb (mBase m + 8) 31)
    if ok then .ok s.draw.2 (pqResults s phase) else .deny s .badArg

def execReadPq (c : Call) (s : State) : Host.Outcome State Fault Refusal := live s (mbxCall .met 0x0103 c readPq)

/-- READ_HARM: the magnitudes of a resampled channel's orders; their transform is not stated: free values. DESIGN CHOICE: a
first order and a count that reach beyond order 50 are a bad argument, as the table gives no magnitude there. -/
def readHarm (a : Vector Word 16) (s : State) : Reply :=
  if h : a[0].toNat < 32 then
    let ch : ChanId := ⟨a[0].toNat, h⟩
    let first := a[1].toNat
    let cnt := a[2].toNat
    if !chRsmp s ch ∨ first < 1 ∨ 50 < first ∨ cnt < 1 ∨ 15 < cnt ∨ 51 < first + cnt then .deny s .badArg
    else if !s.pb 0x20200020 31 then .deny s .refused
    else
      let r := freeWords (2000 + first) cnt s
      .ok r.2 r.1
  else .deny s .badArg

def execReadHarm (c : Call) (s : State) : Host.Outcome State Fault Refusal := live s (mbxCall .met 0x0104 c readHarm)

/-- READ_BALANCE: a past evaluation by its age. -/
def readBalance (a : Vector Word 16) (s : State) : Reply :=
  match s.met.bal.hist[a[0].toNat]? with
  | none => .deny s .badArg
  | some b =>
    .ok s [wd b.start.toNat, wd (b.start.toNat / 2 ^ 32), b.dur, b.g, b.o, b.a, b.l, b.d,
      wd (b2n b.fail + at_ (b2n b.skipped) 1 + at_ (b2n b.outage) 2 + at_ (b2n b.split) 3)]

def execReadBalance (c : Call) (s : State) : Host.Outcome State Fault Refusal := live s (mbxCall .met 0x0105 c readBalance)

/-- What CLEAR_STATS clears by its mask (R116, and the token counters under bit 3). -/
def clearStats (mask : BitVec 6) (s : State) : State :=
  let on := fun i => mask.getLsbD i
  let s := if on 0 then
      { s with met.ch := s.met.ch.map fun c => { c with satf := false, satCnt := 0, manerrCnt := 0 } } else s
  let s := if on 1 then { s with met.rp := s.met.rp.map fun r => { r with swupCnt := 0 } } else s
  let s := if on 2 then { s with met.adc := s.met.adc.map fun c => { c with calCnt := 0 } } else s
  let s := if on 3 then
      { s with met.m := s.met.m.map (fun x => { x with holdCnt := 0, gapCnt := 0 }),
               bill.tok.invalidCnt := 0, bill.tok.acceptCnt := 0 } else s
  let s := if on 4 then { s with met.pls := s.met.pls.map fun p => { p with sat := false, cnt := 0 } } else s
  if on 5 then { s with met.bal.failCnt := 0 } else s

/-- CLEAR_STATS: BAD_ARGUMENT for reserved mask bits; one event-log entry (R114, R116). -/
def clearStatsCall (a : Vector Word 16) (s : State) : Reply :=
  if 64 ≤ a[0].toNat then .deny s .badArg
  else .ok ((clearStats (BitVec.ofNat 6 a[0].toNat) s).statsCleared 0x4D45 a[0].toNat) []

def execClearStats (c : Call) (s : State) : Host.Outcome State Fault Refusal := live s (mbxCall .met 0x0106 c clearStatsCall)

end Sys2Proof.Machine
end

