-- ==== Sys2Proof/Machine/TimeBase.lean ====
section
/-! DEFINITION. The RTC, the checks of the reference and of VBAK, and the event log's own events (chapter 20, R412 to
R425). -/

namespace Sys2Proof.Machine

/-- The RTC moved by whole cycles; its seconds wrap modulo 2^32. -/
def rtcMove (n : Int) (s : State) : State :=
  let c := ((s.time.rtcSec.toNat * 32768 + s.time.rtcFrac.toNat : Nat) + n) % (2 ^ 47 : Nat)
  { s with time.rtcSec := wd (c.toNat / 32768), time.rtcFrac := BitVec.ofNat 15 c.toNat }

/-- The RTC has run by n of its crystal's cycles (R412). -/
def rtcRun (n : Nat) (s : State) : State := rtcMove n { s with time.rtcGap := s.time.rtcGap + n }

/-- The RTC's share of 40 ns: 131,072 / 10^8 of a cycle of 30.517578125 µs. DESIGN CHOICE: its crystal is at its nominal
frequency against the reference. -/
def rtcTick (s : State) : State :=
  let p := s.time.rtcSub + 131072
  rtcRun (p / 100000000) { s with time.rtcSub := p % 100000000 }

/-- One period of the 25 MHz reference: 40 ns of system time, and of the RTC, while the device runs (R412, R413). -/
def refPeriod (s : State) : State :=
  if s.sys.power = .running then rtcTick { s with time.sysNs := s.time.sysNs + 40 } else s

/-- RTC_LOAD: at every whole legal second the RTC is loaded from legal time (R414). -/
def rtcLoad (s : State) : State :=
  { s with time.rtcSec := wd (s.legalNs / 1000000000).toNat, time.rtcFrac := 0 }

def execRtcLoad (s : State) : Host.Outcome State Fault Refusal := live s rtcLoad

/-- One cycle of the RTC, 305.17578125 units of 0.1 µs, in 2^-15 of a unit (R416). -/
def rtcCycle : Int := 10000000

/-- The correction rate of R416 in 0.1 ppm, at a reading t in 1/16 °C. -/
def rtcCorr (s : State) (t : Int) : Int :=
  let d := t - s.time.t0.toInt * 16
  s.time.trim.toInt + roundHalfUp (s.time.k2.toInt * d * d) 25600

/-- RTC_COMP_READING: a reading of the RTC's sensor; the correction of the time since the previous reading enters the
accumulator, and its whole cycles are added or swallowed (R416). The RTC runs from VBAK, so the reading is made whether or
not the device has its supply. -/
def rtcReading (t : BitVec 12) (n : Nat) (s : State) : State :=
  let s := rtcRun n s
  let acc := s.time.rtcAcc + rtcCorr s t.toInt * s.time.rtcGap
  let k := acc.tdiv rtcCycle
  rtcMove k { s with time.temp := t, time.rtcAcc := acc - k * rtcCycle, time.rtcGap := 0 }

def execRtcCompReading (t : BitVec 12) (n : Nat) (s : State) : Host.Outcome State Fault Refusal := .next (rtcReading t n s)

/-- REFDEV_MEASURE: the deviation of the reference over 64 RTC seconds, in 0.1 ppm; beyond 50 ppm it is reported (R417).
Source 5 is REFDEV_E's level. -/
def refdevMeasure (dev : BitVec 16) (s : State) : State :=
  let s := { s with time.refdev := dev }
  if 500 < dev.toInt.natAbs then { s with time.refdevE := true }.evlog 0x000C 0xFF (wdI dev.toInt) 0 0 else s

def execRefdevMeasure (dev : BitVec 16) (s : State) : Host.Outcome State Fault Refusal := live s (refdevMeasure dev)

/-- VBAK_MEASURE: VBAK in 20 mV; VBAK_LOW is set below 2.4 V and cleared from 2.5 V (R418). Source 5 is VBAK_LOW's
level. -/
def vbakMeasure (v : Byte) (s : State) : State :=
  let s := { s with time.vbak := v }
  if v.toNat < 120 then { s with time.vbakLow := true }.evlog 0x000D 0xFF (wd (20 * v.toNat)) 0 0
  else if 125 ≤ v.toNat then { s with time.vbakLow := false }
  else s

def execVbakMeasure (v : Byte) (s : State) : Host.Outcome State Fault Refusal := live s (vbakMeasure v)

/-- EVL_DROP_SECOND: the end of a second in which entries were dropped (R425). -/
def evlDropSecond (s : State) : State := if s.time.evlCounts.any (fun c => 0 < c.dropped) then s.evRoll else s

def execEvlDropSecond (s : State) : Host.Outcome State Fault Refusal := live s evlDropSecond

/-- EVL_CLRCNT: the clear action of EVL_DROP, and with it of its CNT_SAT (R422, R425). -/
def evlClrcnt (s : State) : State := { s with time.evlDrop := 0 }.statsCleared 0x544D 0

def execEvlClrcnt (s : State) : Host.Outcome State Fault Refusal := access .time 0 s evlClrcnt

end Sys2Proof.Machine
end

