-- ==== Sys2Proof/Machine/Billing.lean ====
section
/-! DEFINITION. Billing (06_billing_and_tariffs.md): slices, tariff registers, the demand part with the cross-meter
balance, billing periods, sessions with their exact costs, and the making of signed records. -/

namespace Sys2Proof.Machine

/-! ### Records on their way (R138 to R141) -/

/-- FLAGS of a record made now: given bits, TIME_SHIFT, AUDIT_LOST and P384 (R133, R140, R420). -/
def recFlags (s : State) (bits : BitVec 16) (shift lost : Bool) : BitVec 16 :=
  bits ||| (if shift || s.shifted || !s.time.lvalid then 0x4 else 0) ||| (if lost then 0x1000 else 0)
    ||| (if s.pb 0x20240010 11 then 0x4000 else 0)

/-- The eight bytes that every record begins with. -/
def recHead (rtype : Nat) (flags : BitVec 16) (seq : Word) : List Byte :=
  leBytes 1 rtype ++ leBytes 1 1 ++ leBytes 2 flags.toNat ++ leBytes 4 seq.toNat

/-- A record takes the next SEQ and its signing request waits (R138, R139). The body follows the head. -/
def State.pushRecord (s : State) (rtype : Nat) (flags : BitVec 16) (port : Option Port) (body : List Byte) : State :=
  let seq := s.bill.recSeq
  let r : Record :=
    { rtype := BitVec.ofNat 8 rtype, seq := seq, body := recHead rtype flags seq ++ body, sig := [], acked := false, port := port }
  { holdEngine s with bill.recSeq := seq + 1, bill.signing := s.bill.signing ++ [r] }

/-- Free entries of the record store: empty or acknowledged (R141). -/
def storeFree (s : State) : Nat := 1024 - s.bill.store.countP (fun r => !r.acked)

/-- RECSTORE_LOW of R141. -/
def storeLow (s : State) : Bool := decide (storeFree s < 32)

/-- A new record takes an empty entry, else that of the oldest acknowledged record; none is taken from an
unacknowledged one. -/
def storePut (r : Record) (l : List Record) : Option (List Record) :=
  if l.length < 1024 then some (l ++ [r])
  else match l.findIdx? (fun x => x.acked) with
    | some i => some (l.eraseIdx i ++ [r])
    | none => none

/-! ### Journal (R33, R137) -/

/-- The kernel journals the accumulators with the session, tariff and interval state: every 100 ms, with every slice
boundary, and in the save (R33). -/
def State.journal (s : State) (save : Bool) : State :=
  { s with
    jrn := { acc := Vector.ofFn fun (m : MeterId) => (s.met.m[m].imp, s.met.m[m].exp),
             mpwr := Vector.ofFn fun (m : MeterId) => s.met.m[m].mpwr,
             core := s.bill.core, legal := BitVec.ofNat 64 s.legalMs, ns := s.time.sysNs, lost := s.bill.lostTotal,
             save := save, gapDue := false }
    jrnOld := s.jrn
    time.newestLegal := BitVec.ofNat 64 s.legalMs }

/-! ### Slices and lines (R117, R118, R129) -/

/-- Add to the line of a tariff and a direction; lines stay ordered by direction, import first, then by tariff. -/
def lineAdd (l : Line) : List Line → List Line
  | [] => [l]
  | a :: r =>
    if a.tariff = l.tariff ∧ a.exp = l.exp then
      { a with energy := a.energy + l.energy, ecost := a.ecost + l.ecost, timeNs := a.timeNs + l.timeNs, tcost := a.tcost + l.tcost }
        :: r
    else if b2n l.exp * 16 + l.tariff < b2n a.exp * 16 + a.tariff then l :: a :: r
    else a :: lineAdd l r

/-- The lines of a session after a slice under given tariffs (R129). -/
def priceSlice (x : Session) (ti te : BitVec 4) (eImp eExp tNs : Nat) : List Line :=
  let pimp := x.pimp[ti.toFin]
  let pexp := x.pexp[te.toFin]
  let tfee := x.tfee[ti.toFin]
  let l := if 0 < eImp ∨ 0 < tNs then
      lineAdd { tariff := ti.toNat, exp := false, price := pimp, energy := eImp,
                ecost := roundHalfUp (eImp * pimp.toNat) 10000, tfee := tfee, timeNs := tNs,
                tcost := (roundHalfUp (tNs * tfee.toNat) 60000000000).toNat } x.lines
    else x.lines
  if 0 < eExp then
    lineAdd { tariff := te.toNat, exp := true, price := pexp, energy := eExp,
              ecost := -roundHalfUp (eExp * pexp.toNat) 10000, tfee := 0, timeNs := 0, tcost := 0 } l
  else l

/-- cost_exact of lines and a session fee (R129). -/
def costOf (sfee : Word) (l : List Line) : Int :=
  l.foldl (fun c x => c + x.ecost + x.tcost) (sfee.toNat : Int)

/-- cost_billed of an exact cost (R129). -/
def billedOf (minor : BitVec 2) (c : Int) : Int := (c * 10 ^ minor.toNat + 500000) / 10 ^ 6

/-- The running slice's energies and time at this instant. -/
def sliceNow (s : State) (m : MeterId) : Nat × Nat × Nat :=
  let c := s.bill.core.slices[m]
  (s.view m false - c.imp.toNat, s.view m true - c.exp.toNat, s.now - c.ns.toNat)

/-- cost_exact so far, with the running slice priced at this instant (R159). -/
def costNow (s : State) (x : Session) : Int :=
  let e := sliceNow s x.meter
  costOf x.sfee (if x.metered then priceSlice x s.bill.core.ti s.bill.core.te e.1 e.2.1 e.2.2 else x.lines)

/-- SLICE_CLOSE of a meter: its energy goes to the tariff registers and into the lines of the session that it meters, and a
new slice opens (R117, R118, R129). -/
def closeSlice (m : MeterId) (s : State) : State :=
  let e := sliceNow s m
  let ti := s.bill.core.ti
  let te := s.bill.core.te
  let s := s.modCore fun c =>
    let row := c.treg[m]
    let row := row.set ti.toFin (row[ti.toFin].1 + BitVec.ofNat 64 e.1, row[ti.toFin].2)
    let row := row.set te.toFin (row[te.toFin].1, row[te.toFin].2 + BitVec.ofNat 64 e.2.1)
    { c with
      treg := c.treg.set m row
      slices := vmod c.slices m fun x =>
        { x with imp := BitVec.ofNat 64 (s.view m false), exp := BitVec.ofNat 64 (s.view m true), ns := s.time.sysNs } }
  if mRole s m = 0 then
    s.modSess (mPort s m) fun x =>
      if x.metered ∧ x.meter = m then { x with lines := priceSlice x ti te e.1 e.2.1 e.2.2 } else x
  else s

/-- Every enabled meter's slice closes. -/
def closeSlices (s : State) : State :=
  forAll (fins 12) (fun s m => if mEn s m || (s.bill.core.slices[m]).enImp.isSome then closeSlice m s else s) s

/-- Whether a meter is enabled for the first time. -/
def firstEnabled (s : State) (m : MeterId) : Bool := mEn s m && (s.bill.core.slices[m].enImp).isNone

/-- METER_ENABLED, with the reason code of a transaction: a meter that no image has enabled before starts its slice and its
tariff registers (R118, R352). -/
def meterEnable (m : MeterId) (reason : Nat) (s : State) : State :=
  if firstEnabled s m then
    let i := BitVec.ofNat 64 (s.view m false)
    let e := BitVec.ofNat 64 (s.view m true)
    (s.modCore fun c => { c with slices := c.slices.set m { imp := i, exp := e, ns := s.time.sysNs, enImp := some (i, e) } }).audit
      0x000F m.val reason 0 (wd i.toNat) (wd e.toNat)
  else s

/-- The active tariffs become those of the calendar at the present legal time (R120). -/
def setTariff (s : State) : State :=
  let t := tariffAt s.par s.legalMs
  s.modCore fun c => { c with ti := t.ti, te := t.te, season := t.season, special := t.special }

/-! ### The cross-meter balance (R108, R109) -/

def balEn (s : State) : Bool := s.pb 0x20200030 31

/-- BAL_N; 0 acts as 1. -/
def balN (s : State) : Nat := max 1 (s.pf 0x20200030 27 24)

/-- A meter's import and export since the part began, in 2^-64 nWh. -/
def partEnergy (s : State) (m : MeterId) : Int × Int :=
  let x := s.met.m[m]
  ((x.imp.toNat : Int) - x.intImp.toNat, (x.exp.toNat : Int) - x.intExp.toNat)

/-- Sum over the enabled meters of a role. -/
def sumRole (s : State) (role : Nat) (f : Int × Int → Int) : Int :=
  ((fins 12).filter (fun m => mEn s m && mRole s m == role)).foldl (fun a m => a + f (partEnergy s m)) 0

/-- Rounded half up from 2^-64 nWh to Wh, as a signed word. -/
def whWord (x : Int) : Word := wdI (roundHalfUp x (10 ^ 9 * 2 ^ 64))

/-- The terms of R108. Energies are in 2^-64 nWh; l, d and tol are scaled by a further 3600 × 10^6, so that every one
is an exact integer. -/
structure BalTerms where
  g : Int
  o : Int
  a : Int
  l : Int
  d : Int
  tol : Int
  deriving DecidableEq, Repr

def balTerms (s : State) (grid : MeterId) (durNs : Nat) : BalTerms :=
  let pg := partEnergy s grid
  let g := pg.1 - pg.2
  let o := sumRole s 0 (fun e => e.1 - e.2)
  let a := sumRole s 2 (fun e => e.1 - e.2)
  let thr := sumRole s 0 (fun e => e.1 + e.2)
  let l := (s.pf 0x20200034 31 16 * durNs * 10 ^ 6 * 2 ^ 64 : Nat) + thr * 3600 * (s.pf 0x20200034 15 0 : Nat)
  let d := (g - o - a) * (3600 * 10 ^ 6) - l
  let tol := (s.pf 0x20200038 31 16 * 10 ^ 9 * 3600 * 10 ^ 6 * 2 ^ 64 : Nat) + (g.natAbs * s.pf 0x20200038 7 0 * 360000 : Nat)
  { g := g, o := o, a := a, l := l, d := d, tol := tol }

/-- The balance skips a part: it lasts less than 60 s, a meter that takes part carried INVALID, held samples or
GAP_ESTIMATED within it, or a commit of R93 fell within it. -/
def balSkips (s : State) (durNs : Nat) : Bool :=
  decide (durNs < 60000000000) || s.met.bal.skip
    || (fins 12).any (fun m => mEn s m && (s.met.m[m].gapInt || s.met.m[m].invalid))

/-- The alarm's run of R109 after an evaluated part. -/
def balRun (n : Nat) (fail : Bool) (b : Balance) : Balance :=
  let b := if fail then { b with failCnt := satInc b.failCnt } else b
  let run := if fail = b.alarm then 0 else b.run.toNat + 1
  if n ≤ run then { b with alarm := !b.alarm, run := 0 } else { b with run := BitVec.ofNat 4 run }

/-- The evaluation at the close of a part: the record's flags and d, and the state after it. -/
def balance (durNs : Nat) (outage split : Bool) (s : State) : BitVec 16 × Word × State :=
  match gridMeter s with
  | none => (0, 0, s)
  | some grid =>
    if balEn s then
      let t := balTerms s grid durNs
      let skip := balSkips s durNs
      let fail := !skip && decide (t.tol < t.d.natAbs)
      let w := fun (x : Int) => wdI (roundHalfUp x (3600 * 10 ^ 6 * 10 ^ 9 * 2 ^ 64))
      let ev : BalEval :=
        { start := s.bill.core.part.lt, dur := wd (durNs / 10 ^ 9), g := whWord t.g, o := whWord t.o, a := whWord t.a,
          l := w t.l, d := w t.d, fail := fail, skipped := skip, outage := outage, split := split }
      let was := s.met.bal.alarm
      let b := if skip then s.met.bal else { balRun (balN s) fail s.met.bal with dev := w t.d }
      let s := { s with met.bal := { b with hist := (ev :: b.hist).take 16 } }
      let s := if b.alarm = was then s else s.audit 0x000A 0xFF 0 0 0 (wd (b2n b.alarm))
      let s := if b.alarm then forAll (fins 8) (fun s n => s.flagSess n 0x200) s else s
      let fl : BitVec 16 := (if fail then 0x400 else 0) ||| (if skip then 0x800 else 0) ||| (if b.alarm then 0x200 else 0)
      (fl, if skip then 0 else w t.d, s)
    else (if s.met.bal.alarm then 0x200 else 0, 0, s)

/-! ### Demand parts (R122) -/

/-- The mean demand of an energy over a time. -/
def meanDemand (eMwh durMs : Nat) : Nat := if durMs < 60000 then 0 else (roundHalfUp (eMwh * 3600) durMs).toNat

/-- MEASURE_GAP and POWER_OVR of the running part: those of the grid meter within it (R140). -/
def partFlags (s : State) : BitVec 16 :=
  let p := s.bill.core.part
  match gridMeter s with
  | some g => (if p.gaps.getLsbD g.val then 0x2 else 0) ||| (if p.ovrs.getLsbD g.val then 0x80 else 0)
  | none => 0

/-- The running part as it closes now: its energy, metered time and balance. -/
def endPart (bits : BitVec 16) (s : State) : ClosedPart × State :=
  let p := s.bill.core.part
  let dur := s.now - p.ns.toNat
  let e := match gridMeter s with
    | some g => (s.view g false - (p.imp[g]).toNat, s.view g true - (p.exp[g]).toNat)
    | none => (0, 0)
  let all := p.flags ||| bits ||| partFlags s
  let b := balance dur (all.getLsbD 3) (all.getLsbD 4) s
  ({ lt := p.lt, durNs := dur, imp := e.1, exp := e.2, flags := all ||| b.1, balD := b.2.1
     lost := decide (p.lostAt < b.2.2.bill.lostTotal) }, b.2.2)

/-- The demand record of a closed part; MAXDEM follows (R122, R124). -/
def writeDemand (c : ClosedPart) (count : Nat) (s : State) : State :=
  if (gridMeter s).isSome then
    let ms := c.durNs / 1000000
    let di := meanDemand c.imp ms
    let fl := recFlags s c.flags false c.lost
    let body := leBytes 8 c.lt.toNat ++ leBytes 4 ms ++ leBytes 4 s.bill.core.bpc.toNat ++ leBytes 8 c.imp ++ leBytes 8 c.exp
      ++ leBytes 4 di ++ leBytes 4 (meanDemand c.exp ms) ++ leBytes 4 c.balD.toNat ++ leBytes 4 count
    let s := s.pushRecord 3 fl none body
    if !fl.getLsbD 3 && decide (60000 ≤ ms) then s.modCore fun k => { k with maxDem := max k.maxDem di } else s
  else s

/-- A new part begins at a legal time in ms, metered from now. -/
def openPart (lt : Int) (bits : BitVec 16) (s : State) : State :=
  let views := fun exp => Vector.ofFn fun (m : MeterId) => BitVec.ofNat 64 (s.view m exp)
  let s := s.modCore fun c =>
    { c with due := BitVec.ofInt 64 lt,
             part := { lt := BitVec.ofInt 64 lt, ns := s.time.sysNs, imp := views false, exp := views true,
                       flags := bits, gaps := 0, ovrs := 0, lostAt := s.bill.lostTotal } }
  { s with met.bal.skip := false,
           met.m := s.met.m.map fun x => { x with gapInt := x.invalid, intImp := x.imp, intExp := x.exp } }

/-- A part closes now with its record, and the next begins. -/
def closePart (bits : BitVec 16) (next : Int) (s : State) : State :=
  let r := endPart bits s
  openPart next 0 (writeDemand r.1 1 r.2)

/-! ### Boundaries (R120, R122, R124, R125, R132) -/

/-- A demand-interval close at its legal instant. -/
def demandClose (at_ : Int) (s : State) : State := closePart 0 at_ (closeSlices s)

/-- One billing-period record. -/
def writePeriod (at_ : Int) (m : MeterId) (s : State) : State :=
  let c := s.bill.core
  let grid := gridMeter s == some m
  let regs := fun (f : BitVec 64 × BitVec 64 → BitVec 64) =>
    ((fins 16).map fun t => leBytes 8 (f c.treg[m][t]).toNat).flatten
  let body := leBytes 4 c.bpc.toNat ++ leBytes 4 m.val ++ leBytes 8 at_.toNat ++ leBytes 4 (if grid then c.maxDem else 0)
    ++ leBytes 4 0 ++ regs (·.1) ++ regs (·.2)
  s.pushRecord 4 (recFlags s 0 c.bpShift (decide (c.bpLost < s.bill.lostTotal))) none body

/-- A billing period closes at its legal instant: BPC, and a record for every enabled meter (R124). -/
def periodClose (at_ : Int) (s : State) : State :=
  let s := (closeSlices s).modCore fun c =>
    { c with bpc := c.bpc + 1, lastBp := BitVec.ofInt 64 at_, bpFrom := BitVec.ofInt 64 at_ }
  let s := (forAll (fins 12) (fun s m => if mEn s m then writePeriod at_ m s else s) s).raise 78
  s.modCore fun c => { c with maxDem := 0, bpShift := false, bpLost := s.bill.lostTotal }

/-- A tariff switch to the pair of a legal instant, when it differs from the active one (R120). -/
def tariffSwitch (ms : Int) (s : State) : State :=
  let t := tariffAt s.par ms
  let c := s.bill.core
  let s := if t.ti = c.ti ∧ t.te = c.te then s else closeSlices s
  s.modCore fun c => { c with ti := t.ti, te := t.te, season := t.season, special := t.special }

/-- The boundaries of one legal minute, processed now in the order of R125; a billing period only after the last one
made (R132). -/
def minuteBoundaries (min : Int) (s : State) : State :=
  let s := if isDemand s.par min then demandClose (min * 60000) s else s
  let s := if isPeriod s.par min && decide ((s.bill.core.lastBp.toInt : Int) < min * 60000) then periodClose (min * 60000) s else s
  tariffSwitch (min * 60000) s

/-- Every boundary with t0 < instant ≤ t1, in time order, processed now (R130, R131). -/
def passBoundaries (t0 t1 : Int) (s : State) : State :=
  let first := t0 / 60000 + 1
  forAll (List.range (t1 / 60000 - first + 1).toNat) (fun s (i : Nat) => minuteBoundaries (first + i) s) s

/-- The demand records of the parts that a warning or a cut closed (R136, R137). -/
def writeHeld (s : State) : State :=
  (forAll s.bill.core.held (fun s c => writeDemand c 1 s) s).modCore fun k => { k with held := [] }

/-- The same for an outage: the part that the outage cut first, then the intervals wholly inside it as one record, then
the billing periods and tariff switches (R136). What the audit log has lost since the warning lies in none of them (R140). -/
def outageBoundaries (t0 t1 : Int) (s : State) : State :=
  let d := lastDemand s.par t1
  let ival := (dintOf s.par : Int) * 60000
  let b0 := lastDemand s.par t0 + ival
  let n := if t0 < d then ((d - b0) / ival).toNat else 0
  let lost := s.bill.lostTotal
  let s := writeHeld { s with bill.lostTotal := s.bill.core.lostW }
  let s := if 0 < n then
      writeDemand { lt := BitVec.ofInt 64 b0, durNs := 0, imp := 0, exp := 0, flags := 0x2000, balD := 0, lost := false } n s
    else s
  let first := t0 / 60000 + 1
  let s := forAll (List.range (t1 / 60000 - first + 1).toNat) (fun s (i : Nat) =>
    let min : Int := first + i
    let s := if isPeriod s.par min && decide ((s.bill.core.lastBp.toInt : Int) < min * 60000) then periodClose (min * 60000) s else s
    tariffSwitch (min * 60000) s) s
  { s with bill.lostTotal := lost }

/-- A demand boundary that has been reached and not been processed: the latest one, after the time from which the
running part looks for it. -/
def demandDue (s : State) : Option Int :=
  let b := lastDemand s.par s.legalMs
  if s.time.lvalid && decide (s.bill.core.due.toInt < b) then some b else none

/-- A billing-period close that has been reached and not been processed, after the last close made (R124, R132). -/
def periodDue (s : State) : Option Int :=
  (lastPeriod s.par s.legalMs).filter fun b =>
    s.time.lvalid && decide (s.bill.core.lastBp.toInt < b) && decide (s.bill.core.bpFrom.toInt < b)

/-- Whether the calendar's pair at this instant differs from the active one. -/
def switchDue (s : State) : Bool :=
  let t := tariffAt s.par s.legalMs
  s.time.lvalid && !(t.ti == s.bill.core.ti && t.te == s.bill.core.te)

/-- The first, the first two, or all of the boundaries that have been reached, in the order of R125. -/
def dueDemand (s : State) : State :=
  match demandDue s with
  | some b => demandClose b s
  | none => s

def duePeriod (s : State) : State :=
  let s := dueDemand s
  match periodDue s with
  | some b => periodClose b s
  | none => s

def dueBoundaries (s : State) : State :=
  let s := duePeriod s
  if s.time.lvalid then tariffSwitch s.legalMs s else s

/-- JOURNAL_PERIOD: the kernel's periodic record (R33), and the event log's, which the Sinter journal controller writes
whether the kernel runs or not and which saves the tail of the log (R424). -/
def execJournalPeriod (s : State) : Host.Outcome State Fault Refusal :=
  live s fun s => { (if kernelUp s then s.journal false else s) with time.evlTail := 0 }

/-! ### Sessions (R126 to R129) -/

/-- What the legal region calls the outlet's state: 0 FREE, 1 SESSION, 2 ENDED, 3 OUT OF SERVICE (the table under R172). -/
def outletState (s : State) (n : Port) : Nat :=
  if s.sys.oos.getLsbD n.val then 3
  else match s.sess n with
    | some x => if x.state = .opened then 0 else if x.state = .running then 1 else 2
    | none => if (s.bill.core.ended[n]).isSome then 2 else 0

/-- A ledger entry without the one of a key (R157). -/
def ledgerDrop (k : TokenKey) (e : Option LedgerEntry) : Option LedgerEntry := e.filter (fun e => e.key != k)

/-- A ledger entry whose key is a session's becomes SPENT (R155). -/
def ledgerSpend (k : Option TokenKey) (e : Option LedgerEntry) : Option LedgerEntry :=
  e.map fun e => if k = some e.key then { e with spent := true } else e

/-- A cancelled session leaves no record: an event-log entry with the cause, and the ledger entry of its token goes
(R126, R157). -/
def cancelSession (n : Port) (cause : Nat) (s : State) : State :=
  match s.sess n with
  | none => s
  | some x =>
    if x.state = .opened then
      let s := (s.setSess n none).evlog 0x0006 n.val (wd x.id.toNat) (wd (x.id.toNat / 2 ^ 32)) (wd cause)
      match x.token with
      | none => s
      | some k =>
        let s := s.setLedger (s.bill.tok.ledger.map (ledgerDrop k))
        s.evlog 0x0008 n.val (wd k.kid.toNat) (wd k.iday.toNat) (wd k.serial.toNat)
    else s

/-- The outlet's meter-side grounds on which a session is refused (R82, R89, R99, R107, R141, R184). -/
def outletBars (s : State) (n : Port) (m : MeterId) : Bool :=
  (mCurr s m).any (fun c => (pairOfHr s c).any (fun p => s.met.rp[p].disagree))
    || s.met.m[m].invalidLong
    || s.met.filterFault
    || neutralAt s n
    || storeLow s
    || (s.disp.railFault && (legalRegion s n).any (fun r => s.disp.rgn[r].damaged))

/-- Whether the legal region of a port awaits its redraw (R30). -/
def undrawn (s : State) (n : Port) : Bool := (legalRegion s n).any (fun r => !s.disp.rgn[r].drawn)

/-- The statuses of a session open that depend on the device's state, in the order of R490. -/
def openChecks (s : State) (n : Port) (m : MeterId) : List (Bool × Status) :=
  [(s.sys.mode != .service && s.sys.mode != .maintain, .refused), (s.sys.oos.getLsbD n.val, .refused),
   ((s.sess n).isSome, .refused), (!s.time.lvalid, .refused), (outletBars s n m, .refused),
   (undrawn s n, .busy), (!s.sys.holdReady, .busy)]

/-- A session in OPENED with the next ID (R126). -/
def openSession (n : Port) (m : MeterId) (auth : Nat) (ext : List Byte) (token : Option Token) (s : State) : State :=
  let id := s.bill.sessCount + 1
  let z : Vector Word 16 := Vector.replicate 16 0
  let x : Session :=
    { state := .opened, meter := m, id := id, auth := BitVec.ofNat 8 auth, extref := ext, openNs := s.time.sysNs,
      pimp := z, pexp := z, tfee := z, sfee := 0, currency := 0, minor := 0, ltStart := 0, nsStart := 0, eiStart := 0,
      eeStart := 0, tariffS := 0, startSeq := 0, lines := [], flags := 0, metered := false, lostAt := 0, lost := false, reason := none, ltStop := 0, eiStop := 0,
      eeStop := 0, durNs := 0, gapBound := 0, credit := match token with | some t => t.credit.toNat | none => 0,
      token := token.map (·.key) }
  let was := outletState s n
  let s := { s.setSess n (some x) with bill.sessCount := id }
  let s := s.modCore fun c => { c with ended := c.ended.set n none }
  if outletState s n = was then s else s.legalReq n

/-- Eight words of EXTREF as bytes. -/
def extrefOf (a : Vector Word 16) (i : Nat) : List Byte := wordsBytes ((List.range 8).map fun k => (a.toList.getD (i + k) 0))

/-- A port from an argument. -/
def argPort (w : Word) : Option Port := if h : w.toNat < 8 then some ⟨w.toNat, h⟩ else none

/-- The two words of a 64-bit value, low word first. -/
def words2 (x : Nat) : List Word := [wd x, wd (x / 2 ^ 32)]

/-- SESSION_OPEN (R126, R146). -/
def sessionOpen (a : Vector Word 16) (s : State) : Reply :=
  match argPort a[0] with
  | none => checks s [(s.sys.mode == .lockout, .lockedOut), (s.sys.mode == .commission, .notConfirmed)] (.deny s .badArg)
  | some n =>
    match outletMeter s n with
    | none => checks s [(s.sys.mode == .lockout, .lockedOut), (s.sys.mode == .commission, .notConfirmed)] (.deny s .badArg)
    | some m =>
      checks s ([(s.sys.mode == .lockout, .lockedOut), (s.sys.mode == .commission, .notConfirmed),
          (a[1].toNat != 0 && a[1].toNat != 1 && a[1].toNat != 3, .badArg)] ++ openChecks s n m)
        (.ok (openSession n m a[1].toNat (extrefOf a 2) none s) (words2 (s.bill.sessCount + 1).toNat))

def execSessionOpen (c : Call) (s : State) : Host.Outcome State Fault Refusal := live s (mbxCall .bill 0x0101 c sessionOpen)

/-- SESSION_CANCEL: an OPENED session ends without a record. -/
def sessionCancel (a : Vector Word 16) (s : State) : Reply :=
  match argPort a[0] with
  | none => .deny s .refused
  | some n => if (s.sess n).any (fun x => x.state == .opened) then .ok (cancelSession n 1 s) [] else .deny s .refused

def execSessionCancel (c : Call) (s : State) : Host.Outcome State Fault Refusal := live s (mbxCall .bill 0x0102 c sessionCancel)

/-- SESSION_STATUS. Without a session only RES2 and RES9 have a stated value; the others are free. -/
def sessionStatus (a : Vector Word 16) (s : State) : Reply :=
  let tar := wd (at_ s.bill.core.ti.toNat 4 + s.bill.core.te.toNat)
  match argPort a[0] with
  | none => .deny s .badArg
  | some n =>
    match s.sess n with
    | none =>
      let r := freeWords 3000 8 s
      .ok r.2 (r.1.take 2 ++ [0] ++ r.1.drop 2 ++ [tar])
    | some x =>
      let run := fun (exp : Bool) (st en : BitVec 64) =>
        if x.state = .opened then 0 else if x.state = .running then s.view x.meter exp - st.toNat else en.toNat - st.toNat
      let cost : Int := if x.state = .opened then 0 else costNow s x
      .ok s (words2 x.id.toNat ++ [wd (match x.state with | .opened => 1 | .running => 2 | .stopping => 3)]
        ++ words2 (run false x.eiStart x.eiStop) ++ words2 (run true x.eeStart x.eeStop)
        ++ words2 (BitVec.ofInt 64 cost).toNat ++ [tar])

def execSessionStatus (c : Call) (s : State) : Host.Outcome State Fault Refusal := live s (mbxCall .bill 0x0103 c sessionStatus)

/-- SESSION_OPENED_TIMEOUT: a session of a port left in OPENED for 120 s (R126). -/
def execSessionOpenedTimeout (n : Port) (s : State) : Host.Outcome State Fault Refusal :=
  live s (cancelSession n 0)

def priceAt (s : State) (m : MeterId) (off : Nat) : Vector Word 16 :=
  Vector.ofFn fun (t : Fin 16) => s.par (0x20241000 + 0x100 * m.val + 0x10 * t.val + off)

/-- A session becomes RUNNING: the prices are copied, and the token's ledger entry becomes SPENT (R119, R127, R155). Its
meter values are the present ones until those at S are in. -/
def markStart (n : Port) (s : State) : State :=
  let s := s.modSess n fun x =>
    let m := x.meter
    { x with
      state := .running, pimp := priceAt s m 0, pexp := priceAt s m 4, tfee := priceAt s m 8
      sfee := s.par (0x20240200 + 4 * m.val), currency := BitVec.ofNat 10 (s.pf 0x20240010 31 22)
      minor := BitVec.ofNat 2 (s.pf 0x20240010 21 20), ltStart := BitVec.ofNat 64 s.legalMs, nsStart := s.time.sysNs
      eiStart := BitVec.ofNat 64 (s.view m false), eeStart := BitVec.ofNat 64 (s.view m true)
      flags := x.flags ||| (if neutralAt s n then 0x100 else 0) }
  let led := s.bill.tok.ledger.map (ledgerSpend ((s.sess n).bind (·.token)))
  s.setLedger led

/-- S of a session: a slice boundary, after the boundaries of the same instant. The start record's signing is requested
(R125, R127). -/
def startCut (n : Port) (s : State) : State :=
  match s.sess n with
  | none => s
  | some x =>
    if x.metered then s
    else
      let m := x.meter
      let s := closeSlice m (dueBoundaries s)
      let c := s.bill.core
      let tar := at_ c.ti.toNat 4 + c.te.toNat
      let flags := match s.sess n with
        | some y => y.flags
        | none => 0
      let x := { x with
        metered := true, eiStart := BitVec.ofNat 64 (s.view m false), eeStart := BitVec.ofNat 64 (s.view m true)
        tariffS := BitVec.ofNat 8 tar, startSeq := s.bill.recSeq, lostAt := s.bill.lostTotal
        flags := flags ||| (if s.met.bal.alarm then 0x200 else 0) }
      let body := leBytes 8 x.id.toNat ++ leBytes 8 x.ltStart.toNat
        ++ leBytes 1 m.val ++ leBytes 1 n.val ++ leBytes 1 x.auth.toNat ++ leBytes 1 tar
        ++ leBytes 2 x.currency.toNat ++ leBytes 1 x.minor.toNat ++ leBytes 1 0
        ++ leBytes 8 x.eiStart.toNat ++ leBytes 8 x.eeStart.toNat ++ leBytes 4 x.credit ++ leBytes 4 0 ++ fit 32 x.extref
      ((s.setSess n (some x)).pushRecord 1 (recFlags s 0 false false) (some n) body).legalReq n

/-- A running session enters STOPPING at E (R128). Its meter values are the present ones until those at E are in. -/
def markStop (n : Port) (reason : Byte) (s : State) : State :=
  s.modSess n fun x =>
    if x.state = .running then
      { x with
        state := .stopping, reason := some reason, ltStop := BitVec.ofNat 64 s.legalMs
        eiStop := BitVec.ofNat 64 (s.view x.meter false), eeStop := BitVec.ofNat 64 (s.view x.meter true)
        durNs := s.now - x.nsStart.toNat }
    else x

/-- The slice of a session that is stopping closes at E, after the boundaries of the same instant, and its end values are
held (R125, R128). -/
def stopValues (n : Port) (s : State) : State :=
  match s.sess n with
  | none => s
  | some x =>
    if x.metered && x.state == .stopping then
      let s := closeSlice x.meter (dueBoundaries s)
      s.modSess n fun x => { x with
        metered := false, lost := decide (x.lostAt < s.bill.lostTotal)
        eiStop := BitVec.ofNat 64 (s.view x.meter false), eeStop := BitVec.ofNat 64 (s.view x.meter true) }
    else s

/-- A running session stops with nothing to wait for. -/
def freezeStop (n : Port) (reason : Byte) (s : State) : State := stopValues n (markStop n reason s)

/-- One line of a stop record. -/
def lineBytes (l : Line) : List Byte :=
  leBytes 4 (l.tariff + at_ (b2n l.exp) 4) ++ leBytes 4 l.price.toNat ++ leBytes 8 l.energy
    ++ leBytes 8 (BitVec.ofInt 64 l.ecost).toNat ++ leBytes 4 l.tfee.toNat ++ leBytes 4 0 ++ leBytes 8 (l.timeNs / 1000000)
    ++ leBytes 8 l.tcost

/-- TOKEN_LEFT of R160. -/
def tokenLeft (credit : Nat) (cost : Int) : Nat := (((credit : Int) * 10000 - cost) / 10000).toNat

/-- The stop record of a session that has stopped, with TOKEN_SHORTFALL when its cost exceeds its credit (R128, R129,
R160). -/
def writeStop (n : Port) (s : State) : State :=
  match s.sess n with
  | none => s
  | some x =>
    if x.state = .stopping then
      let cost := costOf x.sfee x.lines
      let billed := billedOf x.minor cost
      let fl := recFlags s x.flags false x.lost
      let tok := x.token.isSome
      let body := leBytes 8 x.id.toNat ++ leBytes 8 x.ltStart.toNat ++ leBytes 8 x.ltStop.toNat
        ++ leBytes 1 x.meter.val ++ leBytes 1 n.val ++ leBytes 1 x.auth.toNat ++ leBytes 1 (x.reason.getD 0).toNat
        ++ leBytes 2 x.currency.toNat ++ leBytes 1 x.minor.toNat ++ leBytes 1 x.lines.length
        ++ leBytes 8 x.eiStart.toNat ++ leBytes 8 x.eiStop.toNat ++ leBytes 8 x.eeStart.toNat ++ leBytes 8 x.eeStop.toNat
        ++ leBytes 8 (x.durNs / 1000000) ++ leBytes 8 x.sfee.toNat ++ leBytes 8 (BitVec.ofInt 64 cost).toNat
        ++ leBytes 8 (BitVec.ofInt 64 billed).toNat ++ leBytes 4 x.credit
        ++ leBytes 4 (if tok then tokenLeft x.credit cost else 0) ++ leBytes 4 x.gapBound ++ leBytes 4 x.startSeq.toNat
        ++ fit 32 x.extref ++ (x.lines.map lineBytes).flatten
      let s := s.pushRecord 2 fl (some n) body
      let beyond := cost - x.credit * 10000
      let s := if tok && decide (0 < beyond) then
          s.evlog 0x0009 n.val (wd x.id.toNat) (wd beyond.toNat) (wd (beyond.toNat / 2 ^ 32)) else s
      let price := x.pimp[s.bill.core.ti.toFin]
      s.modCore fun c => { c with ended := c.ended.set n (some
        { startView := x.eiStart.toNat, energy := x.eiStop.toNat - x.eiStart.toNat, price := price, billed := billed
          currency := x.currency, minor := x.minor, flags := fl }) }
    else s

/-- E of a session: its end values and its stop record. -/
def stopCut (n : Port) (s : State) : State := (writeStop n (stopValues n s)).legalReq n

/-! ### The instants of boundaries (R101, R117) -/

/-- The running sessions' spans and the billing period contain an adjustment beyond the limit (R133). -/
def markShift (s : State) : State :=
  forAll (fins 8) (fun s n => s.flagSpan n 0x4) (s.modCore fun c => { c with bpShift := true })

/-- The closings of a clock adjustment beyond the limit: part and slices close at A with SPLIT and TIME_SHIFT, the boundaries
that the new time has passed are processed with zero energy, and a new part opens (R131, R132). lofs is LOFS of the new
time. -/
def adjustCut (old : Nat) (adj : Int) (new : Nat) (s : State) : State :=
  let s := closePart 0x14 old (closeSlices (markShift s))
  let s := s.setLofs new
  let s := if 0 < adj then passBoundaries old new s else s
  let s := s.modCore fun c =>
    { c with part := { c.part with lt := BitVec.ofNat 64 new }, due := BitVec.ofNat 64 new, bpFrom := BitVec.ofNat 64 new }
  setTariff s

/-- The closings of the first SET_TIME while LVALID is 0 (R420): the outage since the newest journaled legal time is
processed, and the part since start-up closes with OUTAGE and TIME_SHIFT. -/
def firstCut (new : Nat) (s : State) : State :=
  let s := closeSlices (markShift s)
  let s := if s.time.outage = 0 then writeHeld s else outageBoundaries s.time.outage.toInt new s
  let s := closePart 0x1C new s
  (setTariff (s.setLofs new)).modCore fun c => { c with bpFrom := BitVec.ofNat 64 new }

/-- After a set-back within the limit, energy is booked under the tariffs of the new time, and boundaries occur again
(R130, R132). -/
def backCut (new : Nat) (s : State) : State :=
  let earlier := fun (x : BitVec 64) => if (new : Int) < x.toInt then BitVec.ofNat 64 new else x
  (tariffSwitch new s).modCore fun c => { c with due := earlier c.due, bpFrom := earlier c.bpFrom }

/-- The closings of a BILL commit: every slice closes and the tariffs are selected again; with DINT or TZOFS changed the part
closes too, with SPLIT (R117, R122). -/
def commitCut (cal part bp : Bool) (s : State) : State :=
  let s := if bp then s.modCore fun c => { c with bpFrom := BitVec.ofNat 64 s.legalMs } else s
  if cal then
    let s := closeSlices s
    setTariff (if part then closePart 0x10 s.legalMs s else s)
  else s

/-- What a boundary does. -/
def atBound (k : BoundKind) (s : State) : State :=
  match k with
  | .demand => dueDemand s
  | .period => duePeriod s
  | .switch => dueBoundaries s
  | .start n => startCut n s
  | .stop n => stopCut n s
  | .pass old new => passBoundaries old new s
  | .back new => backCut new s
  | .adjust old adj new => adjustCut old adj new s
  | .first new => firstCut new s
  | .commit cal part bp => commitCut cal part bp s
  | .skip => { s with met.bal.skip := true }

/-- Whether a group's bits come with system time: the last two fast samples came one after the other, and the last one no
longer ago than two of them last. No sample of another group is under way. DESIGN CHOICE. -/
def clocked (s : State) (g : Fin 2) : Bool :=
  let r := s.met.grp[g]
  grpEn s g && decide (r.prevNs.toNat < r.lastNs.toNat) && (r.due || decide (s.now ≤ r.lastNs.toNat + 32 * bitNs s g))

/-- Whether no fine sample of a group with an instant before a time is still to come. -/
def groupPast (s : State) (t : Nat) (g : Fin 2) : Bool :=
  let r := s.met.grp[g]
  !clocked s g || decide (t + lagNs s g ≤ if r.due then r.lastNs.toNat else s.now)

/-- Whether every enabled meter has the samples that precede a time. -/
def allPast (s : State) (t : Nat) : Bool := (fins 12).all fun m => !mEn s m || groupPast s t (mGroup s m)

/-- Whether a boundary at the present instant has nothing to wait for. -/
def quiet (s : State) : Bool := s.bill.core.bounds.isEmpty && allPast s s.now

/-- The kernel journals a boundary that changed what it keeps (R33). -/
def keepBound (s t : State) : State := if t.bill.core = s.bill.core then t else t.journal false

/-- An action with the accumulators, the system time, the legal time and the parameter registers of a boundary. -/
def asOf (b : Bound) (f : State → State) (s : State) : State :=
  let r := f { s with
    time.sysNs := b.ns, time.lofs := b.lofs, time.lvalid := b.lvalid, time.hwm := b.hwm, params := b.params
    met.m := Vector.ofFn fun (m : MeterId) =>
      let v := (b.acc[m]).getD (s.met.m[m].imp, s.met.m[m].exp)
      { s.met.m[m] with imp := v.1, exp := v.2 } }
  { r with
    time.sysNs := s.time.sysNs, time.lofs := s.time.lofs, time.lvalid := s.time.lvalid, time.hwm := s.time.hwm
    params := s.params
    met.m := Vector.ofFn fun (m : MeterId) => { r.met.m[m] with imp := s.met.m[m].imp, exp := s.met.m[m].exp } }

/-- A boundary whose samples are in, with the gaps that came after its instant. An event-log entry of it counts in the second
in which it is made (R425). -/
def endBound (b : Bound) (s : State) : State :=
  let s := s.evSecond
  let t := asOf b (atBound b.what) s
  keepBound s (forAll (fins 12) (fun t m => if b.gaps.getLsbD m.val then gapNow m t else t) t)

/-- The boundaries that can be made, oldest first, at most n; all of them at the power-fail warning, after which no sample
comes. -/
def runBounds (all : Bool) : Nat → State → State
  | 0, s => s
  | n + 1, s =>
    match s.bill.core.bounds with
    | [] => s
    | b :: r => if all || allPast s b.ns.toNat then runBounds all n (endBound b (s.modCore fun c => { c with bounds := r })) else s

/-- The boundaries that have their samples. -/
def settleBounds (s : State) : State := runBounds false s.bill.core.bounds.length s

/-- Every waiting boundary, with the samples that there are. -/
def flushBounds (s : State) : State := runBounds true s.bill.core.bounds.length s

/-- A boundary at the present instant that nothing has been booked after. -/
def newBound (k : BoundKind) (s : State) : Bound :=
  { ns := s.time.sysNs, lofs := s.time.lofs, lvalid := s.time.lvalid, hwm := s.time.hwm, params := s.params,
    acc := Vector.replicate 12 none, gaps := 0, what := k }

/-- Whether a boundary comes before one of the same instant (R125). -/
def Bound.before (b x : Bound) : Bool :=
  b.ns == x.ns && match b.what.rank, x.what.rank with
    | some i, some j => decide (i < j)
    | _, _ => false

/-- A new boundary's place among those that wait: the last, but for those of its instant that R125 puts after it. -/
def insertBound (b : Bound) : List Bound → List Bound
  | [] => [b]
  | x :: r => if (x :: r).all b.before then b :: x :: r else x :: insertBound b r

/-- A boundary at the present instant: made at once, or once its samples are in (R101, R117). -/
def boundary (k : BoundKind) (s : State) : State :=
  if quiet s then keepBound s (atBound k s)
  else s.modCore fun c => { c with bounds := insertBound (newBound k s) c.bounds }

def execFineSample (g : Fin 2) (s : State) : Host.Outcome State Fault Refusal :=
  live s fun s => if s.met.grp[g].due then settleBounds (fineSample g s) else s

/-- DEMAND_BOUNDARY: a whole multiple of DINT has been reached (R122). While LVALID is 0 no boundary is processed
(R420). -/
def execDemandBoundary (s : State) : Host.Outcome State Fault Refusal :=
  kernel s fun s => if (demandDue s).isSome then boundary .demand s else s

/-- BILLING_PERIOD_CLOSE: 00:00 standard time of BPDAY, after the last close made, and after a demand boundary of the same
instant (R124, R125, R132). -/
def execBillingPeriodClose (s : State) : Host.Outcome State Fault Refusal :=
  kernel s fun s => if (periodDue s).isSome then boundary .period s else s

/-- TARIFF_SWITCH: the calendar's pair at this instant differs from the active one (R120, R125). -/
def execTariffSwitch (s : State) : Host.Outcome State Fault Refusal :=
  kernel s fun s => if switchDue s then boundary .switch s else s

/-- SESSION_RUNNING: the contactors are confirmed closed at S (R127). -/
def sessionStart (n : Port) (s : State) : State :=
  if (s.sess n).any (fun x => x.state == .opened) then boundary (.start n) (markStart n s) else s

/-- SESSION_STOP: the contactors are confirmed open, or a weld is declared, at E. The reason is that of the first stop
demand of the session, else the given one (R128). -/
def sessionStop (n : Port) (reason : Byte) (s : State) : State :=
  match s.sess n with
  | none => s
  | some x => if x.state = .running then boundary (.stop n) (markStop n (x.reason.getD reason) s) else s

/-- SNAPSHOT: every meter of the mask at the instant T of the call. The call keeps BUSY until each of them has had a sample at
or after T and the buffer is written, which an empty mask leaves nothing to wait for (R115). -/
def snapshot (a : Vector Word 16) (s : State) : Reply :=
  let mask := BitVec.ofNat 12 a[0].toNat
  let w : SnapWait := { t := s.time.sysNs, mask := mask, acc := Vector.replicate 12 none }
  if 4096 ≤ a[0].toNat ∨ (fins 12).any (fun m => mask.getLsbD m.val && !mEn s m) then .deny s .badArg
  else if s.met.snap.wait.isSome then .deny s .busy
  else if mask = 0 then .ok { s with met.snap := snapOf w s.met.snap } (snapRes w s.met.snap)
  else { s := { s with met.snap.wait := some w }, st := .done, res := [], what := some .snapshot }

def execSnapshot (c : Call) (s : State) : Host.Outcome State Fault Refusal := live s (mbxCall .met 0x0102 c snapshot)

/-! ### Signing (R139, R141) -/

/-- The kernel's signature over bytes, by the curve of the record's P384 flag, with a fresh random number. -/
def metSign (p384 : Bool) (m : List Byte) (k : Nat) : List Byte :=
  if p384 then ecdsaSign Sys2Proof.Machine.p384 Config.metKey384 (Config.random k) (sha384 m)
  else ecdsaSign Sys2Proof.Machine.p256 Config.metKey256 (Config.random k) (sha256 m)

/-- The signed record goes to its store: the demand ring of 2,880, or the record store; a billing-period record only
while more than 8 entries are free (R122, R141). -/
def storeRecord (r : Record) (s : State) : State :=
  if r.rtype = 3 then ({ s with bill.demand := (r :: s.bill.demand).take 2880 }).raise 77
  else
    let lost := s.evlog 0x000F 0xFF (wd r.rtype.toNat) r.seq (wd (leAt r.body 12 1))
    if r.rtype = 4 ∧ storeFree s ≤ 8 then lost
    else match storePut r s.bill.store with
      | some l => { s with bill.store := l }
      | none => lost

/-- What follows the signing of a session's record: source 76, the legal region's update, and, after a stop record, the
outlet is free (R128, R173). -/
def afterSign (r : Record) (s : State) : State :=
  match r.port with
  | none => s
  | some n =>
    let s := (s.raise 76).legalReq n
    if r.rtype = 2 then
      if (s.sess n).any (fun x => x.state == .stopping) then s.setSess n none else s
    else s

/-- SIGN_REQUEST_DONE: the oldest signing request of the kernel completes. -/
def signDone (s : State) : State :=
  match s.bill.signing with
  | [] => s
  | r :: rest =>
    let d := s.draw
    let fl := leAt r.body 2 2
    let r := { r with sig := metSign (decide (fl / 0x4000 % 2 = 1)) r.body d.1 }
    afterSign r (storeRecord r { d.2 with bill.signing := rest })

def execSignRequestDone (s : State) : Host.Outcome State Fault Refusal := kernel s signDone

end Sys2Proof.Machine
end

