-- ==== Sys2Proof/Machine/Pilot.lean ====
section
/-! DEFINITION. Control pilot and proximity of the vehicle ports (09_pilot_and_proximity.md, R185 to R200), and how the
pilot's state ends a vehicle link (R208, R215). -/

namespace Sys2Proof.Machine

/-- The base of port n's block (R428). -/
def vpBase (n : Port) : Nat := 0x20100000 + 0x10000 * n.val

/-- A signed 16-bit half of a threshold register, in 10 mV. -/
def cpth (s : State) (n : Port) (off hi lo : Nat) : Int := signedOf 16 (s.pf (vpBase n + off) hi lo)

def cpBlank (s : State) (n : Port) : Nat := s.pf (vpBase n + 0x14) 4 0
def cpHyst (s : State) (n : Port) : Int := s.pf (vpBase n + 0x14) 23 16

/-- NDEB, 1 to 15. -/
def cpNdeb (s : State) (n : Port) : Nat := max 1 (s.pf (vpBase n + 0x14) 11 8)

/-- Whether the port is in PLC mode (LINKMODE 0, R201). -/
def isPlc (s : State) (n : Port) : Bool := !s.pb (vpBase n + 0x100) 31

/-- The override that Caldera imposes on a port's output (the table of R189); F prevails over X1. -/
def pilotOverride (s : State) (n : Port) : Option PMode :=
  if s.sys.mode = .start ∨ s.sys.mode = .activate ∨ s.sys.mode = .lockout ∨ s.sys.oos.getLsbD n.val
      ∨ s.vp[n].pilot.demandF then some .f
  else if s.sys.mode = .degraded then some .x1
  else none

/-- The mode that VP_CPCTL asks for: 0b11 acts as 0b00. -/
def hostMode (p : Pilot) : PMode := if p.mode = 1 then .x1 else if p.mode = 2 then .pwm else .f

/-- Set bits of VP_LEVT. -/
def linkEvt (bit : Nat) (l : Link) : Link := { l with evt := l.evt ||| BitVec.ofNat 11 (2 ^ bit) }

/-- What a port has queued to transmit is discarded: pushed frames, and its own messages that a window holds. -/
def dropQueued (l : Link) : Link := { l with pushes := [], mmeHeld := [] }

/-- End a matched network: key erased, XR6 ended, queued transmit frames discarded, LDOWN, IDLE (R208). -/
def endNetwork (l : Link) : Link :=
  linkEvt 4 { dropQueued l with lstate := .idle, nmk := none, nid := 0, xr6 := false, xrWait := false, assigned := none,
                                rspSeen := false }

/-- What a pilot that serves no vehicle does to the link: a matched port ends its network (R208); a 10BASE-T1S port
discards its queued frames and reports the link down (R215). -/
def linkLost (s : State) (n : Port) : State :=
  let l := s.vp[n].link
  if isPlc s n then if l.lstate = .matched then s.modLink n endNetwork else s
  else if l.lstate = .linkUp then s.modLink n fun l => linkEvt 4 { dropQueued l with lstate := .linkDown }
  else s.modLink n dropQueued

/-- Whether a pilot state keeps a matched network (R208). -/
def PState.serves : PState → Bool
  | .b => true | .c => true | .d => true
  | .a => false | .e => false | .f => false | .invalid => false | .unknown => false

/-- Report a new STATE, with STCHG and its count unless it is UNKNOWN (R193, R196), and end the link where R208 says so, or
where the pilot of a 10BASE-T1S port leaves B, C and D (R215). -/
def setPState (s : State) (n : Port) (st : PState) : State :=
  let p := s.vp[n].pilot
  if p.state = st then s
  else
    let s := s.modPilot n fun p => { p with state := st }
    let s := if st = .unknown then s
      else s.modPilot n fun p => { p with evt := p.evt ||| 1, stchgCnt := satInc p.stchgCnt }
    if st.serves || (!isPlc s n && !p.state.serves) then s else linkLost s n

/-- Put an override that is not yet in force into force: at once, interrupting the period where the level changes, and
ending the network for F. F yields to X1 no earlier than the next period (R189, R208). -/
def imposeOverride (s : State) (n : Port) : State :=
  match pilotOverride s n with
  | none => s
  | some m =>
    let p := s.vp[n].pilot
    if p.ovr = some m ∨ p.ovr = some .f then s
    else
      let s := s.modPilot n fun p =>
        { p with ovr := some m, effMode := m, cutShort := p.cutShort || decide (p.effMode ≠ m) }
      if m = .f then linkLost s n else s

/-- Report what the engine holds: its class, or INVALID while SENSE_FAULT is set (R195). -/
def showState (s : State) (n : Port) : State :=
  let p := s.vp[n].pilot
  setPState s n (if p.senseFault.on then .invalid else p.eng.cls)

/-- What a change of the effective mode makes of the engine's class and of Caldera's (R193). -/
def setClass (s : State) (n : Port) (k : PState) : State :=
  let c : PClass := { cls := k, cand := .unknown, run := 0 }
  showState (s.modPilot n fun p => { p with eng := c, cal := c }) n

/-- The engines' first period, in F, at the end of start-up (R186, R193). -/
def pilotsStart (s : State) : State := forAll (fins 8) (fun s n => setClass s n .f) s

/-- One sample in pilot millivolts (R190). -/
def pilotMv (s : State) (n : Port) (c : BitVec 12) : Int :=
  let raw := (((c.toNat : Int) - 2048) * 33000 + 2048) / 4096
  (raw * (s.pf (vpBase n + 0x28) 31 16 : Nat) + 8192) / 16384 + signedOf 16 (s.pf (vpBase n + 0x28) 15 0)

/-- The samples of a plateau by index, in µs from the period's start. -/
def window (l : List (BitVec 12)) (a b : Nat) : List (BitVec 12) := (l.drop a).take (b + 1 - a)

/-- A plateau's mean, rounded half up to 10 mV; none with fewer than 4 samples (R190). -/
def plateau (s : State) (n : Port) (l : List (BitVec 12)) : Option Int :=
  if l.length < 4 then none
  else some (roundHalfUp (l.foldl (fun a c => a + pilotMv s n c) 0) (10 * l.length))

/-- The high plateau's samples (R190): from BLANK µs after the rising edge until 3 µs before the falling edge. -/
def highSamples (m : PMode) (blank duty : Nat) (l : List (BitVec 12)) : List (BitVec 12) :=
  match m with
  | .f => []
  | .x1 => window l blank 997
  | .pwm => if duty < 6 then [] else window l blank ((duty - 6) / 2)

/-- The low plateau's samples. -/
def lowSamples (m : PMode) (blank duty : Nat) (l : List (BitVec 12)) : List (BitVec 12) :=
  match m with
  | .f => window l blank 997
  | .x1 => []
  | .pwm => window l ((duty + 1) / 2 + blank) 997

/-- The class of a high plateau without hysteresis (R192). -/
def rawClass (s : State) (n : Port) (v : Int) : PState :=
  if cpth s n 0x20 15 0 ≤ v then .invalid
  else if cpth s n 0x18 31 16 ≤ v then .a
  else if cpth s n 0x18 15 0 ≤ v then .b
  else if cpth s n 0x1C 31 16 ≤ v then .c
  else if cpth s n 0x1C 15 0 ≤ v then .d
  else if cpth s n 0x20 31 16 ≤ v then .e
  else .invalid

/-- The interval of a class: its lower and its upper boundary. -/
def classBounds (s : State) (n : Port) : PState → Option (Int × Int)
  | .a => some (cpth s n 0x18 31 16, cpth s n 0x20 15 0)
  | .b => some (cpth s n 0x18 15 0, cpth s n 0x18 31 16)
  | .c => some (cpth s n 0x1C 31 16, cpth s n 0x18 15 0)
  | .d => some (cpth s n 0x1C 15 0, cpth s n 0x1C 31 16)
  | .e => some (cpth s n 0x20 31 16, cpth s n 0x1C 15 0)
  | .f => none | .invalid => none | .unknown => none

/-- The class formed while the reported state is st: leaving it needs HYST beyond its boundary (R192). -/
def formClass (s : State) (n : Port) (st : PState) (v : Int) : PState :=
  let k := rawClass s n v
  if k = st then k
  else match classBounds s n st with
    | some (lo, hi) => if lo - cpHyst s n < v ∧ v < hi + cpHyst s n then st else k
    | none =>
      if st = .invalid ∧ (cpth s n 0x20 15 0 - cpHyst s n < v ∨ v < cpth s n 0x20 31 16 + cpHyst s n) then .invalid else k

/-- One period of a debounced flag: it sets after ndeb consecutive periods with `up` and clears after ndeb with `down`
(R194, R195). -/
def PFlag.step (f : PFlag) (ndeb : Nat) (up down : Bool) : PFlag :=
  if !(if f.on then down else up) then { f with run := 0 }
  else if ndeb ≤ f.run + 1 then { on := !f.on, run := 0 } else { f with run := f.run + 1 }

/-- One measured period of a classifier: the class is taken over when ndeb consecutive periods carry it (R193). -/
def PClass.feed (c : PClass) (ndeb : Nat) (k : PState) : PClass :=
  let run := if k = c.cand then c.run + 1 else 1
  { cls := if ndeb ≤ run then k else c.cls, cand := k, run := run }

/-! ### The samples of a period (R190, R191, R195) -/

/-- The index of the first sample of each blanking window: one after each edge, or one at the start of a period without
edges. -/
def blankStarts (m : PMode) (duty : Nat) : List Nat :=
  match m with
  | .pwm => [0, (duty + 1) / 2]
  | .x1 => [0]
  | .f => [0]

/-- The pilot codes of a period, with the instant of each in µs from its start: the samples outside the blanking windows. -/
def pilotCodes (m : PMode) (blank duty : Nat) (l : List (BitVec 12)) : List (Nat × BitVec 12) :=
  (l.zipIdx.filter fun c => !(blankStarts m duty).any (fun e => e ≤ c.2 && c.2 < e + blank)).map fun c => (c.2, c.1)

/-- The PPSn codes of a period: the first 4 samples of each of its two blanking windows, or, in a period without edges, its
first 8 samples. DESIGN CHOICE: R199 asks for 4 of each window and at least 8 of a period, which has one window or none
there. -/
def proxCodes (m : PMode) (duty : Nat) (l : List (BitVec 12)) : List (BitVec 12) :=
  match m with
  | .pwm => (blankStarts m duty).flatMap fun e => window l e (e + 3)
  | .x1 => l.take 8
  | .f => l.take 8

/-- The time from one sample to the next during which the pilot lies above 0 V, with the crossing between them found by
linear interpolation: numerator and denominator in µs. A sample of 0 V counts as above. -/
def aboveZero (a b : Nat × Int) : Nat × Nat :=
  let dt := b.1 - a.1
  if a.2 < 0 ∧ b.2 < 0 then (0, 1)
  else if 0 ≤ a.2 ∧ 0 ≤ b.2 then (dt, 1)
  else if a.2 < 0 then (dt * b.2.natAbs, a.2.natAbs + b.2.natAbs)
  else (dt * a.2.natAbs, a.2.natAbs + b.2.natAbs)

/-- The sum of `aboveZero` over a list of samples. -/
def highTime : List (Nat × Int) → Nat × Nat
  | a :: b :: r =>
    let x := aboveZero a b
    let y := highTime (b :: r)
    (x.1 * y.2 + y.1 * x.2, x.2 * y.2)
  | [_] => (0, 1)
  | [] => (0, 1)

/-- Whether the pilot crosses 0 V between two samples. -/
def crossesZero : List (Nat × Int) → Bool
  | a :: b :: r => decide (a.2 < 0) != decide (b.2 < 0) || crossesZero (b :: r)
  | [_] => false
  | [] => false

/-- The measured duty in steps of 0.05 %: the share of the period that the pilot spends above 0 V between its crossings,
from the last sample of the period before (R195). Rounded half up. DEDUCED. -/
def measuredDuty (before : Option Int) (l : List (Nat × Int)) : BitVec 11 :=
  let h := highTime ((before.map fun v => (0, v)).toList ++ l.map fun x => (x.1 + 1, x.2))
  BitVec.ofNat 11 (roundHalfUp (2 * h.1) h.2).toNat

/-- Whether every code is the same. -/
def sameCode : List (Nat × BitVec 12) → Bool
  | [] => false
  | c :: r => r.all fun x => x.2 == c.2

/-- Set an event bit and count a fault when a flag rises (R196). -/
def faultRise (old new : Bool) (bit : Nat) (p : Pilot) : Pilot :=
  if !old && new then { p with evt := p.evt ||| BitVec.ofNat 8 (2 ^ bit), faultCnt := satInc p.faultCnt } else p

/-- The diode check of a measured low plateau, in PWM while STATE is B, C or D; a period without it ends the run of
consecutive ones (R194). -/
def diodeCheck (s : State) (n : Port) (vl : Option Int) (p : Pilot) : Pilot :=
  let checked := if p.effMode = .pwm ∧ p.state.serves then vl else none
  let above := checked.any fun v => decide (cpth s n 0x24 31 16 < v)
  let below := checked.any fun v => decide (v < cpth s n 0x24 15 0)
  let inside := checked.isSome && !above && !below
  { p with diode := p.diode.step (cpNdeb s n) above inside, lowRange := p.lowRange.step (cpNdeb s n) below inside }

/-- Whether a plateau value lies beyond ±16.00 V. -/
def beyondSense : Option Int → Bool
  | some v => decide (1600 < v ∨ v < -1600)
  | none => false

/-- The engine's check of its own output (R195); `cross` says whether the pilot crossed 0 V and `same` whether every code was
the same. -/
def outputCheck (ndeb : Nat) (vh vl : Option Int) (cross same : Bool) (p : Pilot) : Pilot :=
  let d := p.effDuty.toNat
  let out := if p.effMode = .pwm then decide (d + 10 < p.mduty.toNat ∨ p.mduty.toNat + 10 < d) else cross
  let sense := (decide (p.effMode = .pwm) && same) || beyondSense vh || beyondSense vl
  { p with outFault := p.outFault.step ndeb out (!out), senseFault := p.senseFault.step ndeb sense (!sense) }

/-- The event bits and the count of the flags that rose from old to new (R196). -/
def faultRises (old new : Pilot) : Pilot :=
  faultRise old.diode.on new.diode.on 2 (faultRise old.outFault.on new.outFault.on 3
    (faultRise old.senseFault.on new.senseFault.on 4 (faultRise old.lowRange.on new.lowRange.on 5 new)))

/-- The proximity resistance (R199). -/
def ppRes (rpu npp : Nat) : Nat := if npp = 4095 then 65535 else min 65535 (rpu * npp / (10 * (4095 - npp)))

/-- The proximity class (R200). -/
def ppClassOf (s : State) (n : Port) (r : Nat) : BitVec 4 :=
  let w := fun off hi lo => s.pf (vpBase n + off) hi lo
  if r < w 0x38 31 16 then 1 else if r < w 0x38 15 0 then 2 else if r < w 0x3C 31 16 then 3
  else if r < w 0x3C 15 0 then 4 else if r < w 0x40 31 16 then 5 else if r < w 0x40 15 0 then 6 else 0

/-- The trimmed RPU of a port in 0.1 Ω: 1.00 kΩ ±1 % (R460). -/
def rpuOf (n : Port) : Nat := clamp 9900 10100 (Config.rpu n.val).toNat

/-- The proximity measurement of one period; a class is reported after 10 consecutive periods (R200). -/
def ppStep (s : State) (n : Port) (pp : List (BitVec 12)) (p : Pilot) : Pilot :=
  if pp = [] then p
  else
    let npp := (roundHalfUp (pp.foldl (fun a c => a + (c.toNat : Int)) 0) pp.length).toNat
    let r := ppRes (rpuOf n) npp
    let c := ppClassOf s n r
    let run := if c = p.ppCand then p.ppRun + 1 else 1
    let p := { p with res := BitVec.ofNat 16 r, ppCand := c, ppRun := run }
    if 10 ≤ run ∧ c ≠ p.ppclass then
      { p with ppclass := c, evt := p.evt ||| (if c = 1 ∨ c = 6 then 0x42 else 0x02) }
    else p

/-- The class of a measured high plateau, for the engine and for Caldera; no class is formed in F (R192, R193, R197). -/
def classify (s : State) (n : Port) (vh : Option Int) : State :=
  match vh with
  | none => s
  | some v =>
    if s.vp[n].pilot.effMode = .f then s
    else
      showState (s.modPilot n fun p =>
        { p with eng := p.eng.feed (cpNdeb s n) (formClass s n p.state v),
                 cal := p.cal.feed (cpNdeb s n) (formClass s n p.cal.cls v) }) n

/-- The measurement of a period that was not cut short: at the high plateau's end the class, at the low plateau's end the
diode, at the period's end the output, the proximity and Caldera's comparison (R190 to R200). -/
def measurePeriod (s : State) (n : Port) (samples : List (BitVec 12)) : State :=
  let p := s.vp[n].pilot
  let blank := cpBlank s n
  let duty := p.effDuty.toNat
  let vh := plateau s n (highSamples p.effMode blank duty samples)
  let vl := plateau s n (lowSamples p.effMode blank duty samples)
  let codes := pilotCodes p.effMode blank duty samples
  let mv := codes.map fun c => (c.1, pilotMv s n c.2)
  let s := s.modPilot n fun p =>
    { p with vhigh := vh.getD p.vhigh, vlow := vl.getD p.vlow, mduty := measuredDuty p.lastMv mv }
  let s := classify s n vh
  let s := s.modPilot n fun p =>
    faultRises p (outputCheck (cpNdeb s n) vh vl (crossesZero mv) (sameCode codes) (diodeCheck s n vl p))
  let s := (showState s n).modPilot n (ppStep s n (proxCodes p.effMode duty samples))
  s.modPilot n fun p => { p with disagree := if p.cal.cls = p.state then 0 else p.disagree + 1 }

/-- The start of the next period: an override that has ended ceases, the effective mode and duty take over, and the classes
enter and leave F (R188, R189, R193). -/
def nextPeriod (s : State) (n : Port) : State :=
  let o := pilotOverride s n
  let p := s.vp[n].pilot
  let m := o.getD (hostMode p)
  let s := s.modPilot n fun p => { p with ovr := o, effMode := m, effDuty := p.duty, cutShort := false }
  if m = .f then setClass s n .f
  else if p.effMode = .f ∨ p.eng.cls = .f then setClass s n .unknown
  else s

/-- The pilot's last code of a period in mV, from which the next period's first crossing is interpolated. -/
def lastPilot (s : State) (n : Port) (samples : List (BitVec 12)) : Option Int :=
  let p := s.vp[n].pilot
  ((pilotCodes p.effMode (cpBlank s n) p.effDuty.toNat samples).getLast?).map fun c => pilotMv s n c.2

/-- PILOT_PERIOD_END: a period's samples, one each µs, are measured unless an override cut the period short, and the next
period starts. A sample beyond the period's 1,000 µs belongs to no period (R187, R189, R190). -/
def pilotPeriodEnd (n : Port) (samples : List (BitVec 12)) (s : State) : State :=
  let l := samples.take 1000
  let last := lastPilot s n l
  let s := if s.vp[n].pilot.cutShort then s else measurePeriod s n l
  nextPeriod (s.modPilot n fun p => { p with lastMv := last }) n

def execPilotPeriodEnd (n : Port) (samples : List (BitVec 12)) (s : State) : Host.Outcome State Fault Refusal :=
  live s (pilotPeriodEnd n samples)

/-- PILOT_CTL_WRITE: DUTY is clamped to 40 to 1,940; the write takes effect at the next period (R187, R188). -/
def pilotCtl (n : Port) (w : Word) (s : State) : State :=
  s.modPilot n fun p =>
    { p with duty := BitVec.ofNat 11 (clamp 40 1940 (field w 26 16)), mode := BitVec.ofNat 2 (field w 1 0) }

def execPilotCtlWrite (n : Port) (w : Word) (s : State) : Host.Outcome State Fault Refusal := access .vp n.val s (pilotCtl n w)

/-- VP_PEVT_CLRCNT: VP_PCNT and CNT_SAT are cleared. -/
def pevtClrcnt (n : Port) (s : State) : State :=
  (s.modPilot n fun p => { p with stchgCnt := 0, faultCnt := 0 }).statsCleared 0x5650 0

def execVpPevtClrcnt (n : Port) (s : State) : Host.Outcome State Fault Refusal := access .vp n.val s (pevtClrcnt n)

end Sys2Proof.Machine
end

