-- ==== Sys2Proof/Machine/Link.lean ====
section
/-! DEFINITION. The vehicle link of the ports: matching, robust mode, switching windows, frames and the record engine's
keys (10_vehicle_link.md, R201 to R224). -/

namespace Sys2Proof.Machine

/-! ### Cross-outlet arbitration (R203 to R207) -/

/-- Whether a port is a candidate for a run. -/
def isCandidate (s : State) (n : Port) : Bool :=
  let v := s.vp[n]
  isPlc s n && decide (v.pilot.effMode = .pwm) && decide (v.pilot.effDuty = 100) && v.pilot.state.serves
    && (decide (v.link.lstate = .idle) || decide (v.link.lstate = .sounding)) && v.link.assigned.isNone

/-- The port whose VP_SLACCFG rules every run: the lowest-numbered one in PLC mode. -/
def slacPort (s : State) : Port := ((fins 8).find? (fun n => isPlc s n)).getD 0

/-- The vehicle link listens: not OFF and not in DEGRADED (R224). -/
def listens (s : State) (n : Port) : Bool :=
  decide (s.vp[n].link.lstate ≠ .off) && decide (s.sys.mode ≠ .degraded)

/-- A management message from outside the network: more than 128 a second are dropped (R223). -/
def mmeLimit (s : State) (n : Port) : Bool × State :=
  let l := s.vp[n].link
  let sec := s.now / 1000000000
  let k := if l.mmeSec = sec then l.mmeCnt else 0
  if k < 128 then (true, s.modLink n fun l => { l with mmeSec := sec, mmeCnt := k + 1 })
  else (false, s.modLink n fun l => { l with mmeSec := sec, mmeCnt := k, mmedrop := satInc l.mmedrop })

/-- A SLAC message that a port hears: it comes from a station outside the network, and counts toward R223. -/
def hearMme (n : Port) (f : State → State) (s : State) : State :=
  if isPlc s n && listens s n then
    let r := mmeLimit s n
    if r.1 then f r.2 else r.2
  else s

/-- Change the run of a vehicle and RunID. -/
def modRun (mac : BitVec 48) (run : BitVec 64) (f : SlacRun → SlacRun) : List SlacRun → List SlacRun
  | [] => []
  | r :: t => if r.mac = mac ∧ r.run = run then f r :: t else r :: modRun mac run f t

def findRun (s : State) (mac : BitVec 48) (run : BitVec 64) : Option SlacRun :=
  s.slac.runs.find? (fun r => decide (r.mac = mac ∧ r.run = run))

/-- CM_START_ATTEN_CHAR_IND: the first start that any port hears begins the run. -/
def startAtten (n : Port) (mac : BitVec 48) (run : BitVec 64) (announced : Nat) (s : State) : State :=
  let s := if (findRun s mac run).isSome then s else
    { s with slac.runs := s.slac.runs ++
        [{ mac := mac, run := run, announced := announced, starts := 0, snd := Vector.replicate 8 0,
           sum := Vector.replicate 8 0, decided := false }] }
  let hear := fun (r : SlacRun) => { r with starts := r.starts ||| BitVec.ofNat 8 (2 ^ n.val) }
  let s := { s with slac.runs := modRun mac run hear s.slac.runs }
  if isCandidate s n then s.modLink n fun l => { l with lstate := .sounding } else s

def execCmStartAttenCharInd (n : Port) (mac : BitVec 48) (run : BitVec 64) (announced : Nat) (s : State) :
    Host.Outcome State Fault Refusal := live s (hearMme n (startAtten n mac run announced))

/-- One sounding's 58 carrier groups join the port's mean; a sounding after the decision is ignored
(R203, R223). -/
def sounding (n : Port) (mac : BitVec 48) (run : BitVec 64) (groups : List Nat) (s : State) : State :=
  let hear := fun (r : SlacRun) =>
    if r.decided then r else { r with snd := vmod r.snd n (· + 1), sum := vmod r.sum n (· + groups.sum) }
  { s with slac.runs := modRun mac run hear s.slac.runs }

/-- CM_MNBC_SOUND_IND: a message without the 58 groups is malformed, and is discarded and counted in RXERR (R216). -/
def soundInd (n : Port) (mac : BitVec 48) (run : BitVec 64) (groups : List Nat) (s : State) : State :=
  if groups.length = 58 then hearMme n (sounding n mac run groups) s
  else if isPlc s n && listens s n then s.modLink n fun l => { l with rxerr := satInc l.rxerr }
  else s

def execCmMnbcSoundInd (n : Port) (mac : BitVec 48) (run : BitVec 64) (groups : List Nat) (s : State) :
    Host.Outcome State Fault Refusal :=
  live s (soundInd n mac run groups)

/-- Whether the switching windows hold the port's own messages at a time: with SWDEFER, while a window is open or announced
(R213). No row gives their air time, so each is taken to overlap it. DESIGN CHOICE; log entry 246. -/
def windowsHold (now : Nat) (l : Link) : Bool := l.swdefer && l.windows.any fun w => decide (now < w.2)

/-- Whether host firmware has enabled a port, so that its transmitter may leave high impedance (R474): no row names the
register that does it, and the first write to a register of the port is taken for it. DESIGN CHOICE; log entry 252. -/
def portOn (s : State) (n : Port) : Bool := (s.compat[blkIdx .vp n.val]).locked

/-- A message of the port's own: sent, or held behind those that windows hold. A port that is not enabled sends nothing. -/
def sendMme (s : State) (n : Port) (m : Mme) (l : Link) : Link :=
  if !portOn s n then l
  else if windowsHold s.now l || !l.mmeHeld.isEmpty then { l with mmeHeld := l.mmeHeld ++ [m] }
  else { l with mmeOut := m :: l.mmeOut }

/-- The messages held go out in order. -/
def sendHeld (l : Link) : Link := { l with mmeOut := l.mmeHeld.reverse ++ l.mmeOut, mmeHeld := [] }

/-- CM_SLAC_PARAM_REQ: every candidate answers; no other port transmits anything (R203). -/
def execCmSlacParamReq (mac : BitVec 48) (run : BitVec 64) (s : State) : Host.Outcome State Fault Refusal :=
  live s <| forAll (fins 8) fun s n =>
    hearMme n (fun s => if isCandidate s n then s.modLink n (sendMme s n (.slacParamCnf mac run)) else s) s

/-- A port's attenuation for a run in 0.1 dB, rounded half up (R203). -/
def attenOf (r : SlacRun) (n : Port) : Nat := (roundHalfUp (10 * (r.sum[n] : Int)) (58 * r.snd[n])).toNat

/-- The port with the lowest attenuation, ties to the lowest number. -/
def bestPort (r : SlacRun) : List Port → Option Port
  | [] => none
  | p :: t => match bestPort r t with
    | none => some p
    | some q => if attenOf r q < attenOf r p then some q else some p

/-- A deferral of a vehicle's run: the count of its consecutive deferrals, after it. -/
def deferCount (mac : BitVec 48) : List (BitVec 48 × Nat) → Nat × List (BitVec 48 × Nat)
  | [] => (1, [(mac, 1)])
  | (a, k) :: t => if a = mac then (k + 1, (a, k + 1) :: t)
    else ((deferCount mac t).1, (a, k) :: (deferCount mac t).2)

/-- Write a decision into VP_SLACRES and raise SLACD on a port that heard the run (R205). -/
def slacResult (res : Nat) (att : Nat) (mrg : Nat) (l : Link) : Link :=
  linkEvt 2 { l with result := BitVec.ofNat 4 res, atten := BitVec.ofNat 16 att, mrg := BitVec.ofNat 12 (min 4095 mrg),
                     lstate := if l.lstate = .sounding then .idle else l.lstate }

/-- SLAC_WINDOW_CLOSE: the run is assigned to the best port or deferred (R204 to R206). -/
def windowClose (mac : BitVec 48) (run : BitVec 64) (s : State) : State :=
  match findRun s mac run with
  | none => s
  | some r =>
    if r.decided then s
    else
      let cfg := s.vp[slacPort s].link
      let heard := (fins 8).filter (fun n => isPlc s n && decide (cfg.minsnd.toNat ≤ r.snd[n]))
      let s := { s with slac.runs := modRun mac run (fun r => { r with decided := true }) s.slac.runs }
      match bestPort r heard with
      | none => { s with slac.deferred := (deferCount mac s.slac.deferred).2 }
      | some b =>
        let second := bestPort r (heard.filter (· ≠ b))
        let mrg := match second with
          | some q => attenOf r q - attenOf r b
          | none => 4095
        let ambig := (fins 8).any (fun n => s.vp[n].link.ambigMacs.contains mac)
        let cands := heard.filter (fun n => isCandidate s n)
        if isCandidate s b && decide (second = none ∨ cfg.margin.toNat ≤ mrg) && !ambig then
          let s := forAll heard (fun s n => s.modLink n (slacResult (if n = b then 1 else 2) (attenOf r n) mrg)) s
          let s := s.modLink b fun l => sendMme s b (.attenCharInd mac run (attenOf r b))
            { l with lstate := .assigned, assigned := some (mac, run), rspSeen := false }
          { s with slac.deferred := s.slac.deferred.filter (fun p => p.1 ≠ mac) }
        else
          let d := deferCount mac s.slac.deferred
          let s := { s with slac.deferred := d.2 }
          let s := forAll heard (fun s n => s.modLink n (slacResult (if ambig then 4 else 3) (attenOf r n) mrg)) s
          let s := forAll cands (fun s n => s.modLink n fun l => { l with deferCnt := satInc l.deferCnt }) s
          if !ambig && max 1 cfg.defmax.toNat ≤ d.1 then
            forAll cands (fun s n => s.modLink n fun l => linkEvt 5 { l with ambigMacs := l.ambigMacs ++ [mac] }) s
          else s

def execSlacWindowClose (mac : BitVec 48) (run : BitVec 64) (s : State) : Host.Outcome State Fault Refusal :=
  live s (windowClose mac run)

/-- CM_ATTEN_CHAR_RSP: the vehicle's answer on the assigned port continues the match (R205). -/
def execCmAttenCharRsp (n : Port) (mac : BitVec 48) (run : BitVec 64) (s : State) : Host.Outcome State Fault Refusal :=
  live s <| hearMme n fun s =>
    if s.vp[n].link.lstate = .assigned ∧ s.vp[n].link.assigned = some (mac, run) then
      s.modLink n fun l => { l with rspSeen := true }
    else s

/-- CM_SLAC_MATCH_REQ: the assigned port answers with keys from the random generator and is MATCHED; with XR6EN it then
offers XR6 (R202, R205, R209). -/
def slacMatch (n : Port) (mac : BitVec 48) (run : BitVec 64) (s : State) : State :=
  let l := s.vp[n].link
  if l.lstate = .assigned ∧ l.assigned = some (mac, run) ∧ l.rspSeen then
    let d := s.draw
    let e := d.2.draw
    let nmk := BitVec.ofNat 128 (Config.random d.1)
    let nid := BitVec.ofNat 56 (Config.random e.1)
    e.2.modLink n fun l =>
      let l := linkEvt 3 (sendMme s n (.slacMatchCnf mac run nmk nid)
        { l with lstate := .matched, nmk := some nmk, nid := nid, assigned := none, rspSeen := false })
      if l.xr6en then sendMme s n (.xrCapReq Config.oui 1) { l with xrWait := true } else l
  else s

def execCmSlacMatchReq (n : Port) (mac : BitVec 48) (run : BitVec 64) (s : State) : Host.Outcome State Fault Refusal :=
  live s (hearMme n (slacMatch n mac run))

/-- CM_VALIDATE_REQ: answered with result "not required" (R201). -/
def execCmValidateReq (n : Port) (mac : BitVec 48) (s : State) : Host.Outcome State Fault Refusal :=
  live s (hearMme n fun s => s.modLink n (sendMme s n (.validateCnf mac)))

/-- SLAC_MATCH_TIMEOUT: the assignment lapses and the port is a candidate again (R205). -/
def execSlacMatchTimeout (n : Port) (s : State) : Host.Outcome State Fault Refusal :=
  live s fun s =>
    if s.vp[n].link.lstate = .assigned then
      s.modLink n fun l => { l with lstate := .idle, assigned := none, rspSeen := false }
    else s

/-- SLAC_REARM: AMBIG and the counts of the vehicles that the port holds clear, on every port; nothing is assigned
(R206). -/
def slacRearm (n : Port) (s : State) : State :=
  let macs := s.vp[n].link.ambigMacs
  let s := { s with slac.deferred := s.slac.deferred.filter (fun p => !macs.contains p.1) }
  forAll (fins 8) (fun s k => s.modLink k fun l => { l with ambigMacs := l.ambigMacs.filter (!macs.contains ·) }) s

def execSlacRearm (n : Port) (s : State) : Host.Outcome State Fault Refusal := access .vp n.val s (slacRearm n)

/-! ### Sixfold extended-robust mode (R209, R210) -/

/-- XR_CAP_CNF: a peer of version 1 becomes an XR6 peer; another version leaves STD-ROBO. -/
def execXrCapCnf (n : Port) (version : Nat) (s : State) : Host.Outcome State Fault Refusal :=
  live s fun s =>
    if s.vp[n].link.xrWait && decide (s.vp[n].link.lstate = .matched) then
      s.modLink n fun l => { l with xrWait := false, xr6 := decide (version = 1) }
    else s

/-- XR_CAP_TIMEOUT: the port keeps STD-ROBO. -/
def execXrCapTimeout (n : Port) (s : State) : Host.Outcome State Fault Refusal :=
  live s fun s => if s.vp[n].link.xrWait then s.modLink n fun l => { l with xrWait := false, xr6 := false } else s

/-- XR6_FALLBACK: back to STD-ROBO until the next match, with XR6FB. -/
def execXr6Fallback (n : Port) (s : State) : Host.Outcome State Fault Refusal :=
  live s fun s => if s.vp[n].link.xr6 then s.modLink n fun l => linkEvt 6 { l with xr6 := false } else s

/-! ### Switching windows (R212, R213) -/

/-- Add a window; overlapping windows merge. -/
def addWindow (a b : Nat) : List (Nat × Nat) → List (Nat × Nat)
  | [] => [(a, b)]
  | (c, d) :: t =>
    if b < c then (a, b) :: (c, d) :: t
    else if d < a then (c, d) :: addWindow a b t
    else addWindow (min a c) (max b d) t

/-- A switching announcement: source 0 a coil command, 1 to 3 a switching frame of bus 0 to 2; every port in PLC mode
opens its window, DLY µs after the announced instant and LEN µs long. -/
def announce (src : Fin 4) (at_ : Nat) (s : State) : State :=
  forAll (fins 8) (fun s n =>
    let l := s.vp[n].link
    let len := l.swLen[src].toNat
    if len = 0 ∨ !isPlc s n then s
    else
      let a := at_ + 1000 * l.swDly[src].toNat
      s.modLink n fun l =>
        { l with windows := addWindow a (a + 1000 * len) l.windows, winHeard := (s.now, a, a + 1000 * len) :: l.winHeard }) s

def execSwitchingAnnouncement (src : Fin 4) (at_ : BitVec 64) (s : State) : Host.Outcome State Fault Refusal :=
  live s (announce src at_.toNat)

/-- The port's earliest window ends; with no other open or announced, held messages go out. -/
def endWindow (now : Nat) (l : Link) : Link :=
  let l := { l with windows := l.windows.tail }
  if windowsHold now l then l else sendHeld l

/-- SWITCHING_WINDOW_END: the port's earliest window ends; held transmissions contend again. -/
def execSwitchingWindowEnd (n : Port) (s : State) : Host.Outcome State Fault Refusal :=
  live s fun s => s.modLink n (endWindow s.now)

/-- Whether an instant lies inside a switching window of a port. -/
def windowAt (l : Link) (t : Nat) : Bool := l.windows.any (fun w => decide (w.1 ≤ t ∧ t < w.2))

/-- Whether an instant lay inside a switching window, one that has ended since included. -/
def windowWas (l : Link) (t : Nat) : Bool := l.winHeard.any (fun w => decide (w.2.1 ≤ t ∧ t < w.2.2))

/-- Whether system time lies inside an open switching window of a port. -/
def inWindow (s : State) (l : Link) : Bool := windowAt l s.now

/-! ### Impulse blanking (R211, R212) -/

/-- Whether a sample exceeds the threshold: x² > rms2 × 10^(thr/10), compared by its tenth powers; m is 1,024 rms2. -/
def overThr (m : Nat) (thr : Nat) (x : Int) : Bool := decide (m ^ 10 * 10 ^ thr < (1024 * (x.natAbs * x.natAbs)) ^ 10)

/-- The running mean after a sample that is not blanked: an exponential mean of 1,024 samples, in 1/1,024, its share of the
mean rounded down. DESIGN CHOICE. -/
def meanStep (m : Option Nat) (x : Int) : Nat :=
  match m with
  | none => 1024 * (x.natAbs * x.natAbs)
  | some m => m - m / 1024 + x.natAbs * x.natAbs

/-- A sample that is not blanked so far joins those that the next ext samples may still blank; the oldest beyond ext of them
enters the mean. -/
def meanLater (ext : Nat) (m : Option Nat) (wait : List Int) (x : Int) : Option Nat × List Int :=
  match wait ++ [x] with
  | [] => (m, [])
  | y :: r => if ext ≤ r.length then (some (meanStep m y), r) else (m, y :: r)

/-- The samples over the threshold, each with its threshold in dB, and the running mean after them, over samples not blanked.
The first `cool` samples are blanked after an earlier one; those of `wait` are blanked by one over the threshold. -/
def overSamples (ext : Nat) : Option Nat → Nat → List Int → List (Nat × Int) → Option Nat × List Bool
  | m, _, wait, [] => (wait.foldl (fun m x => some (meanStep m x)) m, [])
  | m, cool, wait, (thr, x) :: r =>
    let hit := match m with
      | some k => overThr k thr x
      | none => false
    let n := if hit then (m, []) else if 0 < cool then (m, wait) else meanLater ext m wait x
    let t := overSamples ext n.1 (if hit then ext else cool - 1) n.2 r
    (t.1, hit :: t.2)

/-- Each sample marked, and the k samples after it. -/
def spread (k : Nat) : Nat → List Bool → List Bool
  | _, [] => []
  | c, b :: r => (b || decide (0 < c)) :: spread k (if b then k else c - 1) r

/-- The samples blanked: those over the threshold with up to ext before and after each. -/
def blankMarks (ext : Nat) (marks : List Bool) : List Bool :=
  (spread ext 0 marks).zipWith (· || ·) (spread ext 0 marks.reverse).reverse

/-- The symbols of 3,072 samples. -/
def symbols (l : List Bool) : List (List Bool) :=
  (List.range ((l.length + 3071) / 3072)).map fun i => (l.drop (3072 * i)).take 3072

/-- The threshold of each sample of a frame that ends now, at 75 MS/s: SWTHR inside a switching window. -/
def thresholds (s : State) (l : Link) (samples : List Int) : List (Nat × Int) :=
  samples.zipIdx.map fun x =>
    let t := s.now - 40 * (samples.length - 1 - x.2) / 3
    (if windowWas l t then l.swthr.toNat else l.thr.toNat, x.1)

/-- What the receiver makes of a frame's samples: the mean after them, the symbols with a blanked sample and the symbols
erased. Nothing is blanked with BLEN 0 or on a 10BASE-T1S link (R211, R214). -/
def blanking (s : State) (n : Port) (samples : List Int) : Option Nat × Nat × Nat :=
  let l := s.vp[n].link
  if l.blen && isPlc s n then
    let r := overSamples l.ext.toNat l.rms2 0 [] (thresholds s l samples)
    let sy := symbols (blankMarks l.ext.toNat r.2)
    (r.1, sy.countP (·.any id), sy.countP (fun y => decide (384 < y.countP id)))
  else (l.rms2, 0, 0)

/-! ### Frames (R215 to R219, R223) -/

/-- The header of a receive record (R217). -/
def rxHeader (sw blanked t1s xr6 : Bool) (ers len : Nat) (ts fseq : Word) : List Byte :=
  wordsBytes [wd (at_ (b2n sw) 27 + at_ (b2n blanked) 26 + at_ (b2n t1s) 25 + at_ (b2n xr6) 24 + at_ (min 255 ers) 16 + len),
    ts, fseq, 0]

/-- Store a frame as a record, or count it in RXDROP when eight wait (R217, R218). -/
def storeFrame (n : Port) (frame : List Byte) (erased blanked : Nat) (xr6 : Bool) (s : State) : State :=
  let l := s.vp[n].link
  if 8 ≤ l.rxStore.length then s.modLink n fun l => { l with rxdrop := satInc l.rxdrop }
  else
    let fseq := l.fseq + 1
    let rec_ := fit 2048 (rxHeader (inWindow s l) (decide (0 < blanked)) (!isPlc s n) xr6 erased frame.length s.tshort fseq ++ frame)
    s.modLink n fun l => { l with fseq := fseq, rxStore := l.rxStore ++ [rec_] }

/-- A valid frame of a 10BASE-T1S link brings the link up while the pilot is in B, C or D and no override F is in force
(R215). -/
def t1sUp (n : Port) (s : State) : State :=
  let v := s.vp[n]
  if !isPlc s n && v.pilot.state.serves && decide (v.pilot.ovr ≠ some .f) && decide (v.link.lstate = .linkDown) then
    s.modLink n fun l => linkEvt 3 { l with lstate := .linkUp }
  else s

/-- Where a frame's EtherType lies: after the addresses and a VLAN tag. -/
def etherOfs (f : List Byte) : Nat := if beNat (slice f 12 2) == 0x8100 then 16 else 12

/-- Whether a frame is a management message: EtherType 0x88E1. -/
def isMmeFrame (f : List Byte) : Bool := beNat (slice f (etherOfs f) 2) == 0x88E1

/-- Whether a frame is a SLAC or XR_CAP management message, by its message type. -/
def isSlacMme (f : List Byte) : Bool :=
  let o := etherOfs f
  let mm := leAt f (o + 3) 2
  isMmeFrame f && ([0x6064, 0x6068, 0x606C, 0x6070, 0x6074, 0x6078, 0x607C, 0x6084].contains (mm - mm % 4)
    || (0xA000 ≤ mm && mm < 0xC000 && beNat (slice f (o + 7) 3) == Config.oui.toNat))

/-- Whether a frame's destination is a group address. -/
def toGroup (f : List Byte) : Bool := (f.headD 0).getLsbD 0

/-- Whether a port takes a data frame by its destination: its own address, broadcast or an enabled group (R216). -/
def takesDest (n : Port) (draw : Nat) (f : List Byte) : Bool :=
  let d := beNat (slice f 0 6)
  d == (Config.portMac n.val).toNat || d == 2 ^ 48 - 1 || (toGroup f && Config.portGroup n.val draw (BitVec.ofNat 48 d))

/-- A valid frame: the port consumes SLAC and XR_CAP messages and takes other management messages, both within the limit of
R223 where they come from outside its network, and takes data frames of its own network by their destination (R216). -/
def takeFrame (n : Port) (own xr6 : Bool) (frame : List Byte) (erased blanked : Nat) (s : State) : State :=
  if isSlacMme frame then (if own then s else (mmeLimit s n).2)
  else if isMmeFrame frame then
    if own then storeFrame n frame erased blanked xr6 s
    else
      let r := mmeLimit s n
      if r.1 then storeFrame n frame erased blanked false r.2 else r.2
  else if own then
    let d := s.draw
    if takesDest n d.1 frame then storeFrame n frame erased blanked xr6 d.2 else d.2
  else s

/-- FRAME_RECEIVE: blanking, counting, filtering and storing of one frame; one outside 64 to 1,522 bytes is malformed
(R211 to R218). -/
def frameReceive (n : Port) (kind : FrameKind) (frame : List Byte) (samples : List Int) (s : State) : State :=
  if listens s n then
    let b := blanking s n samples
    let s := s.modLink n fun l =>
      { l with rms2 := b.1, erased := satAdd l.erased b.2.2, blankSym := satAdd l.blankSym b.2.1 }
    let bad := fun (s : State) => s.modLink n fun l => { l with rxerr := satInc l.rxerr }
    let sized := decide (64 ≤ frame.length ∧ frame.length ≤ 1522)
    match kind with
    | .malformed => bad s
    | .badCheck => s.modLink n fun l => { l with frameLost := satInc l.frameLost }
    | .foreign => if sized then s else bad s
    | .outside => if sized then takeFrame n false false frame b.2.2 b.2.1 s else bad s
    | .own xr6 => if sized then takeFrame n true (xr6 && isPlc s n) frame b.2.2 b.2.1 (t1sUp n s) else bad s
  else s

def execFrameReceive (n : Port) (kind : FrameKind) (frame : List Byte) (samples : List (BitVec 12)) (s : State) :
    Host.Outcome State Fault Refusal := live s (frameReceive n kind frame (samples.map fun x => x.toInt))

/-- RX_COAL_TIMEOUT: the receive event for the records completed since the last one (R217). -/
def execRxCoalTimeout (n : Port) (s : State) : Host.Outcome State Fault Refusal :=
  live s fun s => if 0 < s.vp[n].link.rxSince then s.modLink n fun l => linkEvt 1 { l with rxSince := 0 } else s

/-- The bytes of a transmit slot. -/
def slotBytes (w : List (Nat × Word)) (len : Nat) : List Byte :=
  (wordsBytes ((List.range ((len + 3) / 4)).map (fun i => lookupD i 0 w))).take len

/-- Set a bit of a slot mask. -/
def slotBit (s : Fin 8) : Byte := BitVec.ofNat 8 (2 ^ s.val)

/-- TX_PUSH: the slot is queued, or fails at once (R219). -/
def txPush (n : Port) (w : Word) (s : State) : State :=
  let l := s.vp[n].link
  let slot : Fin 8 := Fin.ofNat 8 (field w 18 16)
  let len := field w 10 0
  let fail := fun (s : State) => s.modLink n fun l => { l with failB := l.failB ||| slotBit slot }
  if l.pushes.any (fun p => p.slot == slot) then fail s
  else if len < 60 ∨ 1522 < len then fail s
  else if isSlacMme (slotBytes l.slots[slot] len) then fail s
  else s.modLink n fun l => { l with pushes := l.pushes ++ [{ slot := slot, len := len, cap := BitVec.ofNat 2 (field w 27 26) }] }

def execTxPush (n : Port) (w : Word) (s : State) : Host.Outcome State Fault Refusal := access .vp n.val s (txPush n w)

/-- The push that goes next: the highest priority, in push order; push order alone in 10BASE-T1S (R219). -/
def nextPush (plc : Bool) (l : List Push) : Option Push :=
  if plc then
    match l.find? (fun p => p.cap == 3) with
    | some p => some p
    | none => match l.find? (fun p => p.cap == 2) with
      | some p => some p
      | none => match l.find? (fun p => p.cap == 1) with
        | some p => some p
        | none => l.head?
  else l.head?

/-- Whether the air time of a frame that ends now, air ns long, overlaps a switching window that was open or announced when
the frame began (R213). -/
def airOverlaps (s : State) (l : Link) (air : Nat) : Bool :=
  l.winHeard.any fun w => decide (w.1 + air ≤ s.now ∧ w.2.1 < s.now ∧ s.now < w.2.2 + air)

/-- Whether the port may have sent a frame of this air time: never in DEGRADED or OFF or before it is enabled, on PLC only
with a network or link, and outside switching windows with SWDEFER (R213, R214, R224, R474). -/
def mayTransmit (s : State) (n : Port) (air : Nat) : Bool :=
  let l := s.vp[n].link
  decide (s.sys.mode ≠ .degraded) && portOn s n
    && (decide (l.lstate = .matched) || decide (l.lstate = .linkUp) || (decide (l.lstate = .linkDown) && !isPlc s n))
    && !(l.swdefer && isPlc s n && airOverlaps s l air)

/-- The robust mode of a frame: XR6 for unicast data to an XR6 peer, STD-ROBO for other unicast data, the profile's for
management and group frames; none on a 10BASE-T1S link (R209, R214). -/
def robustOf (s : State) (n : Port) (frame : List Byte) : Option Robust :=
  if !isPlc s n then none
  else if isMmeFrame frame || toGroup frame then some .profile
  else if s.vp[n].link.xr6 then some .xr6 else some .std

/-- FRAME_TRANSMIT_DONE: the next pushed frame, whose air time is air ns, has been sent and its SENT bit is set. -/
def frameSent (n : Port) (air : Nat) (s : State) : State :=
  match nextPush (isPlc s n) s.vp[n].link.pushes with
  | none => s
  | some p =>
    if mayTransmit s n air then
      let r := robustOf s n (slotBytes (s.vp[n].link.slots[p.slot]) p.len)
      s.modLink n fun l =>
        { l with sent := l.sent ||| slotBit p.slot, pushes := l.pushes.filter (fun q => q.slot ≠ p.slot), robust := r,
                 winHeard := l.winHeard.filter fun w => decide (s.now < w.2.2) }
    else s

def execFrameTransmitDone (n : Port) (air : Nat) (s : State) : Host.Outcome State Fault Refusal := live s (frameSent n air)

/-- TX_TIMEOUT: the frame is discarded; FAIL, TXF and TXTMO_CNT. -/
def execTxTimeout (n : Port) (slot : Fin 8) (s : State) : Host.Outcome State Fault Refusal :=
  live s fun s =>
    if s.vp[n].link.pushes.any (fun p => p.slot == slot) then
      s.modLink n fun l => linkEvt 7 { l with pushes := l.pushes.filter (fun q => q.slot ≠ slot),
                                              failB := l.failB ||| slotBit slot, txtmoCnt := satInc l.txtmoCnt }
    else s

/-- LINK_SUPERVISION_TIMEOUT: a 10BASE-T1S link without a valid frame for LSUP × 10 ms is down (R215). -/
def execLinkSupervisionTimeout (n : Port) (s : State) : Host.Outcome State Fault Refusal :=
  live s fun s =>
    if s.vp[n].link.lstate = .linkUp then s.modLink n fun l => linkEvt 4 { l with lstate := .linkDown } else s

/-- VP_LEVT_CLRCNT: VP_LCNT1 to VP_LCNT4 and CNT_SAT are cleared. -/
def levtClrcnt (n : Port) (s : State) : State :=
  (s.modLink n fun l =>
    { l with rxdrop := 0, rxerr := 0, erased := 0, frameLost := 0, mmedrop := 0, txtmoCnt := 0, blankSym := 0,
             deferCnt := 0 }).statsCleared 0x5650 0

def execVpLevtClrcnt (n : Port) (s : State) : Host.Outcome State Fault Refusal := access .vp n.val s (levtClrcnt n)

/-! ### Record engine: keys and queues (R220, R221) -/

/-- Change one direction of a record engine. -/
def modDir (rx : Bool) (f : TlsDir → TlsDir) (t : Tls) : Tls := if rx then { t with rx := f t.rx } else { t with tx := f t.tx }

/-- TLS_KEY_WORD: the word is stored at WORD of the selected direction, and WORD increments. -/
def tlsKeyWord (n : Port) (w : Word) (s : State) : State :=
  s.modTls n fun t =>
    let k := t.selWord.toNat
    let t := if h : k < 19 then modDir t.selDir (fun d => { d with stage := d.stage.set k w }) t else t
    { t with selWord := t.selWord + 1 }

def execTlsKeyWord (n : Port) (w : Word) (s : State) : Host.Outcome State Fault Refusal := access .vp n.val s (tlsKeyWord n w)

/-- Install a direction's staged keys under the suite set, its sequence number zero. -/
def installDir (suite : Nat) (d : TlsDir) : TlsDir :=
  { d with keys := some (suite, d.stage.toList), seq := 0, stopped := false }

def tlsInstall (rx : Bool) (n : Port) (s : State) : State :=
  s.modTls n fun t => modDir rx (installDir t.suite.toNat) t

def execTlsInsttx (n : Port) (s : State) : Host.Outcome State Fault Refusal := access .vp n.val s (tlsInstall false n)
def execTlsInstrx (n : Port) (s : State) : Host.Outcome State Fault Refusal := access .vp n.val s (tlsInstall true n)

/-- TLS_CLEAR: both directions' keys and queues are erased. -/
def tlsClear (n : Port) (s : State) : State :=
  { s with sec.tlsRun := s.sec.tlsRun.filter (· != n) }.modTls n fun t =>
    { t with tx := { TlsDir.reset with stopped := t.tx.stopped }, rx := { TlsDir.reset with stopped := t.rx.stopped } }

def execTlsClear (n : Port) (s : State) : Host.Outcome State Fault Refusal := access .vp n.val s (tlsClear n)

/-- Queue an operation on a direction: depth 3; a full queue or a stopped direction ignores the write and sets TLSF. -/
def tlsQueue (n : Port) (rx : Bool) (ctype : Byte) (len : Nat) (s : State) : State :=
  let t := s.vp[n].tls
  let d := if rx then t.rx else t.tx
  if d.stopped || decide (3 ≤ d.queue.length) then s.modLink n (linkEvt 8)
  else (holdEngine s).modTls n
    (modDir rx fun d => { d with queue := d.queue ++ [{ src := t.src, dst := t.dst, len := len, ctype := ctype }] })

def execTlsProtect (n : Port) (ctype : Byte) (len : BitVec 15) (s : State) : Host.Outcome State Fault Refusal :=
  access .vp n.val s (tlsQueue n false ctype len.toNat)

def execTlsUnprotect (n : Port) (len : BitVec 15) (s : State) : Host.Outcome State Fault Refusal :=
  access .vp n.val s (tlsQueue n true 0 len.toNat)

end Sys2Proof.Machine
end

