-- ==== Sys2Proof/Machine/Caldera.lean ====
section
/-! DEFINITION. What Caldera's functions share (11_power_pool.md to 14_safety_integration.md): its parameters, segments and
groups, quantities formed from tick means, the safety log, the coil-off command, demands and their acceptance. -/

namespace Sys2Proof.Machine

/-! ### Parameters -/

def outA (n : Port) : Nat := 0x20300600 + 0x20 * n.val
def outEn (s : State) (n : Port) : Bool := s.pb (outA n) 31
def isAc (s : State) (n : Port) : Bool := s.pb (outA n) 30
def ppUse (s : State) (n : Port) : Bool := s.pb (outA n) 29

/-- The cable rating that PPCLASS codes, in A. -/
def cableAmps (cls : Nat) : Nat := if cls = 2 then 63 else if cls = 3 then 32 else if cls = 4 then 20 else 13

/-- V_LIM of R267, and I_LIM but for the cable (iLim), from the vehicle's maxima. -/
def setLims (n : Port) (vEv iEv : Nat) (s : State) : State :=
  let vlim := min vEv (s.pf (outA n + 4) 31 16)
  let i := min iEv (s.pf (outA n + 4) 15 0)
  s.modOut n fun o =>
    { o with lims := some (vEv, iEv), vlim := BitVec.ofNat 16 vlim, ilim := BitVec.ofNat 16 i }

/-- The limits formed again after a change of VMAX or IMAX (R267). -/
def formLims (s : State) : State :=
  forAll (fins 8) (fun s n => match (s.safe.out[n]).lims with
    | some l => setLims n l.1 l.2 s
    | none => s) s

/-- I_LIM of R267: with PPUSE it follows the cable that PPCLASS reports. -/
def iLim (s : State) (n : Port) : Nat :=
  let i := (s.safe.out[n]).ilim.toNat
  if ppUse s n then min i (cableAmps s.vp[n].pilot.ppclass.toNat) else i

/-- T_RAMP in ms, 100 to 2,000. -/
def tRampMs (s : State) (n : Port) : Nat := clamp 100 2000 (s.pf (outA n) 10 0)

/-- The channel that serves a quantity: the HR member where the channel belongs to a ranging pair (R268, R491). -/
def tripChan (s : State) (c : ChanId) : ChanId :=
  match (fins 8).find? (fun p => rpEn s p && rpLr s p == c) with
  | some p => rpHr s p
  | none => c

/-- The current channels of an outlet: one, or three phases. -/
def iChans (s : State) (n : Port) : List ChanId :=
  let a := s.pf (outA n + 0x14) 4 0
  (if isAc s n then [a, a + 1, a + 2] else [a]).map fun c => tripChan s (Fin.ofNat 32 c)

/-- The vehicle-side voltage channel, where one is assigned. -/
def vChan (s : State) (n : Port) : Option ChanId :=
  if isAc s n && !s.pb (outA n + 0x18) 15 then none
  else some (tripChan s (Fin.ofNat 32 (s.pf (outA n + 0x14) 14 10)))

/-- The role of a coil pair: 1 outlet contactor, 2 tie, else unused (R225). -/
def role (s : State) (c : Fin 12) : Nat := s.pf (0x20300440 + 4 * c.val) 31 30

/-- Whether a coil pair is enabled. -/
def coilEn (s : State) (c : Fin 12) : Bool := s.pb (0x20300900 + 8 * c.val) 0

def conPort (s : State) (c : Fin 12) : Port := Fin.ofNat 8 (s.pf (0x20300440 + 4 * c.val) 29 27)
def segX (s : State) (c : Fin 12) : Fin 6 := Fin.ofNat 6 (s.pf (0x20300440 + 4 * c.val) 26 24)
def segY (s : State) (c : Fin 12) : Fin 6 := Fin.ofNat 6 (s.pf (0x20300440 + 4 * c.val) 22 20)
def fbIn (s : State) (c : Fin 12) : Fin 16 := Fin.ofNat 16 (s.pf (0x20300440 + 4 * c.val) 19 16)

/-- The outlet contactor of a port. -/
def outletCoil (s : State) (n : Port) : Option (Fin 12) :=
  (fins 12).find? (fun c => role s c == 1 && conPort s c == n)

/-- The segment of a DC outlet; an AC outlet takes part in no pool rule (R225). -/
def outSeg (s : State) (n : Port) : Option (Fin 6) :=
  if isAc s n then none else (outletCoil s n).map (segX s)

/-- Whether a segment is enabled. -/
def segEn (s : State) (g : Fin 6) : Bool := s.pb (0x20300420 + 4 * g.val) 15

def modA (m : Fin 48) : Nat := 0x20300500 + 4 * m.val
def modEn (s : State) (m : Fin 48) : Bool := s.pb (modA m) 31
def modSeg (s : State) (m : Fin 48) : Fin 6 := Fin.ofNat 6 (s.pf (modA m) 26 24)

/-- The port a module is allocated to; 8 and above none. -/
def modPort (s : State) (m : Fin 48) : Nat := s.pf (modA m) 3 0

/-! ### Segments and groups -/

/-- Whether a tie joins its two segments: from its confirmed closing to its confirmed opening, and while a declared weld
holds it in FAULT; after a start it is OPEN as every contactor is (R230, R238). -/
def tieJoins (s : State) (c : Fin 12) : Bool :=
  role s c == 2 && ((s.safe.coil[c]).st == .closed || (s.safe.coil[c]).st == .opening
    || ((s.safe.coil[c]).st == .fault && (s.safe.coil[c]).welded))

def segBit (g : Fin 6) : BitVec 6 := BitVec.ofNat 6 (2 ^ g.val)

/-- One pass of joining segments through ties. -/
def growOnce (s : State) (ties : List (Fin 12)) (m : BitVec 6) : BitVec 6 :=
  ties.foldl (fun m c =>
    if m.getLsbD (segX s c).val || m.getLsbD (segY s c).val then m ||| segBit (segX s c) ||| segBit (segY s c) else m) m

/-- The segments connected to a set through ties; six segments are joined in five passes. -/
def grow (s : State) (ties : List (Fin 12)) (m : BitVec 6) : BitVec 6 :=
  (List.range 5).foldl (fun m _ => growOnce s ties m) m

def joinedTies (s : State) : List (Fin 12) := (fins 12).filter (tieJoins s)

/-- The group of a segment. -/
def groupOf (s : State) (g : Fin 6) : BitVec 6 := grow s (joinedTies s) (segBit g)

/-- The side of a tie: the segments that stay connected to one of its segments when it is open. -/
def sideOf (s : State) (c : Fin 12) (g : Fin 6) : BitVec 6 := grow s ((joinedTies s).filter (· != c)) (segBit g)

/-- The lowest-numbered segment of a group, whose bridge pair is connected (R233, R257). -/
def leader (s : State) (g : Fin 6) : Fin 6 :=
  ((fins 6).find? (fun x => (groupOf s g).getLsbD x.val)).getD g

/-- Whether a contactor connects: closed and not yet confirmed open. -/
def connects (s : State) (c : Fin 12) : Bool := (s.safe.coil[c]).st == .closed || (s.safe.coil[c]).st == .opening

/-- Whether an outlet is closed or closing. -/
def outletLive (s : State) (n : Port) : Bool :=
  match outletCoil s n with
  | some c => (s.safe.coil[c]).st == .closed || (s.safe.coil[c]).st == .closing
  | none => false

/-- Whether an outlet's contactor is not confirmed open. -/
def outletShut (s : State) (n : Port) : Bool :=
  match outletCoil s n with
  | some c => (s.safe.coil[c]).st == .closing || connects s c
  | none => false

/-- The DC outlets of a set of segments. -/
def outletsOf (s : State) (m : BitVec 6) : List Port :=
  (fins 8).filter fun n => match outSeg s n with
    | some g => m.getLsbD g.val
    | none => false

/-! ### Quantities from tick means (R227, R228, R242, R491) -/

def tlScale (s : State) (c : ChanId) : Nat := s.pf (0x20300F00 + 4 * c.val) 23 0

/-- The tick sum of a channel in the last tick. -/
def tickOf (s : State) (c : ChanId) : TickSum := s.safe.tm[c]

/-- Whether a channel was valid in the last tick (R248). -/
def tickValid (s : State) (c : ChanId) : Bool := (tickOf s c).ok && decide (0 < (tickOf s c).n)

/-- The tick mean of a channel in V or A, exact. -/
def tickMean (s : State) (c : ChanId) : Rat :=
  let t := tickOf s c
  if t.n = 0 then 0 else ((t.sum * tlScale s c : Int) : Rat) / ((t.n * 3276800 : Nat) : Rat)

/-- The code of a threshold of num/den V or A on a channel, rounded toward zero (R491). -/
def codeOf (s : State) (c : ChanId) (num den : Nat) : Nat := num * 3276800 / (den * tlScale s c)

/-- Whether the magnitude of a channel's tick mean exceeds a threshold. -/
def magOver (s : State) (c : ChanId) (num den : Nat) : Bool :=
  decide (codeOf s c num den * (tickOf s c).n < (tickOf s c).sum.natAbs)

/-- Whether the magnitude of a channel's tick mean is below a threshold. -/
def magBelow (s : State) (c : ChanId) (num den : Nat) : Bool :=
  decide ((tickOf s c).sum.natAbs < codeOf s c num den * (tickOf s c).n)

def ratAbs (x : Rat) : Rat := if x < 0 then -x else x

/-- A threshold of v volts or amperes as its code on a channel stands for it (R491). -/
def thr (s : State) (c : ChanId) (v : Nat) : Rat := ((codeOf s c v 1 * tlScale s c : Nat) : Rat) / 3276800

/-- The outlet current: the magnitude on the largest phase. -/
def outCur (s : State) (n : Port) : Rat := (iChans s n).foldl (fun a c => max a (ratAbs (tickMean s c))) 0

/-- V_s of R227. -/
def segVolt (s : State) (g : Fin 6) : Rat :=
  tickMean s (Config.bridge g.val true) - tickMean s (Config.bridge g.val false)

/-- Whether both bridge channels of a segment were valid. -/
def bridgeValid (s : State) (g : Fin 6) : Bool :=
  tickValid s (Config.bridge g.val true) && tickValid s (Config.bridge g.val false)

/-- The bus voltage of a segment's group. -/
def groupVolt (s : State) (g : Fin 6) : Rat := segVolt s (leader s g)

/-- The vehicle-side voltage of an outlet. -/
def outVolt (s : State) (n : Port) : Rat :=
  match vChan s n with
  | some c => tickMean s c
  | none => 0

/-- The DC outlets connected to a set of segments. -/
def connected (s : State) (m : BitVec 6) : List Port :=
  (outletsOf s m).filter fun n => match outletCoil s n with
    | some c => connects s c
    | none => false

/-- The outlet current of a set of segments: the sum of the trip-lane currents of the DC outlets connected to it (R227). -/
def sideCur (s : State) (m : BitVec 6) : Rat :=
  (connected s m).foldl (fun a n => (iChans s n).foldl (fun a c => a + tickMean s c) a) 0

/-- A threshold on the outlet current of a set of segments: its code on the first outlet's channel. DEDUCED. -/
def sideThr (s : State) (m : BitVec 6) (v : Nat) : Rat :=
  match ((connected s m).flatMap (iChans s)).head? with
  | some c => thr s c v
  | none => v

/-- The current channel of a tie, where one is assigned (R228). -/
def tieChan (s : State) (c : Fin 12) : Option ChanId :=
  if s.pb (0x20300440 + 4 * c.val) 13 then some (tripChan s (Fin.ofNat 32 (s.pf (0x20300440 + 4 * c.val) 12 8))) else none

def sideX (s : State) (c : Fin 12) : BitVec 6 := sideOf s c (segX s c)
def sideY (s : State) (c : Fin 12) : BitVec 6 := sideOf s c (segY s c)

/-- The magnitude of a tie's current: of its channel, or the smaller of the two sides' outlet currents (R228). -/
def tieCur (s : State) (c : Fin 12) : Rat :=
  match tieChan s c with
  | some x => ratAbs (tickMean s x)
  | none => min (ratAbs (sideCur s (sideX s c))) (ratAbs (sideCur s (sideY s c)))

/-- Whether a tie's current is below v amperes. -/
def tieUnder (s : State) (c : Fin 12) (v : Nat) : Bool :=
  match tieChan s c with
  | some x => magBelow s x v 1
  | none => [sideX s c, sideY s c].any fun m => decide (ratAbs (sideCur s m) < sideThr s m v)

/-- Whether a tie's current exceeds v amperes. -/
def tieOver (s : State) (c : Fin 12) (v : Nat) : Bool :=
  match tieChan s c with
  | some x => magOver s x v 1
  | none => [sideX s c, sideY s c].all fun m => decide (sideThr s m v < ratAbs (sideCur s m))

/-- The across voltage of an open contactor, the voltage of its group, and the channel whose codes stand for their
thresholds (R263). An AC outlet has them where VCHEN assigns its vehicle side a channel. -/
def acrossOf (s : State) (c : Fin 12) : Option (Rat × Rat × ChanId) :=
  let n := conPort s c
  if role s c = 2 then
    let vx := segVolt s (segX s c)
    some (ratAbs (vx - segVolt s (segY s c)), vx, Config.bridge (segX s c).val true)
  else match outSeg s n with
    | some g => some (ratAbs (groupVolt s g - outVolt s n), groupVolt s g, Config.bridge (leader s g).val true)
    | none =>
      if isAc s n then
        (vChan s n).map fun x =>
          let v := Config.acVolt n.val s.safe.tick
          (ratAbs (v - tickMean s x), v, x)
      else none

/-- Whether a contactor carries more than 5 A (R235). -/
def over5 (s : State) (c : Fin 12) : Bool :=
  if role s c = 2 then tieOver s c 5 else (iChans s (conPort s c)).any (fun x => magOver s x 5 1)

/-- Whether an outlet's current is below 5 A on every phase (R259, R260). -/
def below5 (s : State) (n : Port) : Bool := (iChans s n).all (fun x => magBelow s x 5 1)

/-! ### The safety log (R309) -/

/-- The words w0 to w6 of a safety-log entry as bytes. -/
def slogWords (e : SlogEntry) : List Byte :=
  wordsBytes [e.seq, wd e.lt.toNat, wd (e.lt.toNat / 2 ^ 32),
    wd (at_ e.typ.toNat 16 + at_ (b2n e.p) 15 + at_ (b2n e.tv) 14 + e.source.toNat), e.d0, e.d1, wd (at_ e.mode.toNat 28)]

/-- Entries protected now. -/
def slogProt (s : State) : Nat := s.safe.slog.countP (·.prot)

/-- Change the last element that satisfies a test: the oldest of a newest-first list. -/
def modOldest {α : Type} (p : α → Bool) (f : α → α) (l : List α) : List α :=
  let r := l.reverse
  match r.findIdx? p with
  | some i => (r.modify i f).reverse
  | none => l

/-- Remove the last element that satisfies a test. -/
def dropOldest {α : Type} (p : α → Bool) (l : List α) : List α :=
  let r := l.reverse
  match r.findIdx? p with
  | some i => (r.eraseIdx i).reverse
  | none => l

/-- The code of a mode. -/
def Mode.code : Mode → BitVec 4
  | .retain => 0 | .start => 1 | .commission => 2 | .service => 3 | .maintain => 4 | .activate => 5 | .degraded => 6
  | .lockout => 7

/-- Write a safety-log entry. A protected one that finds 128 protected unprotects the oldest of them; a full ring loses
its oldest entry that is not protected. -/
def State.slogPut (s : State) (typ source : Nat) (d0 d1 : Word) (prot : Bool) : State :=
  let e : SlogEntry :=
    { seq := s.safe.slogSeq, lt := BitVec.ofNat 64 (if s.time.lvalid then s.legalMs else s.now / 1000000),
      typ := BitVec.ofNat 16 typ, p := prot, tv := s.time.lvalid, source := BitVec.ofNat 8 source, d0 := d0, d1 := d1,
      mode := s.sys.mode.code, chain := 0, prot := prot, returned := false }
  let ch := wd (crc32c (slogWords e ++ leBytes 4 s.safe.slogChain.toNat))
  let full := prot && decide (128 ≤ slogProt s)
  let old := if full then modOldest (·.prot) (fun e => { e with prot := false }) s.safe.slog else s.safe.slog
  let old := if 1024 ≤ old.length then dropOldest (fun e => !e.prot) old else old
  { s with
    safe.slog := { e with chain := ch } :: old
    safe.slogSeq := s.safe.slogSeq + 1
    safe.slogChain := ch
    safe.protDrop := if full then satInc s.safe.protDrop else s.safe.protDrop }

/-! ### Event flags -/

def State.sfEvt (s : State) (bit : Nat) : State := { s with safe.sfevt := s.safe.sfevt ||| BitVec.ofNat 5 (2 ^ bit) }
def State.poolEvt (s : State) (bit : Nat) : State := { s with safe.poolevt := s.safe.poolevt ||| BitVec.ofNat 5 (2 ^ bit) }
def State.siEvt (s : State) (bit : Nat) : State := { s with safe.sievt := s.safe.sievt ||| BitVec.ofNat 17 (2 ^ bit) }

/-! ### Stop frames (R23) -/

/-- Release the stop frame of a module, if one is loaded, ahead of every queued frame. -/
def releaseModule (m : Fin 48) (s : State) : State :=
  let b : Fin 3 := Fin.ofNat 3 (m.val / 16)
  let e : Fin 16 := Fin.ofNat 16 m.val
  let s := { s with safe.relTick := s.safe.relTick.set (modSeg s m) (some s.safe.tick) }
  if ((s.can[b]).store[e]).isSome then
    s.modCan b fun c => { c with released := c.released ||| BitVec.ofNat 16 (2 ^ e.val) }
  else s

/-- Release the stop frames of every module allocated to a DC outlet. -/
def releaseOutlet (n : Port) (s : State) : State :=
  if isAc s n then s else forAll ((fins 48).filter (fun m => modPort s m == n.val)) (fun s m => releaseModule m s) s

/-! ### Coils (R24, R235, R273, R299) -/

/-- The end of a close request with its final status (R232, R299). -/
def endClose (c : Fin 12) (st : Status) (s : State) : State :=
  let x := s.safe.coil[c]
  let s := { s with safe.q := s.safe.q.filter (· != c) }
  let s := s.modCoil c fun x => { x with ph := .none, run := 0, mbx := false, st := if x.st = .wait then .open_ else x.st }
  if x.mbx then mbxDone .safe st [] s else s

/-- Count an opening under more than 5 A (R235). -/
def countEm (c : Fin 12) (amps : Nat) (s : State) : State :=
  let x := s.safe.coil[c]
  let n := satInc x.emopen
  let s := s.modCoil c fun x => { x with emopen := n }
  let s := (s.poolEvt 2).slogPut 0x0005 c.val (wd amps) (wd n.toNat) false
  let s := if atLimit n && !atLimit x.emopen then s.poolEvt 0 else s
  if !x.limit && decide (s.pf 0x20300410 15 0 ≤ n.toNat) then (s.modCoil c fun x => { x with limit := true }).poolEvt 1
  else s

/-- The current of a contactor in whole amperes. -/
def conAmps (s : State) (c : Fin 12) : Nat :=
  ((if role s c = 2 then tieCur s c else outCur s (conPort s c)).floor).toNat

/-- A reset or a cut: every pair is off, and an opening that was not proven before it is held unproven (R263). -/
def leaveUnproven (s : State) : State :=
  { s with safe.coil := Vector.ofFn fun (c : Fin 12) =>
      let x := s.safe.coil[c]
      { x with drive := .off
               unproven := x.unproven || x.win.isSome || (x.drive != .off && (acrossOf s c).isSome) } }

/-- The coil-off command: both switches turn off, an opening under more than 5 A is counted, and the checks of R262 and
R263 begin. SAFE_OUTSTAT.STOP shows an unannounced opening that is no emergency opening as open. DESIGN CHOICE. -/
def coilOff (c : Fin 12) (emergency : Bool) (s : State) : State :=
  if (s.safe.coil[c]).drive = .off then s
  else
    let heavy := over5 s c
    let s := if heavy then countEm c (conAmps s c) s else s
    let s := endClose c .refused s
    let win : Option WeldWin :=
      if (acrossOf s c).isSome then some { le10 := true, ge60 := true, lo := 0, hi := 0, any := false } else none
    let s := s.modCoil c fun x =>
      { x with drive := .off, st := .opening, cmdTick := s.safe.tick, win := win, fbo := true }
    if role s c = 1 then
      s.modOut (conPort s c) fun o => { o with ramp := none, stop := if !emergency then o.stop else if heavy then 4 else 3 }
    else s

/-- Announce an opening: the coil command follows 1 ms later (R24). -/
def announceOpen (c : Fin 12) (s : State) : State :=
  if (s.safe.coil[c]).drive = .off then s
  else
    let s := announce 0 (s.now + 1000000) (s.modCoil c fun x => { x with ph := .annOpen })
    if role s c = 1 then s.modOut (conPort s c) fun o => { o with ramp := none, stop := 2 } else s

/-! ### Demands (R243 to R247) -/

/-- Whether a stop that ends with the contactors open has not completed (R19, R247). -/
def stopRuns (s : State) (n : Port) : Bool :=
  (s.safe.out[n]).dems.any (·.why == .ends) || s.safe.raises.any (fun r => r.port == n && r.why == .ends)

/-- Whether any demand is active on an outlet or waits for acceptance. -/
def demanded (s : State) (n : Port) : Bool := !(s.safe.out[n]).dems.isEmpty || s.safe.raises.any (·.port == n)

/-- The governing category: the lowest. -/
def govCat (l : List Dem) : Option Nat := (l.map (·.cat)).min?

/-- SAFE_OUTSTAT.CAUSE. -/
def causeBits (l : List Dem) : BitVec 12 := l.foldl (fun a d => a ||| BitVec.ofNat 12 (2 ^ d.cause)) 0

/-- Start the ramp of a safe stop (R258, R259). -/
def startRamp (n : Port) (c : Fin 12) (s : State) : State :=
  let s := releaseOutlet n s
  if below5 s n then announceOpen c s
  else s.modOut n fun o =>
    { o with stop := 1, ramp := some { i0 := (iChans s n).map (fun x => ((tickOf s x).sum, (tickOf s x).n)), k := 0 } }

/-- Act on an outlet by the category that governs (R244). -/
def actStop (n : Port) (c : Fin 12) (cat : Nat) (s : State) : State :=
  let x := s.safe.coil[c]
  match x.st with
  | .wait => endClose c .refused s
  | .closing => coilOff c true s
  | .closed =>
    if cat = 0 || x.drive == .pullIn then coilOff c true s
    else if (s.safe.out[n]).ramp.isSome || x.ph == .annOpen then s else startRamp n c s
  | .open_ => s
  | .opening => s
  | .fault => s

/-- The demands of an outlet that end when its contactors are confirmed open (R247). -/
def endDemands (n : Port) (s : State) : State :=
  s.modOut n fun o => { o with dems := o.dems.filter (fun d => d.why != .ends) }

/-- Whether an outlet's contactor stands open, with no coil on and none planned. -/
def standsOpen (s : State) (n : Port) : Bool :=
  match outletCoil s n with
  | some c => (s.safe.coil[c]).st == .open_ || (s.safe.coil[c]).st == .fault
  | none => true

/-- The sequence of a commit ends with its last operation (R230). -/
def seqCheck (s : State) : State :=
  if s.safe.coil.toList.any (fun x => match x.tie with
    | some t => t.commit
    | none => false) then s
  else { s with safe.seq := false }

/-- A tie close in preparation in a group that a demand concerns is abandoned with TIEFAIL (R238). -/
def dropTies (n : Port) (s : State) : State :=
  match outSeg s n with
  | none => s
  | some g =>
    seqCheck <| forAll (fins 12) (fun (s : State) c =>
      match (s.safe.coil[c]).tie with
      | some t =>
        if !t.open_ && (s.safe.coil[c]).drive == .off
            && ((groupOf s (segX s c)).getLsbD g.val || (groupOf s (segY s c)).getLsbD g.val) then
          (endClose c .refused (s.modCoil c fun x => { x with tie := none })).poolEvt 4
        else s
      | none => s) s

/-- Accept one demand: a stop starts, or a demand of category 0 comes, and the outlet's stop frames are released (R23, R261).
A demand that ends with the contactors open ends at once where they are open. -/
def accept (r : Raise) (s : State) : State :=
  let n := r.port
  let fresh := (s.safe.out[n]).dems.isEmpty
  let s := s.modOut n fun o => { o with dems := o.dems ++ [{ cat := r.cat, cause := r.cause, why := r.why }] }
  let s := (s.sfEvt 0).slogPut 0x0004 n.val (wd r.cat) (wd (causeBits (s.safe.out[n]).dems).toNat) false
  let s := s.modSess n fun x => if x.state = .running ∧ x.reason = none then { x with reason := some r.reason } else x
  let s := if fresh || r.cat == 0 then releaseOutlet n s else s
  let s := match outletCoil s n with
    | some c => actStop n c ((govCat (s.safe.out[n]).dems).getD r.cat) s
    | none => s
  let s := dropTies n s
  if standsOpen s n then endDemands n s else s

/-- Accept every demand that was raised, in the order raised (R242 step 5). -/
def acceptAll (s : State) : State :=
  let l := s.safe.raises
  forAll l (fun s r => accept r s) { s with safe.raises := [] }

/-- The pilot of an outlet is held in F by a demand from a pilot fault until re-armed (R189, R270). -/
def pilotHold (n : Port) (on : Bool) (s : State) : State :=
  let s := s.modPilot n fun p => { p with demandF := on }
  if on then imposeOverride s n else s

end Sys2Proof.Machine
end

