-- ==== Sys2Proof/Machine/CanBus.lean ====
section
/-! DEFINITION. The three CAN FD controllers (R439 to R443, R236) and the GPIO edges (R447). -/

namespace Sys2Proof.Machine

/-- The number of data bytes that a DLC spells; a classical frame carries at most 8. -/
def dlcLen (fdf : Bool) (dlc : Nat) : Nat :=
  if dlc ≤ 8 then dlc
  else if !fdf then 8
  else match dlc with
    | 9 => 12 | 10 => 16 | 11 => 20 | 12 => 24 | 13 => 32 | 14 => 48 | _ => 64

/-- The receive record of a frame (R440). Remote frames carry no data. -/
def canRecord (f : CanFrame) (ts fseq : Word) : List Byte :=
  let id := if f.ide then f.id.toNat else f.id.toNat % 2048
  let rtr := f.rtr && !f.fdf
  let n := if rtr then 0 else dlcLen f.fdf f.dlc.toNat
  wordsBytes [wd (at_ (b2n f.ide) 31 + at_ (b2n f.fdf) 30 + at_ (b2n (f.brs && f.fdf)) 29 + id),
      wd (at_ f.dlc.toNat 28 + at_ (b2n f.esi) 26 + at_ (b2n rtr) 25), ts, fseq]
    ++ fit 64 (f.data.take n)

/-- CAN_FRAME_RECEIVE: a frame on the bus becomes a record, or counts in RXDROP when eight wait. A controller that is off
the bus, or that does not allow FD frames, takes none. -/
def canReceive (b : Fin 3) (f : CanFrame) (s : State) : State :=
  let c := s.can[b]
  if !c.en || c.state == CanState.busOff || (f.fdf && !c.fden) then s
  else if 8 ≤ c.rxFifo.length then s.modCan b fun c => { c with rxdrop := satInc c.rxdrop }
  else
    let n := c.rxfrm + 1
    s.modCan b fun c => { c with rxfrm := n, rxFifo := c.rxFifo ++ [canRecord f s.tshort n] }

def execCanFrameReceive (b : Fin 3) (f : CanFrame) (s : State) : Host.Outcome State Fault Refusal := live s (canReceive b f)

/-- The stop frame that goes next: of the released entries that hold one, the lowest. -/
def nextStop (c : Can) : Option (Fin 16) := (fins 16).find? fun e => c.released.getLsbD e.val && (c.store[e]).isSome

/-- The record that the controller transmits next, with its entry when it is a stop frame (R441). -/
def canNext (c : Can) : Option (Option (Fin 16) × List Byte) :=
  match nextStop c with
  | some e => (c.store[e]).map fun r => (some e, r)
  | none => c.txq.head?.map fun r => (none, r)

/-- Whether a transmit record is an FD frame, and whether it is a switching frame. -/
def recFdf (r : List Byte) : Bool := (leAt r 0 4).testBit 30
def recSw (r : List Byte) : Bool := (leAt r 4 4).testBit 27

/-- The frame that a transmit record sends: its header, and its data cut to the length that DLC spells (R440). An error
passive controller sends ESI. PRESUMED; log entry 251. -/
def canFrame (st : CanState) (r : List Byte) : CanFrame :=
  let w0 := leAt r 0 4
  let w1 := leAt r 4 4
  let ide := w0.testBit 31
  let fdf := recFdf r
  let rtr := w1.testBit 25 && !fdf
  { ide := ide, fdf := fdf, brs := fdf && w0.testBit 29, esi := fdf && st == .passive, rtr := rtr
    id := BitVec.ofNat 29 (bitsOf w0 (if ide then 28 else 10) 0)
    dlc := BitVec.ofNat 4 (bitsOf w1 31 28)
    data := if rtr then [] else (r.drop 16).take (dlcLen fdf (bitsOf w1 31 28)) }

/-- CAN_FRAME_TRANSMIT: one transmission of the next frame; sent says whether it succeeded. A switching frame is announced
at its start (R24, R441). -/
def canTransmit (b : Fin 3) (sent : Bool) (s : State) : State :=
  let c := s.can[b]
  match canNext c with
  | none => s
  | some (e, r) =>
    if !c.en || c.state == CanState.busOff || (recFdf r && !c.fden) then s
    else
      let s := if recSw r then announce (Fin.ofNat 4 (b.val + 1)) s.now s else s
      if !sent then s
      else
        let s := s.modCan b fun c => { c with txfrm := c.txfrm + 1, line := some (canFrame c.state r) }
        match e with
        | some e => s.modCan b fun c => { c with released := c.released &&& ~~~(BitVec.ofNat 16 (2 ^ e.val)) }
        | none => s.modCan b fun c => canFill { c with txq := c.txq.tail }

/-- After the power-fail save the controllers still send the stop frames that its step 2 released (R59). -/
def execCanFrameTransmit (b : Fin 3) (sent : Bool) (s : State) : Host.Outcome State Fault Refusal :=
  if s.sys.power = .held ∧ (nextStop s.can[b]).isSome then .next (canTransmit b sent s) else live s (canTransmit b sent)

/-- CAN_TX_TIMEOUT: the queued frame under transmission has not been sent within TXTMO: it is discarded (R441). -/
def canTimeout (b : Fin 3) (s : State) : State :=
  if (s.can[b]).txq.isEmpty then s
  else (s.modCan b fun c => canFill { c with txq := c.txq.tail, txtmoCnt := satInc c.txtmoCnt }).raise (151 + 3 * b.val)

def execCanTxTimeout (b : Fin 3) (s : State) : Host.Outcome State Fault Refusal := live s (canTimeout b)

/-- The module of a stop-frame entry. -/
def entryMod (b : Fin 3) (e : Fin 16) : Fin 48 := Fin.ofNat 48 (16 * b.val + e.val)

/-- Whether the module of an entry is allocated in SAFE_MOD. -/
def entryAlloc (s : State) (b : Fin 3) (e : Fin 16) : Bool := decide (modPort s (entryMod b e) < 8)

/-- CAN_SF_LOAD: CAN_SFBUF becomes the entry's frame; refused with SFREF while its module is allocated (R442). -/
def sfLoad (b : Fin 3) (e : Fin 16) (s : State) : State :=
  if entryAlloc s b e then s.modCan b fun c => { c with sfref := true }
  else s.modCan b fun c => { c with store := c.store.set e (some c.sfbuf) }

/-- CAN_SF_CLEAR: the entry is emptied, and a stop frame that still waits to be sent goes with it. -/
def sfClear (b : Fin 3) (e : Fin 16) (s : State) : State :=
  if entryAlloc s b e then s.modCan b fun c => { c with sfref := true }
  else s.modCan b fun c =>
    { c with store := c.store.set e none, released := c.released &&& ~~~(BitVec.ofNat 16 (2 ^ e.val)) }

/-- A write of ENTRY with LOAD or CLEAR. -/
def sfEntry (b : Fin 3) (e : Fin 16) (s : State) : State := s.modCan b fun c => { c with sfEntry := BitVec.ofNat 4 e.val }

def execCanSfLoad (b : Fin 3) (e : Fin 16) (s : State) : Host.Outcome State Fault Refusal :=
  access .can b.val s fun s => sfLoad b e (sfEntry b e s)

def execCanSfClear (b : Fin 3) (e : Fin 16) (s : State) : Host.Outcome State Fault Refusal :=
  access .can b.val s fun s => sfClear b e (sfEntry b e s)

/-- CAN_RECOV: starts the recovery of a controller that is bus-off and does not recover by itself (R443). -/
def canRecov (b : Fin 3) (s : State) : State :=
  s.modCan b fun c => if c.state = .busOff ∧ !c.arecov then { c with recovering := true } else c

def execCanRecov (b : Fin 3) (s : State) : Host.Outcome State Fault Refusal := access .can b.val s (canRecov b)

/-- A controller's error state changes: its error source is raised. -/
def canState (b : Fin 3) (st : CanState) (s : State) : State :=
  if (s.can[b]).state = st then s else (s.modCan b fun c => { c with state := st }).raise (152 + 3 * b.val)

/-- CAN_BUSOFF_RECOVERED: 128 × 11 recessive bits have passed; queued frames and stop frames are kept. -/
def canRecovered (b : Fin 3) (s : State) : State :=
  let c := s.can[b]
  if c.state = .busOff ∧ (c.arecov || c.recovering) then
    canState b .active (s.modCan b fun c => { c with recovering := false, tec := 0, rec_ := 0 })
  else s

def execCanBusoffRecovered (b : Fin 3) (s : State) : Host.Outcome State Fault Refusal := live s (canRecovered b)

/-- CAN_ERROR_STATE_CHANGE: new error counters short of bus-off; error passive from 128. -/
def canErrors (b : Fin 3) (tec rcc : Byte) (s : State) : State :=
  let c := s.can[b]
  if !c.en || c.state == CanState.busOff then s
  else canState b (if 128 ≤ tec.toNat ∨ 128 ≤ rcc.toNat then .passive else .active)
    (s.modCan b fun c => { c with tec := tec, rec_ := rcc })

def execCanErrorStateChange (b : Fin 3) (tec rcc : Byte) (s : State) : Host.Outcome State Fault Refusal :=
  live s (canErrors b tec rcc)

/-- The closed outlets that an allocated module of a bus serves. -/
def busOutlets (s : State) (b : Fin 3) : List Port :=
  (fins 8).filter fun n => outletLive s n && (fins 16).any fun e => modPort s (entryMod b e) == n.val

/-- CAN_BUS_OFF: STATE 2, and a safe stop of every closed outlet with an allocated module on the bus (R236, R443). -/
def canBusOff (b : Fin 3) (s : State) : State :=
  if !(s.can[b]).en || (s.can[b]).state == CanState.busOff then s
  else
    let s := canState b .busOff (s.modCan b fun c => { c with busoffCnt := satInc c.busoffCnt, recovering := false })
    let l := busOutlets s b
    let s := forAll l (fun (s : State) n => s.demand n 1 12 0x03) s
    if l.isEmpty then s else s.poolEvt 3

def execCanBusOff (b : Fin 3) (s : State) : Host.Outcome State Fault Refusal := live s (canBusOff b)

/-- CAN_CLRCNT: TXTMO_CNT, BUSOFF_CNT and RXDROP, and so CNT_SAT, clear (R422). -/
def canClrcnt (b : Fin 3) (s : State) : State :=
  (s.modCan b fun c => { c with txtmoCnt := 0, busoffCnt := 0, rxdrop := 0 }).statsCleared 0x4346 0

def execCanClrcnt (b : Fin 3) (s : State) : Host.Outcome State Fault Refusal := access .can b.val s (canClrcnt b)

/-! ### GPIO (R447) -/

/-- Bits of EVT for the pins whose level changes from one byte to another, with a configured edge. -/
def gpioEdges (g : Gpio) (a b : Byte) : Byte :=
  BitVec.ofNat 8 (((fins 8).map fun n =>
    let e := bitsOf g.irqcfg.toNat (2 * n.val + 1) (2 * n.val)
    let rise := !a.getLsbD n.val && b.getLsbD n.val
    let fall := a.getLsbD n.val && !b.getLsbD n.val
    if (rise && e % 2 == 1) || (fall && decide (2 ≤ e)) then 2 ^ n.val else 0).sum)

/-- The owner of a pin: 0 GPIO, 1 keypad, 2 fabric (GPIO_OWN, R330, R444). -/
def gpOwner (s : State) (n : Fin 8) : Nat :=
  if s.sys.straps.getLsbD 1 then 1 else if (ballOwner s (40 + n.val)).isSome then 2 else 0

/-- The level at every pin: what GPIO drives where it owns an output, else what the outside or another owner drives. -/
def gpioLevels (s : State) : Byte :=
  BitVec.ofNat 8 (((fins 8).map fun n =>
    if gpOwner s n = 0 ∧ s.gpio.dir.getLsbD n.val then at_ (b2n (s.gpio.out.getLsbD n.val)) n.val
    else at_ (b2n (s.gpio.inp.getLsbD n.val)) n.val).sum)

/-- A change of what drives the pins, with its edges. -/
def gpioSet (f : Gpio → Gpio) (s : State) : State :=
  let t := { s with gpio := f s.gpio }
  { t with gpio.evt := t.gpio.evt ||| gpioEdges t.gpio (gpioLevels s) (gpioLevels t) }

/-- GPIO_EDGE: the level at a pin from outside, or from the fabric. Source 7 is EVT's level. -/
def execGpioEdge (n : Fin 8) (v : Bool) (s : State) : Host.Outcome State Fault Refusal :=
  live s (gpioSet fun g => { g with
    inp := if v then g.inp ||| BitVec.ofNat 8 (2 ^ n.val) else g.inp &&& ~~~(BitVec.ofNat 8 (2 ^ n.val)) })

end Sys2Proof.Machine
end

