-- ==== Sys2Proof/Machine/LoadSw.lean ====
section
/-! DEFINITION. Protected load switches (15_protected_load_switches.md, R312 to R328) and the shedding of the supply budget
(R53). -/

namespace Sys2Proof.Machine

def ldA (n : Fin 10) : Nat := 0x200A0100 + 0x20 * n.val
/-- Whether only Caldera drives a channel: its CALD bit, or an enabled segment's LDCH that names it (R253). -/
def ldCald (s : State) (n : Fin 10) : Bool :=
  s.pb (ldA n) 29
    || (fins 6).any fun g => s.pb (0x20300420 + 4 * g.val) 15 && s.pf (0x20300800 + 0x10 * g.val + 4) 3 0 == n.val
def ldRestart (s : State) (n : Fin 10) : Bool := s.pb (ldA n) 28
def ldRetry (s : State) (n : Fin 10) : Nat := s.pf (ldA n) 27 24
def ldPri (s : State) (n : Fin 10) : Nat := s.pf (ldA n) 15 12

/-- Caldera's command to a bridge driver: on while a segment whose driver it is switches it in (R253). -/
def bridgeCmd (s : State) (n : Fin 10) : Bool :=
  (fins 6).any fun g => s.pb (0x20300420 + 4 * g.val) 15 && s.pf (0x20300800 + 0x10 * g.val + 4) 3 0 == n.val
    && (s.safe.imd[g]).active && (s.safe.imd[g]).on

/-- Whether the front light is held off (R182). -/
def ldHeld (s : State) (n : Fin 10) : Bool := !s.disp.flPermit && s.pf 0x20280018 19 16 == n.val

/-- Whether fail-safe is in force (R314 row 6). -/
def failSafe (s : State) : Bool :=
  s.sys.mode == .start || s.sys.mode == .activate || s.sys.mode == .degraded || s.sys.mode == .lockout || s.load.forced

/-- What a state code of CMD or FS asks for: on or pulsing, or off. -/
def asksOn (c : BitVec 2) : Bool := c == 1 || c == 2

/-- What rows 3 to 7 of R314 ask of a channel, without its thermal state and without shedding. -/
def ldAsked (s : State) (n : Fin 10) : Bool :=
  if ldCald s n then bridgeCmd s n
  else if ldHeld s n then false
  else if failSafe s then asksOn (s.load.ch[n]).fs
  else asksOn (s.load.ch[n]).cmd

/-- The effective state of a channel, on or pulsing against off (R314). -/
def ldEff (s : State) (n : Fin 10) : Bool :=
  s.sys.power == .running && !(s.load.ch[n]).tsd && !(s.load.ch[n]).latch
    && (ldCald s n || !(s.load.ch[n]).shed) && ldAsked s n

/-! ### Pulse generators (R324) -/

def genA (g : Fin 2) : Nat := 0x200A0020 + 4 * g.val
def genEn (s : State) (g : Fin 2) : Bool := s.pb (genA g) 31
def genPer (s : State) (g : Fin 2) : Nat := clamp 1000 1562500 (s.pf (genA g) 20 0)

/-- PGSEL, PHASE and DUTY of a channel's registers take effect. -/
def takePulse (s : State) (n : Fin 10) (c : LoadCh) : LoadCh :=
  { c with pg := Fin.ofNat 2 (s.pf (ldA n + 4) 9 9), phase := BitVec.ofNat 8 (s.pf (ldA n + 4) 23 16)
           duty := BitVec.ofNat 9 (min 256 (s.pf (ldA n + 4) 8 0)) }

/-- A period of a generator starts: PER takes effect, and the changes of its channels with it. -/
def genPeriod (g : Fin 2) (start : BitVec 64) (s : State) : State :=
  let s := { s with load.gen := s.load.gen.set g { on := true, start := start, per := genPer s g } }
  forAll (fins 10) (fun (s : State) n => s.modLoad n fun c => if c.pg = g then takePulse s n c else c) s

/-- The generators after a write of their registers or the channels', or after a load: each runs when its EN is set, from a
period start; the changes of a channel whose generator does not run take effect at once. -/
def genSync (s : State) : State :=
  let s := forAll (fins 2) (fun (s : State) g =>
    let x := s.load.gen[g]
    if genEn s g = x.on then s
    else if genEn s g then genPeriod g s.time.sysNs s
    else { s with load.gen := s.load.gen.set g { x with on := false } }) s
  forAll (fins 10) (fun (s : State) n =>
    s.modLoad n fun c => if (s.load.gen[c.pg]).on then c else takePulse s n c) s

/-- Whether a pulsing channel's ball is on at this instant: within its generator's period from floor(PHASE × P / 256) up to
floor((PHASE + DUTY) × P / 256), modulo P, with the journaled FSDUTY for DUTY under fail-safe (R315). -/
def pulseLevel (s : State) (n : Fin 10) : Bool :=
  let c := s.load.ch[n]
  let x := s.load.gen[c.pg]
  let p := x.per
  let duty := if failSafe s then c.fsduty.toNat else c.duty.toNat
  let lo := c.phase.toNat * p / 256
  let hi := (c.phase.toNat + duty) * p / 256
  let t := (s.now - x.start.toNat) / 40 % p
  x.on && ((decide (lo ≤ t) && decide (t < hi)) || decide (t + p < hi))

/-- The level of a channel's ball (R314, R324). -/
def ldBall (s : State) (n : Fin 10) : Bool :=
  let c := s.load.ch[n]
  let code := if failSafe s then c.fs else c.cmd
  c.on && (ldCald s n || code == 1 || pulseLevel s n)

/-- The inrush window opens at the first pulse after the channel was off (R317). -/
def openWindow (n : Fin 10) (s : State) : State :=
  if (s.load.ch[n]).await && ldBall s n then s.modLoad n fun c => { c with inrush := true, await := false } else s

/-- What a period of the reference brings: period starts of the generators, and first pulses. -/
def pulseStep (s : State) : State :=
  let s := forAll (fins 2) (fun (s : State) g =>
    let x := s.load.gen[g]
    if x.on ∧ x.start.toNat + 40 * x.per ≤ s.now then genPeriod g (x.start + BitVec.ofNat 64 (40 * x.per)) s else s) s
  forAll (fins 10) (fun s n => openWindow n s) s

/-! ### Effective states -/

/-- A channel turns on. -/
def turnOn (c : LoadCh) : LoadCh := { c with on := true, await := true, defer := .none }

/-- A channel turns off. -/
def turnOff (c : LoadCh) : LoadCh := { c with on := false, inrush := false, ilim := false, await := false }

/-- A channel brought to an effective state; under UVHOLD a turn-on is deferred, and what is deferred keeps its turn, a clear
with the turn-on that it brings (R321). -/
def turnTo (uvhold e : Bool) (c : LoadCh) : LoadCh :=
  if e = c.on then (if c.defer = .turnOn ∧ !e then { c with defer := .none } else c)
  else if e then (if c.defer ≠ .none then c else if uvhold then { c with defer := .turnOn } else turnOn c)
  else { turnOff c with defer := if c.defer = .turnOn then .none else c.defer }

/-- Bring one channel to its effective state, and open its inrush window where its ball is on. -/
def loadOne (s : State) (n : Fin 10) : State := openWindow n (s.modLoad n (turnTo s.load.uvhold (ldEff s n)))

/-- Bring every channel to its effective state, as after a change of mode, command or hold. -/
def loadAll (s : State) : State := forAll (fins 10) loadOne s

/-- The channel that a field names, if there is one. -/
def loadAt (c : Nat) (s : State) : State := if h : c < 10 then loadOne s ⟨c, h⟩ else s

/-- Set an event bit of a channel. -/
def ldEvt (bit : Nat) (c : LoadCh) : LoadCh := { c with evt := c.evt ||| BitVec.ofNat 4 (2 ^ bit) }

/-- Shed one channel. -/
def shedCh (n : Fin 10) (s : State) : State :=
  loadOne ({ s with sys.shed := true }.modLoad n fun c => ldEvt 0 { c with shed := true }) n

/-- The channel to shed: on, not a Caldera channel, of the lowest priority, and of those the highest number (R328). -/
def shedPick (s : State) : Option (Fin 10) :=
  (fins 10).foldl (fun (b : Option (Fin 10)) n =>
    if (s.load.ch[n]).on && !ldCald s n then
      match b with
      | none => some n
      | some m => if ldPri s n ≤ ldPri s m then some n else some m
    else b) none

/-- Shed the lowest-priority channel that is on. -/
def shedOne (s : State) : State :=
  match shedPick s with
  | some n => shedCh n s
  | none => s

/-- The VSUP current that the pull-ins in progress may add, in mA: those granted and announced count with those that run
(R54). -/
def pullInsMa (s : State) : Nat := 2500 * (s.safe.coil.toList.countP fun x => x.drive == .pullIn || x.ph == .annClose)

/-- Whether the budget has room for one more pull-in (R54). -/
def grantFits (s : State) : Bool := decide (s.sys.imeas.toNat + pullInsMa s + 2500 ≤ s.sys.limit.toNat)

/-- BUDGET_SHED: the new 10 ms average. From the first average that exceeds LIMIT until one falls below it, and while a
waiting pull-in does not fit, one channel is shed (R53, R54). -/
def budgetShed (avg : BitVec 16) (s : State) : State :=
  let lim := s.sys.limit.toNat
  let s := { s with
    sys.imeas := avg
    sys.shedding := decide (lim < avg.toNat) || (s.sys.shedding && !decide (avg.toNat < lim)) }
  if s.sys.shedding || (!s.safe.q.isEmpty && !grantFits s) then shedOne s else s

def execBudgetShed (avg : BitVec 16) (s : State) : Host.Outcome State Fault Refusal := live s (budgetShed avg)

/-- SHED_REENABLE: under fail-safe the shed channel of the highest priority comes back (R328). -/
def shedReenable (s : State) : State :=
  if failSafe s && decide (s.sys.imeas.toNat + 500 < s.sys.limit.toNat) then
    let best := (fins 10).foldl (fun (b : Option (Fin 10)) n =>
      if (s.load.ch[n]).shed then
        match b with
        | none => some n
        | some m => if ldPri s m < ldPri s n then some n else some m
      else b) none
    match best with
    | some n => loadOne (s.modLoad n fun c => { c with shed := false }) n
    | none => s
  else s

def execShedReenable (s : State) : Host.Outcome State Fault Refusal := live s shedReenable

/-- A channel that host firmware switches on while the average exceeds LIMIT − 500 mA is shed again at once (R53); was says
whether it was on before. -/
def shedAgain (n : Fin 10) (was : Bool) (s : State) : State :=
  if !was && (s.load.ch[n]).on && !ldCald s n && !failSafe s && decide (s.sys.limit.toNat < s.sys.imeas.toNat + 500) then
    shedCh n s
  else s

/-- LOAD_CMD_WRITE: without effect on a bridge driver (R253); else the command is kept; under host control it ends a
shedding (R53, R316). -/
def loadCmd (n : Fin 10) (cmd : BitVec 2) (s : State) : State :=
  if ldCald s n then s
  else
    let was := (s.load.ch[n]).on
    let s := s.modLoad n fun c => { c with cmd := if cmd = 3 then 0 else cmd, shed := if failSafe s then c.shed else false }
    shedAgain n was (loadOne s n)

def execLoadCmdWrite (n : Fin 10) (cmd : BitVec 2) (s : State) : Host.Outcome State Fault Refusal := access .load 0 s (loadCmd n cmd)

/-- LOAD_CLRLATCH: LATCH, TSD and RCNT clear together when the channel has cooled; else CLRREF, a Caldera channel's too
(R320). cool says whether the channel meets the temperature conditions of R319. -/
def loadClrLatch (n : Fin 10) (cool : Bool) (s : State) : State :=
  if !cool then s.modLoad n fun c => { c with clrref := true }
  else if s.load.uvhold then s.modLoad n fun c => { c with defer := .clear }
  else loadOne (s.modLoad n fun c => { c with latch := false, tsd := false, rcnt := 0, defer := .none }) n

def execLoadClrlatch (n : Fin 10) (cool : Bool) (s : State) : Host.Outcome State Fault Refusal := access .load 0 s (loadClrLatch n cool)

/-- LOAD_THERMAL_EVENT: the channel turns off; it latches, or awaits its restart (R319). -/
def loadThermal (n : Fin 10) (guard : Bool) (temp : BitVec 16) (s : State) : State :=
  let stop := !ldRestart s n || decide (ldRetry s n ≤ (s.load.ch[n]).rcnt.toNat)
  s.modLoad n fun c =>
    let c := ldEvt 2 { turnOff c with tsd := true, dtg := guard, temp := temp, tsdCnt := satInc c.tsdCnt }
    if stop then ldEvt 3 { c with latch := true } else c

def execLoadThermalEvent (n : Fin 10) (guard : Bool) (temp : BitVec 16) (s : State) : Host.Outcome State Fault Refusal :=
  live s (loadThermal n guard temp)

/-- LOAD_CHANNEL_RESTART: the channel has cooled and RDLY has passed. A channel that is asked on restarts; else TSD
clears alone (R319). -/
def loadRestart (n : Fin 10) (s : State) : State :=
  let c := s.load.ch[n]
  if c.tsd && !c.latch then
    if ldAsked s n && (ldCald s n || !c.shed) then
      if s.load.uvhold then s.modLoad n fun c => { c with defer := if c.defer = .clear then .clear else .restart }
      else loadOne (s.modLoad n fun c => { c with tsd := false, rcnt := c.rcnt + 1 }) n
    else s.modLoad n fun c => { c with tsd := false }
  else s

def execLoadChannelRestart (n : Fin 10) (s : State) : Host.Outcome State Fault Refusal := live s (loadRestart n)

/-- LOAD_ILIM_ENTRY: the current reaches its limit (R317). -/
def execLoadIlimEntry (n : Fin 10) (s : State) : Host.Outcome State Fault Refusal :=
  live s fun s => s.modLoad n fun c =>
    if c.on && !c.ilim then ldEvt 1 { c with ilim := true, ilimCnt := satInc c.ilimCnt } else c

def execLoadIlimExit (n : Fin 10) (s : State) : Host.Outcome State Fault Refusal :=
  live s fun s => s.modLoad n fun c => { c with ilim := false }

/-- INRUSH_WINDOW_END: the limit becomes 3.5 A. -/
def execInrushWindowEnd (n : Fin 10) (s : State) : Host.Outcome State Fault Refusal :=
  live s fun s => s.modLoad n fun c => { c with inrush := false }

/-- UVHOLD_SET and UVHOLD_CLEAR (R321). Source 123 is UVHOLD's level. -/
def execUvholdSet (s : State) : Host.Outcome State Fault Refusal :=
  live s fun s => { s with load.uvhold := true }

def execUvholdClear (s : State) : Host.Outcome State Fault Refusal := live s fun s => { s with load.uvhold := false }

/-- DEFERRED_TURN_ON: the lowest channel whose turn-on, restart or clear was deferred takes it (R321). -/
def deferredTurnOn (s : State) : State :=
  if s.load.uvhold then s
  else match (fins 10).find? (fun n => (s.load.ch[n]).defer != .none) with
    | none => s
    | some n =>
      let d := (s.load.ch[n]).defer
      let s := s.modLoad n fun c => { c with defer := .none }
      match d with
      | .none => s
      | .turnOn => shedAgain n (s.load.ch[n]).on (loadOne s n)
      | .restart => loadRestart n s
      | .clear => loadClrLatch n true s

def execDeferredTurnOn (s : State) : Host.Outcome State Fault Refusal := live s deferredTurnOn

/-- LOAD_SENSESEL_WRITE: 10 to 15 act as 9 (R322). -/
def loadSense (ch : BitVec 4) (s : State) : State := { s with load.sense := if 9 < ch.toNat then 9 else ch }

def execLoadSenseselWrite (ch : BitVec 4) (s : State) : Host.Outcome State Fault Refusal := access .load 0 s (loadSense ch)

/-- SENSETEST (R323). -/
def senseTest (s : State) : State := { s with load.test := true }

def execSensetest (s : State) : Host.Outcome State Fault Refusal := access .load 0 s senseTest
def execSensetestEnd (s : State) : Host.Outcome State Fault Refusal := live s fun s => { s with load.test := false }

/-- The mirror current in 0.01 µA of a channel current in mA: its 2,000th part, saturating at 2.5 mA (R322). -/
def mirrorOf (ma : Nat) : Nat := min 250000 (50 * ma)

/-- The current that LSENSE sources, in 0.01 µA, when each channel whose ball is on carries a current given in mA: 3.0 mA in
the three cases of R323, else the mirror of the selected channel; nothing without supply (R475). -/
def lsense (ma : Fin 10 → Nat) (s : State) : Nat :=
  let n := Fin.ofNat 10 s.load.sense.toNat
  let c := s.load.ch[n]
  let awaits := c.tsd && !c.latch && ldAsked s n && (ldCald s n || !c.shed)
  if s.sys.power != .running then 0
  else if s.load.test || (c.inrush && c.ilim) || awaits then 300000
  else if ldBall s n then mirrorOf (ma n) else 0

/-! ### Serial watchdog (R326, R327) -/

/-- LOAD_WDOG_START: the watchdog runs until the next reset. -/
def loadWdStart (s : State) : State := if s.load.wdEn then s else { s with load.wdEn := true, load.wdLast := s.time.sysNs }

def execLoadWdogStart (s : State) : Host.Outcome State Fault Refusal := access .load 0 s loadWdStart

/-- The expiry of the watchdog: FORCED, the cause, the count, and the channels' fail-safe states. -/
def loadWdExpire (cause : BitVec 2) (s : State) : State :=
  loadAll ({ s with load.forced := true, load.cause := cause, load.wdexp := satInc s.load.wdexp, load.good := 0,
                    load.wdLast := s.time.sysNs }.raise 122)

/-- The next challenge. -/
def nextChal (c : BitVec 16) : BitVec 16 := if c.getLsbD 0 then (c >>> 1) ^^^ 0xB400 else c >>> 1

/-- LOAD_WDOG_SERVICE: early, past CLOSE, wrong, or correct. -/
def loadService (resp : BitVec 16) (s : State) : State :=
  if !s.load.wdEn then s
  else if s.now < s.load.wdLast.toNat + 1000000 * s.load.wdOpen.toNat then loadWdExpire 1 s
  else if s.load.wdLast.toNat + 1000000 * s.load.wdClose.toNat < s.now then loadWdExpire 3 s
  else if resp = s.load.chal ^^^ 0xFFFF then
    { s with load.chal := nextChal s.load.chal, load.wdLast := s.time.sysNs,
             load.good := if s.load.good.toNat < 2 then s.load.good + 1 else 2 }
  else loadWdExpire 2 s

def execLoadWdogService (resp : BitVec 16) (s : State) : Host.Outcome State Fault Refusal := access .load 0 s (loadService resp)

/-- LOAD_WDOG_LATE: CLOSE ms without a correct service. -/
def execLoadWdogLate (s : State) : Host.Outcome State Fault Refusal :=
  live s fun s => if s.load.wdEn then loadWdExpire 3 s else s

/-- LOAD_WDREL: FORCED clears after two consecutive correct services. -/
def loadWdrel (s : State) : State := if s.load.forced && s.load.good == 2 then loadAll { s with load.forced := false } else s

def execLoadWdrel (s : State) : Host.Outcome State Fault Refusal := access .load 0 s loadWdrel

/-- LOAD_CLRCNT: TSD_CNT, ILIM_CNT and WDEXP_CNT clear (R422). -/
def loadClrcnt (s : State) : State :=
  (forAll (fins 10) (fun (s : State) n => s.modLoad n fun c => { c with tsdCnt := 0, ilimCnt := 0 })
    { s with load.wdexp := 0 }).statsCleared 0x4C44 0

def execLoadClrcnt (s : State) : Host.Outcome State Fault Refusal := access .load 0 s loadClrcnt

end Sys2Proof.Machine
end

