-- ==== Sys2Proof/Machine/Mem.lean ====
section
/-! DEFINITION. The addressed memories: application SRAM and NOR flash as lists of cells in canonical form (R428, R394),
and the reads of the application map. -/

namespace Sys2Proof.Machine

/-! ### Cells in canonical form: addresses strictly rising, and no cell equal to what an unlisted address reads as -/

/-- What a byte of application SRAM that nothing has written reads as. DESIGN CHOICE: the spec gives none. -/
def sramBlank : Byte := 0x00

/-- What an erased byte of NOR flash reads as, and one that nothing has written. DESIGN CHOICE: the spec gives neither. -/
def norBlank : Byte := 0xFF

/-- The canonical form of a memory with blank byte d. -/
abbrev Memory.wf (d : Byte) (l : List Host.Cell) : Prop :=
  l.Pairwise (fun x y => x.1 < y.1) ∧ ∀ x ∈ l, x.2 ≠ d

/-- One byte. -/
def memGet (d : Byte) (a : Nat) (l : List Host.Cell) : Byte := lookupD a d l

/-- The cells of a run of bytes at an address, without those that are blank. -/
def cellsFrom (d : Byte) : Nat → List Byte → List Host.Cell
  | _, [] => []
  | a, b :: r => if b = d then cellsFrom d (a + 1) r else (a, b) :: cellsFrom d (a + 1) r

/-- Write a run of bytes. -/
def memPut (d : Byte) (a : Nat) (bs : List Byte) (l : List Host.Cell) : List Host.Cell :=
  l.filter (fun x => x.1 < a) ++ cellsFrom d a bs ++ l.filter (fun x => a + bs.length ≤ x.1)

/-- Make a range blank. -/
def memErase (a n : Nat) (l : List Host.Cell) : List Host.Cell := l.filter fun x => x.1 < a || a + n ≤ x.1

/-- Walk n addresses from a over cells that begin at a or above. -/
def memWalk (d : Byte) : Nat → Nat → List Host.Cell → List Byte
  | 0, _, _ => []
  | n + 1, a, l =>
    match l with
    | [] => d :: memWalk d n (a + 1) []
    | x :: r => if x.1 = a then x.2 :: memWalk d n (a + 1) r else d :: memWalk d n (a + 1) (x :: r)

/-- Read a run of bytes. -/
def memRead (d : Byte) (a n : Nat) (l : List Host.Cell) : List Byte := memWalk d n a (l.dropWhile fun x => x.1 < a)

/-- Whether a range holds only blank bytes. -/
def memBlank (a n : Nat) (l : List Host.Cell) : Bool := !l.any fun x => decide (a ≤ x.1) && decide (x.1 < a + n)

/-- Whether any cell of a list lies outside a range: the address spaces of the two memories. -/
abbrev Memory.within (a n : Nat) (l : List Host.Cell) : Prop := ∀ x ∈ l, a ≤ x.1 ∧ x.1 < a + n

/-! ### The regions of the application map (R428, R394) -/

def sramBase : Nat := 0x10000000
def sramSize : Nat := 0x200000
def norBase : Nat := 0x08000000
def norSize : Nat := 0x4000000
def sinterBase : Nat := 0x18000000
def actOfs : Nat := 0x0000000
def stgOfs : Nat := 0x1000000
def actTags : Nat := 0x2000000
def stgTags : Nat := 0x2040000
def actMan : Nat := 0x2080000
def stgMan : Nat := 0x2090000
/-- The two swap sectors: for data, and for tags and manifests; they are part of the staging area (R394). -/
def swpOfs : Nat := 0x20A0000
def swpTags : Nat := 0x20B0000
def setOfs (b : Bool) : Nat := if b then 0x2180000 else 0x2100000
def slotOfs (k : Fin 2) : Nat := if k = 0 then 0x2200000 else 0x2600000
def slotSize : Nat := 0x400000

/-- Whether a range lies in another. -/
def inside (a n base size : Nat) : Bool := decide (base ≤ a) && decide (a + n ≤ base + size)

def inSram (a n : Nat) : Bool := inside a n sramBase sramSize
def inNor (a n : Nat) : Bool := inside a n norBase norSize

/-- Bytes of the SRAM. -/
def State.ramRead (s : State) (a n : Nat) : List Byte := memRead sramBlank a n s.sram

/-- Write bytes into the SRAM, as far as they lie in it. -/
def State.ramWrite (s : State) (a : Nat) (bs : List Byte) : State :=
  if inSram a bs.length then { s with sram := memPut sramBlank a bs s.sram } else s

/-- Bytes of the flash, as stored, from an offset of R394. -/
def State.norRead (s : State) (o n : Nat) : List Byte := memRead norBlank (norBase + o) n s.nor

/-- Program bytes of the flash. -/
def State.norWrite (s : State) (o : Nat) (bs : List Byte) : State :=
  if inNor (norBase + o) bs.length then { s with nor := memPut norBlank (norBase + o) bs s.nor } else s

/-- Erase a range of the flash. -/
def State.norErase (s : State) (o n : Nat) : State := { s with nor := memErase (norBase + o) n s.nor }

/-! ### Keys wrapped under KW (R386) -/

/-- The key stream of KW for CEKs (0) and host keys (1): the spec names AES-256 under KW and no mode. DESIGN CHOICE. -/
def kwStream (use : Nat) : BitVec 384 :=
  BitVec.ofNat 384 (beNat (gcmCrypt (beBytes 32 Config.kw.toNat) (beBytes 12 use) (List.replicate 48 0)))

/-- A secret wrapped under KW; the same again unwraps it. -/
def kwWrap {w : Nat} (use : Nat) (x : BitVec w) : BitVec w := x ^^^ (kwStream use).setWidth w

theorem kwWrap_kwWrap {w : Nat} (use : Nat) (x : BitVec w) : kwWrap use (kwWrap use x) = x := by
  simp [kwWrap, BitVec.xor_assoc]

/-- The CEKs of the staged and of the active image, unwrapped. -/
def stagedCek (s : State) : Option (BitVec 256) := s.upd.cekStaged.map (kwWrap 0)
def activeCek (s : State) : Option (BitVec 256) := s.upd.cekActive.map (kwWrap 0)

/-- The secret of a host key, unwrapped. -/
def HostKey.secret (k : HostKey) : Nat := (kwWrap 1 k.wrapped).toNat

/-- A host key of a type with a secret, wrapped. -/
def hostKey (typ : BitVec 3) (x : Nat) (imported : Bool) : HostKey :=
  { typ := typ, wrapped := kwWrap 1 (BitVec.ofNat 384 x), imported := imported }

/-- The nonce of spore k: IMG_NONCE of the manifest, then k, high byte first (R396). -/
def sporeNonce (man : List Byte) (k : Nat) : List Byte := slice man 32 8 ++ beBytes 4 k

/-- A range of the active area through the decryptor: the CTR part of GCM under the active CEK, spore by spore (R394,
R396). Without a CEK no decryptor is loaded (R392 step 6), and the bytes come as stored. -/
def actPlain (s : State) (o n : Nat) : List Byte :=
  match activeCek s with
  | none => s.norRead o n
  | some cek =>
    let man := s.norRead actMan 128
    let k0 := o / 1024
    let all := (List.range ((o + n + 1023) / 1024 - k0)).flatMap fun i =>
      gcmCrypt (beBytes 32 cek.toNat) (sporeNonce man (k0 + i)) (s.norRead ((k0 + i) * 1024) 1024)
    slice all (o - k0 * 1024) n

/-- An entry of the general event log as its 32 bytes (R424). -/
def evBytes (e : EvEntry) : List Byte :=
  wordsBytes [e.seq, wd e.lt.toNat, wd (e.lt.toNat / 2 ^ 32), wd (at_ e.typ.toNat 16 + at_ (b2n e.tv) 15 + e.source.toNat),
    e.d0, e.d1, e.d2, e.tshort]

/-- A byte of the Sinter read window: the event log stands from TIME_EVLBASE on, entry i at 32 × i (R426); the rest has
no layout in the spec. -/
def sinterAt (s : State) (a : Nat) : Byte :=
  let base := Config.evlBase.toNat
  if base ≤ a ∧ a < base + 32 * 16384 then
    let i := (a - base) / 32
    match s.time.evl[(s.time.evlNext.toNat + 16383 - i) % 16384]? with
    | some e => (evBytes e).getD ((a - base) % 32) 0
    | none => 0
  else Config.sinterByte a

/-- A run of bytes of the flash window: the active area through the decryptor, the rest as stored (R394). -/
def State.norWindow (s : State) (o n : Nat) : List Byte :=
  let k := min n (stgOfs - o)
  if k = 0 then s.norRead o n else actPlain s o k ++ s.norRead (o + k) (n - k)

/-- A run of bytes of the memories of the application map; none where the run leaves them. -/
def State.appRead (s : State) (a n : Nat) : Option (List Byte) :=
  if inSram a n then some (s.ramRead a n)
  else if inNor a n then some (s.norWindow (a - norBase) n)
  else if inside a n 0 0x20000 then
    some ((List.range n).map fun i => BitVec.ofNat 8 ((Config.romWord ((a + i) / 4)).toNat / 256 ^ ((a + i) % 4)))
  else if inside a n sinterBase 0x200000 then some ((List.range n).map fun i => sinterAt s (a + i))
  else none

/-! ### Application SRAM under SECDED (R367) -/

/-- Whether a run of bytes touches an uncorrectable word. -/
def poisoned (s : State) (a n : Nat) : Bool := s.mesh.poison.any fun w => decide (w < a + n) && decide (a < w + 8)

/-- Record uncorrectable words that have been returned, k of them, with the address of the last: UNCORR_CNT, UNCORRE and the
last error (R367). -/
def State.eccErrs (s : State) (k a req : Nat) : State :=
  { s with
    mesh.uncorr := satAdd s.mesh.uncorr k
    mesh.errAddr := wd a
    mesh.errKind := 3
    mesh.errReq := BitVec.ofNat 4 req
    mesh.evt := s.mesh.evt ||| 2 }

/-- One uncorrectable word that has been returned. -/
def State.eccErr (s : State) (a : Nat) (req : Nat) : State := s.eccErrs 1 a req

/-- The uncorrectable words of a run of bytes that has been returned, each counted (R367). -/
def State.eccRun (s : State) (a n req : Nat) : State :=
  let hit := s.mesh.poison.filter fun w => decide (w < a + n) && decide (a < w + 8)
  if hit.isEmpty then s else s.eccErrs hit.length (hit.foldl max a) req

/-- What MESH records of a parity error on a request or on a response: PAR_CNT, PARE and the last error. -/
def parRecord (req : Nat) (a : Word) (onResponse : Bool) (s : State) : State :=
  { s with
    mesh.par := satInc s.mesh.par
    mesh.errAddr := a
    mesh.errKind := if onResponse then 2 else 1
    mesh.errReq := BitVec.ofNat 4 req
    mesh.evt := s.mesh.evt ||| 1 }

/-- Mark the 8-byte word of an address uncorrectable. -/
def State.mark (s : State) (a : Nat) : State :=
  { s with mesh.poison := if s.mesh.poison.contains (a / 8 * 8) then s.mesh.poison else (a / 8 * 8) :: s.mesh.poison }

/-! ### The engines' accesses to application memory (R364, R367) -/

/-- Whether a byte of the application map lies in a register word of a block. -/
def inRegWord (a : Nat) : Bool :=
  match blkAt a with
  | some (_, b) => hasWord b.kind ((a - b.base) / 4 * 4)
  | none => false

/-- Whether a byte of the application map lies in a memory. -/
def inMemory (a : Nat) : Bool := inSram a 1 || inNor a 1 || inside a 1 0 0x20000 || inside a 1 sinterBase 0x200000

/-- The error of a run of bytes that leaves the memories, recorded at its first byte outside them: an access to a register
that breaks R3, since an engine reads and writes bytes, or a decode error. The engine's own bus response is no core's. -/
def State.holeErr (s : State) (req a n : Nat) : State :=
  match (List.range n).find? fun i => !inMemory (a + i) with
  | some i => { s.decodeErr (wd (a + i)) req (if inRegWord (a + i) then 5 else 4) with bus := s.bus }
  | none => s

/-- A write to SRAM: none where it covers a part of an uncorrectable word, which then stays; a whole word is good again. -/
def ramStore (s : State) (a : Nat) (bs : List Byte) : Option State :=
  let whole (w : Nat) : Bool := decide (a ≤ w) && decide (w + 8 ≤ a + bs.length)
  if s.mesh.poison.any fun w => decide (w < a + bs.length) && decide (a < w + 8) && !whole w then none
  else some ({ s with mesh.poison := s.mesh.poison.filter fun w => !whole w }.ramWrite a bs)

/-- How many of n bytes from an address on fall into an uncorrectable word at its start, or before its end, that the run
covers only in part. -/
def tornHead (s : State) (a n : Nat) : Nat :=
  let w := a / 8 * 8
  if s.mesh.poison.contains w && !(decide (a = w) && decide (8 ≤ n)) then min n (8 - a % 8) else 0
def tornTail (s : State) (a n : Nat) : Nat :=
  let w := (a + n) / 8 * 8
  if s.mesh.poison.contains w then (a + n) % 8 else 0

/-- What an engine, requester req, writes to application memory: application SRAM takes it, but for the parts of
uncorrectable words, which stay (R367). Elsewhere nothing is written, and a byte outside the memories is a bus error
(R364). -/
def State.appWrite (s : State) (req a : Nat) (bs : List Byte) : State :=
  let s := s.tagged
  if inSram a bs.length then
    let h := tornHead s a bs.length
    match ramStore s (a + h) ((bs.drop h).take (bs.length - h - tornTail s a bs.length)) with
    | some t => t
    | none => s
  else s.holeErr req a bs.length

/-- A run of bytes for an engine that reads application memory, requester req. An uncorrectable word comes with a poison
mark, which is recorded, and its bytes are free values (R367). Where the run leaves the memories the spec states no result:
the bytes are free values, and a byte outside the memories is a bus error (R364). -/
def State.srcBytes (s : State) (req a n : Nat) : List Byte × State :=
  let s := s.tagged
  match s.appRead a n with
  | some l =>
    if poisoned s a n && inSram a n then
      let d := (s.eccRun a n req).draw
      (l.zipIdx.map fun p => if poisoned s (a + p.2) 1 then Config.freeByte d.1 p.2 else p.1, d.2)
    else (l, s)
  | none =>
    let d := (s.holeErr req a n).draw
    ((List.range n).map fun i => Config.freeByte d.1 i, d.2)

end Sys2Proof.Machine
end

