-- ==== Sys2Proof/Machine/Display.lean ====
section
/-! DEFINITION. The legal display (08_legal_display.md): what a region shows, the panel's drive, scheduling, rails, update
intents, redraws after a start, and rail faults. -/

namespace Sys2Proof.Machine

/-! ### Content of a legal region (the table under R172, R2) -/

/-- What the kernel draws for an outlet. -/
def legalContent (s : State) (n : Port) : LegalContent :=
  let m := outletMeter s n
  let v := fun (exp : Bool) => match m with
    | some m => s.acc m exp
    | none => 0
  let price := fun (x : Session) => (x.pimp[s.bill.core.ti.toFin]).toNat
  let base : LegalContent :=
    { outlet := n.val + 1, state := outletState s n, impWh := dispWh (v false),
      expWh := if legalView (v true) = 0 then none else some (dispWh (v true)), startView := none, energy := 0, price := 0,
      cost := 0, billed := none, flags := 0, ident := "MK 3.2", ksum := Config.kernelSum, mchk := s.sys.metChk }
  let ended := match s.bill.core.ended[n] with
    | none => base
    | some e =>
      { base with startView := some e.startView, energy := e.energy, price := e.price.toNat, cost := e.billed,
                  billed := some (e.currency, e.minor), flags := e.flags &&& 0x207 }
  match s.sess n with
  | none => ended
  | some x =>
    if x.state = .running ∨ x.metered then
      { base with startView := some x.eiStart.toNat, energy := s.view x.meter false - x.eiStart.toNat, price := price x,
                  cost := costNow s x, flags := x.flags &&& 0x207 }
    else ended

/-! ### Waveforms and temperature (R163, R167 to R169) -/

/-- One frame in ns: 294,117 periods of 40 ns. -/
def frameNs : Nat := 11764680

/-- Frames of a mode in a band. -/
def wfFrames (s : State) (mode : BitVec 3) (band : Nat) : Nat := (s.disp.wf.frames.getD mode.toNat []).getD band 0

/-- The frame of a running update at the present time. -/
def frameOf (s : State) (u : RunUpd) : Nat := (s.now - u.startNs.toNat) / frameNs

/-- The band of a temperature in 1/16 °C: Lb ≤ T < Lb+1. -/
def bandGo (t : Int) : Nat → List Int → Option Nat
  | b, lo :: hi :: r => if lo * 16 ≤ t ∧ t < hi * 16 then some b else bandGo t (b + 1) (hi :: r)
  | _, _ => none

/-- The panel temperature of R168: the valid value, else the last valid one, else none. -/
def panelTemp (s : State) : Option Int :=
  let i : Fin 16 := Fin.ofNat 16 (s.pf 0x20280018 15 12)
  if tempValid s i then (s.met.ain[i]).last.map (·.toInt) else s.disp.lastT

/-- The active band; without any valid temperature since start the band that contains 25 °C. -/
def activeBand (s : State) : Option Nat := bandGo ((panelTemp s).getD 400) 0 s.disp.wf.limits

/-! ### The panel (R163 to R165, R180) -/

/-- What a source output delivers for a drive code (R164). -/
inductive SourceOut where
  | vcom | vsh | vsl
  deriving DecidableEq, Repr

def sourceOut (code : BitVec 2) : SourceOut := if code = 1 then .vsh else if code = 2 then .vsl else .vcom

/-- The rails in the order of R165. -/
def railOrder : List Rail := [.vgl, .vsl, .vsh, .vgh, .vcom]

/-- The rails that are up or not yet down; they go down in the reverse order. -/
def railsOn : Rails → List Rail
  | .down => []
  | .rising k _ => railOrder.take k.val
  | .up => railOrder
  | .falling k _ => railOrder.take (k.val + 1)

/-- PNLEN: high from the first step of the rails to their last. -/
def pnlen (s : State) : Bool := s.disp.rails != .down

/-- The time that a rail takes, at most 3 ms (R165): free within the bound. -/
def railNs (place : Nat) (since : BitVec 64) : Nat := (Config.freeAt (9200 + place) since.toNat).toNat % 3000001

/-- The rails after some time: each starts when the one before it is up, or down. The last one up is RAILS_UP's. -/
def railStep (s : State) : State :=
  match s.disp.rails with
  | .down => s
  | .rising k t =>
    if k.val < 4 ∧ railNs k.val t ≤ s.now - t.toNat then { s with disp.rails := .rising (k + 1) s.time.sysNs } else s
  | .up => s
  | .falling k t =>
    if railNs (5 + k.val) t ≤ s.now - t.toNat then
      { s with disp.rails := if k.val = 0 then .down else .falling (k - 1) s.time.sysNs }
    else s

/-- The rails are lowered, from the one that came up last. -/
def lowerRails (s : State) : State :=
  match s.disp.rails with
  | .down => s
  | .rising k _ => { s with disp.rails := .falling k s.time.sysNs }
  | .up => { s with disp.rails := .falling 4 s.time.sysNs }
  | .falling _ _ => s

/-- The hatched border of a parked region (R180): whether a pixel of a region is black. -/
def hatchBlack (w h x y : Nat) : Bool :=
  (decide (x < 8) || decide (w ≤ x + 8) || decide (y < 8) || decide (h ≤ y + 8)) && decide ((x + y) % 16 < 8)

/-- A content as numbers. -/
def LegalContent.nums (c : LegalContent) : List Nat :=
  [c.outlet, c.state, c.impWh, b2n c.expWh.isSome, c.expWh.getD 0, b2n c.startView.isSome, c.startView.getD 0, c.energy,
   c.price, b2n (decide (c.cost < 0)), c.cost.natAbs,
   b2n c.billed.isSome, (c.billed.map (·.1.toNat)).getD 0, (c.billed.map (·.2.toNat)).getD 0, c.flags.toNat, c.ksum.toNat, c.mchk.toNat]

/-- The grey level of a pixel, 0 black to 15 white. DESIGN CHOICE: the first pixel of a byte is its low nibble. What the panel
holds where the engine does not know it is free. -/
def Shown.level (w h x y : Nat) : Shown → Nat
  | .unknown => (Config.freeAt (9000 + x) y).toNat % 16
  | .white => 15
  | .legal c => Config.legalPixel c.nums x y % 16
  | .pixels l => bitsOf (l.getD ((y * w + x) / 2) 0).toNat (4 * ((y * w + x) % 2) + 3) (4 * ((y * w + x) % 2))
  | .hatched => if hatchBlack w h x y then 0 else 15
  | .mixed => (Config.freeAt (9000 + x) y).toNat % 16

def rgnX (s : State) (r : Fin 16) : Nat := s.pf (rgnBase r) 26 16
def rgnY (s : State) (r : Fin 16) : Nat := s.pf (rgnBase r) 10 0
def rgnW (s : State) (r : Fin 16) : Nat := s.pf (rgnBase r + 4) 26 16
def rgnH (s : State) (r : Fin 16) : Nat := s.pf (rgnBase r + 4) 10 0

/-- The drive code of a pixel of a region's running update, counted from the region's corner. -/
def regionCode (s : State) (r : Fin 16) (u : RunUpd) (x y : Nat) : BitVec 2 :=
  Config.waveCode u.mode.toNat u.band.toNat (frameOf s u) ((s.disp.rgn[r]).shown.level (rgnW s r) (rgnH s r) x y)
    (u.target.level (rgnW s r) (rgnH s r) x y)

/-- The running update over a pixel of the panel. -/
def updateOver (s : State) (x y : Nat) : Option (Fin 16 × RunUpd) :=
  (fins 16).findSome? fun r =>
    if decide (rgnX s r ≤ x) && decide (x < rgnX s r + rgnW s r) && decide (rgnY s r ≤ y) && decide (y < rgnY s r + rgnH s r) then
      (s.disp.rgn[r]).run.map fun u => (r, u)
    else none

/-- The drive code of a pixel in the present frame: 0b00 outside every running update (R164). -/
def driveCode (s : State) (x y : Nat) : BitVec 2 :=
  match updateOver s x y with
  | some (r, u) => regionCode s r u (x - rgnX s r) (y - rgnY s r)
  | none => 0

/-- Source data of a row on ED0 to ED7: four pixels on each edge, the first on ED[1:0] (R163). -/
def sourceLine (s : State) (y : Nat) : List Byte :=
  (List.range (field s.disp.panel 26 16 / 4)).map fun i =>
    BitVec.ofNat 8 (((List.range 4).map fun k => at_ (driveCode s (4 * i + k) y).toNat (2 * k)).sum)

/-- One frame scans every row of the panel. -/
def scanFrame (s : State) : List (List Byte) := (List.range (field s.disp.panel 10 0)).map (sourceLine s)

/-! ### Starting and ending updates (R165, R166, R174 to R178) -/

/-- The place of a region's request in the order of R175: legal before other requests, each oldest first. -/
def reqAge (s : State) (r : Fin 16) : Nat :=
  match s.disp.rgn[r].pend with
  | some q => if q.legal then q.order else s.disp.order + 1 + q.order
  | none => 0

/-- The region of least age. -/
def oldestReq (s : State) : List (Fin 16) → Option (Fin 16)
  | [] => none
  | r :: t =>
    match oldestReq s t with
    | none => some r
    | some x => if reqAge s x < reqAge s r then some x else some r

/-- The region of a slot whose request is next (R175). -/
def nextPending (s : State) (slot : Fin 4) : Option (Fin 16) :=
  oldestReq s ((fins 16).filter fun r => rgnSlot s r == slot && s.disp.rgn[r].pend.isSome)

/-- Whether a slot runs an update. -/
def slotBusy (s : State) (slot : Fin 4) : Bool := (fins 16).any fun r => rgnSlot s r == slot && s.disp.rgn[r].run.isSome

/-- What an update draws, fetched as it starts: INIT clears to white, the kernel draws its content, and a host update takes
the image at its source address (R176). -/
def fetchTarget (r : Fin 16) (u : RunUpd) (s : State) : Shown × State :=
  if u.mode = 0 then (.white, s)
  else if u.legal then (.legal (legalContent s (rgnPort s r)), s)
  else
    let b := s.srcBytes 7 u.src.toNat (rgnW s r * rgnH s r / 2)
    (.pixels b.1, b.2)

/-- The first frame of an update: its intent is journaled OPEN with the next sequence number (R178), and source 128
reports the start. -/
def beginUpdate (r : Fin 16) (u : RunUpd) (s : State) : State :=
  let f := fetchTarget r u s
  let s := f.2.modRgn r fun g =>
    { g with run := some { u with target := f.1 }, useq := g.useq + 1, intentOpen := true, intentMode := u.mode,
             intentLt := BitVec.ofNat 64 s.legalMs, parked := false }
  { s with disp.band := u.band }.raise 128

/-- Note the temperature of R168 in the status; whether a band is active. -/
def noteTemp (s : State) : State :=
  { s with disp.tempStale := (panelTemp s).isNone, disp.tempRange := (activeBand s).isNone }

/-- The rails begin to rise; VCOM, SDDIV and the geometry take effect (R165, R166). -/
def raiseRails (s : State) : State :=
  { s with disp.rails := .rising 0 s.time.sysNs, disp.vcom := BitVec.ofNat 9 (clamp 50 300 (s.pf 0x20280014 24 16)),
           disp.sddiv := BitVec.ofNat 4 (s.pf 0x20280014 31 28), disp.panel := s.par 0x20280010 }

/-- Start a region's pending request in a band: INIT first when the region has not been drawn since the start (R181). -/
def startPending (r : Fin 16) (q : PendUpd) (band : Nat) (s : State) : State :=
  let init := (q.initFirst || s.disp.rgn[r].needInit) && q.mode != 0
  let mode := if init then 0 else q.mode
  let u : RunUpd :=
    { mode := mode, next := if init then some q.mode else none, legal := q.legal, redraw := q.redraw, mark := q.mark,
      src := q.src, frames := wfFrames s mode band, band := BitVec.ofNat 4 band, startNs := s.time.sysNs, order := q.order,
      target := .white }
  beginUpdate r u (s.modRgn r fun g => { g with pend := none })

/-- UPDATE_START: a drive slot is free and its next pending update starts: the rails come up first, once those that fall are
down (DESIGN CHOICE); none starts while a save blocks updates, after a bad waveform table, a latched rail fault, before a
retry, or outside the temperature range (R167, R168, R176, R179, R183, R184). -/
def updateStart (slot : Fin 4) (s : State) : State :=
  if s.disp.pfwBlock || s.disp.wftBad || s.disp.railFault || s.disp.retry || slotBusy s slot then s
  else
    match nextPending s slot with
    | none => s
    | some r =>
      let s := noteTemp s
      match activeBand s, s.disp.rgn[r].pend with
      | some band, some q =>
        match s.disp.rails with
        | .down => raiseRails s
        | .rising _ _ => s
        | .up => startPending r q band s
        | .falling _ _ => s
      | _, _ => s

def execUpdateStart (slot : Fin 4) (s : State) : Host.Outcome State Fault Refusal := live s (updateStart slot)

/-- Whether a redraw of R181 is still to end. -/
def redrawsLeft (s : State) : Bool :=
  (fins 16).any fun r => s.disp.rgn[r].pend.any (·.redraw) || s.disp.rgn[r].run.any (·.redraw)

/-- FL_PERMIT takes a value, and the front light's channel follows (R182, R184). -/
def setPermit (on : Bool) (s : State) : State :=
  loadAt (s.pf 0x20280018 19 16) { s with disp.flPermit := on }

/-- FL_PERMIT of R182: every redraw has ended and no intent is open. -/
def permitCheck (s : State) : State :=
  if s.disp.flPermit || s.disp.railFault || redrawsLeft s || (fins 16).any (fun r => s.disp.rgn[r].intentOpen) then s
  else setPermit true s

/-- The last update of a request ends: its intent is DONE (R178, R181). -/
def finishUpdate (r : Fin 16) (u : RunUpd) (s : State) : State :=
  let s := s.modRgn r fun g =>
    { g with run := none, intentOpen := false, needInit := false, damaged := false, shown := u.target,
             redrawNeeded := g.redrawNeeded || u.mark, drawn := g.drawn || (u.legal && u.mode == 1) }
  permitCheck ({ s with disp.faultRun := 0 }.raise 129)

/-- Whether a legal request waits in the slot of a region (R175). -/
def legalWaits (s : State) (r : Fin 16) : Bool :=
  (fins 16).any fun q => rgnSlot s q == rgnSlot s r && (s.disp.rgn[q]).pend.any (·.legal)

/-- The mode that follows an INIT waits in the pending slot with the age of its request; a request already there takes its
place, and counts as the redraw if it was one. -/
def followLater (r : Fin 16) (m : BitVec 3) (u : RunUpd) (s : State) : State :=
  s.modRgn r fun g =>
    { g with pend := match g.pend with
        | some q => some { q with redraw := q.redraw || u.redraw, order := u.order }
        | none => some { mode := m, legal := u.legal, initFirst := false, redraw := u.redraw, mark := u.mark, order := u.order, src := u.src } }

/-- UPDATE_END: the update's frames are done. The mode that follows an INIT starts as an update of its own; it waits in the
pending slot when the temperature bars it, and a non-legal one behind the legal requests of its slot. -/
def updateEnd (r : Fin 16) (s : State) : State :=
  match s.disp.rgn[r].run with
  | none => s
  | some u =>
    match u.next with
    | none => finishUpdate r u s
    | some m =>
      let s := { s.modRgn r (fun g => { g with run := none, intentOpen := false, needInit := false, shown := u.target }) with
        disp.faultRun := 0 }.raise 129
      let s := noteTemp s
      match activeBand s with
      | some band =>
        if !u.legal && legalWaits s r then followLater r m u s
        else beginUpdate r { u with mode := m, next := none, frames := wfFrames s m band, band := BitVec.ofNat 4 band,
                                    startNs := s.time.sysNs } s
      | none => followLater r m u s

def execUpdateEnd (r : Fin 16) (s : State) : Host.Outcome State Fault Refusal := live s (updateEnd r)

/-- RAILS_UP: the first frame may start (R165 step 6). -/
def execRailsUp (s : State) : Host.Outcome State Fault Refusal :=
  live s fun s => match s.disp.rails with
    | .down => s
    | .rising _ _ => { s with disp.rails := .up }
    | .up => s
    | .falling _ _ => s

/-- Whether any update runs. -/
def anyRunning (s : State) : Bool := (fins 16).any fun r => s.disp.rgn[r].run.isSome

/-- RAIL_IDLE_TIMEOUT: IDLE ms after the last update the rails are lowered (R166). -/
def execRailIdleTimeout (s : State) : Host.Outcome State Fault Refusal :=
  live s fun s => if s.disp.rails = .up ∧ !anyRunning s then lowerRails s else s

/-! ### Requests (R171, R173, R175) -/

/-- DISP_UPDATE_REQUEST: a host request; refused for a legal or disabled region and for mode 6 (R171). -/
def updateRequest (r : Fin 16) (mode : BitVec 3) (s : State) : State :=
  if !rgnEn s r || rgnLegal s r || mode == 6 then { s with disp.refused := true }
  else
    s.putRequest r { mode := mode, legal := false, initFirst := false, redraw := false, mark := false, order := 0, src := s.disp.updsrc }

def execDispUpdateRequest (r : Fin 16) (mode : BitVec 3) (s : State) : Host.Outcome State Fault Refusal :=
  access .disp 0 s (updateRequest r mode)

/-- LEGAL_REDRAW_PERIOD: LPERIOD seconds of a running session (R173). -/
def execLegalRedrawPeriod (n : Port) (s : State) : Host.Outcome State Fault Refusal :=
  live s fun s => if (s.sess n).any (fun x => x.state == .running) then s.legalReq n else s

/-! ### Redraws and rail faults (R181 to R184) -/

/-- The redraw of a region: a legal one INIT then GC16, another INIT with the mark (R181). -/
def queueRedraw (s : State) (r : Fin 16) : State :=
  if rgnLegal s r then s.putRequest r { mode := 1, legal := true, initFirst := true, redraw := true, mark := false, order := 0, src := 0 }
  else s.putRequest r { mode := 0, legal := false, initFirst := true, redraw := true, mark := true, order := 0, src := 0 }

/-- The redraws of a start, in the three groups of R181. -/
def queueRedraws (s : State) : State :=
  let en := (fins 16).filter (rgnEn s)
  let op := fun (r : Fin 16) => s.disp.rgn[r].intentOpen
  let l := en.filter (fun r => rgnLegal s r && op r) ++ en.filter (fun r => rgnLegal s r && !op r)
    ++ en.filter (fun r => !rgnLegal s r && op r)
  permitCheck (forAll l queueRedraw s)

/-- RAIL_FAULT: running updates are abandoned with the mark PARKED and their regions DAMAGED (R178), the rails go down,
and a retry is due; the third fault in a row without a completed update latches RAIL_FAULT with an audit entry (R183,
R184). -/
def railFault (rail : Fin 5) (s : State) : State :=
  if s.disp.rails = .down then s
  else
    let s := forAll (fins 16) (fun s r =>
      if s.disp.rgn[r].run.isSome then s.modRgn r fun g => { g with run := none, parked := true, damaged := true, shown := .mixed } else s) s
    let n := s.disp.faultRun + 1
    let s := { lowerRails s with disp.railfCnt := satInc s.disp.railfCnt, disp.faultRun := n, disp.retry := true }.raise 133
    if 3 ≤ n ∧ !s.disp.railFault then
      (setPermit false { s with disp.railFault := true }).audit 0x0013 0xFF 0 0x200 0 (wd rail.val)
    else s

def execRailFault (rail : Fin 5) (s : State) : Host.Outcome State Fault Refusal := live s (railFault rail)

/-- RAIL_RETRY: 1 s after a rail fault the damaged regions are redrawn in the order of R181; none after a latched fault. -/
def railRetry (s : State) : State :=
  if s.disp.retry && !s.disp.railFault then
    let l := (fins 16).filter fun r => rgnEn s r && s.disp.rgn[r].damaged
    forAll (l.filter (rgnLegal s ·) ++ l.filter (fun r => !rgnLegal s r)) queueRedraw { s with disp.retry := false }
  else s

def execRailRetry (s : State) : Host.Outcome State Fault Refusal := live s railRetry

/-- DISP_CLRCNT: REPLACED_CNT, PARK_CNT and RAILF_CNT, with their CNT_SAT. -/
def dispClrcnt (s : State) : State :=
  ({ s with disp.replacedCnt := 0, disp.parkCnt := 0, disp.railfCnt := 0 }).statsCleared 0x4450 0

def execDispClrcnt (s : State) : Host.Outcome State Fault Refusal := access .disp 0 s dispClrcnt

end Sys2Proof.Machine
end

