-- ==== Sys2Proof/Machine/DmaCtl.lean ====
section
/-! DEFINITION. The DMA engine's channels (R371 to R376, R380, R382 to R385): enabling, rings and descriptors, requests,
the status write-back, disable and abort. -/

namespace Sys2Proof.Machine

/-! ### Descriptors (R372 to R376) -/

def DmaResult.code : DmaResult → Nat
  | .done => 0 | .withdrawn => 1 | .busError => 2 | .eccError => 3 | .badDesc => 4 | .aborted => 5

def State.modDma (s : State) (c : Fin 32) (f : DmaCh → DmaCh) : State := { s with dma.ch := vmod s.dma.ch c f }

/-- The address of a channel's descriptor. -/
def descAddr (c : DmaCh) (head : Nat) : Nat := 32 * c.ring.toNat + 32 * head

/-- The place after a place of the ring. -/
def nextHead (c : DmaCh) (head : Nat) : Nat := if c.rlen.toNat ≤ head + 1 then 0 else head + 1

/-- The fields of w0. -/
def dStop (w : Vector Word 8) : Bool := bitAt w[0] 31
def dIrq (w : Vector Word 8) : Bool := bitAt w[0] 30
def dSafe (w : Vector Word 8) : Bool := bitAt w[0] 15
def dBurst (w : Vector Word 8) : Nat := 2 ^ (field w[0] 14 12 + 2)
def dSwap (w : Vector Word 8) : Nat := field w[0] 11 10
def dDfix (w : Vector Word 8) : Bool := bitAt w[0] 9
def dSfix (w : Vector Word 8) : Bool := bitAt w[0] 8
def dMode (w : Vector Word 8) : Nat := field w[0] 1 0

/-- A length and a count of w3 or w5. -/
def lineLen (x : Word) : Nat := field x 15 0
def lineCnt (x : Word) : Nat := field x 31 16

/-- The bytes that a descriptor moves. -/
def dTotal (w : Vector Word 8) : Nat := lineLen w[3] * lineCnt w[3]

/-- The direction of a request: out of its peripheral, or into it (R371). -/
def reqRx (r : Nat) : Bool := decide (1 ≤ r ∧ r ≤ 9) || r == 11 || r == 13 || r == 15 || r == 17
def reqTx (r : Nat) : Bool := r == 10 || r == 12 || r == 14 || r == 16 || r == 18

/-- The largest burst of a request. -/
def reqBurst (r : Nat) : Nat := if 13 ≤ r then 128 else 256

/-- Whether an address lies in a register space. -/
def inRegs (a : Nat) : Bool := (blkAt a).isSome

/-- Whether an address lies inside the DMA block. -/
def inDma (a : Nat) : Bool := decide (0x20020000 ≤ a ∧ a < 0x20030000)

/-- The checks of R375 on a descriptor of a channel paced by a request. -/
def descBad (r : Nat) (w : Vector Word 8) : Bool :=
  let m := dMode w
  let ix := decide (2 ≤ m)
  let two := m == 1
  let len := lineLen w[3]
  let unit := if dSwap w = 0 then 1 else if dSwap w = 1 then 2 else 4
  let side (a : Nat) (fixed : Bool) (l : List Nat) : Bool :=
    (inRegs a || fixed) && (a % 4 != 0 || l.any fun x => x % 4 != 0)
  let srcOn := !reqRx r
  let dstOn := !reqTx r
  field w[0] 29 16 != 0 || field w[0] 7 2 != 0 || field w[0] 14 12 == 7
    || len == 0 || lineCnt w[3] == 0 || (ix && decide (256 < len))
    || (two && (lineLen w[5] == 0 || lineCnt w[5] == 0 || lineLen w[5] * lineCnt w[5] != dTotal w))
    || decide (16777215 < dTotal w)
    || (dSafe w && (m != 0 || dSfix w || dDfix w || r != 0))
    || len % unit != 0 || (two && lineLen w[5] % unit != 0)
    || (srcOn && side w[1].toNat (dSfix w) [len])
    || (dstOn && side w[2].toNat (dDfix w) [if two then lineLen w[5] else len])
    || decide (reqBurst r < dBurst w)
    || (srcOn && inDma w[1].toNat) || (dstOn && inDma w[2].toNat)
    || (ix && (inDma w[4].toNat || w[4].toNat % 4 != 0))

/-! ### Requests (R371, R382) -/

/-- The bytes that the bursts in flight of a request carry. -/
def flying (s : State) (r : Nat) : Nat :=
  (s.dma.ch.toList.map fun c => match c.run with
    | some d => if c.reqsel.toNat = r then (d.flight.map fun b => b.data.length).sum else 0
    | none => 0).sum

/-- Whether a transmit peripheral has room: its queue is not full, with what its FIFO holds and what is on its way. Beyond
that it takes one largest burst (R382). -/
def canRoom (s : State) (b : Fin 3) (r : Nat) : Bool :=
  decide (80 * (s.can[b]).txq.length + (s.can[b]).txPart.length + flying s r < 80 * 16)

def ethRoom (s : State) (m : Fin 2) (r : Nat) : Bool :=
  (s.eth[m]).en && decide ((s.eth[m]).txFifo.length + flying s r < 2048)

/-- Whether the peripheral of a request has data to give, or room to take a burst. -/
def periphReady (s : State) (r : Nat) : Bool :=
  if 1 ≤ r ∧ r ≤ 8 then
    let l := s.vp[(Fin.ofNat 8 (r - 1))].link
    l.rxen && !l.rxStore.isEmpty
  else match r with
    | 9 => !(s.eth[0]).rxFifo.isEmpty
    | 10 => ethRoom s 0 r
    | 11 => !(s.eth[1]).rxFifo.isEmpty
    | 12 => ethRoom s 1 r
    | 13 => !(s.can[0]).rxFifo.isEmpty
    | 14 => canRoom s 0 r
    | 15 => !(s.can[1]).rxFifo.isEmpty
    | 16 => canRoom s 1 r
    | 17 => !(s.can[2]).rxFifo.isEmpty
    | 18 => canRoom s 2 r
    | _ => false

/-- Whether the request of a channel is asserted; a software-paced channel always may run. -/
def reqOn (s : State) (r : Nat) : Bool := r == 0 || (s.dma.req.getLsbD r && periphReady s r)

/-- WAIT_REQ or RUNNING, by the request line. -/
def settleReq (c : Fin 32) (s : State) : State :=
  let x := s.dma.ch[c]
  if x.st = .running ∧ !reqOn s x.reqsel.toNat then s.modDma c fun x => { x with st := .waitReq }
  else if x.st = .waitReq ∧ reqOn s x.reqsel.toNat then s.modDma c fun x => { x with st := .running }
  else s

/-- The channels that a request value paces. -/
def paced (s : State) (r : Nat) : List (Fin 32) :=
  (fins 32).filter fun c => (s.dma.ch[c]).en && (s.dma.ch[c]).reqsel.toNat == r

/-- DMA_REQUEST_ASSERT: a peripheral with data or room asserts its line, and its channel continues. -/
def requestAssert (r : Fin 32) (s : State) : State :=
  if periphReady s r.val then
    forAll (paced s r.val) (fun s c => settleReq c s) { s with dma.req := s.dma.req ||| wd (2 ^ r.val) }
  else s

def execDmaRequestAssert (r : Fin 32) (s : State) : Host.Outcome State Fault Refusal := live s (requestAssert r)

/-- DMA_REQUEST_WITHDRAW: the line falls, and every burst in flight counts as run after the withdrawal. There is no line 0. -/
def requestWithdraw (r : Fin 32) (s : State) : State :=
  if r = 0 then s
  else
  let s := { s with dma.req := s.dma.req &&& ~~~(wd (2 ^ r.val)) }
  forAll (paced s r.val) (fun s c =>
    settleReq c (s.modDma c fun x =>
      { x with run := x.run.map fun d => { d with flight := d.flight.map fun b => { b with late := true } } })) s

def execDmaRequestWithdraw (r : Fin 32) (s : State) : Host.Outcome State Fault Refusal := live s (requestWithdraw r)

/-! ### The status write-back and the next descriptor (R372, R376, R380, R385) -/

/-- Read the 32 bytes of a descriptor: its words, and the error that the read met. -/
def readDesc (s : State) (a : Nat) : Vector Word 8 × Option DmaResult :=
  let l := if inSram a 32 then s.ramRead a 32 else []
  (Vector.ofFn fun i : Fin 8 => wd (leAt l (4 * i.val) 4),
    if !inSram a 32 then some .busError else if poisoned s a 32 then some .eccError else none)

/-- What a peripheral does when its descriptor's status is written: the receive events of R217, R437 and R440. -/
def delivered (r : Nat) (s : State) : State :=
  if 1 ≤ r ∧ r ≤ 8 then
    let n : Port := Fin.ofNat 8 (r - 1)
    s.modLink n fun l =>
      if clamp 1 8 l.coal.toNat ≤ l.rxSince + 1 then linkEvt 1 { l with rxSince := 0 } else { l with rxSince := l.rxSince + 1 }
  else match r with
    | 9 => s.modEth 0 fun e => { e with rxe := true }
    | 11 => s.modEth 1 fun e => { e with rxe := true }
    | 13 => s.raise 150
    | 15 => s.raise 153
    | 17 => s.raise 156
    | _ => s

/-- Write a descriptor's status: w7 with OWN 0, then DMA_CHDONE, the event of IRQ and HEAD (R376, R380). -/
def writeStatus (c : Fin 32) (addr : Nat) (irq : Bool) (res : DmaResult) (bytes : Nat) (s : State) : State :=
  let x := s.dma.ch[c]
  let w := wd (at_ res.code 28 + at_ ((x.done.toNat + 1) % 16) 24 + bytes)
  let s := s.tagged
  let s := if inSram addr 32 then (ramStore s (addr + 28) (leBytes 4 w.toNat)).getD s else s
  let s := s.modDma c fun x =>
    { x with
      done := x.done + 1
      lastRes := BitVec.ofNat 3 res.code
      bytes := BitVec.ofNat 24 bytes
      run := none
      head := BitVec.ofNat 12 (nextHead x x.head.toNat) }
  let s := if irq then { s with dma.evt := s.dma.evt ||| wd (2 ^ c.val) } else s
  if res = .done ∨ res = .withdrawn then delivered x.reqsel.toNat s else s

/-- An error ends a descriptor: ERR_CNT, and the channel is HALTED with EN still 1 (R385). -/
def dmaHalt (c : Fin 32) (s : State) : State :=
  s.modDma c fun x => { x with st := .halted, errCnt := satInc x.errCnt, pre := none }

/-- The rest of a record that a receive peripheral has handed over in part is lost in its store, as it is on a port's
(18_mesh_and_dma.md, the example below R384). -/
def dropRest (r : Nat) (s : State) : State :=
  if 1 ≤ r ∧ r ≤ 8 then
    s.modLink (Fin.ofNat 8 (r - 1)) fun l => if l.rxOff = 0 then l else { l with rxStore := l.rxStore.tail, rxOff := 0 }
  else if r = 9 ∨ r = 11 then
    s.modEth (if r = 9 then 0 else 1) fun e => if e.rxOff = 0 then e else { e with rxFifo := e.rxFifo.tail, rxOff := 0 }
  else if reqRx r then
    s.modCan (Fin.ofNat 3 ((r - 13) / 2)) fun c => match c.rxFifo with
      | x :: xs => if x.length < 80 then { c with rxFifo := xs } else c
      | [] => c
  else s

/-- The channel stops: EN 0 and IDLE. What its peripheral has not handed over of a record it has begun is lost. -/
def dmaStop (c : Fin 32) (s : State) : State :=
  (dropRest (s.dma.ch[c]).reqsel.toNat s).modDma c fun x => { x with en := false, st := .idle, run := none, pre := none }

/-- A read of a descriptor over the mesh, with its parity error if it meets one, and what the mesh records (R363, R366,
R367). -/
def fetchDesc (a : Nat) (hit : Option Bool) (s : State) : Vector Word 8 × Option DmaResult × State :=
  let d := readDesc s a
  let s := s.tagged
  match hit with
  | some onResponse => (d.1, some .busError, parRecord 4 (wd a) onResponse s)
  | none => (d.1, d.2, if d.2 = some .eccError then s.eccRun a 32 4 else s)

/-- Take up the descriptor at HEAD, read now, when hit tells of a parity error, or read ahead: it waits without OWN, ends at
once where its check fails, and else runs (R372, R375). -/
def loadDesc (c : Fin 32) (hit : Option Bool) (s : State) : State :=
  let x := s.dma.ch[c]
  let a := descAddr x x.head.toNat
  let d := match x.pre with
    | some w => (w, none, s)
    | none => fetchDesc a hit s
  let s := d.2.2.modDma c fun x => { x with pre := none, desc := wd a }
  let run : DmaRun := { addr := wd a, w := d.1, granted := 0, bytes := 0, flight := [], late := false, err := none }
  match d.2.1 with
  | some e => dmaHalt c (writeStatus c a false e 0 s)
  | none =>
    if !bitAt d.1[7] 31 then s.modDma c fun x => { x with st := .waitDesc }
    else if descBad x.reqsel.toNat d.1 then dmaHalt c (writeStatus c a (dIrq d.1) .badDesc 0 s)
    else settleReq c (s.modDma c fun x => { x with run := some run, st := .running, bytes := 0 })

/-- The end of a running descriptor: nothing is in flight, and it has moved everything, has failed or is aborted. hit tells of
a parity error on the read of the next one. -/
def dmaFinish (c : Fin 32) (hit : Option Bool) (s : State) : State :=
  let x := s.dma.ch[c]
  match x.run with
  | none => s
  | some r =>
    if !r.flight.isEmpty then s
    else match r.err with
      | some e =>
        let s := dmaHalt c (writeStatus c r.addr.toNat (dIrq r.w) e r.bytes s)
        if x.st = .aborting then dmaStop c s else s
      | none =>
        if r.granted < dTotal r.w then
          if x.st = .aborting then dmaStop c (writeStatus c r.addr.toNat (dIrq r.w) .aborted r.bytes s) else s
        else
          let res : DmaResult := if r.late then .withdrawn else .done
          let res := if x.st = .aborting then .aborted else res
          let s := writeStatus c r.addr.toNat (dIrq r.w) res r.bytes s
          if x.st = .aborting ∨ dStop r.w then dmaStop c s else loadDesc c hit s

/-! ### Enable, disable, abort and kick (R371, R372, R383, R384) -/

/-- Whether R371 refuses the request that a channel selects: reserved, another port's, or another enabled channel's. -/
def requestRefused (s : State) (c : Fin 32) : Bool :=
  let r := (s.dma.ch[c]).reqsel.toNat
  decide (19 ≤ r) || (decide (1 ≤ r ∧ r ≤ 8) && r != c.val + 1)
    || (r != 0 && (fins 32).any fun d => d != c && (s.dma.ch[d]).en && (s.dma.ch[d]).reqsel.toNat == r)

/-- Whether an enable is refused. -/
def enableRefused (s : State) (c : Fin 32) : Bool :=
  let x := s.dma.ch[c]
  requestRefused s c || !inSram (32 * x.ring.toNat) (32 * x.rlen.toNat)

/-- A write of REQSEL. DESIGN CHOICE: an enabled channel keeps its request, with ENREF set, where R371 would refuse the
new one at an enable. -/
def selectRequest (c : Fin 32) (sel : BitVec 5) (stays : Bool) (s : State) : State :=
  let t := s.modDma c fun x => { x with reqsel := sel }
  if !stays || (s.dma.ch[c]).reqsel == sel then t
  else if requestRefused t c then s.modDma c fun x => { x with enref := true }
  else settleReq c t

/-- A write of PRIO: the effective priority is the new one, and the count of R378 restarts. -/
def setPrio (c : Fin 32) (p : BitVec 2) (s : State) : State :=
  if (s.dma.ch[c]).prio = p then s else s.modDma c fun x => { x with prio := p, level := p.toNat, age := 0 }

/-- The bytes that a burst writes to its address: of a fixed destination only the last word remains. -/
def burstBytes (w : Vector Word 8) (b : DmaBurst) : List Byte := if dDfix w then b.data.drop (b.data.length - 4) else b.data

/-- A write of EN 1. -/
def dmaEnable (c : Fin 32) (hit : Option Bool) (s : State) : State :=
  if (s.dma.ch[c]).en then s
  else if enableRefused s c then s.modDma c fun x => { x with enref := true }
  else loadDesc c hit (s.modDma c fun x => { x with en := true, level := x.prio.toNat, age := 0, pre := none })

/-- A write of EN 0: no status, and BYTES and HEAD undefined. Of the writes already issued each burst's takes effect or
does not, which is free; data that a peripheral handed over is lost. -/
def dmaDisable (c : Fin 32) (s : State) : State :=
  let x := s.dma.ch[c]
  if !x.en then s
  else
    let s := match x.run with
      | none => s
      | some r =>
        forAll r.flight (fun (s : State) b =>
          let d := s.draw
          let bs := burstBytes r.w b
          if bitAt (Config.freeAt 5010 d.1) 0 && inSram b.dst bs.length then (ramStore d.2 b.dst bs).getD d.2 else d.2) s
    let d := s.draw
    (dmaStop c d.2).modDma c fun x =>
      { x with head := (Config.freeAt 5011 d.1).setWidth 12, bytes := (Config.freeAt 5012 d.1).setWidth 24 }

/-- Disable every channel, as a transition into DEGRADED and the power-fail save do (R383). -/
def dmaAllOff (s : State) : State := forAll (fins 32) (fun s c => dmaDisable c s) s

/-- A write of ABORT 1. -/
def dmaAbort (c : Fin 32) (s : State) : State :=
  let x := s.dma.ch[c]
  if !x.en then s
  else match x.run with
    | none => dmaStop c s
    | some _ => dmaFinish c none (s.modDma c fun x => { x with st := .aborting })

/-- A write of KICK 1: a descriptor that was read without OWN is read again. -/
def dmaKick (c : Fin 32) (hit : Option Bool) (s : State) : State :=
  let x := s.dma.ch[c]
  if x.st = .waitDesc then loadDesc c hit (s.modDma c fun x => { x with pre := none })
  else if x.pre.any fun w => !bitAt w[7] 31 then s.modDma c fun x => { x with pre := none }
  else s

def dmaClear (s : State) : State :=
  ({ s with dma.ch := s.dma.ch.map (fun (x : DmaCh) => { x with errCnt := 0, wdrCnt := 0 }) }).statsCleared 0x444D 0

def execDmaEnable (c : Fin 32) (par : Option Bool) (s : State) : Host.Outcome State Fault Refusal :=
  access .dma 0 s (dmaEnable c par)
def execDmaDisable (c : Fin 32) (s : State) : Host.Outcome State Fault Refusal := access .dma 0 s (dmaDisable c)
def execDmaAbort (c : Fin 32) (s : State) : Host.Outcome State Fault Refusal := access .dma 0 s (dmaAbort c)
def execDmaKick (c : Fin 32) (par : Option Bool) (s : State) : Host.Outcome State Fault Refusal :=
  access .dma 0 s (dmaKick c par)
def execDmaClrcnt (s : State) : Host.Outcome State Fault Refusal := access .dma 0 s dmaClear

end Sys2Proof.Machine
end

