-- ==== Sys2Proof/Machine/Records.lean ====
section
/-! DEFINITION. Reading and acknowledging records, the OCMF string, the audit log's calls with its archiving, and the
credit check of token sessions (R141 to R147, R159). -/

namespace Sys2Proof.Machine

/-! ### Records (R141, R146) -/

/-- A held record: in the record store or in the demand ring. -/
def heldRecord (s : State) (seq : Word) : Option Record :=
  (s.bill.store.find? (fun r => r.seq == seq)).or (s.bill.demand.find? (fun r => r.seq == seq))

/-- The bytes of a record with its signature. -/
def recBytes (r : Record) : List Byte := r.body ++ r.sig

def readRecord (a : Vector Word 16) (s : State) : Reply :=
  match heldRecord s a[0] with
  | none => .deny s .badArg
  | some r =>
    let b := recBytes r
    .ok { s with bill.recBuf := b } [wd b.length, wd r.rtype.toNat, wd (b2n r.acked)]

def execReadRecord (c : Call) (s : State) : Host.Outcome State Fault Refusal := live s (mbxCall .bill 0x0104 c readRecord)

/-- ACK_RECORD: the record's entry becomes free. -/
def ackRecord (a : Vector Word 16) (s : State) : Reply :=
  if s.bill.store.any (fun r => r.seq == a[0]) then
    .ok { s with bill.store := s.bill.store.map (fun r => if r.seq = a[0] then { r with acked := true } else r) } []
  else .deny s .badArg

def execAckRecord (c : Call) (s : State) : Host.Outcome State Fault Refusal := live s (mbxCall .bill 0x0105 c ackRecord)

/-- READ_DEMAND: a demand record by age, 0 the newest. -/
def readDemand (a : Vector Word 16) (s : State) : Reply :=
  if 2880 ≤ a[0].toNat then .deny s .badArg
  else match s.bill.demand[a[0].toNat]? with
    | none => .deny s .badArg
    | some r =>
      let b := recBytes r
      .ok { s with bill.recBuf := b } [wd b.length, r.seq]

def execReadDemand (c : Call) (s : State) : Host.Outcome State Fault Refusal := live s (mbxCall .bill 0x0107 c readDemand)

/-! ### OCMF (R142) -/

/-- The bytes of a text. -/
def str (x : String) : List Byte := x.toList.map fun c => BitVec.ofNat 8 c.toNat

/-- A decimal numeral. -/
def dec (n : Nat) : List Byte := str (toString n)

/-- A decimal numeral of exactly n digits. -/
def decN (n v : Nat) : List Byte := (digitsOf n v).map fun d => BitVec.ofNat 8 (48 + d)

/-- Hexadecimal digits of bytes, upper case. -/
def hexOf (l : List Byte) : List Byte :=
  let dig := fun (d : Nat) => BitVec.ofNat 8 (if d < 10 then 48 + d else 55 + d)
  (l.map fun b => [dig (b.toNat / 16), dig (b.toNat % 16)]).flatten

/-- A quoted text. -/
def quoted (l : List Byte) : List Byte := [0x22] ++ l ++ [0x22]

/-- A member of an object: name and value. -/
def member (name : String) (v : List Byte) : List Byte := quoted (str name) ++ [0x3A] ++ v

/-- Members joined by commas. -/
def commas : List (List Byte) → List Byte
  | [] => []
  | [a] => a
  | a :: r => a ++ [0x2C] ++ commas r

def object (l : List (List Byte)) : List Byte := [0x7B] ++ commas l ++ [0x7D]

/-- Legal time as ISO 8601 with milliseconds and offset +0000. -/
def isoTime (ms : Nat) : List Byte :=
  let d := dateOf (ms / 86400000 : Nat)
  let t := ms % 86400000
  decN 4 d.y.toNat ++ str "-" ++ decN 2 d.m ++ str "-" ++ decN 2 d.d ++ str "T" ++ decN 2 (t / 3600000) ++ str ":"
    ++ decN 2 (t / 60000 % 60) ++ str ":" ++ decN 2 (t / 1000 % 60) ++ str "," ++ decN 3 (t % 1000) ++ str "+0000"

/-- A legal view in kWh with three decimals. -/
def kwh (mwh : Nat) : List Byte := dec (mwh / 1000000) ++ str "." ++ decN 3 (mwh / 1000 % 1000)

/-- One reading. -/
def ocmfRead (ms : Nat) (tx : String) (shift : Bool) (mwh : Nat) (ri st : String) : List Byte :=
  object [member "TM" (quoted (isoTime ms ++ str (if shift then " I" else " S"))), member "TX" (quoted (str tx)),
    member "RV" (kwh mwh), member "RI" (quoted (str ri)), member "RU" (quoted (str "kWh")), member "ST" (quoted (str st))]

/-- The bytes up to the first zero byte. -/
def untilZero (l : List Byte) : List Byte := l.takeWhile (fun b => b != 0)

/-- The payload of a stop record. -/
def ocmfPayload (s : State) (r : Record) : List Byte :=
  let b := r.body
  let fl := wd (leAt b 2 2)
  let at' := fun (off n : Nat) => leAt b off n
  let ser := hexOf (beBytes 8 s.sys.serial.toNat)
  let st := if bitAt fl 0 || bitAt fl 1 || bitAt fl 5 || bitAt fl 6 || bitAt fl 12 then "E" else "G"
  let auth := at' 34 1
  let it := if auth = 0 then "ISO15118_PNC" else if auth = 1 then "CENTRAL" else "LOCAL"
  let sh := bitAt fl 2
  let imp := "01-00:01.08.00.FF"
  let exp := "01-00:02.08.00.FF"
  let both := at' 56 8 != at' 64 8
  let pair := fun (ms : Nat) (tx : String) (i e : Nat) =>
    ocmfRead ms tx sh i imp st :: if both then [ocmfRead ms tx sh e exp st] else []
  object [member "FV" (quoted (str "1.0")), member "GI" (quoted (str "RELETOS CZ-4816")), member "GS" (quoted ser),
    member "GV" (quoted (str "MK 3.2")), member "PG" (quoted (str "T" ++ dec r.seq.toNat)), member "MV" (quoted (str "Reletos")),
    member "MM" (quoted (str "CZ-4816")), member "MS" (quoted (ser ++ str "-M" ++ dec (at' 32 1))), member "IS" (str "true"),
    member "IT" (quoted (str it)), member "ID" (quoted (untilZero (slice b 120 32))),
    member "RD" ([0x5B] ++ commas (pair (at' 16 8) "B" (at' 40 8) (at' 56 8) ++ pair (at' 24 8) "E" (at' 48 8) (at' 64 8)) ++ [0x5D])]

/-- An unsigned DER integer. -/
def derInt (l : List Byte) : List Byte :=
  let t := l.dropWhile (fun b => b == 0)
  let t := if t.isEmpty then [0] else t
  let t := if 128 ≤ (t.headD 0).toNat then (0 : Byte) :: t else t
  [0x02] ++ leBytes 1 t.length ++ t

/-- The DER form of r ‖ s. -/
def derSig (sig : List Byte) : List Byte :=
  let c := derInt (sig.take 32) ++ derInt (sig.drop 32)
  [0x30] ++ leBytes 1 c.length ++ c

/-- The OCMF string of a stop record, with its P-256 signature over the payload. -/
def ocmfString (s : State) (r : Record) (k : Nat) : List Byte :=
  let p := ocmfPayload s r
  str "OCMF|" ++ p ++ str "|"
    ++ object [member "SA" (quoted (str "ECDSA-secp256r1-SHA256")), member "SD" (quoted (hexOf (derSig (metSign false p k))))]

/-- READ_OCMF: accepted for a stop record that is held. -/
def readOcmf (a : Vector Word 16) (s : State) : Reply :=
  if s.bill.store.any (fun r => r.seq == a[0] && r.rtype == 2) then .later { holdEngine s with bill.ocmfPend := some a[0] } .readOcmf
  else .deny s .badArg

def execReadOcmf (c : Call) (s : State) : Host.Outcome State Fault Refusal := live s (mbxCall .bill 0x0106 c readOcmf)

/-- READ_OCMF_DONE: the string is in the buffer. -/
def ocmfDone (s : State) : State :=
  if isPending s .bill .readOcmf then
    match s.bill.ocmfPend.bind (fun q => s.bill.store.find? (fun r => r.seq == q)) with
    | none => mbxDone .bill .badArg [] { s with bill.ocmfPend := none }
    | some r =>
      let d := s.draw
      let b := ocmfString s r d.1
      mbxDone .bill .done [wd b.length] { d.2 with bill.ocmfPend := none, bill.ocmfBuf := b }
  else s

def execReadOcmfDone (s : State) : Host.Outcome State Fault Refusal := live s ocmfDone

/-! ### The audit log's calls (R34, R144, R145, R147) -/

/-- The 32 bytes of an audit entry. -/
def auditBytes (e : AuditEntry) : List Byte := auditWords e ++ leBytes 4 e.chain.toNat

/-- The entries, oldest first. -/
def auditOldest (s : State) : List AuditEntry := s.bill.audit.reverse

/-- READ_AUDIT: entries from a SEQ on. When every entry held has been copied, the log has been read out (R34). -/
def readAudit (a : Vector Word 16) (s : State) : Reply :=
  let l := auditOldest s
  match l.findIdx? (fun e => e.seq == a[0]) with
  | none => .deny s .badArg
  | some i =>
    if a[1].toNat < 1 ∨ 64 < a[1].toNat then .deny s .badArg
    else
      let t := (l.drop i).take a[1].toNat
      let rd := if i ≤ s.bill.auditRead then max s.bill.auditRead (i + t.length) else s.bill.auditRead
      let s := { s with bill.auditBuf := (t.map auditBytes).flatten, bill.auditRead := rd }
      let s := if l.length ≤ rd then { s with sys.needAuditRead := false } else s
      .ok s [wd t.length, s.bill.auditSeq - 1]

def execReadAudit (c : Call) (s : State) : Host.Outcome State Fault Refusal := live s (mbxCall .met 0x0201 c readAudit)

/-- ARCHIVE_BEGIN: seals the oldest entries up to a SEQ that is held. -/
def archiveBegin (a : Vector Word 16) (s : State) : Reply :=
  match s.bill.audit.getLast? with
  | none => .deny s .badArg
  | some e =>
    if s.bill.audit.all (fun x => x.seq != a[0]) then .deny s .badArg
    else if s.bill.sealPend.isSome || s.bill.seal_.isSome then .deny s .busy
    else .later { holdEngine s with bill.sealPend := some (e.seq, a[0]) } .archive

def execArchiveBegin (c : Call) (s : State) : Host.Outcome State Fault Refusal := live s (mbxCall .met 0x0202 c archiveBegin)

/-- The entries that are held of those from one SEQ to another, oldest first (R145). -/
def sealSpan (first last : Word) (s : State) : List AuditEntry :=
  (auditOldest s).takeWhile fun e => decide (e.seq - first ≤ last - first)

/-- The bytes of the seal buffer. -/
def sealBytes (x : Seal) : List Byte := leBytes 4 x.first.toNat ++ leBytes 4 x.last.toNat ++ x.digest ++ x.sig

/-- ARCHIVE_SEAL_DONE: the seal is signed, journaled and shown. -/
def sealDone (s : State) : State :=
  match s.bill.sealPend with
  | none => s
  | some (f, l) =>
    if isPending s .met .archive then
      let dg := sha256 (((sealSpan f l s).map auditBytes).flatten)
      let d := s.draw
      let x : Seal := { first := f, last := l, digest := dg, sig := metSign false (leBytes 4 f.toNat ++ leBytes 4 l.toNat ++ dg) d.1 }
      mbxDone .met .done [] { d.2 with bill.sealPend := none, bill.seal_ := some x, bill.sealBuf := sealBytes x }
    else s

def execArchiveSealDone (s : State) : Host.Outcome State Fault Refusal := live s sealDone

/-- ARCHIVE_COMMIT: frees the sealed entries, then writes ARCHIVED and, when entries were lost, AUDIT_OVERFLOW. -/
def archiveCommit (a : Vector Word 16) (s : State) : Reply :=
  match s.bill.seal_ with
  | none => .deny s .refused
  | some x =>
    if x.last = a[0] then
      let n := (sealSpan x.first x.last s).length
      let s := { s with
        bill.audit := s.bill.audit.take (s.bill.audit.length - n), bill.auditRead := s.bill.auditRead - n, bill.seal_ := none }
      let s := s.audit 0x0010 0xFF 0 x.last (wd (leAt x.digest 0 4)) (wd (leAt x.digest 4 4))
      let lost : BitVec 16 := s.bill.lostCnt
      let s := if lost = 0 then s else s.audit 0x0011 0xFF 0 0 0 (wd lost.toNat)
      .ok { s with bill.lostCnt := 0 } []
    else .deny s .refused

def execArchiveCommit (c : Call) (s : State) : Host.Outcome State Fault Refusal := live s (mbxCall .met 0x0203 c archiveCommit)

/-! ### Credit (R159) -/

/-- A quotient rounded up. -/
def ceilDiv (a b : Nat) : Nat := (a + b - 1) / b

/-- The reserve of R159 in 10^-6 of the currency: power in W, the stop's time in ms, the active price and time fee. -/
def creditReserve (p tMs pimp tfee : Nat) : Nat := ceilDiv (p * tMs * pimp) 36000000 + ceilDiv (tfee * tMs) 60000

/-- T_RAMP of an outlet in ms, as SF03 takes it (R258). -/
def tRamp (s : State) (n : Port) : Nat := clamp 100 2000 (s.pf (0x20300600 + 0x20 * n.val) 10 0)

/-- CREDIT_CHECK: a RUNNING token session whose remaining credit is within the reserve gets a safe stop (R159). -/
def creditCheck (n : Port) (s : State) : State :=
  match s.sess n with
  | none => s
  | some x =>
    if x.state = .running ∧ x.token.isSome then
      let p := (s.met.m[x.meter].mpwr.toInt).toNat
      let ti := s.bill.core.ti.toFin
      let r := creditReserve p (tRamp s n + 500) x.pimp[ti].toNat x.tfee[ti].toNat
      if (x.credit : Int) * 10000 - costNow s x ≤ r then s.demand n 1 11 0x07 else s
    else s

def execCreditCheck (n : Port) (s : State) : Host.Outcome State Fault Refusal := live s (creditCheck n)

end Sys2Proof.Machine
end

