-- ==== Sys2Proof/Machine/Tokens.lean ====
section
/-! DEFINITION. Prepayment tokens (07_prepayment_tokens.md): keypad entry, decoding, the used-token ledger, the token
calls and key blobs (R148 to R162, R388). -/

namespace Sys2Proof.Machine

def State.modTok (s : State) (f : Tokens → Tokens) : State := { s with bill.tok := f s.bill.tok }

/-! ### Key blobs (R388) -/

/-- The device serial as the eight bytes that key derivation uses. -/
def serialBytes (s : State) : List Byte := beBytes 8 s.sys.serial.toNat

/-- A key blob opened with a transport key: its slot and the key; none when its version, purpose, length or tag fails. -/
def blobOpen (c : Curve) (d purpose : Nat) (serial blob : List Byte) : Option (Nat × List Byte) :=
  let head := blob.take 4
  let klen := leAt blob 3 1
  let epk := slice blob 4 (c.len + 1)
  if leAt blob 0 1 ≠ 1 ∨ leAt blob 1 1 ≠ purpose ∨ (klen ≠ 16 ∧ klen ≠ 32) then none
  else
    match ecDecompress c epk with
    | none => none
    | some (x, y) =>
      match ecdh c d x y with
      | none => none
      | some z =>
        let okm := hkdf256 serial z head 44
        (gcmDec (okm.take 32) (okm.drop 32) (head ++ epk) (slice blob (5 + c.len) klen) (slice blob (5 + c.len + klen) 16)).map
          fun k => (leAt blob 2 1, k)

/-- The key check value of R161: the first 3 bytes of AES-128 over the zero block, 0 for an empty slot. -/
def keyCheck (k : Option (BitVec 128)) : Word :=
  match k with
  | none => 0
  | some k => wd (beNat ((aesEnc (beBytes 16 k.toNat) (List.replicate 16 0)).take 3))

/-! ### Decoding (R151 to R154) -/

/-- The working key of R151's preamble: AES-128 over a block that begins with a number. -/
def workKey (kt : BitVec 128) (n : Nat) : List Byte := aesEnc (beBytes 16 kt.toNat) (fit 16 [BitVec.ofNat 8 n])

/-- The inner value of the digits under one slot, when R152 accepts it. -/
def slotValue (kt : BitVec 128) (slot tdom : Nat) (digits : List Nat) : Option Nat :=
  let v := numeral (ff1Decrypt (workKey kt 1) (beBytes 4 tdom) digits)
  if 2 ^ 66 ≤ v ∨ bitsOf v 62 60 ≠ slot then none
  else if beNat ((cmac (workKey kt 2) (beBytes 4 tdom ++ beBytes 7 (v / 2 ^ 16))).take 2) = v % 2 ^ 16 then some v
  else none

/-- The inner values that the enabled slots accept. -/
def candidates (s : State) (digits : List Nat) : List Nat :=
  (fins 8).filterMap fun k => (s.bill.tok.slots[k]).bind fun kt => slotValue kt k.val (s.par 0x20240034).toNat digits

/-- The fields of an inner value (R153). -/
def tokenOf (v : Nat) : Token :=
  { key := { kid := BitVec.ofNat 3 (bitsOf v 62 60), iday := BitVec.ofNat 14 (bitsOf v 59 46), serial := BitVec.ofNat 14 (bitsOf v 29 16) },
    credit := BitVec.ofNat 16 (bitsOf v 45 30) }

/-- The day number of the standard-time date of a legal time in ms. -/
def dayNum (s : State) (ms : Nat) : Int := stdMin s.par ms / 1440

/-- Whether the ledger holds a token. -/
def inLedger (s : State) (k : TokenKey) : Bool := s.bill.tok.ledger.any fun e => e.any fun e => e.key == k

/-- Whether a session open on a port would be turned away now (R154 check 7). -/
def outletTaken (s : State) (n : Port) : Bool :=
  match outletMeter s n with
  | none => true
  | some m => (openChecks s n m).any (·.1)

/-- The first check of R154 that fails decides the result code. -/
def tokenCheck (s : State) (n : Port) (ver : Nat) (t : Token) : Byte :=
  let d := dayNum s s.legalMs
  let h := dayNum s s.hwmMs
  let sfee := match outletMeter s n with
    | some m => (s.par (0x20240200 + 4 * m.val)).toNat
    | none => 0
  if !s.time.lvalid then 0x0A
  else if ver ≠ 1 then 0x03
  else if d + 1 < (t.key.iday.toNat : Int) then 0x04
  else if (t.key.iday.toNat : Int) + 729 < h then 0x05
  else if inLedger s t.key then 0x06
  else if t.credit.toNat * 10000 ≤ sfee then 0x07
  else if outletTaken s n then 0x08
  else 0x00

/-! ### Keypad entry (R148 to R151) -/

/-- The entry ends with a result: source 85, and an OK result becomes the port's pending token (R150). -/
def endEntry (port : Option Port) (code : Byte) (t : Option Token) (s : State) : State :=
  let s := (s.modTok fun k => { k with entry := false, keys := [], lastPort := port, lastCode := some code, lastTok := t }).raise 85
  match port, t with
  | some n, some t => if code = 0 then s.modTok fun k => { k with pendTok := k.pendTok.set n (some (t, s.time.sysNs)) } else s
  | _, _ => s

/-- The port of an entry's first key. -/
def entryPort : List (BitVec 4) → Option Port
  | [] => none
  | k :: _ => if 1 ≤ k.toNat then some (Fin.ofNat 8 (k.toNat - 1)) else none

/-- Whether the fifth newest of a list of instants lies within ten minutes of now. -/
def fiveSoon (now : Nat) (l : List (BitVec 64)) : Bool :=
  match l.drop 4 with
  | [] => false
  | x :: _ => decide (now < x.toNat + 600000000000)

/-- An INVALID result is counted; the fifth within ten minutes sets LOCKED (R151). -/
def countInvalid (s : State) : State :=
  let l := (s.time.sysNs :: s.bill.tok.invalidAt).take 5
  let s := s.modTok fun k => { k with invalidCnt := satInc k.invalidCnt, invalidAt := l }
  if fiveSoon s.now l then s.modTok fun k => { k with lockedAt := some s.time.sysNs } else s

/-- TOKEN_DECODE of 21 keys (R152, R154). -/
def tokenDecode (keys : List (BitVec 4)) (s : State) : State :=
  let port := entryPort keys
  match candidates s ((keys.drop 1).map (·.toNat)), port with
  | [v], some n =>
    let t := tokenOf v
    endEntry port (tokenCheck s n (bitsOf v 65 63) t) (some t) s
  | _, _ => countInvalid (endEntry port 0x02 none s)

/-- TOKEN_ENTRY_KEY: the keys of the table under R149, each with a source 85 event. -/
def tokenKey (k : BitVec 4) (s : State) : State :=
  let s := s.raise 85
  let l := s.bill.tok.keys
  if k.toNat ≤ 9 then
    if l.isEmpty ∧ (k = 0 ∨ k = 9) then endEntry none 0x08 none s
    else if l.length < 21 then s.modTok fun t => { t with keys := l ++ [k] }
    else s
  else if k = 0xE then s.modTok fun t => { t with keys := l.dropLast }
  else if k = 0xF then
    if s.bill.tok.lockedAt.isSome then endEntry (entryPort l) 0x0B none s
    else if l.length = 21 then tokenDecode l s
    else endEntry (entryPort l) 0x01 none s
  else if k = 0xD then endEntry (entryPort l) 0x09 none s
  else s

/-- TOKEN_ENTRY_START: key A with EN set and no entry active (R148). -/
def tokenStart (s : State) : State := (s.modTok fun t => { t with entry := true, keys := [] }).raise 85

/-- TOKEN_ENTRY_TIMEOUT: no key for TMO seconds; the result is CANCELLED (R149). -/
def execTokenEntryTimeout (s : State) : Host.Outcome State Fault Refusal :=
  live s fun s => if s.bill.tok.entry then endEntry (entryPort s.bill.tok.keys) 0x09 none s else s

/-- PENDING_TOKEN_EXPIRY: 60 s have passed since the OK result (R150). -/
def execPendingTokenExpiry (n : Port) (s : State) : Host.Outcome State Fault Refusal :=
  live s fun s => s.modTok fun k => { k with pendTok := k.pendTok.set n none }

/-- TOKEN_LOCK_EXPIRY: ten minutes after the fifth INVALID entry (R151). -/
def execTokenLockExpiry (s : State) : Host.Outcome State Fault Refusal :=
  live s fun s => s.modTok fun k => { k with lockedAt := none }

/-- Every pending token is discarded: on entry to DEGRADED or LOCKOUT, and at a power-fail save (R150). -/
def discardTokens (s : State) : State := s.modTok fun k => { k with pendTok := Vector.replicate 8 none }

/-! ### Calls (R155 to R162) -/

/-- TOKEN_RESULT. What a result without a port or without a verified token leaves open is free. -/
def tokenResult (_ : Vector Word 16) (s : State) : Reply :=
  match s.bill.tok.lastCode with
  | none => .deny s .badArg
  | some code =>
    let r := freeWords 4000 6 s
    let port := match s.bill.tok.lastPort with
      | some n => wd n.val
      | none => r.1.getD 0 0
    let rest := match s.bill.tok.lastTok with
      | some t => [wd t.credit.toNat, wd t.key.iday.toNat, wd t.key.kid.toNat, wd t.key.serial.toNat, wd (t.key.iday.toNat + 729)]
      | none => r.1.drop 1
    .ok r.2 (port :: wd code.toNat :: rest)

def execTokenResult (c : Call) (s : State) : Host.Outcome State Fault Refusal := live s (mbxCall .bill 0x0201 c tokenResult)

/-- Occupied ledger entries. -/
def ledgerUsed (s : State) : Nat := s.bill.tok.ledger.countP (·.isSome)

/-- Put an entry at the first empty place. -/
def ledgerPut (e : LedgerEntry) : List (Option LedgerEntry) → List (Option LedgerEntry)
  | [] => [some e]
  | none :: r => some e :: r
  | some x :: r => some x :: ledgerPut e r

/-- Every SPENT entry whose IDAY + 730 is at most H goes (R156). -/
def ledgerPurge (h : Int) (l : List (Option LedgerEntry)) : List (Option LedgerEntry) :=
  l.map fun e => e.filter fun e => !(e.spent && decide ((e.key.iday.toNat : Int) + 730 ≤ h))

/-- A refused TOKEN_OPEN carries the result code in RES2. -/
def denyCode (s : State) (code : Word) : Reply :=
  let r := (s.box .bill).res
  { s := s, st := .refused, res := [r[0], r[1], code], what := none }

/-- The binding of a token: its ledger entry, then the session (R155, R156, R158). -/
def bindToken (n : Port) (m : MeterId) (t : Token) (ext : List Byte) (s : State) : Reply :=
  let s1 := if ledgerUsed s = 8192 then s.setLedger (ledgerPurge (dayNum s s.hwmMs) s.bill.tok.ledger) else s
  if ledgerUsed s1 = 8192 then
    let f := (s.modTok fun k => { k with ledgerFull := true }).evlog 0x0007 0xFF (wd 8192) 0 0
    .deny f .ledgerFull
  else
    let id := s.bill.sessCount + 1
    let e : LedgerEntry := { key := t.key, spent := false, credit := t.credit, id := id, lt := BitVec.ofNat 64 s.legalMs }
    let s2 := (s1.setLedger (ledgerPut e s1.bill.tok.ledger)).modTok fun k =>
      { k with ledgerFull := false, acceptCnt := satInc k.acceptCnt, pendTok := k.pendTok.set n none }
    .ok (openSession n m 2 ext (some t) s2) (words2 id.toNat)

/-- TOKEN_OPEN (R158, R162). -/
def tokenOpen (a : Vector Word 16) (s : State) : Reply :=
  let k := match argPort a[0] with
    | none => denyCode s 0x0C
    | some n =>
      match s.bill.tok.pendTok[n], outletMeter s n with
      | none, _ => denyCode s 0x0C
      | some (t, _), none => denyCode s (if inLedger s t.key then 0x06 else 0x08)
      | some (t, _), some m =>
        if inLedger s t.key then denyCode s 0x06
        else if (openChecks s n m).any (fun c => c.1 && c.2 == .refused) then denyCode s 0x08
        else checks s (openChecks s n m) (bindToken n m t (extrefOf a 1) s)
  checks s [(s.sys.mode == .lockout, .lockedOut), (s.sys.mode == .commission, .notConfirmed)] k

def execTokenOpen (c : Call) (s : State) : Host.Outcome State Fault Refusal := live s (mbxCall .bill 0x0202 c tokenOpen)

def tokenDiscard (a : Vector Word 16) (s : State) : Reply :=
  match argPort a[0] with
  | none => .deny s .badArg
  | some n => .ok (s.modTok fun k => { k with pendTok := k.pendTok.set n none }) []

def execTokenDiscard (c : Call) (s : State) : Host.Outcome State Fault Refusal := live s (mbxCall .bill 0x0203 c tokenDiscard)

/-- The 24 bytes of a ledger entry. -/
def ledgerBytes : Option LedgerEntry → List Byte
  | none => List.replicate 24 0
  | some e =>
    leBytes 4 (at_ (if e.spent then 2 else 1) 30 + at_ e.key.iday.toNat 14 + e.key.serial.toNat)
      ++ leBytes 4 (at_ e.key.kid.toNat 16 + e.credit.toNat) ++ leBytes 8 e.id.toNat ++ leBytes 8 e.lt.toNat

def ledgerRead (a : Vector Word 16) (s : State) : Reply :=
  let first := a[0].toNat
  let n := a[1].toNat
  if 8192 ≤ first ∨ n < 1 ∨ 64 < n then .deny s .badArg
  else
    let n := min n (8192 - first)
    .ok { s with bill.recBuf := ((List.range n).map fun i => ledgerBytes (s.bill.tok.ledger.getD (first + i) none)).flatten } [wd n]

def execLedgerRead (c : Call) (s : State) : Host.Outcome State Fault Refusal := live s (mbxCall .bill 0x0204 c ledgerRead)

/-- TOKEN_KEY_LOAD: into the open BILL transaction (R161). -/
def tokenKeyLoad (a : Vector Word 16) (s : State) : Reply :=
  let d := s.txn.dom[(2 : Fin 6)]
  let put := fun (k : Option (BitVec 128)) =>
    Reply.ok (s.modTxn 2 fun d => { d with keys := d.keys ++ [(a[0].toNat, k)] }) []
  if 8 ≤ a[0].toNat ∨ 2 ≤ a[1].toNat then .deny s .badArg
  else if a[1] = 1 then checks s [(d.st != .open_, .noTxn)] (put none)
  else
    match if s.sec.zeroised then none else blobOpen p256 (Config.ttk s.sec.gen) 1 (serialBytes s) s.bill.mbxin with
    | none => .deny s .badArg
    | some (slot, k) =>
      checks s [(slot != a[0].toNat || k.length != 16, .badArg), (d.st != .open_, .noTxn)] (put (some (BitVec.ofNat 128 (beNat k))))

def execTokenKeyLoad (c : Call) (s : State) : Host.Outcome State Fault Refusal := live s (mbxCall .bill 0x0205 c tokenKeyLoad)

def tokenKeyInfo (a : Vector Word 16) (s : State) : Reply :=
  match argPort a[0] with
  | none => .deny s .badArg
  | some k => .ok s [wd (b2n (s.bill.tok.slots[k]).isSome), keyCheck s.bill.tok.slots[k]]

def execTokenKeyInfo (c : Call) (s : State) : Host.Outcome State Fault Refusal := live s (mbxCall .bill 0x0206 c tokenKeyInfo)

end Sys2Proof.Machine
end

