-- ==== Sys2Proof/Machine/Modes.lean ====
section
/-! DEFINITION. Mode transitions (R25 to R48): entry into DEGRADED and LOCKOUT, the latching faults that lead there
(R240, R246), and the ways back. -/

namespace Sys2Proof.Machine

/-! ### Ties and pending requests that a transition ends (R238, R28) -/

/-- A tie close that has not issued its coil command is abandoned with TIEFAIL (R238). -/
def abandonTie (c : Fin 12) (s : State) : State :=
  match (s.safe.coil[c]).tie with
  | some t =>
    if !t.open_ && (s.safe.coil[c]).drive == .off then
      (endClose c .refused (s.modCoil c fun x => { x with tie := none })).poolEvt 4
    else s
  | none => s

/-- Close requests that have not issued their coil command end with REFUSED, and tie closes are abandoned. -/
def abandonCloses (s : State) : State :=
  seqCheck (forAll (fins 12) (fun s c =>
    let x := s.safe.coil[c]
    if x.tie.isSome then abandonTie c s
    else if x.ph == .conds || x.ph == .queued || x.ph == .annClose then endClose c .refused s else s) s)

/-- A SET_OOS that waits ends with a status (R27, R28). -/
def endOos (st : Status) (s : State) : State :=
  match s.safe.oosReq with
  | none => s
  | some _ => mbxDone .safe st [] { s with safe.oosReq := none }

/-- Roll back one open transaction: the shadow is discarded and nothing else changes (R350, R356). -/
def rollbackDom (d : Fin 6) (s : State) : State :=
  let s := s.modTxn d fun t => { t with st := .idle, ovf := false, shadow := [], keys := [], lease := 0 }
  let s := if d = 5 then { s with thl.pr := .none, thl.shadow := [] } else s
  { s with txn.rollbackCnt := satInc s.txn.rollbackCnt }

/-- Roll back every open transaction whose commit has not been accepted, and raise source 173 (R356). -/
def rollbackOpen (s : State) : State :=
  forAll (fins 6) (fun s d => if (s.txn.dom[d]).st = .open_ then (rollbackDom d s).raise 173 else s) s

/-! ### Changing the mode (R27) -/

/-- Whether a transition raises PLIC source 1. -/
def modeRaises (a b : Mode) : Bool :=
  b == .lockout || b == .degraded
    || ((a == .commission || a == .service || a == .maintain) && (b == .commission || b == .service || b == .maintain))

/-- The transition itself: PREV, MODE, the event-log entry, source 1, the overrides of R189 and the load switches. The
entry's trigger code is a free value: the spec numbers no triggers. -/
def setMode (m : Mode) (s : State) : State :=
  if s.sys.mode = m then s
  else
    let old := s.sys.mode
    let d := s.draw
    let s := { d.2 with sys.prev := old, sys.mode := m }
    let s := s.evlog 0x0001 0xFF (wd old.code.toNat) (wd m.code.toNat) (Config.freeAt 5000 d.1)
    let s := if modeRaises old m then s.raise 1 else s
    let s := if old = .commission then { s with safe.entry := none } else s
    loadAll (forAll (fins 8) (fun s n => imposeOverride s n) s)

/-- End what a transition into DEGRADED or LOCKOUT ends: open transactions, pending tokens, OPENED sessions, waiting
closes and a waiting SET_OOS. -/
def endPending (cause : Nat) (s : State) : State :=
  let s := discardTokens (rollbackOpen s)
  let s := forAll (fins 8) (fun s n => cancelSession n cause s) s
  endOos .refused (abandonCloses s)

/-! ### DEGRADED (R38 to R40) -/

/-- The safe stops of R39 and R243: every outlet with a session that is OPENED or RUNNING, and one that is closed or closing
although its session has gone, so that none stays energised (R25, R40). -/
def degradedStops (s : State) : State :=
  forAll (fins 8) (fun s n =>
    if (s.sess n).any (fun x => x.state != .stopping) || ((s.sess n).isNone && outletLive s n) then s.demand n 1 12 0x04 else s) s

/-- The vehicle ports stop transmitting and end their networks (R224). -/
def portsSilent (s : State) : State :=
  forAll (fins 8) (fun s n =>
    let s := linkLost s n
    s.modLink n dropQueued) s

/-- After an entry into DEGRADED in trial, the device resets itself once every session is signed (R405). -/
def trialFails (s : State) : State := if s.upd.st = .trial then { s with upd.resetDeg := true } else s

/-- What every entry into DEGRADED does (R39, R356). -/
def degradedEntry (s : State) : State :=
  let s := { s with sys.degSince := s.time.sysNs, sys.coresRun := false, sys.wdogRun := false }
  trialFails (portsSilent (endPending 3 (degradedStops (dmaAllOff (setMode .degraded s)))))

/-- Entry into DEGRADED (R39). -/
def enterDegraded (c : DegCause) (s : State) : State := degradedEntry { s with sys.degCause := some c }

/-- A trigger of DEGRADED: in LOCKOUT the condition is latched, with the latest trigger as its cause (R28; DESIGN CHOICE, the
spec names no cause for several); in DEGRADED it changes nothing. -/
def degTrigger (c : DegCause) (s : State) : State :=
  match s.sys.mode with
  | .commission => enterDegraded c s
  | .service => enterDegraded c s
  | .maintain => enterDegraded c s
  | .lockout => { s with sys.degLatched := true, sys.degCause := some c, sys.coresRun := false, sys.wdogRun := false }
  | .degraded => s
  | .start => s
  | .activate => s
  | .retain => s

/-! ### LOCKOUT and the latching faults (R42, R240, R246) -/

/-- Entry into LOCKOUT: every coil pair off, every session on its way to a signed stop record (R42). -/
def enterLockout (s : State) : State :=
  match s.sys.mode with
  | .lockout => s
  | .start => s
  | .activate => s
  | .retain => s
  | m =>
    let s := if m = .degraded then { s with sys.degLatched := true } else s
    let s := endPending 4 (setMode .lockout s)
    let s := forAll (fins 12) (fun (s : State) c =>
      coilOff c true (s.modCoil c fun x => { x with tie := none })) s
    seqCheck (forAll (fins 8) (fun (s : State) n =>
      s.modSess n fun x => if x.state = .running ∧ x.reason = none then { x with reason := some 0x05 } else x) s)

/-- The fault codes that act by the safe-state command. -/
def byCommand (code : Nat) : Bool := decide (1 ≤ code ∧ code ≤ 4)

/-- The safe-state command: every switch off in hardware; the stop frames of every outlet follow when the runtime acts, and
both cores restart (R23, R240, R246). -/
def safeState (s : State) : State :=
  let live := (fins 8).filter (fun n => outEn s n)
  let s := { s with safe.release := s.safe.release ++ live, safe.restarting := true }
  forAll (fins 12) (fun s c => coilOff c true s) s

/-- The category 0 demand of a latching fault on every outlet, at that tick (R246). A weld is SF05's own demand; the
others end with the contactors open. -/
def latchStops (code : Nat) (s : State) : State :=
  forAll (fins 8) (fun s n =>
    if outEn s n then
      if code = 7 then accept { port := n, cat := 0, cause := 4, reason := 0x05, why := .weld } s
      else accept { port := n, cat := 0, cause := 12, reason := 0x05, why := .ends } s
    else s) s

/-- A latching fault (R246): the latch with its cause, a protected log entry, and the reaction. -/
def latchFault (code : Fin 10) (s : State) : State :=
  let s := { s with
    safe.first := if s.safe.latch then s.safe.first else BitVec.ofNat 4 code.val
    safe.latch := true
    safe.causes := s.safe.causes ||| BitVec.ofNat 10 (2 ^ code.val)
    safe.spOk := if code.val = 6 then 0 else s.safe.spOk
    safe.rcOk := if code.val = 5 then 0 else s.safe.rcOk }
  let s := (s.sfEvt 1).slogPut 0x0001 0xFF (wd s.safe.causes.toNat) (wd s.safe.first.toNat) true
  let s := if byCommand code.val then safeState s else if code.val = 0 then s else latchStops code.val s
  enterLockout s

/-! ### Leaving LOCKOUT and COMMISSION (R27, R35, R46) -/

/-- The decision table of R35 from its order 3 onward. -/
def normalMode (s : State) : Mode :=
  if s.sys.simgNone || s.safe.confirmed != some s.safe.chk then .commission
  else if s.sys.oos ≠ 0 then .maintain else .service

/-- LOCKOUT is left to DEGRADED if that condition is latched, and otherwise by the table (R46). -/
def leaveLockout (s : State) : State :=
  if s.sys.degLatched then degradedEntry { s with sys.degLatched := false } else setMode (normalMode s) s

/-! ### Sessions at the contactors (R127, R128) -/

/-- The contactors of an outlet are confirmed closed. -/
def confirmClosed (n : Port) (s : State) : State := sessionStart n s

/-- Whether a set leads from MAINTAIN to COMMISSION: it is empty, and a commit has altered the safety check value (R27). -/
def entersCommission (s : State) (set : BitVec 8) : Bool :=
  s.sys.mode == .maintain && set == 0 && normalMode { s with sys.oos := 0 } == .commission

/-- Whether a set asks for an outlet's contactor to be open: that of each of its outlets, and of every outlet where the
device comes to COMMISSION, which energises none (R25, R27). -/
def oosOpens (s : State) (set : BitVec 8) (n : Port) : Bool := set.getLsbD n.val || entersCommission s set

/-- The stops, with reason OUT_OF_SERVICE, of the outlets that a set asks to be open and that are not. -/
def oosStops (set : BitVec 8) (s : State) : State :=
  let stops := (fins 8).filter fun n =>
    oosOpens s set n && !s.sys.oos.getLsbD n.val && !standsOpen s n && !stopRuns s n
  forAll stops (fun (s : State) n => s.demand n 1 12 0x09) s

/-- Whether a SET_OOS can be completed: every contactor that it asks to be open is (R27). -/
def oosReady (s : State) (set : BitVec 8) : Bool :=
  (fins 8).all fun n => !oosOpens s set n || (match outletCoil s n with
    | some c => (s.safe.coil[c]).st == .open_
        || ((s.safe.coil[c]).st == .fault && !(s.safe.coil[c]).welded && (s.safe.si[fbIn s c]).deb)
    | none => true)

/-- Complete a waiting SET_OOS: the set, the mode, the overrides and the legal regions (R27, R173). The exit from MAINTAIN
lets the outlets of R34 return. -/
def oosDone (s : State) : State :=
  match s.safe.oosReq with
  | none => s
  | some set =>
    if oosReady s set then
      let was := s.sys.oos
      let s := { s with sys.oos := set, sys.lossOos := if set = 0 then 0 else s.sys.lossOos, safe.oosReq := none }
      let s := if s.sys.mode = .service ∧ set ≠ 0 then setMode .maintain s
        else if s.sys.mode = .maintain ∧ set = 0 then setMode (normalMode s) s else s
      let s := forAll (fins 8) (fun (s : State) n =>
        if set.getLsbD n.val != was.getLsbD n.val then (imposeOverride s n).legalReq n else s) s
      mbxDone .safe .done [] s
    else oosStops set s

/-- The contactors of an outlet are confirmed open: the session stops, host and kernel demands end (R128, R247). -/
def confirmOpen (n : Port) (s : State) : State :=
  let s := s.modOut n fun o => { o with ramp := none, stop := if o.stop = 4 then 4 else if o.stop = 0 then 0 else 3 }
  oosDone (endDemands n (sessionStop n 0x03 s))

end Sys2Proof.Machine
end

