-- ==== Sys2Proof/Machine/SafeFast.lean ====
section
/-! DEFINITION. The hardware fast trip of SF08 (R268), which follows every fast sample, and the FAST_SAMPLE command. -/

namespace Sys2Proof.Machine

/-- One comparator after a fast sample of its channel: the consecutive samples above the threshold. -/
def compStep (above : Bool) (k : Nat) : Nat := if above then k + 1 else 0

/-- The comparators of an outlet after a fast sample of clock group g: voltage on a DC outlet, and each current. -/
def fastComps (g : Fin 2) (n : Port) (s : State) : State :=
  let ftol := s.pf (outA n + 8) 15 12
  let ifast := s.pf (outA n + 8) 31 16
  let s := match vChan s n with
    | some c =>
      if inGroup s g c && !isAc s n then
        let code := codeOf s c ((s.safe.out[n]).vlim.toNat * (100 + ftol)) 100
        let above := (s.safe.out[n]).lims.isSome && decide ((code : Int) < (s.met.ch[c]).fast)
        s.modOut n fun o => { o with fastV := compStep above o.fastV }
      else s
    | none => s
  forAll (iChans s n).zipIdx (fun (s : State) p =>
    if inGroup s g p.1 then
      let above := decide (codeOf s p.1 ifast 1 < (s.met.ch[p.1]).fast.natAbs)
      s.modOut n fun o => { o with fastI := vmod o.fastI (Fin.ofNat 3 p.2) (compStep above) }
    else s) s

/-- A fast trip: the coil-off command in hardware, the counter, and the demand; the stop frames follow at the next tick
(R23, R261). -/
def fastTrip (n : Port) (s : State) : State :=
  match outletCoil s n with
  | some c =>
    let s := coilOff c true (s.modOut n fun o => { o with fasttrip := satInc o.fasttrip })
    (({ s with safe.release := s.safe.release ++ [n] }).sfEvt 4).raiseDem n 0 7 0x03 .fastTrip
  | none => s

/-- Whether a comparator has just counted its second consecutive fast sample above its threshold. -/
def tripped (was now : Outlet) : Bool :=
  (decide (was.fastV = 1) && decide (now.fastV = 2))
    || (fins 3).any fun k => decide (was.fastI[k] = 1) && decide (now.fastI[k] = 2)

/-- The comparators of one outlet and their trip: at the second consecutive fast sample above a threshold. -/
def fastOutlet (g : Fin 2) (n : Port) (s : State) : State :=
  if !outEn s n then s
  else
    let t := fastComps g n s
    if tripped (s.safe.out[n]) (t.safe.out[n]) then fastTrip n t else t

/-- FAST_SAMPLE: sixteen modulator bits of each channel of a clock group, then the comparators of every outlet. -/
def execFastSample (g : Fin 2) (bits miss : Vector (BitVec 16) 32) (s : State) : Host.Outcome State Fault Refusal :=
  live s fun s => forAll (fins 8) (fun s n => fastOutlet g n s) (fastSample g bits miss s)

end Sys2Proof.Machine
end

