-- ==== Sys2Proof/Machine/SafeFunctions.lean ====
section
/-! DEFINITION. The safety tick (R242): inputs, tick means, the safety functions SF01 to SF09, demands and outputs; and the
pool supervisor's part of it (R231 to R234). -/

namespace Sys2Proof.Machine

/-! ### Step 1: the safe inputs (R281 to R286, R44) -/

/-- One input's sample: an input with INFAULT counts as 0; the debounce of a feedback input counts ticks of the other
value. -/
def sampleIn (lvl : Bool) (x : SafeIn) : SafeIn :=
  let v := lvl && !x.infault
  { x with val := v, run := if v = x.deb then 0 else x.run + 1 }

def stopA (j : Fin 8) : Nat := 0x203008C0 + 4 * j.val
def stopEn (s : State) (j : Fin 8) : Bool := s.pb (stopA j) 31
def stopIn (s : State) (j : Fin 8) : Fin 16 := Fin.ofNat 16 (s.pf (stopA j) 23 20)
def stopMask (s : State) (j : Fin 8) : List Port := (fins 8).filter (fun n => s.pb (stopA j) n.val)
def siA (i : Fin 16) : Nat := 0x20300980 + 4 * i.val

/-- One stop pair's tick: the demand at the first 0 of either channel, the discrepancy count, and step 1 of the re-arm. -/
def pairTick (j : Fin 8) (s : State) : State :=
  if !stopEn s j then s
  else
    let a := (s.safe.si[stopIn s j]).val
    let b := (s.safe.si[stopIn s j + 1]).val
    let t := s.safe.tick
    let demanding := (fins 8).any (fun n => (s.safe.out[n]).dems.any (·.why == .pair j))
    let s := s.modPair j fun p =>
      { p with
        diff := if a = b then 0 else p.diff + 1
        fired := if a = b then false else p.fired
        agree := if a = b then p.agree + 1 else 0
        ones := if a && b then p.ones + 1 else 0
        step1 := if a && b then (if 4 ≤ p.ones + 1 then (if p.step1.isSome then p.step1 else some t) else none) else none
        ties := p.ties || (!(a && b) && s.pb (stopA j) 29) }
    if a && b then s
    else
      let s := if demanding then s else s.siEvt (8 + j.val)
      forAll (stopMask s j) (fun s n => s.raiseDem n (s.pf (stopA j) 30 30) 5 0x03 (.pair j)) s

/-- One tick of a level that is measured as a pulse. -/
def pulseTick (lvl : Bool) (t : Nat) (p : Pulse0) : Pulse0 :=
  if lvl then
    { p with high := p.high + 1, rise := if p.high = 0 then t else p.rise, ignore := p.ignore || decide (8000 ≤ p.high) }
  else { p with high := 0, ignore := false, fell := if 0 < p.high ∧ !p.ignore then some (p.high, p.rise) else p.fell }

/-- The re-arm input, where one is configured (R285). -/
def rainIn (s : State) : Option (Fin 16) := (fins 16).find? (fun i => s.pb (siA i) 29)

/-- One connection's tick: how long each stop bit has read 1 (R285, R293). -/
def connTick (k : Fin 16) (s : State) : State :=
  let t := s.safe.tick
  s.modConn k fun c =>
    { c with
      ones := Vector.ofFn fun (n : Port) => if c.bits.getLsbD n.val then c.ones[n] + 1 else 0
      step1 := Vector.ofFn fun (n : Port) =>
        if c.bits.getLsbD n.val then (if 4 ≤ c.ones[n] + 1 ∧ c.step1[n] = none then some t else c.step1[n]) else none }

/-- Step 1 of the tick. -/
def tickInputs (lv : BitVec 16) (lorst : Bool) (s : State) : State :=
  let s := { s with safe.si := Vector.ofFn fun (i : Fin 16) => sampleIn (lv.getLsbD i.val) s.safe.si[i] }
  let s := forAll (fins 8) (fun s j => pairTick j s) s
  let s := forAll (fins 16) (fun s k => connTick k s) s
  let rain := match rainIn s with
    | some i => (s.safe.si[i]).val
    | none => false
  { s with safe.rain := pulseTick rain s.safe.tick s.safe.rain, safe.lorst := pulseTick lorst s.safe.tick s.safe.lorst }

/-! ### Step 2: tick means -/

/-- The tick's sums are closed and new ones begin. -/
def tickMeans (s : State) : State :=
  { s with safe.tm := s.met.tick, met.tick := Vector.replicate 32 { sum := 0, n := 0, sq := 0, ok := true } }

/-! ### Step 3: the SP copies and the cross-check (R12, R332) -/

/-- The cross-check of R12: the 25 MHz reference, which carries system time, has counted more than 2 % less or more than 16 ms
over the last 64 ticks of the RC time base. A stopped reference counts less. -/
def refOff (s : State) : Bool :=
  match s.safe.refAt[63]? with
  | some t => decide (320000 < ((s.now : Int) - t.toNat - 16000000).natAbs)
  | none => false

def tickChecks (spDiff rcBad : Bool) (s : State) : State :=
  let s := { s with safe.spOk := if spDiff then 0 else s.safe.spOk + 1, safe.rcOk := if rcBad then 0 else s.safe.rcOk + 1 }
  let s := if spDiff && !s.safe.causes.getLsbD 6 then latchFault 6 s else s
  if rcBad && !s.safe.causes.getLsbD 5 then latchFault 5 s else s

/-! ### Step 4: SF01 (R249 to R251) -/

/-- Full weight, sum and sum of squares of the newest values within WIN ms of sampled time, in units of 3.2 µs. -/
def rcSums (limit : Nat) : List (Int × Nat) → Nat × Int × Int
  | [] => (0, 0, 0)
  | (v, w) :: r =>
    if limit < w then (0, 0, 0)
    else
      let t := rcSums (limit - w) r
      (t.1 + w, t.2.1 + w * v, t.2.2 + w * (v * v))

/-- WIN in units of 3.2 µs, 312.5 of them a millisecond. -/
def rcLimit (s : State) (n : Port) : Nat := clamp 10 40 (s.pf (outA n + 0x10) 23 16) * 625 / 2

/-- Whether the mean or the RMS of the window reaches num/den of the thresholds I_DC (0.1 mA) and I_AC (mA). -/
def rcReaches (s : State) (n : Port) (num den : Nat) : Bool :=
  let t := rcSums (rcLimit s n) (s.safe.out[n]).rc
  let fs := s.pf (outA n + 0x14) 31 16
  let dc := s.pf (outA n + 0x10) 7 0 * 2 ^ 23 * num
  let ac := 10 * s.pf (outA n + 0x10) 15 8 * 2 ^ 23 * num
  let w := t.1
  let sd := t.2.1.natAbs * fs * den
  let var := ((t.2.2 * w - t.2.1 * t.2.1).toNat) * (fs * den) ^ 2
  decide (0 < w) && (decide (dc * w ≤ sd) || decide (ac ^ 2 * w ^ 2 ≤ var))

def rcSlot (s : State) (n : Port) : Nat := s.pf (outA n + 0x10) 31 28

/-- Whether the converter that carries an input is in its idle slot. -/
def inGap (s : State) (src : Nat) : Bool :=
  (fins 4).any fun a =>
    s.pb (adBase a) 31 && (List.range (adNslot s a)).any (fun k => slotSrc s a k == src) && slotSrc s a (s.met.adc[a]).slot == 15

/-- Whether the newest value lies beyond ±95 % of full scale. -/
def rcBeyond (s : State) (n : Port) : Bool :=
  match (s.safe.out[n]).rc with
  | [] => false
  | (v, _) :: _ => decide (95 * 2 ^ 23 < 100 * v.natAbs)

/-- SF01 of one AC outlet. -/
def sf01 (n : Port) (s : State) : State :=
  if !isAc s n || rcSlot s n == 15 then s
  else
    let gap := inGap s (rcSlot s n)
    let close := !rcReaches s n 1 2 && !(s.safe.out[n]).rc.isEmpty
    let s := s.modOut n fun o =>
      { o with rcMiss := if o.rcSeen then 0 else if gap then o.rcMiss else o.rcMiss + 1, rcSeen := false,
               rcOk := if close then o.rcOk + 1 else 0 }
    let s := if rcReaches s n 1 1 then s.raiseDem n 0 0 0x03 .sf01 else s
    if rcBeyond s n || decide (4 ≤ (s.safe.out[n]).rcMiss) then s.raiseDem n 0 0 0x03 .rcSensor else s

/-! ### Step 4: SF07 (R265, R266) -/

/-- The temperature sensors of an outlet, with which of the two each is. -/
def tSlots (s : State) (n : Port) : List (Fin 2 × Fin 16) :=
  (if s.pf (outA n + 0xC) 31 28 ≤ 11 then [((0 : Fin 2), Fin.ofNat 16 (s.pf (outA n + 0xC) 31 28))] else [])
    ++ (if s.pf (outA n + 0xC) 27 24 ≤ 11 then [((1 : Fin 2), Fin.ofNat 16 (s.pf (outA n + 0xC) 27 24))] else [])

/-- The newest fine value of a converter input, 0 before the first. -/
def fineOf (s : State) (i : Fin 16) : Int :=
  match (s.met.ain[i]).last with
  | some v => v.toInt
  | none => 0

/-- T of an outlet in 1/16 °C: the higher of its sensors. -/
def outTemp (s : State) (n : Port) : Option Int := ((tSlots s n).map (fun p => fineOf s p.2)).max?

/-- Whether a sensor is out of range, not valid or stale (R266). -/
def sensorBad (s : State) (n : Port) : Bool :=
  (tSlots s n).any fun p =>
    !tempValid s p.2 || decide (fineOf s p.2 < -640) || decide (3200 < fineOf s p.2)
      || (if p.1 = 0 then (s.safe.out[n]).stale0 else (s.safe.out[n]).stale1)

/-- I_ALLOW as a fraction of amperes: numerator and denominator. -/
def iAllow (s : State) (n : Port) (t : Int) : Nat × Nat :=
  let imax := s.pf (outA n + 4) 15 0
  let td : Int := 16 * s.pf (outA n + 0xC) 23 16
  let ts : Int := 16 * s.pf (outA n + 0xC) 15 8
  let k := min 100 (s.pf (outA n + 0xC) 7 0)
  if t ≤ td then (imax, 1)
  else if ts ≤ t then (imax * k, 100)
  else (imax * (100 * (ts - td).toNat - (100 - k) * (t - td).toNat), 100 * (ts - td).toNat)

/-- Whether the 1 s mean of the current exceeds num/den amperes: the mean of |I|, or the RMS of a phase (R265, R269). -/
def secOver (s : State) (n : Port) (num den : Nat) : Bool :=
  let h := (s.safe.out[n]).itick
  decide (4000 ≤ h.length) &&
    (iChans s n).zipIdx.any fun p =>
      let l := h.filterMap (fun x => x[p.2]?)
      let cnt := (l.map (·.n)).sum
      let code := codeOf s p.1 num den
      if isAc s n then decide (code * code * cnt < (l.map (·.sq)).sum) else decide (code * cnt < (l.map (·.mag)).sum)

/-- SF07 of one outlet. -/
def sf07 (n : Port) (s : State) : State :=
  match outTemp s n with
  | none =>
    let imax := s.pf (outA n + 4) 15 0
    let s := s.modOut n fun o => { o with derating := false, tstop := false, iallow := BitVec.ofNat 16 imax }
    if secOver s n (imax * 105) 100 then s.raiseDem n 1 6 0x03 .derate else s
  | some t =>
    let al := iAllow s n t
    let der := decide (16 * (s.pf (outA n + 0xC) 23 16 : Int) < t)
    let hot := if 16 * (s.pf (outA n + 0xC) 15 8 : Int) ≤ t then true
      else if t ≤ 16 * (s.pf (outA n + 0xC) 15 8 : Int) - 160 then false else (s.safe.out[n]).tstop
    let s := if der != (s.safe.out[n]).derating then s.sfEvt 3 else s
    let s := s.modOut n fun o =>
      { o with derating := der, tstop := hot, iallow := BitVec.ofNat 16 (al.1 / al.2), temp := BitVec.ofInt 16 (t * 10 / 16) }
    let s := if hot then s.raiseDem n 1 6 0x03 .overTemp else s
    let s := if sensorBad s n then s.raiseDem n 1 6 0x03 .sensor else s
    if secOver s n (al.1 * 105) (al.2 * 100) then s.raiseDem n 1 6 0x03 .derate else s

/-! ### Step 4: channels, SF08 counts, SF09 (R248, R269, R270) -/

/-- The channels that the safety functions of an outlet use. -/
def safeChans (s : State) (n : Port) : List ChanId := iChans s n ++ (vChan s n).toList

/-- One tick of a channel's validity. -/
def ChanRun.step (r : ChanRun) (ok : Bool) : ChanRun :=
  if ok then { bad := 0, good := r.good + 1, barred := r.barred && decide (r.good + 1 < 4) }
  else { bad := r.bad + 1, good := 0, barred := r.barred || decide (4 ≤ r.bad + 1) }

/-- Whether no channel of an outlet bars its closes (R248). -/
def chansFit (s : State) (n : Port) : Bool :=
  let r := (s.safe.out[n]).runs
  r.length == (safeChans s n).length && r.all (!·.barred)

/-- The current window, the validity counts and the over-voltage count of one tick. -/
def outCounts (n : Port) (s : State) : State :=
  let it : List ITick := (iChans s n).map fun c =>
    { mag := (tickOf s c).sum.natAbs, sq := (tickOf s c).sq, n := (tickOf s c).n }
  let ok := (safeChans s n).map (tickValid s)
  let beyond := match vChan s n with
    | some c => (s.safe.out[n]).lims.isSome
        && decide (((codeOf s c ((s.safe.out[n]).vlim.toNat * (100 + s.pf (outA n + 8) 11 8)) 100 * (tickOf s c).n : Nat) : Int)
            < (tickOf s c).sum)
    | none => false
  s.modOut n fun o =>
    { o with itick := (it :: o.itick).take 4000,
             runs := ok.zipIdx.map fun x => (o.runs.getD x.2 ChanRun.reset).step x.1, overRun := if beyond then o.overRun + 1 else 0 }

/-- Whether a pilot fault flag is set (R270). -/
def pilotFlags (s : State) (n : Port) : Bool :=
  let p := s.vp[n].pilot
  p.diode.on || p.outFault.on || p.senseFault.on || p.lowRange.on

/-- Whether Caldera's classification disagrees for NDEB + 1 periods (R197). -/
def pilotDisagrees (s : State) (n : Port) : Bool := decide (cpNdeb s n + 1 ≤ (s.vp[n].pilot).disagree)

/-- A pilot fault: a category 1 demand and the override F until re-armed. -/
def pilotFault (n : Port) (s : State) : State := pilotHold n true (s.raiseDem n 1 8 0x03 .pilotFault)

/-- SF09 of one outlet, while it is closed or closing. -/
def sf09 (n : Port) (s : State) : State :=
  if !outletLive s n then s
  else
    let s := if pilotFlags s n || pilotDisagrees s n then pilotFault n s else s
    let s := match s.vp[n].pilot.cal.cls with
      | .b => s.raiseDem n 1 8 0x03 .pilotB
      | .c => s
      | .d => s
      | .a => s.raiseDem n 0 8 0x03 .pilotLoss
      | .e => s.raiseDem n 0 8 0x03 .pilotLoss
      | .f => s.raiseDem n 0 8 0x03 .pilotLoss
      | .invalid => s.raiseDem n 0 8 0x03 .pilotLoss
      | .unknown => s.raiseDem n 0 8 0x03 .pilotLoss
    let pp := s.vp[n].pilot.ppclass
    if ppUse s n && (pp == 0 || pp == 1 || pp == 6) then s.raiseDem n 0 8 0x03 .prox else s

/-- Step 4 of the tick for one outlet. -/
def outTick (n : Port) (s : State) : State :=
  if outEn s n then sf09 n (sf07 n (sf01 n (outCounts n s))) else s

/-! ### Step 4: SF02 in the tick (R254, R256, R257) -/

/-- TDW in ticks. -/
def tdwTicks (s : State) (g : Fin 6) : Nat := 4 * clamp 20 100 (s.pf (0x20300800 + 0x10 * g.val + 4) 20 14)

/-- A new insulation state, reported on source 98 when it changes. -/
def setImd (g : Fin 6) (st : ImdState) (s : State) : State :=
  if (s.safe.imd[g]).st = st then s else (s.modImd g fun i => { i with st := st }).sfEvt 2

/-- The measurement of a segment starts again: state 1, driver off. -/
def imdRestart (g : Fin 6) (s : State) : State :=
  loadAll (s.modImd g fun i => { i with on := false, ticks := 0, up := 0, un := 0, n := 0, dw := [], r0 := none })

/-- A pre-check of a group begins (R255). -/
def preCheck (g : Fin 6) (s : State) : State :=
  imdRestart (leader s g) (s.modImd (leader s g) fun i => { i with pre := .running })

/-- Only the leader of each group switches its bridge; a segment that begins or ceases to lead starts again (R257). -/
def imdSync (s : State) : State :=
  forAll (fins 6) (fun s g =>
    let act := segEn s g && leader s g == g
    if act = (s.safe.imd[g]).active then s
    else
      let s := imdRestart g (s.modImd g fun i => { i with active := act, pre := .idle })
      if act then s else loadAll s) s

/-- A pre-check of a group is asked for: one that runs serves, and the good state stands in for it (R232, R255). -/
def askPreCheck (g : Fin 6) (s : State) : State :=
  let i := s.safe.imd[leader s g]
  if i.st = .good ∨ i.pre = .running then s else preCheck g s

/-- One tick of a bridge: the sums over the second half of the dwell. A tick below 100 V or with an invalid channel is a
cause of UNKNOWN, and the measurement begins again after it (R254 to R256). -/
def imdTick (g : Fin 6) (s : State) : State :=
  if !(s.safe.imd[g]).active then s
  else
    let ok := bridgeValid s g && decide (thr s (Config.bridge g.val true) 100 ≤ ratAbs (segVolt s g))
    let half := tdwTicks s g / 2
    let vp := tickMean s (Config.bridge g.val true)
    let vn := tickMean s (Config.bridge g.val false)
    let s := s.modImd g fun i =>
      let i := { i with ticks := i.ticks + 1 }
      if half < i.ticks then { i with up := i.up + vp, un := i.un + vn, n := i.n + 1 } else i
    let s := if ok then s else setImd g .unknown (imdRestart g s)
    if (s.safe.imd[g]).st = .fault then
      forAll ((outletsOf s (groupOf s g)).filter (outletLive s)) (fun s n => s.raiseDem n 1 1 0x03 .imdFault) s
    else s

/-! ### Ramps and weld windows (R258, R259, R263) -/

/-- The ramp envelope lim(k) against a phase's tick mean of |I|. -/
def leaves (s : State) (n : Port) (r : Ramp) (k : Nat) : Bool :=
  ((iChans s n).zip r.i0).any fun p =>
    let t := tickOf s p.1
    let m : Rat := if t.n = 0 then 0 else (t.sum.natAbs : Rat) / (t.n : Rat)
    let i0 : Rat := if p.2.2 = 0 then 0 else (p.2.1.natAbs : Rat) / (p.2.2 : Rat)
    let f : Rat := 1 - ((k - 1 : Nat) : Rat) / ((4 * tRampMs s n : Nat) : Rat)
    decide (i0 * (if f < 0 then 0 else f) + i0 / 10 < m)

/-- One tick of an outlet's ramp. -/
def rampTick (n : Port) (s : State) : State :=
  match (s.safe.out[n]).ramp, outletCoil s n with
  | some r, some c =>
    let k := r.k + 1
    let s := s.modOut n fun o => { o with ramp := some { r with k := k } }
    if below5 s n then announceOpen c s
    else if !isAc s n && leaves s n r k then
      coilOff c true (s.modOut n fun o => { o with rampfail := satInc o.rampfail })
    else s
  | _, _ => s

/-- One tick of a weld window, or of an unproven opening (R263). -/
def weldTick (c : Fin 12) (s : State) : State :=
  match acrossOf s c with
  | none => s
  | some (a, vg, ch) =>
    s.modCoil c fun x =>
      if thr s ch 20 < a ∧ (x.win.isSome ∨ x.unproven) then { x with win := none, unproven := false }
      else
        let upd : WeldWin → WeldWin := fun w =>
          { le10 := w.le10 && decide (a ≤ thr s ch 10), ge60 := w.ge60 && decide (thr s ch 60 ≤ ratAbs vg),
            lo := if w.any then min w.lo vg else vg, hi := if w.any then max w.hi vg else vg, any := true }
        { x with win := x.win.map upd }

/-! ### Close conditions (R231, R235, R247 to R252, R263, R295, R308) -/

/-- Whether the safety-link connections that guard an outlet are OPEN (R295). -/
def linksOpen (s : State) (n : Port) : Bool :=
  (fins 16).all fun k =>
    !(s.pb (0x20300A40 + 0x20 * k.val) 31 && s.pb (0x20300A40 + 0x20 * k.val + 0x14) (24 + n.val))
      || (s.safe.conn[k]).st == .open_

/-- The conditions of either kind of contactor that stand for its lifetime: enabled, no LIMIT, no coil fault, proven open. -/
def coilFit (s : State) (c : Fin 12) : Bool :=
  let x := s.safe.coil[c]
  coilEn s c && !x.limit && !x.coilf && !x.unproven && x.win.isNone && !x.welded

/-- Modes in which coil commands are given (R25, R40). -/
def closeMode (s : State) : Bool := s.sys.mode == .service || s.sys.mode == .maintain

/-- Whether a group's insulation admits a close: a passed pre-check or the good state, and neither FAULT nor UNKNOWN. -/
def imdAdmits (s : State) (g : Fin 6) : Bool :=
  let i := s.safe.imd[leader s g]
  i.st == .good || (i.st == .warning && i.pre == .passed)

/-- Whether at least one allocated module is in the outlet's group (R230, R231). -/
def hasModule (s : State) (n : Port) (g : Fin 6) : Bool :=
  (fins 48).any fun m => modEn s m && modPort s m == n.val && (groupOf s g).getLsbD (modSeg s m).val

/-- What R231 and R252 ask of every outlet close. -/
def outletReady (s : State) (n : Port) (c : Fin 12) : Bool :=
  let o := s.safe.out[n]
  closeMode s && !s.sys.oos.getLsbD n.val && (s.sess n).any (fun x => x.state == .opened) && !demanded s n
    && coilFit s c && !s.safe.ftfail.getLsbD n.val && linksOpen s n
    && (s.vp[n].pilot.cal.cls == .c || s.vp[n].pilot.cal.cls == .d) && !pilotFlags s n && !pilotDisagrees s n
    && (!ppUse s n || (2 ≤ s.vp[n].pilot.ppclass.toNat && s.vp[n].pilot.ppclass.toNat ≤ 5))
    && chansFit s n && !o.tstop && !sensorBad s n

/-- Whether the close conditions of an outlet hold on this tick. -/
def outletCloseOk (s : State) (n : Port) (c : Fin 12) : Bool :=
  outletReady s n c && match outSeg s n with
    | some g => hasModule s n g && imdAdmits s g && decide (ratAbs (groupVolt s g - outVolt s n) ≤ thr s (Config.bridge (leader s g).val true) 10)
    | none => decide (400 ≤ (s.safe.out[n]).rcOk) && decide ((s.safe.out[n]).rcMiss < 4) && !rcBeyond s n

/-- The segments of a tie whose sides are to join: those whose group has no closed outlet contactor (R233). -/
def joinSides (s : State) (c : Fin 12) : List (Fin 6) :=
  [segX s c, segY s c].filter fun g => (connected s (groupOf s g)).isEmpty

/-- Whether the close conditions of a tie hold on this tick. -/
def tieCloseOk (s : State) (c : Fin 12) (t : TieOp) : Bool :=
  let st := (s.safe.coil[c]).st
  let js := joinSides s c
  closeMode s && coilFit s c && (st == .open_ || st == .wait) && !js.isEmpty
    && js.all (fun g => t.join.contains g && imdAdmits s g)
    && decide (ratAbs (segVolt s (segX s c) - segVolt s (segY s c)) ≤ thr s (Config.bridge (segX s c).val true) 10)
    && tieUnder s c 2
    && (outletsOf s (groupOf s (segX s c) ||| groupOf s (segY s c))).all (fun n => !demanded s n)

/-- Whether a tie of the commit's sequence is still to open: the closes follow the openings (R230). -/
def opensLeft (s : State) : Bool :=
  s.safe.coil.toList.any fun x => match x.tie with
    | some u => u.open_ && u.commit
    | none => false

/-- The pre-checks of a tie's joining sides, asked for once each (R233). -/
def prepareTie (c : Fin 12) (s : State) : State :=
  match (s.safe.coil[c]).tie with
  | none => s
  | some t =>
    if t.open_ || (s.safe.coil[c]).drive != .off || opensLeft s then s
    else
      let new := (joinSides s c).filter (!t.join.contains ·)
      let s := s.modCoil c fun x => { x with tie := some { t with join := t.join ++ new } }
      forAll new (fun s g => askPreCheck g s) s

/-- A waiting close whose conditions cease to hold before its coil command leaves the queue and waits for them again
(R231). -/
def fallBack (c : Fin 12) (s : State) : State :=
  let s := { s with safe.q := s.safe.q.filter (· != c) }
  s.modCoil c fun x =>
    match x.tie with
    | some t => { x with run := 0, ph := .none, st := .open_, tie := some { t with cmd := false } }
    | none => { x with run := 0, ph := .conds }

/-- One tick of a waiting close, up to its coil command: the run of ticks on which its conditions hold. A failed pre-check
refuses an outlet's close (R231, R255, R272). -/
def closeTick (c : Fin 12) (s : State) : State :=
  let s := prepareTie c s
  let x := s.safe.coil[c]
  let held := fun (ok : Bool) => if ok then s.modCoil c fun x => { x with run := x.run + 1 } else fallBack c s
  match x.tie with
  | some t => if t.open_ || x.drive != .off || opensLeft s then s else held (tieCloseOk s c t)
  | none =>
    let n := conPort s c
    let failed : Bool := match outSeg s n with
      | some g => (s.safe.imd[leader s g]).pre == .failed && (s.safe.imd[leader s g]).st != .good
      | none => false
    match x.ph with
    | .conds => if failed then endClose c .refused s else held (outletCloseOk s n c)
    | .queued => held (outletCloseOk s n c)
    | .annClose => held (outletCloseOk s n c)
    | .annOpen => s
    | .none => s

/-! ### The pool supervisor's openings (R234, R238, R243, R264) -/

/-- Whether T_REL has passed since the last stop-frame release on a side, in ticks. -/
def released (s : State) (m : BitVec 6) : Bool :=
  (fins 6).all fun g => !m.getLsbD g.val || match s.safe.relTick[g] with
    | some t => decide (t + 40 * max 1 (s.pf 0x20300400 15 8) ≤ s.safe.tick)
    | none => true

/-- Start opening a tie. -/
def tieOpenReq (c : Fin 12) (commit : Bool) (s : State) : State :=
  if (s.safe.coil[c]).st = .closed ∧ (s.safe.coil[c]).tie.isNone then
    s.modCoil c fun x => { x with tie := some { open_ := true, commit := commit, cmd := false, join := [] } }
  else s

/-- Whether the outlets of a set of segments are all open. -/
def allOpen (s : State) (m : BitVec 6) : Bool := (outletsOf s m).all (fun n => !outletShut s n)

/-- Whether an outlet holds a demand whose scope is its group (R243, R256, R286). -/
def groupDemand (s : State) (n : Port) : Bool :=
  (s.safe.out[n]).dems.any fun d => d.why == .imdFault || d.why == .imdUnknown || d.why == .tieDrop

/-- Ties that open of themselves: in DEGRADED and for a demand of group scope once every outlet of the group is open, and
for a stop pair with TIES once its outlets are open. -/
def autoOpen (s : State) : State :=
  let byPair := (fins 8).any fun j =>
    stopEn s j && (s.safe.pair[j]).ties && (stopMask s j).all (fun n => !outletShut s n)
  let s := forAll ((fins 12).filter (fun c => role s c == 2)) (fun s c =>
    let g := groupOf s (segX s c)
    let why := s.sys.mode == .degraded || (s.safe.imd[leader s (segX s c)]).st == .fault
      || (outletsOf s g).any (groupDemand s)
    if (why && allOpen s g) || byPair then tieOpenReq c false s else s) s
  forAll (fins 8) (fun (s : State) j =>
    if (stopMask s j).all (fun n => !outletShut s n) then s.modPair j fun p => { p with ties := false } else s) s

/-- One tick of a tie opening: when its conditions hold it is announced (R231, R234). -/
def openTick (c : Fin 12) (s : State) : State :=
  match (s.safe.coil[c]).tie with
  | some t =>
    if t.open_ && !t.cmd && tieUnder s c 2 && released s (sideX s c) && released s (sideY s c) then
      announceOpen c (s.modCoil c fun x => { x with tie := some { t with cmd := true } })
    else s
  | none => s

/-! ### The pull-in queue (R54, R232, R274) -/

/-- Pull-ins announced or running. -/
def pullIns (s : State) : Nat := s.safe.coil.toList.countP (fun x => x.ph == .annClose || x.drive == .pullIn)

/-- A contactor joins the queue at its place in order of request (R232). -/
def enqueue (c : Fin 12) (s : State) : State :=
  let r := (s.safe.coil[c]).req
  let before := fun (k : Fin 12) => decide ((s.safe.coil[k]).req ≤ r)
  { s with safe.q := s.safe.q.filter before ++ c :: s.safe.q.filter (!before ·) }

/-- A new close request of a contactor. -/
def numberReq (c : Fin 12) (s : State) : State :=
  { s with safe.reqs := s.safe.reqs + 1 }.modCoil c fun x => { x with req := s.safe.reqs + 1, run := 0 }

/-- Grant waiting pull-ins in order of request: at most three at once, each with its budget grant, then announced. -/
def serveQueue : Nat → State → State
  | 0, s => s
  | f + 1, s =>
    match s.safe.q with
    | [] => s
    | c :: r =>
      if decide (pullIns s < 3) && grantFits s then
        let s := { s with safe.q := r }.modCoil c fun x => { x with ph := .annClose }
        serveQueue f (announce 0 (s.now + 1000000) s)
      else s

end Sys2Proof.Machine
end

