-- ==== Sys2Proof/Machine/SafeCoils.lean ====
section
/-! DEFINITION. Coil pairs, pulse tests, safe inputs, contactor feedback, weld detection and the close and tie timeouts
(R54, R231 to R236, R262, R263, R273 to R286). -/

namespace Sys2Proof.Machine

/-! ### Coil commands (R24, R54, R231, R232, R274) -/

/-- COIL_ANNOUNCE_EXPIRY: 1 ms after its announcement the coil command is issued (R24). -/
def announceExpiry (c : Fin 12) (s : State) : State :=
  match (s.safe.coil[c]).ph with
  | .annClose =>
    if closeMode s then
      s.modCoil c fun x => { x with drive := .pullIn, st := .closing, ph := .none, run := 0, cmdTick := s.safe.tick }
    else endClose c .refused s
  | .annOpen => coilOff c false s
  | .none => s
  | .conds => s
  | .queued => s

def execCoilAnnounceExpiry (c : Fin 12) (s : State) : Host.Outcome State Fault Refusal := live s (announceExpiry c)

/-- CLOSE_CONDITIONS_MET: 10 consecutive ticks met the close conditions; the pull-in joins the queue (R231, R232). -/
def closeMet (c : Fin 12) (s : State) : State :=
  let x := s.safe.coil[c]
  let wait := fun (s : State) => serveQueue 3 (enqueue c (s.modCoil c fun x => { x with ph := .queued, st := .wait }))
  if x.run < 10 then s
  else match x.tie with
    | some t =>
      if t.open_ || t.cmd then s else wait (s.modCoil c fun x => { x with tie := some { t with cmd := true } })
    | none => if x.ph = .conds then wait s else s

def execCloseConditionsMet (c : Fin 12) (s : State) : Host.Outcome State Fault Refusal := live s (closeMet c)

/-- PULLIN_END: after T_PULL the pair holds, and its place in the queue is free (R274). -/
def pullInEnd (c : Fin 12) (s : State) : State :=
  if (s.safe.coil[c]).drive = .pullIn then serveQueue 3 (s.modCoil c fun x => { x with drive := .hold }) else s

def execPullinEnd (c : Fin 12) (s : State) : Host.Outcome State Fault Refusal := live s (pullInEnd c)

/-- A coil fault or a failed pulse test: the pair is off, and code 9 latches (R276, R277). -/
def coilFault (c : Fin 12) (s : State) : State :=
  let s := s.modCoil c fun x => { x with coilf := true, passH := 0, passL := 0 }
  (latchFault 9 (coilOff c true s)).raise 101

/-- COIL_PULLIN_SLOW: 2.0 A not reached within 20 ms of the start of pull-in. -/
def execCoilPullinSlow (c : Fin 12) (s : State) : Host.Outcome State Fault Refusal :=
  live s fun s => if (s.safe.coil[c]).drive = .pullIn then coilFault c s else s

/-- COIL_OVERCURRENT: more than 4.0 A at any instant; the hardware turns both switches off. -/
def execCoilOvercurrent (c : Fin 12) (s : State) : Host.Outcome State Fault Refusal :=
  live s (coilFault c)

/-- COIL_HOLD_UNDERCURRENT: below 50 % of IHOLD for 4 ticks during hold. -/
def execCoilHoldUndercurrent (c : Fin 12) (s : State) : Host.Outcome State Fault Refusal :=
  live s fun s => if (s.safe.coil[c]).drive = .hold then coilFault c s else s

/-! ### Pulse tests (R277 to R279) -/

/-- Count a bright-pulse test of a switch. -/
def brightCount (high pass : Bool) (x : Coil) : Coil :=
  let n := fun (k : Nat) => if pass then min 3 (k + 1) else 0
  if high then { x with passH := n x.passH } else { x with passL := n x.passL }

/-- Whether a test of a pair is deferred: in pull-in, with a close announced, or within 10 ms of a coil command. -/
def testDeferred (s : State) (c : Fin 12) : Bool :=
  let x := s.safe.coil[c]
  x.drive == .pullIn || x.ph == .annClose || (x.cmdTick != 0 && decide (s.safe.tick < x.cmdTick + 40))

/-- PULSE_TEST: one switch of an enabled pair, with a dark pulse during hold and a bright pulse when off. -/
def pulseTest (c : Fin 12) (high pass : Bool) (s : State) : State :=
  if !s.pb (0x20300900 + 8 * c.val) 0 || testDeferred s c then s
  else
    let s := s.modCoil c fun x => { x with tstale := false }
    if !pass then coilFault c s
    else if (s.safe.coil[c]).drive = .off then s.modCoil c (brightCount high true) else s

def execPulseTest (c : Fin 12) (high pass : Bool) (s : State) : Host.Outcome State Fault Refusal :=
  live s (pulseTest c high pass)

/-- PULSE_TEST_STALE: no test completed on the pair for 3 × TTEST. -/
def execPulseTestStale (c : Fin 12) (s : State) : Host.Outcome State Fault Refusal :=
  live s fun s =>
    if s.pb (0x20300900 + 8 * c.val) 0 then (s.modCoil c fun x => { x with tstale := true }).raise 101 else s

/-- LOCKOUT_COIL_RETEST: in LOCKOUT the bright-pulse tests of a failed pair repeat every 100 ms (R279). -/
def lockoutRetest (c : Fin 12) (high pass : Bool) (s : State) : State :=
  if s.sys.mode = .lockout ∧ (s.safe.coil[c]).coilf ∧ (s.safe.coil[c]).drive = .off then
    s.modCoil c fun x => brightCount high pass { x with tstale := false }
  else s

def execLockoutCoilRetest (c : Fin 12) (high pass : Bool) (s : State) : Host.Outcome State Fault Refusal :=
  live s (lockoutRetest c high pass)

/-! ### Safe inputs (R280 to R285) -/

/-- One input at a test pulse of its source: it must read low; three consecutive passes clear INFAULT. -/
def pulseInput (i : Fin 16) (low : Bool) (s : State) : State :=
  let x := s.safe.si[i]
  let put := fun (s : State) (y : SafeIn) => { s with safe.si := s.safe.si.set i y }
  if low then
    let clear := x.infault && decide (2 ≤ x.passes)
    let s := put s { x with passes := if clear || !x.infault then 0 else x.passes + 1, infault := x.infault && !clear,
                            passTick := some s.safe.tick }
    if clear then s.slogPut 0x000D 0xFF (wd i.val) 0 false else s
  else
    let s := put s { x with passes := 0, infault := true }
    if x.infault then s else (s.siEvt 16).slogPut 0x000D 0xFF (wd i.val) 1 false

/-- TEST_PULSE: a pulse of TPA or, with b, of TPB; low says which inputs read low during it. -/
def testPulse (b : Bool) (low : BitVec 16) (s : State) : State :=
  forAll ((fins 16).filter fun i => s.pf (siA i) 31 30 == (if b then 2 else 1))
    (fun s i => pulseInput i (low.getLsbD i.val) s) s

def execTestPulse (b : Bool) (low : BitVec 16) (s : State) : Host.Outcome State Fault Refusal := live s (testPulse b low)

/-- DISCREPANCY_LOCKOUT: the count of R283 reaches DT. -/
def discrepancy (j : Fin 8) (s : State) : State :=
  let dt := clamp 4 8000 (s.pf (siA (stopIn s j)) 28 16)
  if !stopEn s j || (s.safe.pair[j]).fired || decide ((s.safe.pair[j]).diff < dt) then s
  else latchFault 8 ((s.modPair j fun p => { p with fired := true, latched := true, disc := satInc p.disc }).siEvt j.val)

def execDiscrepancyLockout (j : Fin 8) (s : State) : Host.Outcome State Fault Refusal := live s (discrepancy j)

/-- Whether the channels of a stop pair, or an outlet's stop bit of a connection, completed step 1 of R285 before a tick. -/
def step1Before (s : State) (t : Nat) (n : Port) : Why → Bool
  | .pair j => match (s.safe.pair[j]).step1 with
    | some u => decide (u < t)
    | none => false
  | .link k => match (s.safe.conn[k]).step1[n] with
    | some u => decide (u < t)
    | none => false
  | _ => false

/-- REARM_INPUT_EDGE: the falling edge of a pulse of 800 to 8,000 ticks on the re-arm input ends the stop demands whose
step 1 completed before the pulse began (R285). -/
def rearmEdge (s : State) : State :=
  match s.safe.rain.fell with
  | none => s
  | some (len, rise) =>
    let s := { s with safe.rain := { s.safe.rain with fell := none } }
    if (rainIn s).isSome ∧ 800 ≤ len ∧ len ≤ 8000 then
      forAll (fins 8) (fun (s : State) n => s.modOut n fun o =>
        { o with dems := o.dems.filter fun d => !step1Before s rise n d.why }) s
    else s

def execRearmInputEdge (s : State) : Host.Outcome State Fault Refusal := live s rearmEdge

/-! ### Contactor feedback and welds (R262, R263, R286) -/

/-- A weld: FAULT, the session stops at once with reason LOCKOUT, and code 7 latches (R128, R246). -/
def weld (c : Fin 12) (s : State) : State :=
  if (s.safe.coil[c]).welded then s
  else
    let s := s.modCoil c fun x => { x with st := .fault, welded := true, win := none, tie := none, fbo := false }
    let s := if role s c = 1 then
        let n := conPort s c
        sessionStop n 0x05 (s.modSess n fun x => if x.state = .running then { x with reason := some 0x05 } else x)
      else s
    ((if role s c = 2 then imdSync (latchFault 7 s) else latchFault 7 s)).raise 101

/-- A group that a split leaves begins with a pre-check: what was measured before it stands no longer (R257). -/
def splitCheck (g : Fin 6) (s : State) : State := preCheck g (setImd (leader s g) .unknown s)

/-- A contactor is confirmed open: an outlet's session stops, a tie splits its group (R128, R234, R257). -/
def openConfirmed (c : Fin 12) (s : State) : State :=
  let s := s.modCoil c fun x => { x with st := .open_, fbo := false }
  if role s c = 2 then
    let s := imdSync (s.modCoil c fun x => { x with tie := none })
    seqCheck (splitCheck (segY s c) (splitCheck (segX s c) s))
  else confirmOpen (conPort s c) s

/-- A contactor is confirmed closed: the close request is done and the session runs; a tie joins its groups. -/
def closedConfirmed (c : Fin 12) (s : State) : State :=
  let s := s.modCoil c fun x => { x with st := .closed }
  if role s c = 2 then seqCheck (imdSync (s.modCoil c fun x => { x with tie := none }))
  else confirmClosed (conPort s c) (endClose c .done s)

/-- An unexpected drop-out: coil off, a category 0 demand on the outlet or on the tie's group (R286). -/
def dropOut (c : Fin 12) (s : State) : State :=
  let ports := if role s c = 2 then outletsOf s (groupOf s (segX s c)) else [conPort s c]
  let s := (coilOff c true s).modCoil c fun x => { x with fbdrop := true }
  openConfirmed c ((forAll ports (fun s n => s.raiseDem n 0 4 0x03 (if role s c = 2 then .tieDrop else .dropOut)) s).raise 101)

/-- The debounced feedback of a contactor against the commanded state of its pair. Row 4 of the table is for OPEN; the
T_FBO of a coil-off command ends at FEEDBACK_OPEN_TIMEOUT. -/
def fbCheck (c : Fin 12) (s : State) : State :=
  if role s c = 0 || role s c = 3 || !coilEn s c then s
  else
    let v := (s.safe.si[fbIn s c]).deb
    match (s.safe.coil[c]).st with
    | .closing => if v then s else closedConfirmed c s
    | .closed => if v then dropOut c s else s
    | .opening => if v then openConfirmed c s else s
    | .open_ => if v || (s.safe.coil[c]).ph != .none then s else weld c s
    | .wait => s
    | .fault => s

/-- FEEDBACK_CHANGE: FBDEB consecutive ticks of the new value (R286). -/
def feedbackChange (i : Fin 16) (s : State) : State :=
  let x := s.safe.si[i]
  if x.run < clamp 4 40 (s.pf (siA i) 7 0) then s
  else
    let s := { s with safe.si := s.safe.si.set i { x with deb := !x.deb, run := 0 } }
    forAll ((fins 12).filter (fun c => fbIn s c == i)) (fun s c => fbCheck c s) s

def execFeedbackChange (i : Fin 16) (s : State) : Host.Outcome State Fault Refusal := live s (feedbackChange i)

/-- A tie operation fails: TIEFAIL, and the commit's sequence may end (R233, R234, R238). -/
def tieFail (c : Fin 12) (s : State) : State :=
  seqCheck ((endClose c .refused (s.modCoil c fun x => { x with tie := none })).poolEvt 4)

/-- FEEDBACK_CLOSE_TIMEOUT: the feedback did not reach 0 within T_PULL + 10 ms (R286). -/
def fbCloseTimeout (c : Fin 12) (s : State) : State :=
  if (s.safe.coil[c]).st != .closing || !(s.safe.si[fbIn s c]).deb then s
  else
    let s := (coilOff c false s).modCoil c fun x => { x with st := .fault, fbclose := true }
    (if role s c = 2 then tieFail c s else endClose c .refused s).raise 101

def execFeedbackCloseTimeout (c : Fin 12) (s : State) : Host.Outcome State Fault Refusal := live s (fbCloseTimeout c)

/-- FEEDBACK_OPEN_TIMEOUT: T_FBO after the coil-off command; a feedback that still shows the contactor closed is a weld
(R262). -/
def fbOpenTimeout (c : Fin 12) (s : State) : State :=
  if !(s.safe.coil[c]).fbo then s
  else if !(s.safe.si[fbIn s c]).deb then weld c s
  else if (s.safe.coil[c]).st = .opening then openConfirmed c s
  else s.modCoil c fun x => { x with fbo := false }

def execFeedbackOpenTimeout (c : Fin 12) (s : State) : Host.Outcome State Fault Refusal := live s (fbOpenTimeout c)

/-- WELD_WINDOW_END: at T_WELD an opening that was not proven is a weld, or is held unproven (R263). -/
def weldWindowEnd (c : Fin 12) (s : State) : State :=
  match (s.safe.coil[c]).win with
  | none => s
  | some w =>
    let moved := match acrossOf s c with
      | some (_, _, ch) => decide (thr s ch 50 ≤ w.hi - w.lo)
      | none => false
    let s := s.modCoil c fun x => { x with win := none }
    if w.any && w.le10 && w.ge60 && moved then weld c s else s.modCoil c fun x => { x with unproven := true }

def execWeldWindowEnd (c : Fin 12) (s : State) : Host.Outcome State Fault Refusal := live s (weldWindowEnd c)

/-! ### Timeouts of closes, ties and grants (R54, R232 to R234) -/

/-- CLOSE_REQ_TIMEOUT: PRECH_TMO without the close conditions. -/
def execCloseReqTimeout (c : Fin 12) (s : State) : Host.Outcome State Fault Refusal :=
  live s fun s => if (s.safe.coil[c]).ph = .conds then endClose c .timeout s else s

/-- TIE_MATCH_TIMEOUT: MATCH_TMO without the tie's conditions; the tie stays as it is. -/
def tieTimeout (c : Fin 12) (s : State) : State :=
  match (s.safe.coil[c]).tie with
  | some t => if t.cmd then s else tieFail c s
  | none => s

def execTieMatchTimeout (c : Fin 12) (s : State) : Host.Outcome State Fault Refusal := live s (tieTimeout c)

/-- BUDGET_GRANT_TIMEOUT: no grant within 50 ms (R54). -/
def grantTimeout (c : Fin 12) (s : State) : State :=
  if (s.safe.coil[c]).ph = .queued ∧ !grantFits s then
    (if (s.safe.coil[c]).tie.isSome then tieFail c s else endClose c .refused s).raise 2
  else s

def execBudgetGrantTimeout (c : Fin 12) (s : State) : Host.Outcome State Fault Refusal := live s (grantTimeout c)

end Sys2Proof.Machine
end

