-- ==== Sys2Proof/Machine/SafeMonitors.lean ====
section
/-! DEFINITION. The monitors that report at their own instants: insulation measurement (R254 to R257), invalid channels
(R248), temperature sensors (R266), over-voltage and over-current (R269), pilot disagreement (R197), hours (R306). -/

namespace Sys2Proof.Machine

/-! ### SF02 (R254 to R257) -/

def imdA (g : Fin 6) : Nat := 0x20300800 + 0x10 * g.val

/-- gm of R254, in mS (1/kΩ): the measuring dividers of the enabled segments of the group. -/
def imdGm (s : State) (g : Fin 6) : Rat :=
  (fins 6).foldl (fun a x =>
    if (groupOf s g).getLsbD x.val && segEn s x then a + 1 / (s.pf (imdA x) 31 16 : Rat) else a) 0

/-- riso in kΩ from the two dwells, driver off (d1) and on (d2); none when the resistor had no measurable effect. The top
of the range stands for a conductance that is not positive. -/
def risoOf (gm rs : Rat) (d1 d2 : Dwell) : Option Rat :=
  if min (min d1.up (-d1.un)) (min d2.up (-d2.un)) < (d1.up - d1.un) / 100 then some 0
  else
    let a1 := -d1.un / d1.up
    let a2 := -d2.un / d2.up
    if a2 ≤ a1 then none
    else
      let gn := (1 / rs) / (a2 - a1)
      let giso := (a1 * gn - gm) + (gn - gm)
      some (if giso ≤ 0 then 1048575 else 1 / giso)

/-- A threshold of Ω/V times VRATED, in kΩ. -/
def imdThr (s : State) (g : Fin 6) (hi lo : Nat) : Rat :=
  (s.pf (imdA g + 8) hi lo * s.pf (imdA g + 4) 31 21 : Nat) / 1000

/-- The state of R256 after a riso r1 that follows r0. -/
def imdNext (st : ImdState) (r0 r1 tf tw : Rat) : ImdState :=
  let hi := max r0 r1
  let lo := min r0 r1
  match st with
  | .unknown => if hi < tf then .fault else if hi < tw then .warning else .good
  | .good => if hi < tf then .fault else if hi < tw then .warning else .good
  | .warning => if hi < tf then .fault else if 5 / 4 * tw ≤ lo then .good else .warning
  | .fault =>
    if hi < tf then .fault
    else if 5 / 4 * tf ≤ lo then (if 5 / 4 * tw ≤ lo then .good else .warning) else .fault

/-- The next dwell begins with the driver in its other state. -/
def nextDwell (g : Fin 6) (s : State) : State :=
  loadAll (s.modImd g fun i => { i with on := !i.on, ticks := 0, up := 0, un := 0, n := 0 })

/-- A new riso: the pre-check's verdict, or a step of continuous monitoring. -/
def imdValue (g : Fin 6) (r : Rat) (s : State) : State :=
  let tf := imdThr s g 15 0
  let tw := imdThr s g 31 16
  let i := s.safe.imd[g]
  let s := s.modImd g fun i => { i with riso := BitVec.ofNat 20 (min 1048575 r.floor.toNat), r0 := some r }
  if i.pre = .running then
    if tf ≤ r then setImd g (if r < tw then .warning else .good) (s.modImd g fun i => { i with pre := .passed, prechk := true })
    else s.modImd g fun i => { i with pre := .failed, prechk := false }
  else match i.r0 with
    | none => s
    | some r0 => setImd g (imdNext i.st r0 r tf tw) s

/-- An invalid measurement (R254): a pre-check measures again from state 1 (R255), and continuous monitoring is UNKNOWN, its
states going on to alternate; no riso has been formed since (R256). -/
def imdInvalid (g : Fin 6) (d p : Dwell) (s : State) : State :=
  let s := setImd g .unknown s
  if (s.safe.imd[g]).pre = .running then imdRestart g s
  else nextDwell g (s.modImd g fun i => { i with dw := [d, p], r0 := none })

/-- IMD_DWELL_END: the end of a dwell of TDW (R254 to R256). -/
def imdDwellEnd (g : Fin 6) (s : State) : State :=
  let i := s.safe.imd[g]
  if !i.active || decide (i.ticks < tdwTicks s g) then s
  else if i.n = 0 then imdRestart g s
  else
    let d : Dwell := { on := i.on, up := i.up / (i.n : Rat), un := i.un / (i.n : Rat) }
    match i.dw with
    | [] => nextDwell g (s.modImd g fun i => { i with dw := [d] })
    | p :: _ =>
      let r := if d.on then risoOf (imdGm s g) (s.pf (imdA g) 15 0 : Nat) p d
        else risoOf (imdGm s g) (s.pf (imdA g) 15 0 : Nat) d p
      match r with
      | some r => nextDwell g (imdValue g r (s.modImd g fun i => { i with dw := [d, p] }))
      | none => imdInvalid g d p s

def execImdDwellEnd (g : Fin 6) (s : State) : Host.Outcome State Fault Refusal := live s (imdDwellEnd g)

/-- IMD_UNKNOWN_TIMEOUT: UNKNOWN for 1 s while an outlet of the group is closed (R256). -/
def imdUnknown (g : Fin 6) (s : State) : State :=
  if (s.safe.imd[g]).active && (s.safe.imd[g]).st == .unknown then
    forAll ((outletsOf s (groupOf s g)).filter (outletLive s)) (fun s n => s.raiseDem n 1 1 0x03 .imdUnknown) s
  else s

def execImdUnknownTimeout (g : Fin 6) (s : State) : Host.Outcome State Fault Refusal := live s (imdUnknown g)

/-! ### Channels, sensors, limits (R248, R266, R267, R269, R197) -/

/-- TRIP_CHANNEL_INVALID: a channel of the outlet's functions not valid for 4 consecutive ticks. -/
def execTripChannelInvalid (n : Port) (s : State) : Host.Outcome State Fault Refusal :=
  live s fun s => if outEn s n && (s.safe.out[n]).runs.any (fun r => decide (4 ≤ r.bad)) then s.raiseDem n 0 10 0x03 .invalid else s

/-- TEMP_SENSOR_STALE: a sensor of the outlet without a new fine value for 200 ms; the tick raises the demand. -/
def tempStale (n : Port) (k : Fin 2) (s : State) : State :=
  if (tSlots s n).any (fun p => p.1 == k) then
    s.modOut n fun o => if k = 0 then { o with stale0 := true } else { o with stale1 := true }
  else s

def execTempSensorStale (n : Port) (k : Fin 2) (s : State) : Host.Outcome State Fault Refusal := live s (tempStale n k)

/-- OVERVOLTAGE_SLOW: 8 consecutive ticks above V_LIM × (1 + VTOL / 100). -/
def execOvervoltageSlow (n : Port) (s : State) : Host.Outcome State Fault Refusal :=
  live s fun s => if outEn s n && decide (8 ≤ (s.safe.out[n]).overRun) then s.raiseDem n 0 7 0x03 .overVolt else s

/-- OVERCURRENT_SECOND: the 1 s mean above I_LIM × (1 + ITOL / 100), once a close request has given the limit. -/
def execOvercurrentSecond (n : Port) (s : State) : Host.Outcome State Fault Refusal :=
  live s fun s =>
    if outEn s n && (s.safe.out[n]).lims.isSome && secOver s n (iLim s n * (100 + s.pf (outA n + 8) 7 4)) 100 then
      s.raiseDem n 1 7 0x03 .overCurr
    else s

/-- PILOT_DISAGREEMENT: Caldera's class differs from the engine's for NDEB + 1 periods while the outlet is closed or
closing (R197, R270). -/
def execPilotDisagreement (n : Port) (s : State) : Host.Outcome State Fault Refusal :=
  live s fun s => if outletLive s n && pilotDisagrees s n then pilotFault n s else s

/-! ### Operating hours and trip tests (R306, R308) -/

/-- HOURS of SAFE_PTSTAT: the hours recovered at start and those of the present system time. -/
def hoursOf (s : State) : Nat := min 65535 (s.safe.hours0.toNat + s.now / 3600000000000)

/-- HOURS_LIMIT: HOURS reaches 8,760. -/
def hoursLimit (s : State) : State :=
  if s.safe.stDue || decide (hoursOf s < 8760) then s
  else { s with safe.stDue := true }.slogPut 0x000C 0xFF (wd (hoursOf s)) (wd s.safe.tripDue.toNat) false

def execHoursLimit (s : State) : Host.Outcome State Fault Refusal := live s hoursLimit

/-- TRIPDUE_LIMIT: 8,760 h without a passing TRIP_TEST on the outlet. -/
def execTripdueLimit (n : Port) (s : State) : Host.Outcome State Fault Refusal :=
  live s fun s => { s with safe.tripDue := s.safe.tripDue ||| BitVec.ofNat 8 (2 ^ n.val) }

end Sys2Proof.Machine
end

