-- ==== Sys2Proof/Machine/SysCtl.lean ====
section
/-! DEFINITION. The SYS block and the mesh: the watchdog, the automatic reset's settings, the core voltage, the thermal
stages, the triggers of DEGRADED (R37, R38, R41, R52), and what the mesh records (R366 to R368). -/

namespace Sys2Proof.Machine

/-! ### Watchdog and DEGRADED triggers (R37, R38) -/

/-- A write to SYS_WDKICK. -/
def wdogKick (v : Word) (s : State) : State :=
  if v = 0xC0DE then { s with sys.kicked := true } else degTrigger .wdog s

def execWdogKick (v : Word) (s : State) : Host.Outcome State Fault Refusal := access .sys 0 s (wdogKick v)

/-- WDOG_EXPIRY: the watchdog runs out. -/
def execWdogExpiry (s : State) : Host.Outcome State Fault Refusal :=
  live s fun s => if s.sys.wdogRun then degTrigger .wdog s else s

/-- MESH_ACK_TIMEOUT: no acknowledge within 100 µs from outside the MET, BILL and SAFE windows. -/
def execMeshAckTimeout (s : State) : Host.Outcome State Fault Refusal := live s (degTrigger .mesh)

/-- SRAM_UNCORRECTABLE_FETCH: a core fetches or loads an uncorrectable word; a halted or held core does neither. -/
def sramFetch (core : Fin 4) (a : Word) (s : State) : State :=
  if inSram a.toNat 1 && s.sys.coresRun && !s.sys.coresHalted then
    degTrigger .mesh ((s.tagged.mark a.toNat).eccErr a.toNat core.val)
  else s

def execSramUncorrectableFetch (core : Fin 4) (a : Word) (s : State) : Host.Outcome State Fault Refusal :=
  live s (sramFetch core a)

/-- THERMAL_STAGE_1: above 115 °C; VC3 and VC4 are lowered to VC2 (R38, R52). -/
def thermal1 (s : State) : State :=
  { s with sys.therm1 := true, sys.therm1e := true, sys.hot := true, sys.actual := if 2 < s.sys.actual then 2 else s.sys.actual }

def execThermalStage1 (s : State) : Host.Outcome State Fault Refusal := live s thermal1

/-- THERMAL_STAGE_2: above 125 °C. -/
def thermal2 (s : State) : State := degTrigger .therm { s with sys.therm2 := true, sys.hot := true }

def execThermalStage2 (s : State) : Host.Outcome State Fault Refusal := live s thermal2

/-- THERMAL_CLEAR: below 110 °C; both stages clear. -/
def execThermalClear (s : State) : Host.Outcome State Fault Refusal :=
  live s fun s => { s with sys.therm1 := false, sys.therm2 := false, sys.hot := false }

/-! ### SYS registers -/

/-- A write to SYS_DEGCFG: the automatic reset's fields, which Sinter keeps, and the timeout until the first kick. -/
def degcfgWrite (v : Word) (s : State) : State :=
  { s with
    sys.autorstEn := bitAt v 31
    sys.autorstDelay := BitVec.ofNat 12 (clamp 10 3600 (field v 27 16))
    sys.wdogTimeout := if s.sys.kicked then s.sys.wdogTimeout else BitVec.ofNat 14 (clamp 10 10000 (field v 13 0)) }

def execDegcfgWrite (v : Word) (s : State) : Host.Outcome State Fault Refusal := access .sys 0 s (degcfgWrite v)

/-- A write to SYS_VCORE: codes 1 to 4 (R52). -/
def vcoreWrite (v : Word) (s : State) : State :=
  let l := field v 2 0
  if 1 ≤ l ∧ l ≤ 4 then { s with sys.level := BitVec.ofNat 3 l, sys.actual := BitVec.ofNat 3 l } else s

def execVcoreLevelWrite (v : Word) (s : State) : Host.Outcome State Fault Refusal := access .sys 0 s (vcoreWrite v)

/-- Whether a capacitance is below 80 % of CAP_NOM (R57). -/
def capLow (s : State) : Bool := s.sys.capMeas != 0 && decide (10 * s.sys.capMeas.toNat < 8 * s.sys.capNom.toNat)

/-- HOLDUP_CAP_MEASURED: C in µF from the time t in µs that 0.2 A takes to charge VHOLD from 2.0 V to V_top, in units of
10 mV, stored in CAP_MEAS and in Sinter (R55, R57). A measurement runs at a start with VHOLD below 2.0 V. DESIGN CHOICE: C is
rounded down and saturates at 65,535, and an evaluation sets HOLD_LOW and never clears it, as the spec states neither. -/
def capMeasured (t : Nat) (vsup : BitVec 12) (s : State) : State :=
  let top := min 2000 (vsup.toNat - 100)
  if top ≤ 200 ∨ !s.sys.capArm then s
  else
    let c := t * 20 / (top - 200)
    let s := { s with sys.capMeas := BitVec.ofNat 16 (min 65535 c), sys.fresh := true, sys.capArm := false, sys.vsup := vsup }
    if capLow s then { s with sys.holdLow := true } else s

def execHoldupCapMeasured (t : Nat) (vsup : BitVec 12) (s : State) : Host.Outcome State Fault Refusal :=
  live s (capMeasured t vsup)

/-- HOLD_READY: VHOLD, in units of 10 mV, comes within 1 V of VSUP minus 0.3 V or leaves that band. -/
def holdReady (vsup vhold : BitVec 12) (s : State) : State :=
  let full : Int := (vsup.toNat : Int) - 30
  let d : Int := (vhold.toNat : Int) - full
  { s with sys.vsup := vsup, sys.vhold := vhold, sys.holdReady := decide (-100 ≤ d ∧ d ≤ 100) }

def execHoldReady (vsup vhold : BitVec 12) (s : State) : Host.Outcome State Fault Refusal := live s (holdReady vsup vhold)

/-- CORE_RESUME: with the HALT strap, the first resume starts the cores and the watchdog (R444). -/
def coreResume (s : State) : State :=
  if s.sys.coresHalted then { s with sys.coresHalted := false, sys.wdogRun := true } else s

def execCoreResume (s : State) : Host.Outcome State Fault Refusal := live s coreResume

/-! ### The mesh (R366 to R368) -/

/-- Whether an address lies in Caldera's window. -/
def inSafe (a : Nat) : Bool := inside a 1 0x20300000 0x10000

/-- A parity error on a mesh link; on a request to Caldera it is one on a path into Caldera, a safety fault (R241, R366). -/
def meshPar (req : Nat) (a : Word) (onResponse : Bool) (s : State) : State :=
  let s := parRecord req a onResponse s
  if !onResponse && inSafe a.toNat then latchFault 4 s else s

/-- MESH_PARITY_ERROR: the requester receives a bus-error response. -/
def execMeshParityError (req : Fin 10) (a : Word) (onResponse : Bool) (s : State) : Host.Outcome State Fault Refusal :=
  live s fun s => if portMute s req.val then s else (meshPar req.val a onResponse s.tagged).busErr

/-- SRAM_SCRUB_CORRECT: a bank corrects a word and writes it back. -/
def execSramScrubCorrect (s : State) : Host.Outcome State Fault Refusal :=
  live s fun s => { s with mesh.corr := satInc s.mesh.corr, mesh.evt := s.mesh.evt ||| 4 }

/-- SRAM_SCRUB_PASS: LASTPASS, in ms. -/
def execSramScrubPass (ms : BitVec 16) (s : State) : Host.Outcome State Fault Refusal :=
  live s fun s => { s with mesh.lastPass := ms }

/-- CLRCNT of MESH_EVT: the mesh counters and PEAK, which starts again from the tags in use. -/
def meshClear (s : State) : State :=
  { s with mesh.peak := 0, mesh.par := 0, mesh.uncorr := 0, mesh.corr := 0 }.tagged.statsCleared 0x4D53 0

def execMeshClrcnt (s : State) : Host.Outcome State Fault Refusal := access .mesh 0 s meshClear

end Sys2Proof.Machine
end

