-- ==== Sys2Proof/Machine/SafeReset.lean ====
section
/-! DEFINITION. The latching faults of the cores and paths, the restart after a command, and the deliberate reset (R44 to
R46, R239 to R246). -/

namespace Sys2Proof.Machine

/-- LOCKSTEP_MISMATCH, LOCKSTEP_TOKEN_TIMEOUT, CALDERA_SRAM_UNCORRECTABLE and CALDERA_PATH_PARITY: codes 1 to 4. -/
def execLockstepMismatch (s : State) : Host.Outcome State Fault Refusal := live s (latchFault 1)
def execLockstepTokenTimeout (s : State) : Host.Outcome State Fault Refusal := live s (latchFault 2)
def execCalderaSramUncorrectable (s : State) : Host.Outcome State Fault Refusal := live s (latchFault 3)

/-- CALDERA_PATH_PARITY: on a path off the mesh, or on a request of a requester to a word of Caldera's window, which MESH
then records (R366). -/
def execCalderaPathParity (onMesh : Option (Fin 10 × BitVec 16)) (s : State) : Host.Outcome State Fault Refusal :=
  live s fun s => match onMesh with
    | none => latchFault 4 s
    | some (q, o) => if portMute s q.val then s else (meshPar q.val (0x20300000 + o.setWidth 32) false s.tagged).busErr

/-- The SELFTEST entry of a self-test: 0 or the failing step, and HOURS before it. -/
def slogSelftest (step : Byte) (s : State) : State := s.slogPut 0x0008 0xFF (wd step.toNat) (wd (hoursOf s)) false

/-- CALDERA_RESTART_SELFTEST: the self-test that both cores run after a command; step is 0 for a pass, else the failing
step. A failure halts Caldera (R246). -/
def restartSelftest (step : Byte) (s : State) : State :=
  if !s.safe.restarting then s
  else
    let s := slogSelftest step s
    if step = 0 then { s with safe.restarting := false, safe.stOk := true, safe.stDone := some s.safe.tick }
    else { s with safe.stOk := false, safe.halted := true }

def execCalderaRestartSelftest (step : Byte) (s : State) : Host.Outcome State Fault Refusal := live s (restartSelftest step)

/-- Whether R262 and R263 both show a welded contactor open: its feedback reads 1, and the across voltage exceeds 20 V
where it is measured. -/
def weldGone (s : State) (c : Fin 12) : Bool :=
  (s.safe.si[fbIn s c]).deb && match acrossOf s c with
    | some (a, _, ch) => decide (thr s ch 20 < a)
    | none => true

/-- Whether a channel of a pair has passed a test pulse within the last second. -/
def pulsedLately (s : State) (i : Fin 16) : Bool :=
  match (s.safe.si[i]).passTick with
  | some t => decide (s.safe.tick < t + 4000)
  | none => false

/-- Whether a stop pair meets R284. -/
def pairGone (s : State) (j : Fin 8) : Bool :=
  decide (4000 ≤ (s.safe.pair[j]).agree) && pulsedLately s (stopIn s j) && pulsedLately s (stopIn s j + 1)

/-- The pairs whose discrepancy is latched; every enabled pair where none is recorded. -/
def latchedPairs (s : State) : List (Fin 8) :=
  let l := (fins 8).filter (fun j => (s.safe.pair[j]).latched)
  if l.isEmpty then (fins 8).filter (stopEn s) else l

/-- The condition under which the cause of a code is gone (R246). -/
def causeGone (s : State) (code : Nat) : Bool :=
  match code with
  | 0 => s.safe.stOk
  | 1 => !s.safe.restarting && s.safe.stOk
  | 2 => !s.safe.restarting && s.safe.stOk
  | 3 => !s.safe.restarting && s.safe.stOk
  | 4 => !s.safe.restarting && s.safe.stOk
  | 5 => decide (64 ≤ s.safe.rcOk)
  | 6 => decide (64 ≤ s.safe.spOk)
  | 7 => (fins 12).all (fun c => !(s.safe.coil[c]).welded || weldGone s c)
  | 8 => (latchedPairs s).all (pairGone s)
  | 9 => s.safe.coil.toList.all (fun x => !x.coilf || (x.passH == 3 && x.passL == 3))
  | _ => true

/-- The causes of the latch that persist. -/
def persisting (s : State) : Nat :=
  (List.range 10).foldl (fun a c => if s.safe.causes.getLsbD c && !causeGone s c then a + 2 ^ c else a) 0

/-- The groups that welded ties joined split as the reset takes the welds back (R257). -/
def tieSplit (ties : List (Fin 12)) (s : State) : State :=
  forAll ties (fun s c => splitCheck (segY s c) (splitCheck (segX s c) s)) (if ties.isEmpty then s else imdSync s)

/-- An accepted deliberate reset: the self-test is repeated, the latch is cleared and LOCKOUT is left (R46). -/
def resetAccepted (len : Nat) (link : Option (Fin 16)) (step : Byte) (s : State) : State :=
  let s := slogSelftest step s
  if step ≠ 0 then
    let s := { s with safe.causes := s.safe.causes ||| 1, safe.halted := true, safe.stOk := false }
    s.slogPut 0x0003 0xFF (wd (persisting s)) (wd len) false
  else
    let src := match link with
      | some k => (1, k.val)
      | none => (0, 0)
    let ties := (fins 12).filter fun c => (s.safe.coil[c]).welded && tieJoins s c
    let s := tieSplit ties { s with
      safe.stOk := true
      safe.stDone := some s.safe.tick
      safe.latch := false
      safe.causes := 0
      safe.first := 0
      safe.coil := s.safe.coil.map fun (x : Coil) =>
        { x with coilf := false, st := if x.welded then .open_ else x.st, welded := false }
      safe.pair := s.safe.pair.map fun (p : StopPair) => { p with latched := false } }
    leaveLockout (s.slogPut 0x0002 0xFF (wd src.1) (wd src.2) false)

/-- A deliberate reset of a measured length that began on a tick, by LORST or by a connection (R44, R45). -/
def deliberateReset (len rise : Nat) (link : Option (Fin 16)) (step : Byte) (s : State) : State :=
  let began : Bool := match s.safe.stDone with
    | some t => decide (t < rise)
    | none => false
  if !(s.safe.latch && s.sys.mode == .lockout) || s.safe.restarting || s.safe.halted || !began
      || decide (len < 800) || decide (8000 < len) then s
  else if persisting s ≠ 0 then s.slogPut 0x0003 0xFF (wd (persisting s)) (wd len) false
  else resetAccepted len link step s

/-- LORST_PULSE: the pulse that ended with the last tick; step is the result of the repeated self-test. -/
def lorstPulse (step : Byte) (s : State) : State :=
  match s.safe.lorst.fell with
  | none => s
  | some (len, rise) => deliberateReset len rise none step { s with safe.lorst := { s.safe.lorst with fell := none } }

def execLorstPulse (step : Byte) (s : State) : Host.Outcome State Fault Refusal := live s (lorstPulse step)

end Sys2Proof.Machine
end

