-- ==== Sys2Proof/Machine/SafeCalls.lean ====
section
/-! DEFINITION. The SAFE service (R299, R300, R308, R310, R311) and the confirmation of the safety check value (R288,
R289). -/

namespace Sys2Proof.Machine

/-- A body with what LOCKOUT and COMMISSION turn away before it. -/
def safeBody (inLockout outlet : Bool) (body : Vector Word 16 → State → Reply) (a : Vector Word 16) (s : State) : Reply :=
  checks s [(!inLockout && s.sys.mode == .lockout, .lockedOut), (outlet && s.sys.mode == .commission, .notConfirmed)]
    (body a s)

/-- A SAFE call: LOCKED_OUT in LOCKOUT, NOT_CONFIRMED in COMMISSION for a call marked outlet, then the call (R299, R490).
-/
def safeCall (cmd : Nat) (inLockout outlet : Bool) (c : Call) (body : Vector Word 16 → State → Reply) (s : State) : State :=
  mbxCall .safe cmd c (safeBody inLockout outlet body) s

/-! ### CLOSE_REQ, STOP, SET_LIMITS (R19, R231, R232, R252, R267) -/

/-- What forbids a close at the request: no OPENED session, a demand, the mode, no SITE commit since the start (R238), the
contactor, a faulty sensor (R250), or the group. An AC outlet must meet R252 at the request; the other conditions of R231 may
still come within PRECH_TMO (R232, R299). -/
def closeForbidden (s : State) (n : Port) (c : Fin 12) : Bool :=
  let x := s.safe.coil[c]
  !(s.sess n).any (fun z => z.state == .opened) || demanded s n || !closeMode s || s.sys.oos.getLsbD n.val || !s.safe.sited
    || !coilEn s c || x.st != .open_ || x.ph != .none || x.limit || x.coilf || s.safe.ftfail.getLsbD n.val || !linksOpen s n
    || (match outSeg s n with
        | some g => (s.safe.imd[leader s g]).st == .fault
        | none => !outletCloseOk s n c)

/-- The close request of an outlet's contactor starts: limits, and the pre-check unless the group is GOOD. -/
def startClose (n : Port) (c : Fin 12) (vEv iEv : Nat) (s : State) : State :=
  let s := (setLims n vEv iEv s).modOut n fun o => { o with stop := 0 }
  let s := (numberReq c s).modCoil c fun x => { x with st := .wait, ph := .conds, mbx := true }
  match outSeg s n with
  | some g => askPreCheck g s
  | none => s

def closeReq (a : Vector Word 16) (s : State) : Reply :=
  match argPort a[0] with
  | none => .deny s .badArg
  | some n =>
    match outletCoil s n with
    | none => .deny s .badArg
    | some c =>
      checks s [(!outEn s n, .badArg), (closeForbidden s n c, .refused)]
        (.later (startClose n c a[1].toNat a[2].toNat s) .closeReq)

def execCloseReq (c : Call) (s : State) : Host.Outcome State Fault Refusal := live s (safeCall 0x0101 false true c closeReq)

/-- STOP: a category 1 demand of the host on each outlet whose stop does not run already. -/
def stopCall (a : Vector Word 16) (s : State) : Reply :=
  if 256 ≤ a[0].toNat ∨ (a[1] ≠ 1 ∧ a[1] ≠ 2) then .deny s .badArg
  else .ok (forAll (fins 8) (fun (s : State) n =>
    if a[0].getLsbD n.val && !stopRuns s n then s.demand n 1 11 (BitVec.ofNat 8 a[1].toNat) else s) s) []

def execStop (c : Call) (s : State) : Host.Outcome State Fault Refusal := live s (safeCall 0x0102 false true c stopCall)

def setLimits (a : Vector Word 16) (s : State) : Reply :=
  match argPort a[0] with
  | none => .deny s .badArg
  | some n =>
    let above := match (s.safe.out[n]).lims with
      | none => true
      | some l => decide (l.1 < a[1].toNat) || decide (l.2 < a[2].toNat)
    checks s [(above, .badArg), (stopRuns s n, .refused)] (.ok (setLims n a[1].toNat a[2].toNat s) [])

def execSetLimits (c : Call) (s : State) : Host.Outcome State Fault Refusal := live s (safeCall 0x0103 false true c setLimits)

/-! ### REARM (R247, R285, R300) -/

/-- Whether a demand meets the condition for its kind. -/
def demClear (s : State) (n : Port) (d : Dem) : Bool :=
  let imd : ImdState := match outSeg s n with
    | some g => (s.safe.imd[leader s g]).st
    | none => .good
  let al := match outTemp s n with
    | some t => iAllow s n t
    | none => (s.pf (outA n + 4) 15 0, 1)
  let good := s.vp[n].pilot.cal.cls == .c || s.vp[n].pilot.cal.cls == .d
  match d.why with
  | .sf01 => !rcReaches s n 1 1
  | .rcSensor => !rcBeyond s n && decide ((s.safe.out[n]).rcMiss < 4)
  | .imdFault => imd != .fault
  | .imdUnknown => imd != .unknown
  | .weld => s.safe.coil.toList.all (!·.welded)
  | .dropOut => standsOpen s n
  | .tieDrop => standsOpen s n
  | .overTemp => !(s.safe.out[n]).tstop
  | .derate => !secOver s n (al.1 * 105) (al.2 * 100)
  | .sensor => !sensorBad s n
  | .fastTrip => (s.safe.out[n]).fastV == 0 && (s.safe.out[n]).fastI.toList.all (· == 0)
  | .overVolt => (s.safe.out[n]).overRun == 0
  | .overCurr => !secOver s n (iLim s n * (100 + s.pf (outA n + 8) 7 4)) 100
  | .pilotB => good || !outletLive s n
  | .pilotLoss => good || !outletLive s n
  | .pilotFault => !pilotFlags s n && !pilotDisagrees s n
  | .prox => !outletLive s n || !(s.vp[n].pilot.ppclass == 0 || s.vp[n].pilot.ppclass == 1 || s.vp[n].pilot.ppclass == 6)
  | .invalid => chansFit s n
  | .pair j => (s.safe.pair[j]).step1.isSome && (rainIn s).isNone
  | .link k => ((s.safe.conn[k]).step1[n]).isSome && (rainIn s).isNone
  | .loss k => (s.safe.conn[k]).st == .open_
  | .ends => false

/-- Whether a port can be re-armed: no stop runs, nothing waits for acceptance, and every demand meets its condition. -/
def canRearm (s : State) (n : Port) : Bool :=
  !stopRuns s n && !s.safe.raises.any (·.port == n) && (s.safe.out[n]).dems.all (demClear s n)

/-- Re-arm one port: its demands end, its pilot is released, and a contactor that did not close may close again (R286). -/
def rearmPort (n : Port) (s : State) : State :=
  let s := pilotHold n false (s.modOut n fun o => { o with dems := [] })
  match outletCoil s n with
  | some c => s.modCoil c fun x => if x.st = .fault ∧ !x.welded then { x with st := .open_ } else x
  | none => s

/-- Re-arm the ports of a mask: those re-armed, those blocked, and the state. -/
def rearmPorts (mask : Nat) (s : State) : Nat × Nat × State :=
  let ok := (fins 8).filter fun n => mask.testBit n.val && canRearm s n
  let bits := (ok.map (fun n => 2 ^ n.val)).sum
  (bits, mask % 256 - bits, forAll ok (fun s n => rearmPort n s) s)

def rearmCall (a : Vector Word 16) (s : State) : Reply :=
  let r := rearmPorts (a[0].toNat % 256) s
  .ok r.2.2 [wd r.1, wd r.2.1]

def execRearm (c : Call) (s : State) : Host.Outcome State Fault Refusal := live s (safeCall 0x0104 false true c rearmCall)

/-! ### SET_OOS (R27, R34) -/

/-- Whether leaving MAINTAIN must wait: an open MET, SAFE or THL transaction, or an audit log to be read out first. -/
def staysMaintain (s : State) : Bool :=
  s.sys.needAuditRead || [(1 : Fin 6), 3, 5].any (fun d => (s.txn.dom[d]).st != .idle)

/-- Whether a set keeps an outlet out that R34 lets return only after the read-out and through the exit from MAINTAIN. -/
def oosHeld (s : State) (set : BitVec 8) : Bool :=
  (s.sys.needAuditRead && (s.sys.oos &&& ~~~set) != 0) || (set != 0 && (s.sys.oos &&& s.sys.lossOos &&& ~~~set) != 0)

/-- SET_OOS: outlets that come newly into the set stop with reason OUT_OF_SERVICE, and before COMMISSION every outlet; the
set takes effect once all their contactors are open. -/
def setOos (a : Vector Word 16) (s : State) : Reply :=
  let set : BitVec 8 := BitVec.ofNat 8 a[0].toNat
  let bad := !closeMode s || (s.sys.mode == .maintain && set == 0 && staysMaintain s) || oosHeld s set
  checks s [(bad, .refused)] (.later (oosStops set { s with safe.oosReq := some set }) .setOos)

def execSetOos (c : Call) (s : State) : Host.Outcome State Fault Refusal := live s (safeCall 0x0105 false false c setOos)

/-! ### CONTACTOR_REPLACED, READ_CHKVAL, LINK_KEY_LOAD, TRIP_TEST (R235, R287, R299, R308) -/

/-- Whether an allocated module crosses a tie: it lies on one side and its outlet on the other. -/
def crosses (s : State) (c : Fin 12) : Bool :=
  let x := sideOf s c (segX s c)
  let y := sideOf s c (segY s c)
  (fins 48).any fun m => modEn s m && decide (modPort s m < 8) &&
    match outSeg s (Fin.ofNat 8 (modPort s m)) with
    | some g => (x.getLsbD (modSeg s m).val && y.getLsbD g.val) || (y.getLsbD (modSeg s m).val && x.getLsbD g.val)
    | none => false

/-- Whether R299 refuses the replacement of a contactor. -/
def replaceRefused (s : State) (c : Fin 12) : Bool :=
  s.sys.mode != .maintain ||
    (if role s c = 1 then !s.sys.oos.getLsbD (conPort s c).val
     else (s.safe.coil[c]).st != .open_ || crosses s c
      || !(outletsOf s (sideOf s c (segX s c) ||| sideOf s c (segY s c))).all (fun n => s.sys.oos.getLsbD n.val))

def contactorReplaced (a : Vector Word 16) (s : State) : Reply :=
  if h : a[0].toNat < 12 then
    let c : Fin 12 := ⟨a[0].toNat, h⟩
    let old := (s.safe.coil[c]).emopen
    checks s [(role s c != 1 && role s c != 2, .badArg), (replaceRefused s c, .refused)]
      (.ok ((s.modCoil c fun x => { x with emopen := 0, limit := false }).slogPut 0x000A c.val (wd old.toNat) 0 false) [])
  else .deny s .badArg

def execContactorReplaced (c : Call) (s : State) : Host.Outcome State Fault Refusal :=
  live s (safeCall 0x0106 false false c contactorReplaced)

/-- READ_CHKVAL: the computed value, the confirmed value and whether they match. -/
def readChkval (_ : Vector Word 16) (s : State) : Reply :=
  .ok s [s.safe.chk, s.safe.confirmed.getD 0, wd (b2n (s.safe.confirmed == some s.safe.chk))]

def execReadChkval (c : Call) (s : State) : Host.Outcome State Fault Refusal := live s (safeCall 0x0107 true false c readChkval)

/-- LINK_KEY_LOAD: into the open SAFE transaction; it takes effect at the commit. -/
def linkKeyLoad (a : Vector Word 16) (s : State) : Reply :=
  let d := s.txn.dom[(3 : Fin 6)]
  let put := fun (k : Option (BitVec 128)) =>
    Reply.ok (s.modTxn 3 fun d => { d with keys := d.keys ++ [(a[0].toNat, k)] }) []
  if 16 ≤ a[0].toNat ∨ 2 ≤ a[1].toNat then .deny s .badArg
  else if a[1] = 1 then checks s [(d.st != .open_, .noTxn)] (put none)
  else
    match if s.sec.zeroised then none else blobOpen p256 (Config.ltk s.sec.gen) 2 (serialBytes s) s.safe.mbxin with
    | none => .deny s .badArg
    | some (slot, k) =>
      checks s [(slot != a[0].toNat || k.length != 16, .badArg), (d.st != .open_, .noTxn)]
        (put (some (BitVec.ofNat 128 (beNat k))))

def execLinkKeyLoad (c : Call) (s : State) : Host.Outcome State Fault Refusal := live s (safeCall 0x0108 false false c linkKeyLoad)

/-- TRIP_TEST: each comparator of the outlet with 125 % of its threshold; pass says which asserted in time. -/
def tripTest (pass : BitVec 4) (a : Vector Word 16) (s : State) : Reply :=
  match argPort a[0] with
  | none => .deny s .refused
  | some n =>
    let used : BitVec 4 := if isAc s n then 0b1110 else 0b0011
    let good := pass &&& used
    let bad := used &&& ~~~pass
    let bit := BitVec.ofNat 8 (2 ^ n.val)
    let openNow := match outletCoil s n with
      | some c => (s.safe.coil[c]).st == .open_
      | none => false
    let s1 := { s with
      safe.ftfail := if bad = 0 then s.safe.ftfail &&& ~~~bit else s.safe.ftfail ||| bit
      safe.tripDue := if bad = 0 then s.safe.tripDue &&& ~~~bit else s.safe.tripDue }
    checks s [(!outEn s n || s.sys.mode != .maintain || !s.sys.oos.getLsbD n.val || !openNow, .refused)]
      (.ok (s1.slogPut 0x000B n.val (wd good.toNat) (wd bad.toNat) false) [wd good.toNat, wd bad.toNat])

def execTripTest (c : Call) (pass : BitVec 4) (s : State) : Host.Outcome State Fault Refusal :=
  live s (safeCall 0x0201 false false c (tripTest pass))

/-! ### The safety log's calls (R310, R311) -/

/-- A safety-log entry's 32 bytes. -/
def slogBytes (e : SlogEntry) : List Byte := slogWords e ++ leBytes 4 e.chain.toNat

/-- READ_SLOG: entries from a SEQ on, as written, with the protection in force beside them. -/
def readSlog (a : Vector Word 16) (s : State) : Reply :=
  let l := s.safe.slog.reverse.dropWhile (fun e => e.seq != a[0])
  let got := l.take a[1].toNat
  let seqs := got.map (·.seq)
  let prot := (got.zipIdx.map fun p => if p.1.prot then 2 ^ p.2 else 0).sum
  let s1 := { s with
    safe.slogBuf := got.flatMap slogBytes
    safe.slog := s.safe.slog.map fun (e : SlogEntry) => if seqs.contains e.seq then { e with returned := true } else e }
  checks s [(decide (a[1].toNat < 1) || decide (64 < a[1].toNat) || l.isEmpty, .badArg)]
    (.ok s1 [wd got.length, s.safe.slogSeq - 1, wd prot, wd (prot / 2 ^ 32)])

def execReadSlog (c : Call) (s : State) : Host.Outcome State Fault Refusal := live s (safeCall 0x0202 true false c readSlog)

/-- SLOG_RELEASE: while LATCH is 0, for an entry that READ_SLOG has returned. -/
def slogRelease (a : Vector Word 16) (s : State) : Reply :=
  match s.safe.slog.find? (fun e => e.seq == a[0]) with
  | none => .deny s .badArg
  | some e =>
    let s1 := { s with
      safe.slog := s.safe.slog.map fun (e : SlogEntry) => if e.seq = a[0] then { e with prot := false } else e }
    checks s [(s.safe.latch || !e.returned, .refused)] (.ok s1 [])

def execSlogRelease (c : Call) (s : State) : Host.Outcome State Fault Refusal := live s (safeCall 0x0203 false false c slogRelease)

/-! ### Confirmation (R288, R289) -/

/-- The result of a keypad entry or a CONFIRM message; exact says whether a value of the right form was given. -/
def confirmResult (source : Nat) (exact : Bool) (value : Word) (s : State) : State :=
  let res : Nat := if s.safe.blocked then 3 else if exact && value == s.safe.chk then 1 else 2
  let s := ({ s with safe.result := BitVec.ofNat 2 res }.slogPut 0x0006 source (wd res) value false).raise 105
  if res = 1 then
    let s := { s with safe.mism := 0, safe.confirmed := some s.safe.chk }
    if s.sys.mode = .commission then setMode (normalMode s) s else s
  else if res = 2 then
    if 2 ≤ s.safe.mism then { s with safe.mism := 0, safe.blocked := true } else { s with safe.mism := s.safe.mism + 1 }
  else s

/-- The value of entered digits, first digit highest. -/
def entryValue (l : List (BitVec 4)) : Word := l.foldl (fun v d => v * 16 + wd d.toNat) 0

/-- A keypad entry ends with its result. -/
def entryEnd (e : Entry) (s : State) : State :=
  confirmResult 0xFF (e.digits.length == 8) (entryValue e.digits) { s with safe.entry := none }

/-- A digit enters a confirmation entry. Digits beyond the ninth change nothing: nine are as many as cannot match (R289). -/
def enterDigit (e : Entry) (d : BitVec 4) : Entry := { digits := (e.digits ++ [d]).take 9, star := false }

/-- A key of a confirmation entry. -/
def confirmKey (e : Entry) (k : BitVec 4) (s : State) : State :=
  if e.star ∧ k.toNat ≤ 5 then { s with safe.entry := some (enterDigit e (k + 10)) }
  else if k = 0xE then { s with safe.entry := some { e with star := true } }
  else if k = 0xF then entryEnd e s
  else if k = 0xD then { s with safe.entry := none }
  else { s with safe.entry := some (enterDigit e k) }

/-- CONFIRM_ENTRY_TIMEOUT: 30 s without a key. -/
def execConfirmEntryTimeout (s : State) : Host.Outcome State Fault Refusal :=
  live s fun s => match s.safe.entry with
    | some e => entryEnd e s
    | none => s

/-- CONFIRM_BLOCK_EXPIRY: the 60 s of R289 have passed. -/
def execConfirmBlockExpiry (s : State) : Host.Outcome State Fault Refusal :=
  live s fun s => { s with safe.blocked := false }

end Sys2Proof.Machine
end

