-- ==== Sys2Proof/Machine/SafeLink.lean ====
section
/-! DEFINITION. The safety link (R290 to R298): PDUs in and out, connections, dual networks, and the messages that stop,
reset, re-arm and confirm. -/

namespace Sys2Proof.Machine

def connA (k : Fin 16) : Nat := 0x20300A40 + 0x20 * k.val
def connEn (s : State) (k : Fin 16) : Bool := s.pb (connA k) 31
def connDual (s : State) (k : Fin 16) : Bool := s.pb (connA k) 30
def connAuth (s : State) (k : Fin 16) : Bool := s.pb (connA k) 28

/-- The peer's MAC address, byte 0 highest. -/
def peerMac (s : State) (k : Fin 16) : BitVec 48 :=
  BitVec.ofNat 48 (s.pf (connA k + 0x10) 15 0 * 2 ^ 32 + (s.par (connA k + 0xC)).toNat)

/-! ### PDU bytes, CRC and tag (R291, R292) -/

/-- PDU bytes 0 to 11 + LEN. -/
def pduBytes (connid : Word) (seq : BitVec 16) (flags : Byte) (tstamp : Word) (payload : List Byte) : List Byte :=
  leBytes 4 connid.toNat ++ leBytes 2 seq.toNat ++ [flags, BitVec.ofNat 8 payload.length] ++ leBytes 4 tstamp.toNat ++ payload

/-- The virtual header; outgoing says whether this device is the sender. -/
def virtualHeader (s : State) (k : Fin 16) (outgoing : Bool) : List Byte :=
  let me := leBytes 2 (s.pf 0x20300A00 15 0)
  let peer := leBytes 2 (s.pf (connA k) 15 0)
  leBytes 4 (s.par 0x20300A04).toNat ++ (if outgoing then me ++ peer else peer ++ me) ++ [1, 0, 0, 0]

/-- The received PDU's bytes up to its CRC, with its message type. -/
def rxBytes (ty : Byte) (p : LinkPdu) : List Byte := pduBytes p.connid p.seq p.flags p.tstamp (ty :: p.body)

/-- Whether a PDU's CRC is correct for a connection. -/
def pduCrcOk (s : State) (k : Fin 16) (ty : Byte) (p : LinkPdu) : Bool :=
  p.crc == wd (crc32c (virtualHeader s k false ++ rxBytes ty p))

/-- The tag of a command message: the first 8 bytes of the CMAC over the virtual header and the PDU up to the tag, which
are the last 8 bytes of its payload. Messages 0x03 to 0x06 carry one. -/
def tagOk (s : State) (k : Fin 16) (ty : Byte) (p : LinkPdu) : Bool :=
  if !p.flags.getLsbD 1 then decide (ty.toNat < 3 ∨ 6 < ty.toNat)
  else match (s.safe.conn[k]).key with
    | none => false
    | some key =>
      let l := rxBytes ty p
      connAuth s k && decide (8 ≤ p.body.length)
        && (cmac (beBytes 16 key.toNat) (virtualHeader s k false ++ l.take (l.length - 8))).take 8 == l.drop (l.length - 8)

/-! ### Connection states (R295, R298) -/

def LinkState.code : LinkState → Nat
  | .closed => 0 | .connecting => 1 | .open_ => 2 | .failed => 3

/-- Report a change of state or of NETDEG: the event bit, source 103 with it, and a log entry. -/
def linkReport (k : Fin 16) (s : State) : State :=
  let c := s.safe.conn[k]
  { s with safe.linkevt := s.safe.linkevt ||| BitVec.ofNat 16 (2 ^ k.val) }.slogPut 0x0007 k.val
    (wd c.st.code) (wd (b2n c.netdeg)) false

/-- A connection enters a state; leaving OPEN cancels a reset request (R297). -/
def setLink (k : Fin 16) (st : LinkState) (s : State) : State :=
  if (s.safe.conn[k]).st = st then s
  else linkReport k (s.modConn k fun c => { c with st := st, press := none })

/-- The demand that a connection's stop or loss raises: category field 1 is category 0, 2 is category 1 (R271, R293). -/
def linkDemand (n : Port) (cat : Nat) (why : Why) (s : State) : State :=
  if cat = 1 then s.raiseDem n 0 9 0x03 why else if cat = 2 then s.raiseDem n 1 9 0x03 why else s

/-- FAILED: the loss demand of the connection (R271). -/
def linkFail (k : Fin 16) (s : State) : State :=
  let s := setLink k .failed (s.modConn k fun c => { c with copies := [] })
  forAll ((fins 8).filter fun n => s.pb (connA k + 0x14) (24 + n.val))
    (fun s n => linkDemand n (s.pf (connA k + 0x14) 23 22) (.loss k) s) s

/-- A connection starts over. -/
def linkConnect (k : Fin 16) (s : State) : State :=
  setLink k .connecting (s.modConn k fun c => { c with acked := false, seen := false, copies := [] })

/-! ### Sending (R290, R296) -/

/-- The destination address, the sender's, ETYPE and the PDU, padded to the minimum frame without FCS. -/
def safeFrame (s : State) (k : Fin 16) (net : Fin 2) (pdu : List Byte) : List Byte :=
  let f := beBytes 6 (peerMac s k).toNat ++ beBytes 6 (s.eth[net]).mac.toNat ++ beBytes 2 (s.pf 0x20300A00 31 16) ++ pdu
  f ++ List.replicate (60 - f.length) 0

/-- Send one PDU with the connection's next SEQ, on its port or, with DUAL, on both. -/
def sendPdu (k : Fin 16) (ack : Bool) (payload : List Byte) (s : State) : State :=
  let dual := connDual s k
  let seq := (s.safe.conn[k]).txseq + 1
  let flags : Byte := BitVec.ofNat 8 (b2n dual + 4 * b2n ack)
  let body := pduBytes (s.par (connA k + 4)) seq flags s.tshort payload
  let pdu := body ++ leBytes 4 (crc32c (virtualHeader s k true ++ body))
  let nets : List (Fin 2) := if dual then [0, 1] else if s.pb (connA k) 29 then [1] else [0]
  forAll nets (fun (s : State) net => s.modEth net fun e => { e with safeTx := e.safeTx ++ [safeFrame s k net pdu] })
    (s.modConn k fun c => { c with txseq := seq })

/-- CONNECT: versions, CYCLE, WD and the SEQ of the next PDU. -/
def sendConnect (k : Fin 16) (ack : Bool) (s : State) : State :=
  let next := (s.safe.conn[k]).txseq + 2
  sendPdu k ack ([0x01, 1, 1] ++ leBytes 2 (s.pf (connA k + 8) 8 0) ++ leBytes 2 (s.pf (connA k + 8) 31 22)
    ++ leBytes 2 next.toNat) s

/-- Bits of the coil pairs that are confirmed closed. -/
def closedBits (s : State) : Nat :=
  ((fins 12).map fun c => if (s.safe.coil[c]).st = .closed then 2 ^ c.val else 0).sum

/-- Bits of the outlets with an active demand. -/
def demBits (s : State) : Nat := ((fins 8).map fun n => if (s.safe.out[n]).dems.isEmpty then 0 else 2 ^ n.val).sum

/-- Whether a stop pair is in demand. -/
def pairDemand (s : State) : Bool :=
  s.safe.out.toList.any fun o => o.dems.any fun d => match d.why with
    | .pair _ => true
    | _ => false

/-- DATA from Caldera. -/
def sendData (k : Fin 16) (s : State) : State :=
  let cb := closedBits s
  sendPdu k false
    [0x02, BitVec.ofNat 8 (s.sys.mode.code.toNat + 16 * b2n s.safe.latch + 32 * b2n s.sys.degLatched),
     BitVec.ofNat 8 (demBits s), BitVec.ofNat 8 cb, BitVec.ofNat 8 (cb / 256 + 16 * b2n (pairDemand s)),
     BitVec.ofNat 8 s.safe.result.toNat] s

/-- LINK_CYCLE: an enabled connection leaves CLOSED, and sends CONNECT or DATA as its state requires. -/
def linkCycle (k : Fin 16) (s : State) : State :=
  if !connEn s k then setLink k .closed (s.modConn k fun c => { c with ref := none })
  else match (s.safe.conn[k]).st with
    | .closed => sendConnect k false (linkConnect k s)
    | .connecting => sendConnect k false s
    | .open_ => sendData k s
    | .failed => s

def execLinkCycle (k : Fin 16) (s : State) : Host.Outcome State Fault Refusal := live s (linkCycle k)

/-- LINK_WATCHDOG_EXPIRY: WD ms without an accepted PDU. -/
def linkWatchdog (k : Fin 16) (s : State) : State :=
  if (s.safe.conn[k]).st = .open_ then linkFail k (s.modConn k fun c => { c with wdexp := satInc c.wdexp }) else s

def execLinkWatchdogExpiry (k : Fin 16) (s : State) : Host.Outcome State Fault Refusal := live s (linkWatchdog k)

/-- LINK_RETRY: 100 ms after FAILED. -/
def execLinkRetry (k : Fin 16) (s : State) : Host.Outcome State Fault Refusal :=
  live s fun s => if (s.safe.conn[k]).st = .failed then linkConnect k s else s

/-! ### Dual networks (R296) -/

/-- A copy's place among the first copies. -/
def Copy.same (x y : Copy) : Bool := x.net == y.net && x.pdu == y.pdu

/-- A miss on a network: the copy that came alone is counted, the run of the network it came on is broken, and the eighth in a
row sets NETDEG. -/
def dualMiss (k : Fin 16) (x : Copy) (s : State) : State :=
  let net : Fin 2 := 1 - x.net
  let s := s.modConn k fun c =>
    { c with copies := c.copies.map (fun y => if y.same x then { y with waits := false } else y), single := satInc c.single, pairs := 0,
             miss := (Vector.replicate 2 0).set net (c.miss[net] + 1) }
  let c := s.safe.conn[k]
  if 8 ≤ c.miss[net] ∧ !c.netdeg then linkReport k (s.modConn k fun c => { c with netdeg := true }) else s

/-- A second copy that was compared and is equal; the eighth in a row clears NETDEG. -/
def dualPair (k : Fin 16) (x : Copy) (s : State) : State :=
  let s := s.modConn k fun c =>
    { c with copies := c.copies.filter (fun y => !y.same x), pairs := c.pairs + 1, miss := Vector.replicate 2 0 }
  let c := s.safe.conn[k]
  if 8 ≤ c.pairs ∧ c.netdeg then linkReport k (s.modConn k fun c => { c with netdeg := false }) else s

/-- LINK_DUAL_SKEW_EXPIRY: SKEW has passed for the oldest first copy that waits, without a second. -/
def dualExpiry (k : Fin 16) (s : State) : State :=
  match (s.safe.conn[k]).copies.find? (·.waits) with
  | some x => dualMiss k x s
  | none => s

def execLinkDualSkewExpiry (k : Fin 16) (s : State) : Host.Outcome State Fault Refusal := live s (dualExpiry k)

/-- The copies without the first n that no longer wait. -/
def dropMissed : Nat → List Copy → List Copy
  | 0, l => l
  | _ + 1, [] => []
  | n + 1, x :: r => if x.waits then x :: dropMissed (n + 1) r else dropMissed n r

/-- A valid copy is the first of its PDU. Every copy that waits is kept, and of those that came alone the newest 32, by which
a later second copy is known. DESIGN CHOICE; log entry 248. -/
def dualFirst (k : Fin 16) (p : LinkPdu) (l : List Byte) (s : State) : State :=
  if connDual s k then s.modConn k fun c =>
    { c with copies := dropMissed ((c.copies.countP fun x => !x.waits) - 32) c.copies
        ++ [({ net := p.net, pdu := l, waits := true } : Copy)] }
  else s

/-- The first copy of the other network that a PDU has the SEQ of. -/
def dualOther (s : State) (k : Fin 16) (p : LinkPdu) : Option Copy :=
  if connDual s k then (s.safe.conn[k]).copies.find? fun x => x.net != p.net && leAt x.pdu 4 2 == p.seq.toNat else none

/-- The second copy of a PDU: compared while the first waits; later it is discarded, its miss being counted already. -/
def dualSecond (k : Fin 16) (x : Copy) (l : List Byte) (s : State) : State :=
  if !x.waits then s.modConn k fun c => { c with copies := c.copies.filter fun y => !y.same x }
  else if x.pdu = l then dualPair k x s
  else linkFail k s

/-! ### Acceptance (R294) -/

/-- The enabled connection of a CONNID and a sender. -/
def pduConn (s : State) (p : LinkPdu) : Option (Fin 16) :=
  (fins 16).find? fun k => connEn s k && s.par (connA k + 4) == p.connid && peerMac s k == p.mac

/-- off of R294, signed. -/
def pduOff (s : State) (p : LinkPdu) : Int := (s.tshort - p.tstamp).toInt

/-- The reference after a PDU. -/
def stepRef (s : State) (p : LinkPdu) (c : Conn) : Rat :=
  match c.ref with
  | none => (pduOff s p : Rat)
  | some (r, t) => min (r + ((s.tshort - t).toNat : Rat) / 4000) (pduOff s p : Rat)

/-- Rules 3 and 4 of R294 for a valid copy of a PDU: the state after its counting, and whether it is accepted. -/
def acceptPdu (k : Fin 16) (p : LinkPdu) (s : State) : Bool × State :=
  let c := s.safe.conn[k]
  let d := (p.seq - c.rxseq).toNat
  if d = 0 then (false, s)
  else if 16 < d then (false, s.modConn k fun c => { c with seqerr := satInc c.seqerr })
  else
    let ref := stepRef s p c
    let s1 := s.modConn k fun c =>
      { c with lost := BitVec.ofNat 16 (min 65535 (c.lost.toNat + (d - 1))), rxseq := p.seq, ref := some (ref, s.tshort) }
    if ((1000 * s.pf (connA k + 8) 31 22 : Nat) : Rat) < (pduOff s p : Rat) - ref then
      (false, s1.modConn k fun c => { c with stale := satInc c.stale })
    else (true, s1)

/-- A PDU that last_seq does not judge, in CONNECTING: a CONNECT with FLAGS.ACK, which sets it, and any CONNECT while there is
none. DEDUCED. -/
def startsSeq (ty : Byte) (p : LinkPdu) (c : Conn) : Bool :=
  ty == 0x01 && c.st == .connecting && (p.flags.getLsbD 2 || c.ref.isNone)

/-- A first copy whose CRC and tag are right: accepted by rules 3 and 4, and what its message does in its state. A FAILED
connection acts on nothing. -/
def firstCopy (ty : Byte) (k : Fin 16) (p : LinkPdu) (conn open_ : Fin 16 → State → State) (s : State) : State :=
  let c := s.safe.conn[k]
  let l := rxBytes ty p
  let r := if startsSeq ty p c then (true, s) else acceptPdu k p s
  if !r.1 then r.2
  else
    let t := dualFirst k p l r.2
    match c.st with
    | .closed => t
    | .connecting => if ty = 0x01 then conn k t else t
    | .open_ => open_ k t
    | .failed => t

/-- Receive a PDU of a message type. open_ is what an accepted message does in OPEN, conn what a CONNECT does in
CONNECTING. A connection that is CLOSED accepts nothing. -/
def receivePdu (ty : Byte) (p : LinkPdu) (conn open_ : Fin 16 → State → State) (s : State) : State :=
  match pduConn s p with
  | none => s
  | some k =>
    if !pduCrcOk s k ty p || !tagOk s k ty p then s.modConn k fun c => { c with crcerr := satInc c.crcerr }
    else if 64 ≤ p.body.length || (s.safe.conn[k]).st == .closed then s
    else match dualOther s k p with
      | some x => dualSecond k x (rxBytes ty p) s
      | none => firstCopy ty k p conn open_ s

/-! ### Messages (R293, R295, R297, R45, R285, R289) -/

/-- A CONNECT with FLAGS.ACK sets last_seq to its first SEQ minus 1, and ref to its own off (R294). -/
def takeSeq (p : LinkPdu) (k : Fin 16) (s : State) : State :=
  if p.flags.getLsbD 2 then
    s.modConn k fun c => { c with rxseq := BitVec.ofNat 16 (leAt p.body 6 2) - 1, ref := some ((pduOff s p : Rat), s.tshort) }
  else s

/-- A CONNECT in CONNECTING: the versions must have 0x01 in common; the peer's own CONNECT is answered; an
acknowledgement gives the sequence and the time reference. -/
def onConnect (p : LinkPdu) (k : Fin 16) (s : State) : State :=
  let fits := decide (leAt p.body 0 1 ≤ 1) && decide (1 ≤ leAt p.body 1 1)
  if !fits then s.modConn k fun c => { c with verfail := true }
  else
    let s := s.modConn k fun c => { c with verfail := false }
    let s := if p.flags.getLsbD 2 then takeSeq p k (s.modConn k fun c => { c with acked := true })
      else sendConnect k true (s.modConn k fun c => { c with seen := true })
    if (s.safe.conn[k]).acked && (s.safe.conn[k]).seen then setLink k .open_ s else s

def execConnect (p : LinkPdu) (s : State) : Host.Outcome State Fault Refusal :=
  live s (receivePdu 0x01 p (onConnect p) (takeSeq p))

/-- An accepted DATA: each stop bit of the mask that reads 0 raises the connection's stop demand (R293). -/
def onData (p : LinkPdu) (k : Fin 16) (s : State) : State :=
  let b : Byte := BitVec.ofNat 8 (leAt p.body 0 1)
  let s := s.modConn k fun c =>
    { c with
      bits := b
      ones := Vector.ofFn fun (n : Port) => if b.getLsbD n.val then c.ones[n] else 0
      step1 := Vector.ofFn fun (n : Port) => if b.getLsbD n.val then c.step1[n] else none }
  forAll ((fins 8).filter fun n => s.pb (connA k + 0x14) (8 + n.val) && !b.getLsbD n.val)
    (fun s n => linkDemand n (s.pf (connA k + 0x14) 7 6) (.link k) s) s

def execData (p : LinkPdu) (s : State) : Host.Outcome State Fault Refusal :=
  live s (receivePdu 0x02 p (fun _ s => s) (onData p))

/-- The first accepted RESET_PRESS is the rising edge. -/
def onPress (k : Fin 16) (s : State) : State :=
  if s.pb (connA k) 27 && (s.safe.conn[k]).press.isNone then s.modConn k fun c => { c with press := some s.safe.tick } else s

def execResetPress (p : LinkPdu) (s : State) : Host.Outcome State Fault Refusal :=
  live s (receivePdu 0x03 p (fun _ s => s) onPress)

/-- The first accepted RESET_RELEASE is the falling edge; step is the result of the repeated self-test. -/
def onRelease (step : Byte) (k : Fin 16) (s : State) : State :=
  match (s.safe.conn[k]).press with
  | some t =>
    if s.pb (connA k) 27 then
      deliberateReset (s.safe.tick - t) t (some k) step (s.modConn k fun c => { c with press := none })
    else s
  | none => s

def execResetRelease (p : LinkPdu) (step : Byte) (s : State) : Host.Outcome State Fault Refusal :=
  live s (receivePdu 0x04 p (fun _ s => s) (onRelease step))

/-- REARM: the re-arm edge for the stop demands of the ports in its mask, when no re-arm input is configured (R285). -/
def onRearm (p : LinkPdu) (k : Fin 16) (s : State) : State :=
  if !s.pb (connA k) 26 then s
  else
    let isStop : Why → Bool := fun w => match w with
      | .pair _ => true
      | .link _ => true
      | _ => false
    forAll ((fins 8).filter fun n => (leAt p.body 0 1).testBit n.val) (fun (s : State) n =>
      let s0 := s
      s.modOut n fun o => { o with dems := o.dems.filter fun d => !(isStop d.why && demClear s0 n d) }) s

def execLinkRearm (p : LinkPdu) (s : State) : Host.Outcome State Fault Refusal :=
  live s (receivePdu 0x05 p (fun _ s => s) (onRearm p))

/-- CONFIRM: the value is compared with the computed safety check value. -/
def onConfirm (p : LinkPdu) (k : Fin 16) (s : State) : State :=
  if s.pb (connA k) 26 then confirmResult k.val true (wd (leAt p.body 0 4)) s else s

def execLinkConfirm (p : LinkPdu) (s : State) : Host.Outcome State Fault Refusal :=
  live s (receivePdu 0x06 p (fun _ s => s) (onConfirm p))

end Sys2Proof.Machine
end

