-- ==== Sys2Proof/Machine/EthMac.lean ====
section
/-! DEFINITION. The two Ethernet MACs (R436 to R438, R290): filtering, receive records, transmission with the safety
queue ahead, and the link. -/

namespace Sys2Proof.Machine

/-- The destination, the sender and the EtherType of a frame, and where its payload begins: an IEEE 802.1Q tag is skipped. -/
def ethDst (f : List Byte) : Nat := beNat (slice f 0 6)
def ethSrc (f : List Byte) : Nat := beNat (slice f 6 6)
def ethTagged (f : List Byte) : Bool := beNat (slice f 12 2) == 0x8100
def ethPay (f : List Byte) : Nat := if ethTagged f then 18 else 14
def ethType (f : List Byte) : Nat := beNat (slice f (ethPay f - 2) 2)
def ethBcast (f : List Byte) : Bool := ethDst f == 2 ^ 48 - 1
def ethMcast (f : List Byte) : Bool := (ethDst f).testBit 40 && !ethBcast f

/-- The filter of R437. -/
def ethAccepts (e : Eth) (f : List Byte) : Bool :=
  ethDst f == e.mac.toNat || ethBcast f || e.promisc || (e.allmc && ethMcast f)
    || (fins 8).any fun i => e.mcfEn.getLsbD i.val && (e.mcf[i]).toNat == ethDst f

/-- The header of a receive record (R217, R437). -/
def ethHeader (f : List Byte) (ts fseq : Word) : List Byte :=
  wordsBytes [wd (at_ (b2n (ethBcast f)) 13 + at_ (b2n (ethMcast f)) 12 + at_ (b2n (ethTagged f)) 11 + f.length), ts, fseq, 0]

/-- Store a host frame as a 2,048-byte record, or count it in RXDROP when the 8 KiB FIFO holds four. -/
def ethStore (m : Fin 2) (f : List Byte) (s : State) : State :=
  let e := s.eth[m]
  if 4 ≤ e.rxFifo.length then s.modEth m fun e => { e with rxdrop := satInc e.rxdrop }
  else
    let n := e.rxfrm + 1
    s.modEth m fun e => { e with rxfrm := n, rxFifo := e.rxFifo ++ [fit 2048 (ethHeader f s.tshort n ++ f)] }

/-- The PDU of a safety frame: the fields of R290, with LEN bytes of payload, the first of which is the message type. -/
def framePdu (m : Fin 2) (f : List Byte) : Byte × LinkPdu :=
  let l := f.drop (ethPay f)
  let n := leAt l 7 1
  (BitVec.ofNat 8 (leAt l 12 1),
    { net := m, mac := BitVec.ofNat 48 (ethSrc f), connid := wd (leAt l 0 4), seq := BitVec.ofNat 16 (leAt l 4 2),
      flags := BitVec.ofNat 8 (leAt l 6 1), tstamp := wd (leAt l 8 4), body := slice l 13 (n - 1), crc := wd (leAt l (12 + n) 4) })

/-- A safety frame goes only to Caldera (R290). step is the result of a self-test that a RESET_RELEASE may call for. -/
def safeReceive (m : Fin 2) (f : List Byte) (step : Byte) (s : State) : State :=
  let p := (framePdu m f).2
  match (framePdu m f).1.toNat with
  | 1 => receivePdu 0x01 p (onConnect p) (takeSeq p) s
  | 2 => receivePdu 0x02 p (fun _ s => s) (onData p) s
  | 3 => receivePdu 0x03 p (fun _ s => s) onPress s
  | 4 => receivePdu 0x04 p (fun _ s => s) (onRelease step) s
  | 5 => receivePdu 0x05 p (fun _ s => s) (onRearm p) s
  | 6 => receivePdu 0x06 p (fun _ s => s) (onConfirm p) s
  | n => receivePdu (BitVec.ofNat 8 n) p (fun _ s => s) (fun _ s => s) s

/-- ETYPE, the EtherType of the safety link. -/
def safeType (s : State) : Nat := s.pf 0x20300A00 31 16

/-- ETH_FRAME_RECEIVE: the frame with its FCS; good says whether the FCS is right. Frames of more than 1,522 bytes and
bad ones count in RXERR, and shorter ones than 64 are not carried (R436). In DEGRADED only safety-link frames are (R39). -/
def ethReceive (m : Fin 2) (f : List Byte) (good : Bool) (step : Byte) (s : State) : State :=
  if 1522 < f.length || !good then s.modEth m fun e => { e with rxerr := satInc e.rxerr }
  else if f.length < 64 then s
  else if ethType f = safeType s then safeReceive m f step s
  else if s.sys.mode != .degraded && (s.eth[m]).en && ethAccepts s.eth[m] f then ethStore m f s
  else s

def execEthFrameReceive (m : Fin 2) (frame : List Byte) (good : Bool) (step : Byte) (s : State) :
    Host.Outcome State Fault Refusal := live s (ethReceive m frame good step)

/-- The frame of a transmit record: LEN bytes after its header. -/
def ethBody (rec_ : List Byte) : List Byte := (rec_.drop 16).take (leAt rec_ 0 2 % 2048)

/-- Whether LEN of a transmit record lies in its range, and the frame is not of the safety EtherType. -/
def ethTxOk (s : State) (rec_ : List Byte) : Bool :=
  let len := leAt rec_ 0 2 % 2048
  let f := ethBody rec_
  decide (60 ≤ len) && decide (len ≤ if ethTagged f then 1522 else 1518) && ethType f != safeType s

/-- ETH_FRAME_TRANSMIT: the oldest safety frame, else the whole host frame in the FIFO, is sent or dropped. In DEGRADED the
MACs carry only safety-link traffic (R39): a host frame waits in the FIFO. -/
def ethTransmit (m : Fin 2) (s : State) : State :=
  let e := s.eth[m]
  match e.safeTx with
  | f :: r =>
    s.modEth m fun e =>
      { e with safeTx := r, txe := true, txfrm := if e.up then e.txfrm + 1 else e.txfrm,
               line := if e.up then ethLine f else e.line }
  | [] =>
    if s.sys.mode == .degraded || !e.en || decide (e.txFifo.length < 2048) then s
    else if e.up && ethTxOk s e.txFifo then
      s.modEth m fun e =>
        { e with txFifo := e.txFifo.drop 2048, txe := true, txfrm := e.txfrm + 1, line := ethLine (ethBody e.txFifo) }
    else s.modEth m fun e => { e with txFifo := e.txFifo.drop 2048, txe := true, txdrop := satInc e.txdrop }

def execEthFrameTransmit (m : Fin 2) (s : State) : Host.Outcome State Fault Refusal := live s (ethTransmit m)

/-- ETH_LINK_CHANGE: a partner that signals half duplex is treated as link down (R436). -/
def ethLink (m : Fin 2) (up : Bool) (speed : Fin 3) (full : Bool) (s : State) : State :=
  s.modEth m fun e =>
    { e with up := up && full, duplex := up && full, speed := BitVec.ofNat 2 speed.val,
             linkchg := e.linkchg || e.up != (up && full) }

def execEthLinkChange (m : Fin 2) (up : Bool) (speed : Fin 3) (full : Bool) (s : State) : Host.Outcome State Fault Refusal :=
  live s (ethLink m up speed full)

/-- ETH_CLRCNT: RXERR, RXDROP and TXDROP, and so CNT_SAT, clear (R422). -/
def ethClrcnt (m : Fin 2) (s : State) : State :=
  (s.modEth m fun e => { e with rxerr := 0, rxdrop := 0, txdrop := 0 }).statsCleared 0x4554 0

def execEthClrcnt (m : Fin 2) (s : State) : Host.Outcome State Fault Refusal := access .eth m.val s (ethClrcnt m)

end Sys2Proof.Machine
end

