-- ==== Sys2Proof/Machine/Keys.lean ====
section
/-! DEFINITION. The keypad (R148, R288, R444 to R446): where a key press goes, and the host FIFO. -/

namespace Sys2Proof.Machine

/-- Whether the keypad scanner is active: the strap on GP1. -/
def keypadOn (s : State) : Bool := s.sys.straps.getLsbD 1

/-- A press while no entry is active: A starts a token entry, C in COMMISSION a confirmation entry, and every other press
goes to the host FIFO. -/
def freeKey (k : BitVec 4) (s : State) : State :=
  if k = 0xA ∧ s.pb 0x20240030 31 then tokenStart s
  else if k = 0xC ∧ s.sys.mode = .commission then { s with safe.entry := some { digits := [], star := false } }
  else if s.gpio.fifo.length < 8 then { s with gpio.fifo := s.gpio.fifo ++ [k] }.raise 8
  else { s with gpio.ovf := true }

/-- The code of a key by its row and its column, in the layout of R445. -/
def keyCode (row col : Fin 4) : BitVec 4 :=
  if col = 3 then BitVec.ofNat 4 (10 + row.val)
  else if row = 3 then (if col = 0 then 0xE else if col = 1 then 0x0 else 0xF)
  else BitVec.ofNat 4 (3 * row.val + col.val + 1)

/-- KEY_PRESS: while a key is held, others are ignored; of two that first read closed in the same scan neither is reported. -/
def keyPress (row col : Fin 4) (twin : Bool) (s : State) : State :=
  if !keypadOn s || s.gpio.held.isSome then s
  else
    let k := keyCode row col
    let s := { s with gpio.held := some k }
    if twin then s
    else match s.safe.entry with
    | some e => confirmKey e k s
    | none => if s.bill.tok.entry then tokenKey k s else freeKey k s

def execKeyPress (row col : Fin 4) (twin : Bool) (s : State) : Host.Outcome State Fault Refusal :=
  live s (keyPress row col twin)

/-- KEY_RELEASE: every key that was held has been open for 5 scans. -/
def execKeyRelease (s : State) : Host.Outcome State Fault Refusal := live s fun s => { s with gpio.held := none }

/-- A read of KEY_FIFO removes and returns the oldest code. -/
def keyFifoRead (s : State) : State :=
  match s.gpio.fifo with
  | [] => { s with bus := { err := false, data := 0 } }
  | k :: r => { s with gpio.fifo := r, bus := { err := false, data := wd (2 ^ 31 + k.toNat) } }

/-- KEY_FIFO_READ, on a block that answers (R358). -/
def execKeyFifoRead (s : State) : Host.Outcome State Fault Refusal :=
  live s fun s => if blkUp s .gpio 0 then keyFifoRead s.tagged else s.tagged.busErr

end Sys2Proof.Machine
end

