-- ==== Sys2Proof/Machine/Checks.lean ====
section
/-! DEFINITION. What the loader and the validators check of a set of parameters (R64, R91, R92, R121, R164, R170, R225,
R251, R281, R295, R491, R492, and the values that the register tables call refused). A check reads the parameters of the
state it is given, so a candidate set is checked on the state that would hold it. -/

namespace Sys2Proof.Machine

/-- The state that would hold a candidate bank. -/
def State.withParams (s : State) (b : List (Nat × Word)) : State := { s with params := b }

/-- Whether a list of numbers has no repeats. -/
def noDup (l : List Nat) : Bool := distinctL l

/-! ### MET -/

/-- R63, R64: each clock group has DIV 4 to 20, k 3 to 10, and at most 312.5 kS/s. -/
def groupOk (s : State) (g : Fin 2) : Bool :=
  let d := grpDiv s g
  let k := grpK s g
  decide (4 ≤ d) && decide (d ≤ 20) && decide (3 ≤ k) && decide (k ≤ 10) && decide (320 ≤ d * 2 ^ (k + 1))

def enMeters (s : State) : List MeterId := (fins 12).filter (mOn s)

/-- Every channel that a meter names. -/
def mChans (s : State) (m : MeterId) : List ChanId := mVolt s m ++ mCurr s m ++ mNeutral s m

/-- The current channels that ties have of their own (R228). -/
def tieChans (s : State) : List ChanId :=
  ((fins 12).filter fun c => role s c == 2 && s.pb (0x20300440 + 4 * c.val) 13).map
    fun c => Fin.ofNat 32 (s.pf (0x20300440 + 4 * c.val) 12 8)

/-- The channels that the SAFE parameters own: the bridges of the enabled segments and the ties' currents (R92, R227, R228). -/
def ownedChans (s : State) : List ChanId :=
  ((fins 6).filter (segEn s)).flatMap (fun g => [Config.bridge g.val true, Config.bridge g.val false]) ++ tieChans s

/-- Whether a current channel of a meter serves another one too (R92). -/
def servesTwo (s : State) (m k : MeterId) : Bool :=
  m != k && (mCurr s m ++ mNeutral s m).any fun c => (mChans s k).contains c

/-- Both members of the ranging pairs that a channel stands for, and the channel itself (R64, R79). -/
def withLr (s : State) (c : ChanId) : List ChanId :=
  c :: ((fins 8).filter (fun p => rpEn s p && rpHr s p == c)).map (rpLr s)

/-- R92: the channels of the enabled meters, and the ranging pairs that serve them. -/
def metersOk (s : State) : Bool :=
  let ms := enMeters s
  let cur := ms.flatMap fun m => mCurr s m ++ mNeutral s m
  let volt := ms.flatMap fun m => mVolt s m
  ms.all (fun m => ((mChans s m).flatMap (withLr s)).all (fun c => chGroup s c == mGroup s m && !(ownedChans s).contains c))
    && !ms.any (fun m => ms.any (servesTwo s m))
    && (fins 8).all fun p =>
      !rpEn s p || !cur.contains (rpHr s p)
        || (cur.count (rpHr s p) == 1 && !cur.contains (rpLr s p) && !volt.contains (rpLr s p) && !volt.contains (rpHr s p)
            && (fins 8).all (fun q => q == p || !rpEn s q
              || (rpHr s q != rpHr s p && rpLr s q != rpHr s p && rpHr s q != rpLr s p && rpLr s q != rpLr s p)))

/-- R91: TYPE and ROLE in use, one outlet meter per port, at most one grid meter, and at most eleven auxiliary meters. -/
def rolesOk (s : State) : Bool :=
  let ms := enMeters s
  ms.all (fun m => mType s m != 3 && mRole s m != 3)
    && noDup ((ms.filter fun m => mRole s m == 0).map fun m => (mPort s m).val)
    && decide ((ms.filter fun m => mRole s m == 1).length ≤ 1)
    && decide ((ms.filter fun m => mRole s m == 2).length ≤ 11)

/-! ### DISP (R164, R170) -/

def rgA (r : Fin 16) : Nat := 0x20280100 + 0x10 * r.val
def rgX (s : State) (r : Fin 16) : Nat := s.pf (rgA r) 26 16
def rgY (s : State) (r : Fin 16) : Nat := s.pf (rgA r) 10 0
def rgWd (s : State) (r : Fin 16) : Nat := s.pf (rgA r + 4) 26 16
def rgHt (s : State) (r : Fin 16) : Nat := s.pf (rgA r + 4) 10 0
def rgOn (s : State) (r : Fin 16) : Bool := s.pb (rgA r + 8) 31
def rgLeg (s : State) (r : Fin 16) : Bool := rgOn s r && s.pb (rgA r + 8) 30
def rgPt (s : State) (r : Fin 16) : Port := Fin.ofNat 8 (s.pf (rgA r + 8) 29 27)

/-- Whether two rectangles overlap. -/
def overlap (s : State) (r q : Fin 16) : Bool :=
  decide (rgX s r < rgX s q + rgWd s q) && decide (rgX s q < rgX s r + rgWd s r)
    && decide (rgY s r < rgY s q + rgHt s q) && decide (rgY s q < rgY s r + rgHt s r)

/-- R170. -/
def regionsOk (s : State) : Bool :=
  let rs := (fins 16).filter (rgOn s)
  let ls := rs.filter (rgLeg s)
  rs.all (fun r =>
      rgX s r % 8 == 0 && rgWd s r % 8 == 0 && decide (rgX s r + rgWd s r ≤ s.pf 0x20280010 26 16)
        && decide (rgY s r + rgHt s r ≤ s.pf 0x20280010 10 0) && rs.all fun q => q == r || !overlap s r q)
    && ls.all (fun r => decide (448 ≤ rgWd s r) && decide (224 ≤ rgHt s r))
    && noDup (ls.map fun r => (rgPt s r).val)
    && (fins 8).all fun n => !((enMeters s).any fun m => mRole s m == 0 && mPort s m == n) || ls.any fun r => rgPt s r == n

/-- R164: a line fits its period, in units of 10 ns. -/
def lineFits (s : State) : Bool :=
  let w := s.pf 0x20280010 26 16
  let h := s.pf 0x20280010 10 0
  decide (((w + 7) / 8 + 16) * s.pf 0x20280014 31 28 ≤ 294117 / (h + 12) * 4)

/-! ### SAFE -/

def segNum (s : State) (a hi lo : Nat) : Nat := s.pf a hi lo

/-- Whether a segment number names an enabled segment. -/
def segOn (s : State) (v : Nat) : Bool := if h : v < 6 then segEn s ⟨v, h⟩ else false

/-- R225: ports of outlet contactors, and the segments that contactors, ties and modules name. -/
def poolOk (s : State) : Bool :=
  let cs := fins 12
  let a (c : Fin 12) := 0x20300440 + 4 * c.val
  noDup ((cs.filter fun c => role s c == 1).map fun c => (conPort s c).val)
    && cs.all (fun c =>
      (role s c != 1 || isAc s (conPort s c) || segOn s (s.pf (a c) 26 24))
        && (role s c != 2 || (segOn s (s.pf (a c) 26 24) && segOn s (s.pf (a c) 22 20)
              && s.pf (a c) 26 24 != s.pf (a c) 22 20)))
    && (fins 48).all fun m => !modEn s m || segOn s (s.pf (modA m) 26 24)

/-- The word of a converter's slot. -/
def slotW (s : State) (a : Fin 4) (k : Nat) : Word := s.par (0x20200610 + 0x40 * a.val + 4 * k)

/-- The slots in a converter's sequence. -/
def slotsOf (s : State) (a : Fin 4) : List Word :=
  if s.pb (0x20200600 + 0x40 * a.val) 31 then
    (List.range (clamp 1 8 (s.pf (0x20200600 + 0x40 * a.val) 27 24))).map (slotW s a)
  else []

/-- R251: the converter that carries an outlet's residual-current slot has an idle slot, of at most 700 µs. -/
def rcIdleOk (s : State) : Bool :=
  (fins 8).all fun n =>
    let rc := s.pf (outA n + 0x10) 31 28
    !outEn s n || rc == 15
      || (fins 4).all fun a =>
        let l := slotsOf s a
        !l.any (fun w => field w 31 28 == rc)
          || l.any (fun w => field w 31 28 == 15 && decide (field w 15 0 ≤ 700))

def siSrc (s : State) (i : Nat) : Nat := s.pf (0x20300980 + 4 * i) 31 30

/-- Whether a source is TPA or TPB. -/
def pulsed (v : Nat) : Bool := v == 1 || v == 2

/-- R281: feedback inputs and stop pairs are pulsed, and the members of a pair by different sources. SAFE_SICFG allows
one RAIN input. -/
def inputsOk (s : State) : Bool :=
  (fins 12).all (fun c => (role s c != 1 && role s c != 2) || pulsed (siSrc s (fbIn s c).val))
    && (fins 8).all (fun j =>
      let w := s.par (0x203008C0 + 4 * j.val)
      let a := field w 23 20
      !bitAt w 31 || (a % 2 == 0 && pulsed (siSrc s a) && pulsed (siSrc s (a + 1)) && siSrc s a != siSrc s (a + 1)))
    && decide (((fins 16).filter fun i => s.pb (0x20300980 + 4 * i.val) 29).length ≤ 1)

/-- R295: the watchdog and the cycle of every enabled connection. -/
def linksOk (s : State) : Bool :=
  (fins 16).all fun k =>
    let a := 0x20300A40 + 0x20 * k.val
    let wdog := s.pf (a + 8) 31 22
    let cyc := s.pf (a + 8) 8 0
    !s.pb a 31 || (decide (2 ≤ wdog) && decide (wdog ≤ 1000) && decide (1 ≤ cyc) && decide (cyc ≤ 500) && decide (2 * cyc ≤ wdog))

/-- The channels that serve a safety function. -/
def namedChans (s : State) : List ChanId :=
  ((fins 8).filter (outEn s)).flatMap (fun n => iChans s n ++ (vChan s n).toList)
    ++ ownedChans s

/-- R491: every channel that a safety function names has a scale; for a ranging pair that of the HR member. -/
def scalesOk (s : State) : Bool := (namedChans s).all fun c => s.pb (0x20300F00 + 4 * (tripChan s c).val) 31

/-- The SAFE rules that a site image and a SAFE commit must keep. -/
def safeOk (s : State) : Bool := poolOk s && rcIdleOk s && inputsOk s && linksOk s && scalesOk s

/-- Every rule stated as a format check, on the parameters of a whole image (R336 step 7). -/
def formatOk (s : State) : Bool :=
  groupOk s 0 && groupOk s 1 && metersOk s && rolesOk s && calendarOk s.par && regionsOk s && safeOk s

/-! ### The words of a parameter set (R492) -/

/-- The addresses of the words of a block's parameter set. -/
def setAddrs (k : BlkKind) (base : Nat) : List Nat :=
  ((rowsOf k).filter fun r => r.set != 0).flatMap fun r => (rowOffs r.dims).map fun o => base + r.off + o

/-- Whether an address is a converter slot word. -/
def isSlotWord (a : Nat) : Bool := (fins 4).any fun c =>
  decide (0x20200610 + 0x40 * c.val ≤ a) && decide (a < 0x20200630 + 0x40 * c.val)

/-- The mask of an address in its parameter set. -/
def setMask (a : Nat) : Nat :=
  match blkAt a with
  | some (_, b) => match rowAt b.kind (a - b.base) with
    | some r => r.set
    | none => 0
  | none => 0

/-- The words that a section of each type lists, without the slot words. -/
def secWords (typ : Nat) : List Nat :=
  if typ = 0x20 then (setAddrs .met 0x20200000).filter (fun a => !isSlotWord a)
  else if typ = 0x21 then
    (fins 8).flatMap (fun n => setAddrs .vp (0x20100000 + 0x10000 * n.val)) ++ setAddrs .safe 0x20300000
  else if typ = 0x22 then setAddrs .bill 0x20240000
  else if typ = 0x23 then setAddrs .load 0x200A0000
  else if typ = 0x24 then setAddrs .disp 0x20280000
  else []

/-- The entries of a parameter section. -/
def secEntries (l : List Byte) : List (Nat × Nat) := (blocks 8 l).map fun b => (leAt b 0 4, leAt b 4 4)

/-- Whether two lists hold the same numbers, where the first has no repeats and both have one length. -/
def sameSet (l m : List Nat) : Bool := l.length == m.length && l.all fun a => m.contains a

/-- A parameter section in the form of R492: ascending addresses, exactly the words of the set, slot words by their SAFE
bit, and no bit outside the fields of the set. -/
def sectionOk (typ : Nat) (l : List Byte) : Bool :=
  let es := secEntries l
  let as := es.map Prod.fst
  l.length % 8 == 0 && (as.zip as.tail).all (fun p => decide (p.1 < p.2))
    && sameSet (as.filter fun a => !isSlotWord a) (secWords typ)
    && es.all (fun e => e.2 &&& (2 ^ 32 - 1 - setMask e.1) == 0
      && (!isSlotWord e.1 || (typ == 0x20 && e.2 / 2 ^ 21 % 2 == 0) || (typ == 0x21 && e.2 / 2 ^ 21 % 2 == 1)))

/-- Whether the MET and the SAFE section together list every slot word once. -/
def slotWordsOk (met safe : List Byte) : Bool :=
  let as := ((secEntries met ++ secEntries safe).map Prod.fst).filter isSlotWord
  noDup as && as.length == 32

end Sys2Proof.Machine
end

