-- ==== Sys2Proof/Machine/Irq.lean ====
section
/-! DEFINITION. The CNT_SAT flags (R422), the level of every interrupt source (R434, R435 and the sources that the
chapters name), and the claims of INTC. -/

namespace Sys2Proof.Machine

/-! ### CNT_SAT flags: a statistics counter at its limit -/

def satChan (c : Chan) : Bool := atLimit c.manerrCnt || atLimit c.satCnt
def satMeter (m : Meter) : Bool := atLimit m.holdCnt || atLimit m.gapCnt
def satBill (s : State) : Bool := atLimit s.bill.adjBig || atLimit s.bill.adjSmall
def satTok (t : Tokens) : Bool := atLimit t.invalidCnt || atLimit t.acceptCnt
def satDisp (d : Disp) : Bool := atLimit d.replacedCnt || atLimit d.parkCnt || atLimit d.railfCnt
def satPilot (p : Pilot) : Bool := atLimit p.stchgCnt || atLimit p.faultCnt
def satLink (l : Link) : Bool :=
  atLimit l.rxdrop || atLimit l.rxerr || atLimit l.erased || atLimit l.frameLost || atLimit l.mmedrop
    || atLimit l.txtmoCnt || atLimit l.blankSym || atLimit l.deferCnt
def satOut (o : Outlet) : Bool := atLimit o.fasttrip || atLimit o.rampfail
def satConn (c : Conn) : Bool :=
  atLimit c.lost || atLimit c.crcerr || atLimit c.seqerr || atLimit c.stale || atLimit c.wdexp || atLimit c.single
def satDisc (s : State) : Bool := s.safe.pair.toList.any fun p => atLimit p.disc
def satLoadCh (c : LoadCh) : Bool := atLimit c.tsdCnt || atLimit c.ilimCnt
def satPart (p : PartCnt) : Bool := atLimit p.corr || atLimit p.reload
def satTxn (t : Txn) : Bool := atLimit t.commitCnt || atLimit t.rollbackCnt || atLimit t.expireCnt
def satMesh (m : Mesh) : Bool := atLimit m.par || atLimit m.uncorr || atLimit m.corr
def satDmaCh (c : DmaCh) : Bool := atLimit c.errCnt || atLimit c.wdrCnt
def satUpd (u : Upd) : Bool := atLimit u.tagerr || atLimit u.repair
def satEth (e : Eth) : Bool := atLimit e.rxerr || atLimit e.rxdrop || atLimit e.txdrop
def satCan (c : Can) : Bool := atLimit c.txtmoCnt || atLimit c.busoffCnt || atLimit c.rxdrop

/-- The saturation flags that source 69 carries. -/
def satMet (s : State) : Bool :=
  s.met.ch.toList.any satChan || s.met.rp.toList.any (fun p => atLimit p.swupCnt) || s.met.adc.toList.any (fun a => atLimit a.calCnt)
    || s.met.m.toList.any satMeter || s.met.pls.toList.any (fun p => atLimit p.cnt) || atLimit s.met.bal.failCnt
    || satBill s || atLimit s.bill.lostCnt || satTok s.bill.tok

/-! ### The levels -/

/-- LEDGER_HIGH of R156. -/
def ledgerHigh (s : State) : Bool := decide (7373 ≤ ledgerUsed s)

/-- TIME, GPIO, DMA and MESH: sources 2 to 31. -/
def levelSys (s : State) (i : Nat) : Bool :=
  match i with
  | 2 => s.sys.holdLow || s.sys.shed || s.sys.therm1e
  | 3 => s.thl.parErr != 0 || s.thl.uncorr != 0 || s.thl.corrEvt != 0 || atLimit s.thl.passCnt || s.thl.part.toList.any satPart
  | 4 => s.thl.prDone || s.thl.slotDone
  | 5 => s.time.refdevE || s.time.vbakLow || atLimit s.time.evlDrop
  | 7 => s.gpio.evt != 0
  | 9 => s.gpio.ovf
  | 24 => field s.dma.evt 7 0 != 0
  | 25 => field s.dma.evt 15 8 != 0
  | 26 => field s.dma.evt 23 16 != 0
  | 27 => field s.dma.evt 31 24 != 0
  | 28 => s.dma.ch.toList.any fun c => c.st == DmaState.halted
  | 29 => s.dma.ch.toList.any satDmaCh
  | 30 => s.mesh.evt != 0 || satMesh s.mesh
  | _ => false

/-- VPn: sources 32 + 4n to 35 + 4n. -/
def levelVp (v : Vp) (i : Nat) : Bool :=
  match i with
  | 0 => bitsOf v.pilot.evt.toNat 1 0 != 0
  | 1 => bitsOf v.pilot.evt.toNat 6 2 != 0 || satPilot v.pilot
  | 2 => v.link.evt.getLsbD 1
  | _ => bitsOf v.link.evt.toNat 9 2 != 0 || satLink v.link

/-- MET and BILL: sources 64 to 87. -/
def levelMet (s : State) (i : Nat) : Bool :=
  match i with
  | 64 => s.met.ch.toList.any fun c => c.stuck || c.loss
  | 65 => s.met.rp.toList.any (·.disagree)
  | 66 => s.met.filterFault
  | 67 => s.met.rs.lineLost
  | 68 => s.met.adc.toList.any (·.calStale)
  | 69 => satMet s
  | 70 => s.met.m.toList.any (·.invalid)
  | 71 => s.met.m.toList.any (·.powerOvr)
  | 74 => s.met.bal.alarm
  | 75 => s.met.pls.toList.any (·.sat)
  | 80 => s.auditWarn
  | 81 => s.auditFull
  | 82 => s.bill.lostCnt != 0
  | 84 => storeLow s
  | 86 => ledgerHigh s
  | 87 => s.bill.tok.ledgerFull
  | _ => false

/-- SAFE, LOAD and DISP: sources 96 to 137. -/
def levelSafe (s : State) (i : Nat) : Bool :=
  match i with
  | 96 => s.safe.sfevt.getLsbD 0 || s.safe.out.toList.any satOut || atLimit s.safe.protDrop
  | 97 => s.safe.sfevt.getLsbD 1
  | 98 => s.safe.sfevt.getLsbD 2
  | 99 => s.safe.sfevt.getLsbD 3
  | 100 => s.safe.sfevt.getLsbD 4
  | 102 => s.safe.sievt != 0 || satDisc s
  | 103 => s.safe.linkevt != 0 || s.safe.conn.toList.any satConn
  | 104 => s.safe.poolevt != 0
  | 123 => s.load.uvhold
  | 124 => s.load.ch.toList.any satLoadCh || atLimit s.load.wdexp
  | 130 => s.disp.refused
  | 131 => s.disp.replaced
  | 132 => s.disp.rgn.toList.any (·.redrawNeeded)
  | 134 => s.disp.wftBad
  | 135 => s.disp.tempRange
  | 136 => s.disp.flPermit
  | 137 => satDisp s.disp
  | _ => false

/-- ETH, CAN, UPD, SEC and TXN: sources 144 to 175. -/
def levelHost (s : State) (i : Nat) : Bool :=
  match i with
  | 144 => (s.eth[0]).rxe
  | 145 => (s.eth[0]).txe
  | 146 => (s.eth[0]).linkchg
  | 147 => (s.eth[1]).rxe
  | 148 => (s.eth[1]).txe
  | 149 => (s.eth[1]).linkchg
  | 151 => (s.can[0]).sfref
  | 154 => (s.can[1]).sfref
  | 157 => (s.can[2]).sfref
  | 159 => s.eth.toList.any satEth || s.can.toList.any satCan
  | 161 => s.upd.stchg
  | 162 => s.upd.winwarn
  | 163 => satUpd s.upd
  | 166 => s.sec.tamper
  | 174 => satTxn s.txn
  | _ => false

/-- The level of a source from the flags that hold it. -/
def srcLevel (s : State) (i : Nat) : Bool :=
  if i < 32 then levelSys s i
  else if i < 64 then levelVp s.vp[(Fin.ofNat 8 ((i - 32) / 4) : Fin 8)] ((i - 32) % 4)
  else if i < 96 then levelMet s i
  else if 112 ≤ i ∧ i < 122 then (s.load.ch[(Fin.ofNat 10 (i - 112) : Fin 10)]).evt != 0
  else if i < 144 then levelSafe s i
  else if i < 176 then levelHost s i
  else (sourceOwner s (i - 176)).isSome && !sourceRises s (i - 176) && s.thl.user.getLsbD (i - 176)

/-! ### INTC (R434) -/

/-- Whether a source is pending: its level, or a source without a flag that was raised, and not claimed. -/
def pendingSrc (s : State) (i : Nat) : Bool :=
  decide (0 < i) && decide (i < 256) && (s.intc.raised.getLsbD i || srcLevel s i) && !s.intc.claimed.getLsbD i

/-- The priority of a source; source 0 has none. -/
def prioOf (s : State) (i : Nat) : Nat := (s.intc.prio[(Fin.ofNat 256 i : Fin 256)]).toNat

/-- Of the pending sources that a context enables, above its threshold, the one of highest priority; of equal ones the
lowest number. -/
def bestSrc (s : State) (ctx : Fin 8) : Nat :=
  (List.range 256).foldl (fun b i =>
    if pendingSrc s i && (s.intc.enable[ctx]).getLsbD i && decide ((s.intc.thresh[ctx]).toNat < prioOf s i)
        && (b == 0 || decide (prioOf s b < prioOf s i)) then i else b) 0

/-- A claim: returns and claims the best source; 0 when there is none. -/
def plicClaim (ctx : Fin 8) (s : State) : State :=
  let i := bestSrc s ctx
  let bit := BitVec.ofNat 256 (2 ^ i)
  (if i = 0 then s else { s with intc.raised := s.intc.raised &&& ~~~bit, intc.claimed := s.intc.claimed ||| bit }).busOk (wd i)

/-- PLIC_CLAIM: a read of the claim register of a context. -/
def execPlicClaim (ctx : Fin 8) (s : State) : Host.Outcome State Fault Refusal :=
  live s fun s => if blkUp s .intc 0 then plicClaim ctx s.tagged else s.tagged.busErr

/-- A completion: ends the claim of a source that the context enables. -/
def plicComplete (ctx : Fin 8) (src : Word) (s : State) : State :=
  if src.toNat < 256 ∧ (s.intc.enable[ctx]).getLsbD src.toNat then
    { s with intc.claimed := s.intc.claimed &&& ~~~(BitVec.ofNat 256 (2 ^ src.toNat)) }
  else s

/-- PLIC_COMPLETE: a write of the complete register of a context. -/
def execPlicComplete (ctx : Fin 8) (src : Word) (s : State) : Host.Outcome State Fault Refusal :=
  access .intc 0 s (plicComplete ctx src)

end Sys2Proof.Machine
end

