-- ==== Sys2Proof/Machine/Fabric.lean ====
section
/-! DEFINITION. Site-image containers: their form, the checks of the loader, the frame images and the check values
(R329 to R338, R492). -/

namespace Sys2Proof.Machine

/-- THL_SLOTCTL.RESULT and THL_PRCTL.RESULT. -/
def resDone : Nat := 0
def resRefused : Nat := 1
def resFlash : Nat := 2
def resFormat : Nat := 3
def resKey : Nat := 4
def resSignature : Nat := 5
def resCrc : Nat := 6
def resCheck : Nat := 7
def resNoTxn : Nat := 8
def resBase : Nat := 9
def resMode : Nat := 10
def resFull : Nat := 11

/-! ### The container (R333, R334) -/

structure Section where
  typ : Nat
  flags : Nat
  off : Nat
  len : Nat
  crc : Nat

def cMajor (c : List Byte) : Nat := leAt c 4 1
def cMinor (c : List Byte) : Nat := leAt c 5 1
def cKind (c : List Byte) : Nat := leAt c 6 1
def cNsect (c : List Byte) : Nat := leAt c 7 1
def cLength (c : List Byte) : Nat := leAt c 8 4
def cImageId (c : List Byte) : Nat := leAt c 12 4
def cSerial (c : List Byte) : Nat := leAt c 16 4
def cPatchSeq (c : List Byte) : Nat := leAt c 20 1
def cSchk (c : List Byte) : Nat := leAt c 40 4
def cMchk (c : List Byte) : Nat := leAt c 44 4

def cSections (c : List Byte) : List Section :=
  (List.range (cNsect c)).map fun i =>
    let e := slice c (128 + 16 * i) 16
    { typ := leAt e 0 1, flags := leAt e 1 1, off := leAt e 4 4, len := leAt e 8 4, crc := leAt e 12 4 }

def secBytes (c : List Byte) (x : Section) : List Byte := slice c x.off x.len

/-- The section of a type, empty where there is none. -/
def secOf (c : List Byte) (typ : Nat) : List Byte :=
  match (cSections c).find? fun x => x.typ == typ with
  | some x => secBytes c x
  | none => []

/-- Steps 1 and 2 of R336: MAGIC, TARGET, LENGTH and the format version (R335). -/
def headOk (patch : Bool) (room : Nat) (c : List Byte) : Bool :=
  slice c 0 4 == [0x54, 0x48, 0x53, 0x49] && leAt c 36 4 == 0x481600B1
    && decide (cLength c ≤ room) && decide (128 + 16 * cNsect c + 193 ≤ cLength c)
    && decide (1 ≤ cNsect c) && decide (cNsect c ≤ 24)
    && (cMajor c == 2 || (cMajor c == 1 && !patch))
    && cKind c == (if patch then 2 else 1)
    && (if patch then decide (1 ≤ cPatchSeq c) && decide (cPatchSeq c ≤ 15) else cPatchSeq c == 0)

/-- The public key of the signature block, and the signature (R334). -/
def cKey (c : List Byte) : List Byte := slice c (cLength c - 193) 97
def cSig (c : List Byte) : List Byte := slice c (cLength c - 96) 96

/-- An ECDSA P-384 signature by an uncompressed public key over the SHA-384 of a message. -/
def sigOk384 (key msg sig : List Byte) : Bool :=
  slice key 0 1 == [0x04] && onCurve p384 (beNat (slice key 1 48)) (beNat (slice key 49 48))
    && ecdsaVerify p384 (beNat (slice key 1 48)) (beNat (slice key 49 48)) (sha384 msg) sig

/-- Steps 3 and 4: the key's digest against SKD, which may be blank (R387), and the signature. -/
def keyOk (s : State) (c : List Byte) : Bool :=
  match s.sec.skd with
  | none => true
  | some d => sha384 (cKey c) == d

def signatureOk (c : List Byte) : Bool := sigOk384 (cKey c) (c.take (cLength c - 96)) (cSig c)

/-- The first half of step 5: every section lies in the container and has its CRC. -/
def crcsOk (c : List Byte) : Bool :=
  (cSections c).all fun x => decide (x.off + x.len + 193 ≤ cLength c) && crc32c (secBytes c x) == x.crc

def countTyp (c : List Byte) (t : Nat) : Nat := ((cSections c).filter fun x => x.typ == t).length

def isFrames (t : Nat) : Bool := t == 0x01 || t == 0x02 || (decide (0x10 ≤ t) && decide (t ≤ 0x15))

/-- The partition of a frame section's type. -/
def partOf (t : Nat) : Nat := if t = 0x01 then 0 else if t = 0x02 then 1 else t - 0x0E

/-- The frame sections' types, by partition code. -/
def frameTypes : List Nat := [0x01, 0x02, 0x10, 0x11, 0x12, 0x13, 0x14, 0x15]

/-- R334: each type as often as it may stand, FLAGS in form, and no type that the device does not know. -/
def typesOk (patch : Bool) (c : List Byte) : Bool :=
  (cSections c).all (fun x => decide (x.flags ≤ 1)
      && (isFrames x.typ || x.typ == 0x30 || (!patch && decide (0x20 ≤ x.typ) && decide (x.typ ≤ 0x24))
          || (decide (0x40 ≤ x.typ) && decide (x.typ ≤ 0x7F) && x.flags == 1)))
    && frameTypes.all (fun t => decide (countTyp c t ≤ 1))
    && if patch then decide (countTyp c 0x30 ≤ 1)
       else [0x01, 0x02, 0x20, 0x21, 0x22, 0x23, 0x24, 0x30].all fun t => countTyp c t == 1

/-- The clusters of each partition (R329). -/
def partSize (p : Nat) : Nat := if p = 0 then 384 else if p = 1 then 128 else 256

/-- The partition of a place in the fabric, by its code; 8 beyond its 2,048 clusters (R329). -/
def partAt (i : Nat) : Nat :=
  if i < 384 then 0 else if i < 512 then 1 else if i < 2048 then 2 + (i - 512) / 256 else 8

/-- The frames of a frame section. -/
def framesIn (l : List Byte) : List Frame := (blocks 516 l).map fun b => { cluster := leAt b 0 4, data := b.drop 4 }

/-- The clusters of each half of SP: SP-A is the first of them, SP-B the rest (R329). -/
def halfSize : Nat := 192

/-- Whether a frame addresses a cluster in SP-B. -/
def inHalfB (f : Frame) : Bool := decide (halfSize ≤ Config.clusterIndex f.cluster)

/-- The frames of SP, each in the half of its copy, and no half with more frames than clusters (R329, R332). -/
def halvesOk (l : List Frame) : Bool :=
  l.all (fun f => Config.frameCopyB f.data == inHalfB f)
    && decide (l.countP (fun f => !inHalfB f) ≤ halfSize) && decide (l.countP inHalfB ≤ halfSize)

/-- Step 6: every frame is whole and addresses a cluster of its partition, and in SP of its copy's half (R332); a partition
takes no more frames than it has clusters. -/
def framesOk (c : List Byte) : Bool :=
  frameTypes.all fun t =>
    let l := secOf c t
    l.length % 516 == 0 && decide (l.length / 516 ≤ partSize (partOf t))
      && (framesIn l).all (fun f => partAt (Config.clusterIndex f.cluster) == partOf t)
      && (t != 0x01 || halvesOk (framesIn l))

/-- The cells that a partition's frames configure, at most 64 in each cluster and in all of its clusters (R329). -/
def cellsIn (p : Fin 8) (l : List Frame) : Nat :=
  min (64 * partSize p.val) (l.map fun f => min 64 (Config.cellsUsed f.data)).sum

/-- The parameter sections in form (R492). -/
def sectionsOk (c : List Byte) : Bool :=
  [0x20, 0x21, 0x22, 0x23, 0x24].all (fun t => sectionOk t (secOf c t)) && slotWordsOk (secOf c 0x20) (secOf c 0x21)

/-- Steps 1 to 6 of R336 on a container in at most room bytes: the first failing RESULT. -/
def containerCheck (s : State) (patch : Bool) (room : Nat) (c : List Byte) : Option Nat :=
  if !headOk patch room c then some resFormat
  else if !keyOk s c then some resKey
  else if !signatureOk c then some resSignature
  else if !crcsOk c then some resCrc
  else if !typesOk patch c || (!patch && !sectionsOk c) || !framesOk c then some resFormat
  else none

/-! ### Frame images, banks and check values (R492) -/

/-- A frame put into a frame image: it replaces the frame of its address or takes its place in the order. -/
def putFrame (f : Frame) : List Frame → List Frame
  | [] => [f]
  | g :: r =>
    if f.cluster < g.cluster then f :: g :: r
    else if f.cluster = g.cluster then f :: r
    else g :: putFrame f r

/-- The frames of a container put into the frame images. -/
def putFrames (c : List Byte) (v : Vector (List Frame) 8) : Vector (List Frame) 8 :=
  (fins 8).foldl (fun v p => vmod v p fun l => (framesIn (secOf c (frameTypes.getD p.val 0))).foldl (fun l f => putFrame f l) l) v

/-- The bytes of a frame image. -/
def imageBytes : List Frame → List Byte
  | [] => []
  | f :: r => leBytes 4 f.cluster ++ f.data ++ imageBytes r

/-- The bytes of a parameter section with the values in force. -/
def sectionBytes (as : List Nat) (b : List (Nat × Word)) : List Byte :=
  as.flatMap fun a => leBytes 4 a ++ leBytes 4 ((bankAt b a).toNat &&& setMask a)

/-- A check value: the CRC-32C of a frame image and a parameter section (R492). -/
def checkValue (fs : List Frame) (as : List Nat) (b : List (Nat × Word)) : Nat := crc32c (imageBytes fs ++ sectionBytes as b)

/-- A word with the fields of a mask replaced. -/
def mergeWord (old : Word) (mask v : Nat) : Word := wd ((old.toNat &&& (2 ^ 32 - 1 - mask)) ||| (v &&& mask))

/-- Entries of a parameter section put into a bank: only the fields of the set change. -/
def putEntries (es : List (Nat × Nat)) (b : List (Nat × Word)) : List (Nat × Word) :=
  es.foldl (fun b e => bankSet e.1 (mergeWord (bankAt b e.1) (setMask e.1) e.2) b) b

/-- The bank that a full image's five parameter sections make, over a bank that holds the fields of other domains. -/
def imageBank (c : List Byte) (b : List (Nat × Word)) : List (Nat × Word) :=
  [0x20, 0x21, 0x22, 0x23, 0x24].foldl (fun b t => putEntries (secEntries (secOf c t)) b) b

/-- What the allocation of R238 keeps across a start: SAFE_TIEREQ and OUTLET of SAFE_MOD. -/
def keptSite (b : List (Nat × Word)) : List (Nat × Word) :=
  ((0x20300404, bankAt b 0x20300404) :: (fins 48).map fun m => (modA m, bankAt b (modA m) &&& 0xF)).foldl
    (fun acc p => bankSet p.1 p.2 acc) []

/-- VP_LCFG as the image gives it (R201). -/
def putLinks (imgId : Nat) (b : List (Nat × Word)) : List (Nat × Word) :=
  (fins 8).foldl (fun b n => bankSet (0x20100100 + 0x10000 * n.val) (Config.linkCfg imgId n.val) b) b

/-! ### The loader (R336 to R338) -/

/-- What a slot loads. -/
structure Loaded where
  frames : Vector (List Frame) 8
  bank : List (Nat × Word)   -- the base parameters, without the committed changes
  metSec : List Nat
  safeSec : List Nat
  portMap : List Byte
  fmt : BitVec 16
  imgId : Word
  applied : Nat
  mchk : Nat                 -- MCHK of the base image

/-- The container at the start of a slot. -/
def slotImage (s : State) (k : Fin 2) : List Byte :=
  let h := s.norRead (slotOfs k) 128
  let n := cLength h
  if n ≤ slotSize then s.norRead (slotOfs k) n else h

/-- Steps 1 to 8 of R336 on a slot: the first failing RESULT, or what it loads. Another IMAGE_ID than the last leaves the
committed changes behind, the allocation's too (R357). -/
def loadBase (s : State) (k : Fin 2) : Except Nat Loaded :=
  let c := slotImage s k
  match containerCheck s false slotSize c with
  | some r => .error r
  | none =>
    let frames := putFrames c (Vector.replicate 8 [])
    let site := if s.thl.lastImg = some (wd (cImageId c)) then keptSite s.params else []
    let bank := putLinks (cImageId c) (imageBank c site)
    let metSec := (secEntries (secOf c 0x20)).map Prod.fst
    let safeSec := (secEntries (secOf c 0x21)).map Prod.fst
    if !formatOk (s.withParams bank) then .error resFormat
    else if checkValue frames[0] safeSec bank != cSchk c || checkValue frames[1] metSec bank != cMchk c then .error resCheck
    else .ok
      { frames := frames, bank := bank, metSec := metSec, safeSec := safeSec, portMap := secOf c 0x30,
        fmt := BitVec.ofNat 16 (cMajor c * 256 + cMinor c), imgId := wd (cImageId c), applied := 0, mchk := cMchk c }

/-- A committed patch applied: its own checks, and the resulting check values against its SCHK and MCHK (R338). -/
def loadPatch (s : State) (k : Fin 2) (l : Loaded) (p : Nat × Nat) : Except Nat Loaded :=
  let c := s.norRead (slotOfs k + p.1) p.2
  match containerCheck s true slotSize c with
  | some r => .error r
  | none =>
    let frames := putFrames c l.frames
    if checkValue frames[0] l.safeSec l.bank != cSchk c || checkValue frames[1] l.metSec l.bank != cMchk c then .error resCheck
    else .ok { l with
      frames := frames, applied := l.applied + 1,
      portMap := if countTyp c 0x30 = 1 then secOf c 0x30 else l.portMap }

def loadPatches (s : State) (k : Fin 2) (l : Loaded) : List (Nat × Nat) → Except Nat Loaded
  | [] => .ok l
  | p :: r =>
    match loadPatch s k l p with
    | .error e => .error e
    | .ok l => loadPatches s k l r

/-- One bit of a vector set to a value. -/
def setBit {n : Nat} (x : BitVec n) (i : Nat) (v : Bool) : BitVec n :=
  if v then x ||| BitVec.ofNat n (2 ^ i) else x &&& ~~~(BitVec.ofNat n (2 ^ i))

/-- n bits where one function says which take another's value. -/
def restartBits {n : Nat} (x : BitVec n) (hit : Nat → Bool) (v : Nat → Bool) : BitVec n :=
  forAll (List.range n) (fun x i => if hit i then setBit x i (v i) else x) x

/-- The latches of G partitions restart from their configured initial values, and their boundary outputs take these (R344
step 3). -/
def restartedThl (ps : List (Fin 8)) (s : State) : Thl :=
  let hit := fun (o : Option (Fin 8)) => o.any ps.contains
  let init := fun (o : Option (Fin 8)) (i : Nat) => o.any fun p => Config.initBit (imageBytes s.thl.frames[p]) i
  { s.thl with
    gin := restartBits s.thl.gin (fun i => hit (ginOwner s i)) fun i => init (ginOwner s i) i
    user := restartBits s.thl.user (fun i => hit (sourceOwner s i)) fun i => init (sourceOwner s i) (32 + i)
    ball := restartBits s.thl.ball (fun i => hit (ballOwner s i)) fun i => init (ballOwner s i) (112 + i) }

def restartParts (ps : List (Fin 8)) (s : State) : State := { s with thl := restartedThl ps s }

/-- The codes of the G partitions. -/
def gParts : List (Fin 8) := [2, 3, 4, 5, 6, 7]

/-- The safety check value and the metrology check value in force (R492). -/
def safetyCheck (s : State) : Word := wd (checkValue s.thl.frames[0] s.thl.safeSec s.params)
def metCheck (s : State) : Word := wd (checkValue s.thl.frames[1] s.thl.metSec s.params)

/-- The check values are recomputed (R287, R335). -/
def recheck (s : State) : State := { s with safe.chk := safetyCheck s, sys.metChk := metCheck s }

end Sys2Proof.Machine
end

