-- ==== Sys2Proof/Machine/Thl.lean ====
section
/-! DEFINITION. The THL commands: slot engine, staging of a patch, the configuration scrub, glue-logic ports
(R330, R339 to R346). -/

namespace Sys2Proof.Machine

/-! ### The slot engine (R339, R340) -/

/-- Whether the mode admits a slot command. -/
def slotMode (s : State) : Bool := s.sys.mode == .commission || s.sys.mode == .service || s.sys.mode == .maintain

/-- Whether a slot command is accepted: the slot is not the active one, or SIMG_NONE is set, and none runs. -/
def slotAccepts (s : State) (k : Fin 2) : Bool := (s.sys.simgNone || k != s.thl.act) && slotMode s && s.thl.cmd.isNone

/-- A slot command starts with the source, length and offset that stand in its registers, or is refused and changes nothing
but RESULT. -/
def slotStart (cmd : SlotCmd) (allowed : Bool) (k : Fin 2) (s : State) : State :=
  let s := { s with thl.slot := k }
  if s.thl.cmd.isSome then { s with thl.result := 1 }
  else if slotAccepts s k && allowed then
    { s with
      thl.cmd := some cmd
      thl.cmdSlot := k
      thl.runSrc := s.thl.progSrc
      thl.runLen := s.thl.progLen
      thl.runOfs := s.thl.progOfs }
  else { s with thl.result := 1 }

def execSlotErase (k : Fin 2) (s : State) : Host.Outcome State Fault Refusal := access .thl 0 s (slotStart .erase true k)

/-- WRITE: PROGLEN bytes must fit the slot from PROGOFS, and both addresses are multiples of 4. -/
def slotWriteFits (s : State) : Bool :=
  decide (s.thl.progLen.toNat + s.thl.progOfs.toNat ≤ slotSize) && s.thl.progSrc.toNat % 4 == 0 && s.thl.progOfs.toNat % 4 == 0

def slotWriteCmd (k : Fin 2) (s : State) : State := slotStart .write (slotWriteFits s) k s

def execSlotWrite (k : Fin 2) (s : State) : Host.Outcome State Fault Refusal := access .thl 0 s (slotWriteCmd k)

def execSlotVerify (k : Fin 2) (s : State) : Host.Outcome State Fault Refusal := access .thl 0 s (slotStart .verify true k)

/-- SWITCH: only in COMMISSION and MAINTAIN, and only a slot whose last VERIFY passed (R340). -/
def switchAllowed (s : State) (k : Fin 2) : Bool := s.sys.mode != .service && s.thl.verified[k]

def slotSwitchCmd (k : Fin 2) (s : State) : State := slotStart .switch (switchAllowed s k) k s

def execSlotSwitch (k : Fin 2) (s : State) : Host.Outcome State Fault Refusal := access .thl 0 s (slotSwitchCmd k)

/-- Bytes as the flash holds them after programming over what it held: programming only clears bits. PRESUMED. -/
def programmed (old new : List Byte) : List Byte := List.zipWith (· &&& ·) old new

/-- n bytes of which nothing is known after a failed operation. -/
def State.freeBytes (s : State) (n : Nat) : List Byte × State :=
  let d := s.draw
  ((List.range n).map fun i => Config.freeByte d.1 i, d.2)

/-- ERASE ends. A slot that does not erase holds what the failed operation left. -/
def slotErased (k : Fin 2) (ok : Bool) (s : State) : State × Nat :=
  let s := { s with thl.verified := s.thl.verified.set k false, thl.patches := s.thl.patches.set k [] }
  if ok then (s.norErase (slotOfs k) slotSize, resDone)
  else
    let f := s.freeBytes slotSize
    (f.2.norWrite (slotOfs k) f.1, resFlash)

/-- WRITE ends: the bytes of the source that stood in the registers at its start, read back against it. -/
def slotWritten (k : Fin 2) (ok : Bool) (s : State) : State × Nat :=
  let n := s.thl.runLen.toNat
  let o := slotOfs k + s.thl.runOfs.toNat
  let s := { s with thl.verified := s.thl.verified.set k false }
  if ok then
    let src := s.srcBytes 8 s.thl.runSrc.toNat n
    let new := programmed (s.norRead o n) src.1
    (src.2.norWrite o new, if new == src.1 then resDone else resFlash)
  else
    let f := s.freeBytes n
    (f.2.norWrite o f.1, resFlash)

/-- VERIFY ends: steps 1 to 8 of R336. -/
def slotVerified (k : Fin 2) (ok : Bool) (s : State) : State × Nat :=
  let r := if ok then (match loadBase s k with
    | .error e => e
    | .ok _ => resDone) else resFlash
  ({ s with thl.verified := s.thl.verified.set k (r == resDone) }, r)

/-- The running slot command ends; ok is whether the flash answered. -/
def slotCommandDone (ok : Bool) (s : State) : State :=
  match s.thl.cmd with
  | none => s
  | some cmd =>
    let k := s.thl.cmdSlot
    let r : State × Nat := match cmd with
      | .erase => slotErased k ok s
      | .write => slotWritten k ok s
      | .verify => slotVerified k ok s
      | .switch => ({ s with thl.next := k }, resDone)
    { r.1 with thl.cmd := none, thl.result := BitVec.ofNat 4 r.2, thl.slotDone := true }

def execSlotCommandDone (ok : Bool) (s : State) : Host.Outcome State Fault Refusal := live s (slotCommandDone ok)

/-! ### Staging (R343, R345) -/

/-- Staging ends with a RESULT; the patch is in the shadow store only when it is 0. -/
def stageEnd (r : Nat) (c : List Byte) (s : State) : State :=
  { s with
    thl.pr := if r = resDone then .staged else .none
    thl.prResult := BitVec.ofNat 4 r
    thl.shadow := if r = resDone then c else []
    thl.prDone := true }

/-- Whether the THL transaction is open, with its shadow not yet frozen (R351). -/
def thlOpen (s : State) : Bool := (s.txn.dom[(5 : Fin 6)]).st == .open_

/-- STAGE: without an open THL transaction it fails at once, and the shadow store stays as it is. -/
def prStage (s : State) : State :=
  if s.thl.pr = .staging then s
  else if !thlOpen s then { s with thl.prResult := BitVec.ofNat 4 resNoTxn, thl.prDone := true }
  else { s with thl.pr := .staging, thl.shadow := [], thl.stgSrc := s.thl.prSrc, thl.stgLen := s.thl.prLen }

def execPrStage (s : State) : Host.Outcome State Fault Refusal := access .thl 0 s prStage

/-- Whether a container carries frames of a partition, by its type. -/
def carries (c : List Byte) (t : Nat) : Bool := decide (0 < (secOf c t).length)

/-- The conditions of R343 on SP: every coil pair OPEN and every outlet out of service. -/
def spQuiet (s : State) : Bool :=
  (fins 12).all (fun c => (s.safe.coil[c]).st == .open_) && s.sys.oos == 0xFF

/-- Where the next patch of a slot is appended: at the next sector of 64 KiB. DESIGN CHOICE. -/
def patchOfs (s : State) (k : Fin 2) : Nat :=
  let used := s.thl.patches[k].foldl (fun a p => max a (p.1 + p.2)) (cLength (s.norRead (slotOfs k) 128))
  (used + 0xFFFF) / 0x10000 * 0x10000

/-- The checks of R343. -/
def stageCheck (s : State) (c : List Byte) : Nat :=
  let k := s.thl.act
  let done := s.thl.patches[k]
  match containerCheck s true c.length c with
  | some r => r
  | none =>
    if countTyp c 0x30 = 1 && !Config.portMapOk ((frameTypes.filter (carries c)).map partOf) s.thl.portMap (secOf c 0x30) then resFormat
    else if cImageId c != s.thl.imgId.toNat || cPatchSeq c != done.length + 1 && done.length < 15 then resBase
    else if (carries c 0x01 || carries c 0x02) && s.sys.mode != .maintain then resMode
    else if carries c 0x01 && !spQuiet s then resMode
    else if 15 ≤ done.length || s.thl.fmt.toNat / 256 == 1 || decide (slotSize < patchOfs s k + c.length) then resFull
    else resDone

/-- Staging ends: the patch is read and checked. One whose transaction is no longer open stages nothing (R351). -/
def stagingDone (s : State) : State :=
  if s.thl.pr != .staging then s
  else if !thlOpen s then stageEnd resNoTxn [] s
  else
    let n := min s.thl.stgLen.toNat 0x40000
    let src := s.srcBytes 8 s.thl.stgSrc.toNat n
    let c := src.1.take (max 1 (cLength src.1))
    stageEnd (stageCheck src.2 c) c src.2

def execPrStagingDone (s : State) : Host.Outcome State Fault Refusal := live s stagingDone

/-- DISCARD removes a staged patch, unless its commit has been accepted (R351). -/
def prDiscard (s : State) : State :=
  if s.thl.pr = .staged ∧ thlOpen s then { s with thl.pr := .none, thl.shadow := [] } else s

def execPrDiscard (s : State) : Host.Outcome State Fault Refusal := access .thl 0 s prDiscard

/-! ### Write-in (R344) -/

/-- Whether a staged patch changes the metrology check value's or the safety check value's frames. -/
def patchTouches (s : State) (t : Nat) : Bool := carries s.thl.shadow t

/-- Steps 1 to 5 of R344 for the staged patch: the frames, the port map, the restart of the partitions, the patch in its slot
and its commit record. What the restarted partitions then drive comes as G_PARTITION_SIGNAL. -/
def writeIn (s : State) : State :=
  let c := s.thl.shadow
  let k := s.thl.act
  let o := patchOfs s k
  let ps := gParts.filter fun p => carries c (frameTypes.getD p.val 0)
  let s := (s.norErase (slotOfs k + o) ((c.length + 0xFFFF) / 0x10000 * 0x10000)).norWrite (slotOfs k + o) c
  restartParts ps { s with
    thl.frames := putFrames c s.thl.frames
    thl.portMap := if countTyp c 0x30 = 1 then secOf c 0x30 else s.thl.portMap
    thl.patches := s.thl.patches.set k (s.thl.patches[k] ++ [(o, c.length)])
    thl.applied := s.thl.applied + 1
    thl.pr := .none
    thl.shadow := [] }

/-! ### Scrub, parity and glue logic (R330, R341, R342, R346) -/

def State.modPart (s : State) (p : Fin 8) (f : PartCnt → PartCnt) : State := { s with thl.part := vmod s.thl.part p f }

def partBit (p : Fin 8) : Byte := BitVec.ofNat 8 (2 ^ p.val)

/-- CONFIG_SCRUB_CORRECT. -/
def scrubCorrect (p : Fin 8) (s : State) : State :=
  { s.modPart p (fun x => { x with corr := satInc x.corr }) with thl.corrEvt := s.thl.corrEvt ||| partBit p }

def execConfigScrubCorrect (p : Fin 8) (s : State) : Host.Outcome State Fault Refusal := live s (scrubCorrect p)

/-- CONFIG_UNCORRECTABLE: SP latches code 6 and its frames are reloaded; another partition's frame is rewritten. For MP,
chans are the channels routed through the frame: their samples are not valid while it is rewritten, which takes 100 µs at
most. DESIGN CHOICE: it takes as long. -/
def configUncorrectable (p : Fin 8) (chans : BitVec 32) (s : State) : State :=
  let s := { s with thl.uncorr := s.thl.uncorr ||| partBit p }
  if p = 0 then latchFault 6 (forAll (fins 12) (fun s c => coilOff c true s) s)
  else
    let s := s.modPart p fun x => { x with reload := satInc x.reload }
    if p = 1 then
      forAll (fins 32) (fun s n =>
        if chans.getLsbD n.val then
          s.modCh n fun x => { x with valid := false, fastValid := false, unroutedTo := s.time.sysNs + 100000 }
        else s) s
    else s

def execConfigUncorrectable (p : Fin 8) (chans : BitVec 32) (s : State) : Host.Outcome State Fault Refusal :=
  live s (configUncorrectable p chans)

/-- FABRIC_PARITY_ERROR: into SP it is a path into Caldera (R241); into any other partition it sets PARERR. -/
def fabricParity (p : Fin 8) (s : State) : State :=
  if p = 0 then latchFault 4 s else { s with thl.parErr := s.thl.parErr ||| partBit p }

def execFabricParityError (p : Fin 8) (s : State) : Host.Outcome State Fault Refusal := live s (fabricParity p)

def execThlGoutWrite (v : Word) (s : State) : Host.Outcome State Fault Refusal :=
  access .thl 0 s fun s => { s with thl.gout := v }

/-- CLRCNT of THL_CTL. -/
def thlClear (s : State) : State :=
  ({ s with thl.part := Vector.replicate 8 { corr := 0, reload := 0 }, thl.passCnt := 0 }).statsCleared 0x5448 0

def execThlClrcnt (s : State) : Host.Outcome State Fault Refusal := access .thl 0 s thlClear

/-- CONFIG_SCRUB_PASS with its duration in ms. -/
def execConfigScrubPass (ms : Byte) (s : State) : Host.Outcome State Fault Refusal :=
  live s fun s => { s with thl.passCnt := satInc s.thl.passCnt, thl.lastPass := ms }

/-- G_PARTITION_SIGNAL: a THL_GIN bit, a user source, or a ball, where the port map assigns it to a G partition. A source
assigned as a rising edge is latched by its gateway as it rises. -/
def gSignal (g : GSignal) (s : State) : State :=
  match g with
  | .gin b v => if (ginOwner s b.val).isSome then { s with thl.gin := setBit s.thl.gin b.val v } else s
  | .source n v =>
    if (sourceOwner s n.val).isSome then
      let t := { s with thl.user := setBit s.thl.user n.val v }
      if sourceRises s n.val && v && !s.thl.user.getLsbD n.val then t.raise (176 + n.val) else t
    else s
  | .ball n v => if (ballOwner s n.val).isSome then { s with thl.ball := setBit s.thl.ball n.val v } else s

def execGPartitionSignal (g : GSignal) (s : State) : Host.Outcome State Fault Refusal := live s (gSignal g)

end Sys2Proof.Machine
end

