-- ==== Sys2Proof/Machine/TxnRules.lean ====
section
/-! DEFINITION. What a commit checks (R93, R86, R94, R121, R164, R170, R172, R177, R229, R347, R351 to R353): the words of
each domain, the change set of a shadow, and the validators. -/

namespace Sys2Proof.Machine

/-! ### Domains and their words (R347) -/

/-- The domain that a write to an RWT register of a block belongs to: 0 SITE, 1 MET, 2 BILL, 4 DISP. -/
def rwtDomain : BlkKind → Option (Fin 6)
  | .safe => some 0
  | .met => some 1
  | .bill => some 2
  | .disp => some 4
  | _ => none

/-- The fields of the parameter set that a SAFE transaction may change: the SAFE and VPn words of the set, and the slot
words that the set owns (R86). Which slots it owns is fixed by the site image. -/
def safeMask (s : State) (a : Nat) : Nat :=
  match blkAt a with
  | some (_, b) =>
    if b.kind == .safe || b.kind == .vp then setMask a
    else if isSlotWord a && s.pb a 21 then setMask a &&& 0xFFDFFFFF else 0
  | none => 0

/-- The RWT bits of a word. -/
def rwtMask (a : Nat) : Nat :=
  match blkAt a with
  | some (_, b) => match rowAt b.kind (a - b.base) with
    | some r => r.rwt
    | none => 0
  | none => 0

/-- The fields of a word that belong to a domain; none where the word is not of the domain. -/
def domMask (s : State) (d : Fin 6) (a : Nat) : Nat :=
  if d = 3 then safeMask s a
  else match blkAt a with
    | some (_, b) => if rwtDomain b.kind == some d then rwtMask a else 0
    | none => 0

/-- Status fields that share a word with parameters: LINE_LOST, SLOTEN, the status of SAFE_SEGSTAT, PENDING. -/
def roMask (a : Nat) : Nat :=
  if a = 0x20200020 then 0x40000000
  else if a = 0x20240030 then 0xFF
  else if 0x20300420 ≤ a ∧ a < 0x20300438 then 0xFFFF7FFF
  else if 0x20300500 ≤ a ∧ a < 0x203005C0 then 0x20
  else 0

/-- The reserved bits of a parameter word. -/
def reservedMask (a : Nat) : Nat := (2 ^ 32 - 1) ^^^ (setMask a ||| rwtMask a ||| roMask a)

/-- The shadow capacity of a domain in words. -/
def shadowCap (d : Fin 6) : Nat :=
  if d = 0 then 64 else if d = 1 then 1024 else if d = 2 then 2048 else if d = 3 then 512 else if d = 4 then 128 else 0

/-- A word of a parameter register with the fields of a mask taken from a value. -/
def maskIn (old : Word) (mask : Nat) (v : Word) : Word := (old &&& ~~~(wd mask)) ||| (v &&& wd mask)

/-- The changes of a shadow: address, old and new word, where they differ. -/
def changeSet (s : State) (d : Fin 6) : List (Nat × Word × Word) :=
  (s.txn.dom[d].shadow.map fun p => (p.1, s.par p.1, maskIn (s.par p.1) (domMask s d p.1) p.2)).filter
    fun c => c.2.1 != c.2.2

/-- The parameter bank that the changes leave. -/
def merged (s : State) (l : List (Nat × Word × Word)) : List (Nat × Word) :=
  bankMerge s.params (l.map fun c => (c.1, c.2.2))

/-! ### Stated ranges of fields -/

/-- A field with a stated range: its word, and the values it may take. -/
structure RangeRow where
  k : BlkKind
  off : Nat
  dims : List (Nat × Nat)
  hi : Nat
  lo : Nat
  ok : List (Nat × Nat)

/-- The ranges that the register tables state for parameters, but for those whose values outside clamp. -/
def rangeRows : List RangeRow :=
  [⟨.vp, 0x14, [], 23, 16, [(0, 100)]⟩, ⟨.vp, 0x14, [], 11, 8, [(1, 15)]⟩, ⟨.vp, 0x14, [], 4, 0, [(4, 16)]⟩,
   ⟨.safe, 0x400, [], 31, 24, [(1, 255)]⟩, ⟨.safe, 0x400, [], 23, 16, [(1, 255)]⟩, ⟨.safe, 0x400, [], 15, 8, [(1, 255)]⟩,
   ⟨.safe, 0x410, [], 15, 0, [(1, 65535)]⟩, ⟨.safe, 0x440, [(12, 4)], 31, 30, [(0, 2)]⟩,
   ⟨.safe, 0x600, [(8, 0x20)], 10, 0, [(100, 2000)]⟩, ⟨.safe, 0x608, [(8, 0x20)], 15, 12, [(5, 15)]⟩,
   ⟨.safe, 0x608, [(8, 0x20)], 11, 8, [(1, 10)]⟩, ⟨.safe, 0x608, [(8, 0x20)], 7, 4, [(1, 10)]⟩,
   ⟨.safe, 0x60C, [(8, 0x20)], 31, 28, [(0, 11), (15, 15)]⟩, ⟨.safe, 0x60C, [(8, 0x20)], 27, 24, [(0, 11), (15, 15)]⟩,
   ⟨.safe, 0x610, [(8, 0x20)], 31, 28, [(0, 11), (15, 15)]⟩, ⟨.safe, 0x610, [(8, 0x20)], 23, 16, [(10, 40)]⟩,
   ⟨.safe, 0x618, [(8, 0x20)], 31, 24, [(2, 50)]⟩, ⟨.safe, 0x618, [(8, 0x20)], 23, 16, [(5, 255)]⟩] ++
  [⟨.safe, 0x804, [(6, 0x10)], 20, 14, [(20, 100)]⟩, ⟨.safe, 0x804, [(6, 0x10)], 3, 0, [(0, 9)]⟩,
   ⟨.safe, 0x900, [(12, 8)], 31, 24, [(10, 150)]⟩, ⟨.safe, 0x900, [(12, 8)], 23, 16, [(10, 60)]⟩,
   ⟨.safe, 0x960, [], 31, 22, [(10, 1000)]⟩, ⟨.safe, 0x960, [], 21, 14, [(50, 200)]⟩, ⟨.safe, 0x960, [], 13, 8, [(1, 60)]⟩,
   ⟨.safe, 0x980, [(16, 4)], 31, 30, [(0, 2)]⟩, ⟨.safe, 0x980, [(16, 4)], 28, 16, [(0, 0), (4, 8000)]⟩,
   ⟨.safe, 0x980, [(16, 4)], 7, 0, [(4, 40)]⟩, ⟨.safe, 0xA48, [(16, 0x20)], 31, 22, [(2, 1000)]⟩,
   ⟨.safe, 0xA48, [(16, 0x20)], 21, 16, [(1, 50)]⟩, ⟨.safe, 0xA48, [(16, 0x20)], 8, 0, [(1, 500)]⟩,
   ⟨.safe, 0xA54, [(16, 0x20)], 23, 22, [(0, 2)]⟩, ⟨.safe, 0xA54, [(16, 0x20)], 7, 6, [(0, 2)]⟩] ++
  [⟨.met, 0x400, [(8, 0x10)], 15, 12, [(1, 8)]⟩, ⟨.met, 0x600, [(4, 0x40)], 27, 24, [(1, 8)]⟩,
   ⟨.met, 0x610, [(4, 0x40), (8, 4)], 24, 22, [(0, 6)]⟩, ⟨.met, 0x610, [(4, 0x40), (8, 4)], 27, 26, [(0, 1)]⟩, ⟨.met, 0x1000, [(32, 0x20)], 31, 30, [(0, 2)]⟩,
   ⟨.met, 0x100C, [(32, 0x20)], 31, 28, [(0, 13)]⟩, ⟨.met, 0xA00, [(8, 0x10)], 29, 28, [(0, 2)]⟩,
   ⟨.met, 0xA00, [(8, 0x10)], 27, 24, [(0, 11)]⟩, ⟨.met, 0xA00, [(8, 0x10)], 13, 0, [(1, 10000)]⟩,
   ⟨.met, 0xA04, [(8, 0x10)], 19, 0, [(1, 1000000)]⟩, ⟨.met, 0x2000, [(12, 0x100)], 30, 29, [(0, 2)]⟩,
   ⟨.met, 0x2000, [(12, 0x100)], 28, 27, [(0, 2)]⟩, ⟨.met, 0x2018, [(12, 0x100)], 4, 0, [(8, 20)]⟩,
   ⟨.met, 0x200C, [(12, 0x100)], 19, 0, [(1, 1048575)]⟩, ⟨.met, 0x2010, [(12, 0x100)], 23, 0, [(1, 16777215)]⟩,
   ⟨.bill, 0x2000, [(32, 0x40), (12, 4)], 26, 16, [(0, 1439)]⟩, ⟨.bill, 0x2800, [(16, 0x10)], 7, 0, [(0, 8), (248, 255)]⟩,
   ⟨.bill, 0x10, [], 19, 17, [(0, 4)]⟩, ⟨.bill, 0x10, [], 16, 12, [(0, 28)]⟩,
   ⟨.bill, 0x14, [], 15, 0, [(0, 840), (64816, 65535)]⟩, ⟨.disp, 0x10, [], 26, 16, [(8, 1872)]⟩,
   ⟨.disp, 0x10, [], 10, 0, [(1, 1404)]⟩, ⟨.disp, 0x14, [], 31, 28, [(2, 8)]⟩, ⟨.disp, 0x18, [], 19, 16, [(0, 9)]⟩,
   ⟨.disp, 0x18, [], 15, 12, [(0, 11)]⟩]

/-- Whether a changed word keeps every field that it changes within the field's stated range. -/
def inRange (c : Nat × Word × Word) : Bool :=
  match blkAt c.1 with
  | none => true
  | some (_, b) =>
    rangeRows.all fun r =>
      r.k != b.kind || !rowHas r.off r.dims (c.1 - b.base) || field c.2.1 r.hi r.lo == field c.2.2 r.hi r.lo
        || r.ok.any fun p => decide (p.1 ≤ field c.2.2 r.hi r.lo) && decide (field c.2.2 r.hi r.lo ≤ p.2)

/-! ### Validators: each answers DONE or the first failing status in the order of R353 -/

/-- The first status in the order of R353. -/
def verdict (refused busy bad full : Bool) : Status :=
  if refused then .refused else if busy then .busy else if bad then .badArg else if full then .logFull else .done

/-- Whether the audit log cannot take a number of entries (R352). -/
def logFull (s : State) (n : Nat) : Bool := n != 0 && decide (4032 < s.auditUsed + n)

/-- The meters whose configuration, channels, scale values, cable resistance or integrator settings change (R93). -/
def metersChanged (l : List (Nat × Word × Word)) : List MeterId :=
  (fins 12).filter fun m => l.any fun c => decide (mBase m ≤ c.1) && decide (c.1 < mBase m + 0x1C)

/-- Whether a meter is the outlet meter of a port that is not out of service. -/
def inService (s : State) (m : MeterId) : Bool := mEn s m && mRole s m == 0 && !s.sys.oos.getLsbD (mPort s m).val

/-- R94: KE and KL fit 64 bits. -/
def constsFit (s : State) : Bool := (enMeters s).all fun m => decide (keOf s m < 2 ^ 64) && decide (klOf s m < 2 ^ 64)

/-- The resampler needs a fine rate of at least 20,800 S/s, of its reference channel and of every channel it serves (R87,
R88). -/
def resampOk (s : State) : Bool :=
  !s.pb 0x20200020 31 || (Fin.ofNat 32 (s.pf 0x20200020 4 0) :: rsmpChans s).all fun c =>
    let g := chGroup s c
    decide (20800 * (grpDiv s g * 2 ^ (grpK s g + 1)) ≤ 100000000)

/-- MET (R64, R86, R91 to R94, R170). -/
def checkMet (s : State) (l : List (Nat × Word × Word)) : Status :=
  let t := s.withParams (merged s l)
  verdict
    ((metersChanged l).any (fun m => inService s m || inService t m) || l.any fun c => isSlotWord c.1 && s.pb c.1 21)
    false
    (!(l.all inRange && groupOk t 0 && groupOk t 1 && metersOk t && rolesOk t && regionsOk t && constsFit t && resampOk t))
    (logFull s (l.length + (metersChanged l).countP (firstEnabled t)))

/-- BILL (R121). -/
def checkBill (s : State) (l : List (Nat × Word × Word)) : Status :=
  let t := s.withParams (merged s l)
  verdict false false (!(l.all inRange && calendarOk t.par)) (logFull s (l.length + s.txn.dom[(2 : Fin 6)].keys.length))

/-- The region of a DISP_RGN word. -/
def rgnOf (a : Nat) : Option (Fin 16) := (fins 16).find? fun r => decide (rgA r ≤ a) && decide (a < rgA r + 0x10)

/-- The regions that changes touch. -/
def rgnsChanged (l : List (Nat × Word × Word)) : List (Fin 16) :=
  (fins 16).filter fun r => l.any fun c => rgnOf c.1 == some r

/-- Whether a region is legal in one of two states and its port is not served by MAINTAIN and out of service (R172). -/
def legalBarred (s t : State) (r : Fin 16) : Bool :=
  let bars := fun (u : State) => rgLeg u r && !(s.sys.mode == .maintain && s.sys.oos.getLsbD (rgPt u r).val)
  bars s || bars t

/-- The words of legal regions among the changes: the audit entries of R172. -/
def legalChanges (s t : State) (l : List (Nat × Word × Word)) : List (Nat × Word × Word) :=
  l.filter fun c => match rgnOf c.1 with
    | some r => rgLeg s r || rgLeg t r
    | none => false

/-- DISP (R164, R170, R172, R177). -/
def checkDisp (s : State) (l : List (Nat × Word × Word)) : Status :=
  let t := s.withParams (merged s l)
  let rs := rgnsChanged l
  verdict (rs.any (legalBarred s t))
    (rs.any fun r => (s.disp.rgn[r]).run.isSome || (s.disp.rgn[r]).pend.isSome)
    (!(l.all inRange && t.pf 0x20280010 26 16 % 8 == 0 && lineFits t && regionsOk t))
    (logFull s (legalChanges s t l).length)

/-- SAFE: the rules of chapters 09 to 14, and R347 on the segment of an allocated module. The safety log takes every entry,
since at most 128 of its 1,024 are protected (R309). -/
def checkSafe (s : State) (l : List (Nat × Word × Word)) : Status :=
  let t := s.withParams (merged s l)
  verdict
    ((fins 48).any fun m => decide (modPort s m < 8)
      && ((modEn s m && !modEn t m) || (modEn s m && modEn t m && modSeg s m != modSeg t m)))
    false (!(l.all inRange && safeOk t)) false

/-! ### SITE (R229) -/

/-- The ties that SAFE_TIEREQ requests closed. -/
def tieAsked (s : State) (c : Fin 12) : Bool := s.pb 0x20300404 c.val

def askedTies (s : State) : List (Fin 12) := (fins 12).filter fun c => tieAsked s c && role s c == 2

def allocated (s : State) : List (Fin 48) := (fins 48).filter fun m => decide (modPort s m < 8)

/-- The outlet of an allocated module. -/
def modOutlet (s : State) (m : Fin 48) : Port := Fin.ofNat 8 (modPort s m)

/-- Whether some of the ties closes a loop with those before it. -/
def loops (s : State) : List (Fin 12) → List (Fin 12) → Bool
  | _, [] => false
  | seen, c :: r => (grow s seen (segBit (segX s c))).getLsbD (segY s c).val || loops s (c :: seen) r

/-- The rules of R229 that fail, by code; t holds the new allocation. -/
def siteFails (s t : State) : List Nat :=
  let ms := allocated t
  let ties := askedTies t
  let bus := fun (m : Fin 48) => (Fin.ofNat 3 (m.val / 16) : Fin 3)
  let live := (fins 8).filter fun n => outletLive s n && !isAc s n
  let rule (k : Nat) (b : Bool) : List Nat := if b then [k] else []
  rule 1 (ms.any fun m => ((s.can[bus m]).store[(Fin.ofNat 16 m.val : Fin 16)]).isNone)
    ++ rule 2 (ms.any fun m => (s.can[bus m]).state != .active)
    ++ rule 3 (loops t [] ties)
    ++ rule 4 (ms.any fun m => match outSeg t (modOutlet t m) with
        | some g => !((groupOf t g).getLsbD (modSeg t m).val || (grow t ties (segBit g)).getLsbD (modSeg t m).val)
        | none => true)
    ++ rule 5 (live.any fun n => live.any fun k => match outSeg t n, outSeg t k with
        | some g, some h => (grow t ties (segBit g)).getLsbD h.val && !(groupOf t g).getLsbD h.val
        | _, _ => false)
    ++ rule 6 ((fins 12).any fun c => tieJoins t c && !tieAsked t c && ms.any fun m =>
        match outSeg t (modOutlet t m) with
        | some g => (sideOf t c (segX t c)).getLsbD (modSeg t m).val != (sideOf t c (segX t c)).getLsbD g.val
            && (groupOf t g).getLsbD (modSeg t m).val && (groupOf t g).getLsbD (segX t c).val
        | none => false)
    ++ rule 7 (ms.any fun m => s.sys.oos.getLsbD (modOutlet t m).val || s.sys.mode == .lockout)
    ++ rule 8 ((fins 12).any fun c => tieAsked t c && role t c != 2)
    ++ rule 9 (ms.any fun m => !modEn t m)

/-- SITE: the status, and the code for SAFE_POOLSTAT.RULE where a rule gives it. -/
def checkSite (s : State) (l : List (Nat × Word × Word)) : Status × Option Nat :=
  let t := s.withParams (merged s l)
  let fs := siteFails s t
  let refs := fs.filter (· < 8)
  let comm := s.sys.mode == .commission && (!(allocated t).isEmpty || !(askedTies t).isEmpty)
  let st := verdict (!refs.isEmpty || comm) (s.safe.seq && !l.isEmpty)
    (!fs.isEmpty || (fins 48).any fun m => decide (8 ≤ modPort t m) && decide (modPort t m ≤ 14)) false
  (st, if st == .refused then refs.head? else if st == .badArg then fs.head? else none)

end Sys2Proof.Machine
end

