-- ==== Sys2Proof/Machine/Txn.lean ====
section
/-! DEFINITION. Transactions (R347 to R357, R362): begin, shadow and lease, the commit of each domain, the calls of the
TXN service, and the versions of blocks and services (R358, R360). -/

namespace Sys2Proof.Machine

/-! ### Lease (R350) -/

/-- The lease of a begin or a renewal in seconds: 0 gives 60, and more than 600 acts as 600. -/
def leaseOf (v : Nat) : Nat := if v = 0 then 60 else min v 600

/-- The lease left now, in ns; it stands while a commit is queued or runs. -/
def leaseLeft (s : State) (t : TxnDom) : Nat := if t.st = .open_ then t.lease - (s.now - t.leaseAt.toNat) else t.lease

/-! ### The shadow (R349) -/

/-- Place a word of a domain: masked to the domain's fields; a word beyond the capacity is discarded with OVF, one that
meets a queued or running commit with LATEWR, and one without a transaction leaves no trace. -/
def place (d : Fin 6) (a : Nat) (v : Word) (s : State) : State :=
  let t := s.txn.dom[d]
  match t.st with
  | .idle => s
  | .open_ =>
    if t.shadow.any (fun p => p.1 == a) || decide (t.shadow.length < shadowCap d) then
      s.modTxn d fun t => { t with shadow := bankSet a (clampWord a v &&& wd (domMask s d a)) t.shadow }
    else s.modTxn d fun t => { t with ovf := true }
  | .queued => s.modTxn d fun t => { t with latewr := true }
  | .committing => s.modTxn d fun t => { t with latewr := true }

/-- A write to a register with RWT fields. -/
def rwtWrite (a : Nat) (v : Word) (s : State) : State :=
  match (blkAt a).bind fun b => rwtDomain b.2.kind with
  | some d => if domMask s d a = 0 then s else place d a v s
  | none => s

/-! ### The calls (R362) -/

/-- A body that LOCKOUT turns away. -/
def txnBody (body : Vector Word 16 → State → Reply) (a : Vector Word 16) (s : State) : Reply :=
  if s.sys.mode = .lockout then .deny s .lockedOut else body a s

/-- The domain that ARG0 names. -/
def argDom (w : Word) : Option (Fin 6) := if h : w.toNat < 6 then some ⟨w.toNat, h⟩ else none

/-- Whether the mode admits a transaction of a domain (R25, R26, R229), with the flags of R31 and R32. -/
def txnAdmits (s : State) (d : Fin 6) : Bool :=
  !s.sys.simgNone && !(s.sys.metFail && (d == 1 || d == 2))
    && (s.sys.mode == .maintain || ((s.sys.mode == .service || s.sys.mode == .commission) && d != 1 && d != 3))

/-- TXN_BEGIN: the transaction ID is the count of transactions begun (R348). -/
def txnBegin (a : Vector Word 16) (s : State) : Reply :=
  match argDom a[0] with
  | none => .deny s .badArg
  | some d =>
    checks s [(!txnAdmits s d, .refused), ((s.txn.dom[d]).st != .idle, .busy)]
      (let id := s.txn.begun + 1
       Reply.ok
         ({ s with txn.begun := id }.modTxn d fun t =>
           { t with st := .open_, ovf := false, latewr := false, lease := leaseOf a[1].toNat * 1000000000, leaseAt := s.time.sysNs,
                    id := id, reason := BitVec.ofNat 8 a[2].toNat, shadow := [], keys := [] })
         [id])

/-- The statuses of a call that names a transaction: no such transaction, or its commit is queued or runs. -/
def txnNamed (s : State) (a : Vector Word 16) (f : Fin 6 → Reply) : Reply :=
  match argDom a[0] with
  | none => .deny s .noTxn
  | some d =>
    let t := s.txn.dom[d]
    checks s [(t.st == .idle || t.id != a[1], .noTxn), (t.st == .queued || t.st == .committing, .busy)] (f d)

/-- TXN_COMMIT: the lease stops, the shadow is frozen, and the commit joins the queue (R351, R354). -/
def txnCommit (a : Vector Word 16) (s : State) : Reply :=
  txnNamed s a fun d =>
    let first := s.txn.queue.isEmpty
    let s := s.modTxn d fun t =>
      { t with st := if first then .committing else .queued, lease := leaseLeft s t, leaseAt := s.time.sysNs }
    Reply.later { s with txn.queue := s.txn.queue ++ [d] } .commit

/-- TXN_ROLLBACK (R350). -/
def txnRollback (a : Vector Word 16) (s : State) : Reply := txnNamed s a fun d => Reply.ok (rollbackDom d s) []

/-- TXN_RENEW: the lease runs from now (R350). -/
def txnRenew (a : Vector Word 16) (s : State) : Reply :=
  txnNamed s a fun d =>
    let l := leaseOf a[2].toNat
    Reply.ok (s.modTxn d fun t => { t with lease := l * 1000000000, leaseAt := s.time.sysNs }) [wd l]

/-- TXN_PUT: a word of the domain, without a reserved bit (R347, R349). A put that meets a queued or running commit is
discarded with LATEWR. -/
def txnPut (a : Vector Word 16) (s : State) : Reply :=
  match argDom a[0] with
  | none => .deny s .badArg
  | some d =>
    let t := s.txn.dom[d]
    let ad := a[2].toNat
    checks s
      [(ad % 4 != 0 || domMask s d ad == 0 || a[3].toNat &&& reservedMask ad != 0, .badArg),
       (t.st == .idle || t.id != a[1], .noTxn)]
      (Reply.ok (place d ad a[3] s) [])

def execTxnBegin (c : Call) (s : State) : Host.Outcome State Fault Refusal := live s (mbxCall .txn 0x0101 c (txnBody txnBegin))
def execTxnCommit (c : Call) (s : State) : Host.Outcome State Fault Refusal := live s (mbxCall .txn 0x0102 c (txnBody txnCommit))
def execTxnRollback (c : Call) (s : State) : Host.Outcome State Fault Refusal :=
  live s (mbxCall .txn 0x0103 c (txnBody txnRollback))
def execTxnRenew (c : Call) (s : State) : Host.Outcome State Fault Refusal := live s (mbxCall .txn 0x0104 c (txnBody txnRenew))
def execTxnPut (c : Call) (s : State) : Host.Outcome State Fault Refusal := live s (mbxCall .txn 0x0105 c (txnBody txnPut))

/-- The five mailboxes by number: MET, BILL, SAFE, TXN, UPD. -/
def mbxOf (i : Fin 5) : MbxId :=
  match i with
  | 0 => .met | 1 => .bill | 2 => .safe | 3 => .txn | 4 => .upd

/-- VERSIONS of one service (R360). -/
def execVersions (i : Fin 5) (c : Call) (s : State) : Host.Outcome State Fault Refusal :=
  live s (mbxCall (mbxOf i) 0x0000 c fun _ s => versions (mbxOf i) s)

/-- TXN_LEASE_EXPIRY: the lease of an open transaction has run out: it rolls back, EXPIRE_CNT counts, and source 173 is
raised (R350). -/
def leaseExpiry (d : Fin 6) (s : State) : State :=
  if (s.txn.dom[d]).st = .open_ then
    let s := rollbackDom d s
    { s with txn.expireCnt := satInc s.txn.expireCnt }.raise 173
  else s

def execTxnLeaseExpiry (d : Fin 6) (s : State) : Host.Outcome State Fault Refusal := live s (leaseExpiry d)

/-! ### What a commit does (R351, R355) -/

/-- The change journal of R357: the newest value of every changed word. -/
def journalChanges (l : List (Nat × Word × Word)) (s : State) : State :=
  { s with thl.journal := bankMerge s.thl.journal (l.map fun c => (c.1, c.2.2)) }

/-- The PARAM_CHANGE audit entries of a change set (R17, R143, R352). -/
def auditChanges (window : Nat) (reason : Byte) (l : List (Nat × Word × Word)) (s : State) : State :=
  forAll l (fun s c => s.audit 0x0001 0xFF reason.toNat (wd (at_ window 28 + c.1 % 0x10000)) c.2.1 c.2.2) s

/-- Whether a change touches some bits of a word. -/
def touches (l : List (Nat × Word × Word)) (a mask : Nat) : Bool :=
  l.any fun c => c.1 == a && (c.2.1 ^^^ c.2.2) &&& wd mask != 0

/-- Whether a change set changes a channel's calibration: OFS, GAIN, TC, TCAL or TSRC (R76). -/
def calChanged (l : List (Nat × Word × Word)) (n : ChanId) : Bool :=
  touches l (chBase n + 4) 0xFFFFFF || touches l (chBase n + 8) 0xFFFFFF || touches l (chBase n + 0xC) 0xF00FFFFF
    || touches l (chBase n + 0x10) 0xFFF

/-- The converters follow the slots that a MET or SAFE commit changes (R84, R86). -/
def commitSlots (l : List (Nat × Word × Word)) (s : State) : State :=
  forAll (fins 4) (fun (s : State) a => slotResync a (fun k => touches l (slotWord a k) 0xFC000000) s) s

/-- Restart settling of the channels whose MODE, CLKSEL, EDGE, SKEW or DELAY changes, and of every channel of a group whose
clock, DIV or k changes; the resampler looks for its period anew; the changed gains take effect; a pair one of whose members
gets a new calibration no longer disagrees (R76, R77, R82, R87); and the converters follow their slots (R84). -/
def commitChannels (l : List (Nat × Word × Word)) (s : State) : State :=
  let grp := fun (g : Fin 2) => touches l 0x20200010 (if g = 0 then 0x3FF0 else 0x3FF00000)
  let s := if grp 0 || grp 1 || touches l 0x20200020 0x8000001F then
      { s with met.rs.step := 0, met.rs.lastX := 0, met.rs.armed := false, met.rs.lastCross := none } else s
  let s := forAll (fins 2) (fun (s : State) g =>
    if grp g then { s with met.grp := vmod s.met.grp g fun x => { Group.reset with lastNs := x.lastNs } } else s) s
  let s := forAll (fins 32) (fun (s : State) n =>
    let s := if touches l (chBase n) 0xFEFF0000 || grp (chGroup s n) then s.modCh n (recommit s n) else s
    if touches l (chBase n + 8) 0xFFFFFF || touches l (chBase n + 0xC) 0xF00FFFFF || touches l (chBase n + 0x10) 0xFFF then
      s.modCh n (gainApply s n)
    else s) s
  let s := forAll (fins 8) (fun (s : State) p =>
    if calChanged l (rpLr s p) || calChanged l (rpHr s p) then
      { s with met.rp := vmod s.met.rp p fun r => { r with disagree := false, exceed := 0 } }
    else s) s
  commitSlots l s

/-- R93: the timers of the changed meters restart, and the balance of the present interval is skipped. A meter that a
commit enables for the first time starts its tariff registers (R118). -/
def commitMeters (reason : Byte) (l : List (Nat × Word × Word)) (s : State) : State :=
  let ms := metersChanged l
  let s := forAll ms (fun (s : State) m =>
    meterEnable m reason.toNat (s.modM m fun x => { x with heldRun := 0, heldNs := 0, zeroNs := 0, invalidSince := s.time.sysNs, invalidLong := false })) s
  if ms.isEmpty then s else boundary .skip s

/-- A MET commit takes effect (R76, R93, R110). -/
def commitMet (reason : Byte) (l : List (Nat × Word × Word)) (s : State) : State :=
  let s := s.withParams (merged s l)
  let s := commitMeters reason l (commitChannels l s)
  let s := forAll (fins 8) (fun s q =>
    if touches l (plsBase q) 0xFF003FFF || touches l (plsBase q + 4) 0xFFFFF then pulseRestart q s else s) s
  { s with sys.metChk := metCheck s }

/-- The token keys of a BILL transaction, each with its audit entry (R161). -/
def commitTokenKeys (reason : Byte) (ks : List (Nat × Option (BitVec 128))) (s : State) : State :=
  forAll ks (fun (s : State) k =>
    let i : Fin 8 := Fin.ofNat 8 k.1
    let old := s.bill.tok.slots[i]
    (s.modTok fun t => { t with slots := t.slots.set i k.2 }).audit 0x0012 0xFF reason.toNat (wd k.1) (keyCheck old) (keyCheck k.2)) s

/-- Whether a change set changes the calendar. -/
def touchesCalendar (l : List (Nat × Word × Word)) : Bool := l.any fun c => decide (0x20242000 ≤ c.1) && decide (c.1 < 0x20242B00)

/-- A BILL commit takes effect: a change of DINT or TZOFS closes the demand part with SPLIT, and with it or a change of the
calendar every slice closes before the new tariffs become active (R117, R122, R355). -/
def commitBill (reason : Byte) (ks : List (Nat × Option (BitVec 128))) (l : List (Nat × Word × Word)) (s : State) : State :=
  let part := touches l 0x20240010 0xE0000 || touches l 0x20240014 0xFFFF
  let cal := part || touchesCalendar l
  let bp := touches l 0x20240010 0x1F000 || touches l 0x20240014 0xFFFF
  let s := s.withParams (merged s l)
  commitTokenKeys reason ks (if cal || bp then boundary (.commit cal part bp) s else s)

/-- A SAFE commit takes effect: the connection keys, the check value, and the SAFE_COMMIT entry (R287, R352). -/
def commitSafe (ks : List (Nat × Option (BitVec 128))) (l : List (Nat × Word × Word)) (s : State) : State :=
  let old := s.safe.chk
  let s := s.withParams (merged s l)
  let s := forAll ks (fun s k => s.modConn (Fin.ofNat 16 k.1) fun c => { c with key := k.2 }) s
  let s := loadAll (imdSync (formLims (commitSlots l s)))
  let new := safetyCheck s
  { s with safe.chk := new }.slogPut 0x0009 0xFF old new false

/-- A tie that is to close: its operation (R230, R233). -/
def tieCloseReq (c : Fin 12) (s : State) : State :=
  if (s.safe.coil[c]).st = .open_ ∧ (s.safe.coil[c]).tie.isNone then
    (numberReq c s).modCoil c fun x => { x with tie := some { open_ := false, commit := true, cmd := false, join := [] } }
  else s

/-- The sequence of R230 for the allocation and the tie requests in effect. -/
def siteSequence (was : List (Fin 48 × Nat)) (s : State) : State :=
  let s := forAll (was.filter fun p => modPort s p.1 != p.2) (fun s p => releaseModule p.1 s) s
  let ties := (fins 12).filter fun c => role s c == 2
  let s := forAll (ties.filter fun c => !tieAsked s c) (fun s c => tieOpenReq c true s) s
  let s := forAll (ties.filter fun c => tieAsked s c) (fun s c => tieCloseReq c s) s
  let s := forAll ties (fun s c => prepareTie c s) s
  seqCheck { s with safe.seq := true }

/-- A SITE commit takes effect (R230, R355). -/
def commitSite (l : List (Nat × Word × Word)) (s : State) : State :=
  let was := (allocated s).map fun m => (m, modPort s m)
  siteSequence was { s.withParams (merged s l) with safe.poolref := false, safe.rule := 0, safe.sited := true }

/-! ### THL (R344, R345) -/

/-- Whether the commit of the staged patch would need a SITE_IMAGE entry that the audit log cannot take. -/
def thlFull (s : State) : Bool := patchTouches s 0x02 && logFull s 1

/-- A THL commit: the staged patch is written in; without one the shadow is empty, and a staging that runs ends. agree is whether the SP copies agree on 4 consecutive ticks after it and
it took no longer than it may; when they do not, the previous frames come back and the commit fails with REFUSED. -/
def commitThl (agree : Bool) (reason : Byte) (s : State) : Status × State :=
  if s.thl.pr != .staged then (.done, { s with thl.pr := .none, thl.shadow := [] })
  else if thlFull s then (.logFull, s)
  else
    let sp := patchTouches s 0x01
    let mp := patchTouches s 0x02
    let s := if sp then forAll (fins 12) (fun s c => coilOff c true s) s else s
    if sp && !agree then (.refused, s)
    else
      let oldM := s.sys.metChk
      let oldS := s.safe.chk
      let s := recheck (writeIn s)
      let s := if mp then s.audit 0x0014 0xFF reason.toNat 1 oldM s.sys.metChk else s
      (.done, if sp then s.slogPut 0x0009 0xFF oldS s.safe.chk false else s)

/-! ### The commit at the head of the queue (R351, R353, R354) -/

/-- The front light's channel before a DISP commit, and the one after it, follow FLCH (R182, R314). -/
def frontLight (old : Nat) (s : State) : State := loadAt (s.pf 0x20280018 19 16) (loadAt old s)

/-- Validate and apply: the final status, and the state after it. A commit with OVF set fails with BAD_ARGUMENT (R349);
an empty shadow commits with DONE, for SITE with its sequence (R353). -/
def runCommit (d : Fin 6) (agree : Bool) (s : State) : Status × State :=
  let t := s.txn.dom[d]
  if t.ovf then (.badArg, s)
  else if d != 5 && t.shadow.isEmpty && t.keys.isEmpty then (.done, if d = 0 then commitSite [] s else s)
  else
    let l := changeSet s d
    let apply (st : Status) (f : State → State) : Status × State := if st = .done then (st, f s) else (st, s)
    if d = 0 then
      let r : Status × Option Nat := checkSite s l
      if r.1 = Status.done then (.done, commitSite l s)
      else match r.2 with
        | some k => (r.1, { s with safe.poolref := true, safe.rule := BitVec.ofNat 4 k })
        | none => (r.1, s)
    else if d = 1 then apply (checkMet s l) fun s =>
      if l.isEmpty then s else commitMet t.reason l (journalChanges l (auditChanges 0x0 t.reason l s))
    else if d = 2 then apply (checkBill s l) fun s =>
      if l.isEmpty && t.keys.isEmpty then s
      else commitBill t.reason t.keys l (journalChanges l (auditChanges 0x8 t.reason l s))
    else if d = 3 then apply (checkSafe s l) fun s =>
      if l.isEmpty && t.keys.isEmpty then s else commitSafe t.keys l (journalChanges l s)
    else if d = 4 then apply (checkDisp s l) fun s =>
      let u := s.withParams (merged s l)
      if l.isEmpty then s
      else frontLight (s.pf 0x20280018 19 16) { journalChanges l (auditChanges 0x4 t.reason (legalChanges s u l) s) with params := u.params }
    else commitThl agree t.reason s

/-- The end of a commit: RESULT, COMMIT_CNT and source 172; one that fails leaves its transaction OPEN with its shadow, and
its lease resumes (R351 step 5, R353). The next commit of the queue begins. -/
def endCommit (d : Fin 6) (st : Status) (s : State) : State :=
  let s := s.modTxn d fun t =>
    if st = .done then { t with st := .idle, result := st.code, shadow := [], keys := [], lease := 0 }
    else { t with st := .open_, result := st.code, leaseAt := s.time.sysNs }
  let s := { s with
    txn.commitCnt := if st == Status.done then satInc s.txn.commitCnt else s.txn.commitCnt
    txn.queue := s.txn.queue.drop 1 }
  let s := match s.txn.queue.head? with
    | some n => s.modTxn n fun t => { t with st := .committing }
    | none => s
  if isPending s .txn .commit then mbxDone .txn st [] s else s.raise 172

/-- TXN_COMMIT_DONE: the commit at the head of the queue runs to its result. -/
def commitDone (agree : Bool) (s : State) : State :=
  match s.txn.queue.head? with
  | none => s
  | some d =>
    let r := runCommit d agree s
    endCommit d r.1 r.2

def execTxnCommitDone (agree : Bool) (s : State) : Host.Outcome State Fault Refusal := live s (commitDone agree)

/-- CLRCNT of TXN_CTL. -/
def txnClear (s : State) : State :=
  ({ s with txn.commitCnt := 0, txn.rollbackCnt := 0, txn.expireCnt := 0 }).statsCleared 0x5458 0

def execTxnClrcnt (s : State) : Host.Outcome State Fault Refusal := access .txn 0 s txnClear

/-! ### Block levels (R358) -/

/-- A write to COMPAT: ignored once another register of the block has been written; else the highest supported level at or
below the request is granted, and 0x0000 where there is none. -/
def compatWrite (i : Fin 28) (req : BitVec 16) (s : State) : State :=
  let b := s.compat[i]
  match blockMap[i.val]? with
  | none => s
  | some k =>
    let s := s.busOk 0
    if b.locked then s
    else { s with compat := s.compat.set i { b with level := if blkLevel k.kind ≤ req then blkLevel k.kind else 0 } }

def execCompatWrite (i : Fin 28) (req : BitVec 16) (s : State) : Host.Outcome State Fault Refusal :=
  live s fun s => compatWrite i req s.tagged

end Sys2Proof.Machine
end

