-- ==== Sys2Proof/Machine/Tls.lean ====
section
/-! DEFINITION. The record engine of a vehicle port (R220 to R222): the record formats of its five suites, and the
completion of an operation. -/

namespace Sys2Proof.Machine

/-- The key material of a direction. -/
structure TlsKeys where
  key : List Byte
  iv : List Byte
  mac : List Byte

/-- The key words of a suite: 16 or 32 bytes of key, the static IV, the MAC key (R220). -/
def tlsKeys (suite : Nat) (ws : List Word) : TlsKeys :=
  let b := wordsBytes ws
  { key := slice b 0 (if suite = 3 ∨ suite = 4 then 32 else 16), iv := slice b 32 (if suite = 0 then 4 else 12), mac := slice b 44 32 }

/-- A record header: content type, version 0x0303, length. -/
def tlsHead (ctype : Byte) (len : Nat) : List Byte := [ctype, 0x03, 0x03] ++ beBytes 2 len

/-- The additional data of TLS 1.2: sequence number, then the record's header with the plaintext's length. -/
def tlsAad (seq : Nat) (head : List Byte) (len : Nat) : List Byte := beBytes 8 seq ++ head.take 3 ++ beBytes 2 len

/-- The per-record nonce of TLS 1.3: the static IV with the sequence number in its last eight bytes. -/
def tlsNonce (iv : List Byte) (seq : Nat) : List Byte := xorBytes iv (beBytes 12 seq)

/-- The AEAD of TLS 1.3 under a suite. -/
def aeadSeal (suite : Nat) (key nonce aad pt : List Byte) : List Byte :=
  if suite = 4 then let ct := ccpCrypt key nonce pt; ct ++ ccpTag key nonce aad ct
  else let r := gcmEnc key nonce aad pt; r.1 ++ r.2

def aeadOpen (suite : Nat) (key nonce aad ct tag : List Byte) : Option (List Byte) :=
  if suite = 4 then (if ccpTag key nonce aad ct = tag then some (ccpCrypt key nonce ct) else none)
  else gcmDec key nonce aad ct tag

/-- The padding of the CBC suite: n bytes of value n − 1, up to a whole block. -/
def cbcPad (n : Nat) : List Byte :=
  let k := 16 - n % 16
  List.replicate k (BitVec.ofNat 8 (k - 1))

/-- Protect: the complete record. rnd are the bytes that the engine adds of its own: the explicit nonce of TLS 1.2 GCM, and
the explicit IV of the CBC suite. -/
def tlsProtect (suite : Nat) (k : TlsKeys) (seq : Nat) (ctype : Byte) (rnd pt : List Byte) : List Byte :=
  if suite = 0 then
    let e := fit 8 rnd
    let r := gcmEnc k.key (k.iv ++ e) (tlsAad seq (tlsHead ctype 0) pt.length) pt
    tlsHead ctype (8 + r.1.length + 16) ++ e ++ r.1 ++ r.2
  else if suite = 1 then
    let e := fit 16 rnd
    let m := pt ++ hmac256 k.mac (tlsAad seq (tlsHead ctype 0) pt.length ++ pt)
    let c := cbcEnc k.key e (blocks 16 (m ++ cbcPad m.length))
    tlsHead ctype (16 + c.length) ++ e ++ c
  else
    let h := tlsHead 0x17 (pt.length + 17)
    h ++ aeadSeal suite k.key (tlsNonce k.iv seq) h (pt ++ [ctype])

/-- The inner plaintext of TLS 1.3: zero padding stripped, then the content type. -/
def tlsInner (l : List Byte) : Option (Byte × List Byte) :=
  match (l.reverse.dropWhile (· == 0)) with
  | [] => none
  | t :: r => some (t, r.reverse)

/-- Unprotect the body of a record whose header was ct: content type and plaintext; none when authentication fails. -/
def tlsUnprotect (suite : Nat) (k : TlsKeys) (seq : Nat) (head body : List Byte) : Option (Byte × List Byte) :=
  let ctype := head.headD 0
  if suite = 0 then
    let n := body.length - 24
    (gcmDec k.key (k.iv ++ slice body 0 8) (tlsAad seq head n) (slice body 8 n) (body.drop (8 + n))).map fun p => (ctype, p)
  else if suite = 1 then
    let d := cbcDec k.key (slice body 0 16) (blocks 16 (body.drop 16))
    let p := (d.getLastD 0).toNat
    let n := d.length - (p + 33)
    let pt := d.take n
    if d.length < p + 33 ∨ (d.drop (d.length - (p + 1))).any (fun b => b.toNat != p)
        ∨ hmac256 k.mac (tlsAad seq head n ++ pt) ≠ slice d n 32 then none
    else some (ctype, pt)
  else
    let n := body.length - 16
    (aeadOpen suite k.key (tlsNonce k.iv seq) head (body.take n) (body.drop n)).bind tlsInner

/-- The shortest body that a suite's record can have. -/
def tlsMin (suite : Nat) : Nat := if suite = 0 then 24 else if suite = 1 then 64 else 17

/-- Whether a record's length fits its header and its suite. -/
def tlsLenOk (suite : Nat) (rec_ : List Byte) : Bool :=
  decide (5 + tlsMin suite ≤ rec_.length) && leNat ((slice rec_ 3 2).reverse) + 5 == rec_.length
    && (suite != 1 || (rec_.length - 5) % 16 == 0)

/-- A completion: the oldest operation of the direction leaves its queue, RESULT, OLEN and ITYPE are written, and TLSD is
set (R221). -/
def tlsEnd (n : Port) (rx : Bool) (res olen : Nat) (itype : Option Byte) (s : State) : State :=
  (s.modTls n fun t =>
    { modDir rx (fun d => { d with queue := d.queue.drop 1 }) t with
      result := BitVec.ofNat 4 res, olen := BitVec.ofNat 15 olen, itype := itype.getD t.itype }).modLink n (linkEvt 9)

/-- An operation that succeeded: the output is in memory, and the sequence number advances. -/
def tlsOk (n : Port) (rx : Bool) (dst : Word) (out : List Byte) (itype : Option Byte) (s : State) : State :=
  tlsEnd n rx 0 out.length itype ((s.appWrite 6 dst.toNat out).modTls n (modDir rx fun d => { d with seq := d.seq + 1 }))

/-- TLS_OP_COMPLETE of the protect direction. -/
def tlsTxDone (n : Port) (o : TlsOp) (suite : Nat) (k : TlsKeys) (seq : Nat) (s : State) : State :=
  if 16384 < o.len then tlsEnd n false 2 0 none s
  else
    let r := s.srcBytes 6 o.src.toNat o.len
    let d := r.2.draw
    let rnd := if suite = 1 then leBytes 16 (Config.random d.1) else (List.range 8).map fun i => Config.freeByte d.1 i
    tlsOk n false o.dst (tlsProtect suite k seq o.ctype rnd r.1) none d.2

/-- TLS_OP_COMPLETE of the unprotect direction: a record that fails authentication writes nothing and stops the direction
with its queue, with TLSF (R221). -/
def tlsRxDone (n : Port) (o : TlsOp) (suite : Nat) (k : TlsKeys) (seq : Nat) (s : State) : State :=
  let r := s.srcBytes 6 o.src.toNat o.len
  if !tlsLenOk suite r.1 then tlsEnd n true 2 0 none r.2
  else match tlsUnprotect suite k seq (r.1.take 5) (r.1.drop 5) with
    | some (t, pt) =>
      if 16384 < pt.length then tlsEnd n true 2 0 none r.2 else tlsOk n true o.dst pt (some t) r.2
    | none => ((tlsEnd n true 1 0 none r.2).modTls n (modDir true fun d => { d with stopped := true, queue := [] })).modLink n (linkEvt 8)

/-- The oldest operation of a direction of a port is served. -/
def tlsServe (n : Port) (rx : Bool) (s : State) : State :=
  let t := s.vp[n].tls
  let d := if rx then t.rx else t.tx
  match d.queue with
  | [] => s
  | o :: _ =>
    if !t.en then s
    else match d.keys with
      | none => tlsEnd n rx 3 0 none s
      | some (suite, ws) =>
        if d.seq = 2 ^ 64 - 1 then tlsEnd n rx 4 0 none s
        else if rx then tlsRxDone n o suite (tlsKeys suite ws) d.seq s
        else tlsTxDone n o suite (tlsKeys suite ws) d.seq s

/-- The record operation that runs ends (R139, R222). -/
def tlsComplete (n : Port) (rx : Bool) (s : State) : State :=
  if engineAt s = some n then tlsServe n rx { s with sec.tlsLast := n, sec.tlsRun := none } else s

def execTlsOpComplete (n : Port) (unprotect : Bool) (s : State) : Host.Outcome State Fault Refusal :=
  live s (tlsComplete n unprotect)

end Sys2Proof.Machine
end

