-- ==== Sys2Proof/Machine/Sec.lean ====
section
/-! DEFINITION. The SEC block (R386 to R391): the operation queue with its shares, the operations, host keys, and the
tamper monitor. -/

namespace Sys2Proof.Machine

/-! ### The manifest of a host firmware image (R395) -/

def mfSpores (m : List Byte) : Nat := leAt m 12 4
def mfBlocks (m : List Byte) : Nat := (mfSpores m + 63) / 64
def mfVersion (m : List Byte) : Nat := leAt m 16 4
def mfSvn (m : List Byte) : Nat := leAt m 20 2
def mfLength (m : List Byte) : Nat := 128 + 48 * mfBlocks m + 193
def mfKey (m : List Byte) : List Byte := slice m (128 + 48 * mfBlocks m) 97
def mfSig (m : List Byte) : List Byte := slice m (128 + 48 * mfBlocks m + 97) 96

/-- The format of a header: MAGIC, major 1 with any minor, KIND, TARGET, the number of spores, and zero reserved bytes at
minor 0; a newer minor may use them (R359). -/
def mfFormatOk (m : List Byte) : Bool :=
  slice m 0 4 == [0x43, 0x5A, 0x55, 0x50] && leAt m 4 1 == 1 && leAt m 6 1 == 1
    && leAt m 8 4 == 0x481600B1 && decide (1 ≤ mfSpores m) && decide (mfSpores m ≤ 16384)
    && (leAt m 5 1 != 0 || (leAt m 7 1 == 0 && (slice m 44 84).all (· == 0)))

/-- The carried key's digest against FKD, which may be blank (R387, R392). -/
def mfKeyOk (s : State) (m : List Byte) : Bool :=
  match s.sec.fkd with
  | none => true
  | some d => sha384 (mfKey m) == d

/-- The signature covers every byte before it. -/
def mfSigOk (m : List Byte) : Bool := sigOk384 (mfKey m) (m.take (128 + 48 * mfBlocks m + 97)) (mfSig m)

/-- The container ID: the first 8 bytes of the SHA-384 of the manifest. -/
def mfCid (m : List Byte) : BitVec 64 := BitVec.ofNat 64 (leAt (sha384 m) 0 8)

/-- The manifest in a manifest area; its header alone where that names no length. -/
def manifestAt (s : State) (ofs : Nat) : List Byte :=
  let h := s.norRead ofs 128
  if mfFormatOk h then s.norRead ofs (mfLength h) else h

/-! ### The queue (R391) -/

/-- The share of a tag. -/
def secShare (port : BitVec 4) : Nat := if port.toNat < 8 then 2 else if port = 0xF then 4 else 0

/-- A write of SEC_OP queues the operation with the present SEC_SRC, SEC_DST and SEC_AUX; beyond the share it is ignored
and sets QFULL. -/
def secQueue (op : BitVec 6) (port : BitVec 4) (key : BitVec 6) (len : BitVec 16) (s : State) : State :=
  if s.sec.queue.countP (·.port == port) < secShare port then
    let o : SecOp := { op := op, port := port, key := key, len := len, src := s.sec.src, dst := s.sec.dst, aux := s.sec.aux }
    { s with sec.queue := s.sec.queue ++ [o] }
  else { s with sec.qfull := true }

/-- SEC_SHA256 and the other operations: each is a write of SEC_OP with its code. -/
def execSecSha256 (p : BitVec 4) (k : BitVec 6) (len : BitVec 16) (s : State) : Host.Outcome State Fault Refusal :=
  access .sec 0 s (secQueue 0x01 p k len)
def execSecSha384 (p : BitVec 4) (k : BitVec 6) (len : BitVec 16) (s : State) : Host.Outcome State Fault Refusal :=
  access .sec 0 s (secQueue 0x02 p k len)
def execSecHmacSha256 (p : BitVec 4) (k : BitVec 6) (len : BitVec 16) (s : State) : Host.Outcome State Fault Refusal :=
  access .sec 0 s (secQueue 0x03 p k len)
def execSecGcmEncrypt (p : BitVec 4) (k : BitVec 6) (len : BitVec 16) (s : State) : Host.Outcome State Fault Refusal :=
  access .sec 0 s (secQueue 0x04 p k len)
def execSecGcmDecrypt (p : BitVec 4) (k : BitVec 6) (len : BitVec 16) (s : State) : Host.Outcome State Fault Refusal :=
  access .sec 0 s (secQueue 0x05 p k len)
def execSecCmac (p : BitVec 4) (k : BitVec 6) (len : BitVec 16) (s : State) : Host.Outcome State Fault Refusal :=
  access .sec 0 s (secQueue 0x06 p k len)
def execSecEcdsaSign (p : BitVec 4) (k : BitVec 6) (len : BitVec 16) (s : State) : Host.Outcome State Fault Refusal :=
  access .sec 0 s (secQueue 0x07 p k len)
def execSecEcdsaVerify (p : BitVec 4) (k : BitVec 6) (len : BitVec 16) (s : State) : Host.Outcome State Fault Refusal :=
  access .sec 0 s (secQueue 0x08 p k len)
def execSecEcdh (p : BitVec 4) (k : BitVec 6) (len : BitVec 16) (s : State) : Host.Outcome State Fault Refusal :=
  access .sec 0 s (secQueue 0x09 p k len)
def execSecGenkey (p : BitVec 4) (k : BitVec 6) (len : BitVec 16) (s : State) : Host.Outcome State Fault Refusal :=
  access .sec 0 s (secQueue 0x0A p k len)
def execSecImport (p : BitVec 4) (k : BitVec 6) (len : BitVec 16) (s : State) : Host.Outcome State Fault Refusal :=
  access .sec 0 s (secQueue 0x0B p k len)
def execSecRandom (p : BitVec 4) (k : BitVec 6) (len : BitVec 16) (s : State) : Host.Outcome State Fault Refusal :=
  access .sec 0 s (secQueue 0x0C p k len)
def execSecAttest (p : BitVec 4) (k : BitVec 6) (len : BitVec 16) (s : State) : Host.Outcome State Fault Refusal :=
  access .sec 0 s (secQueue 0x0D p k len)

/-! ### The operations -/

/-- RESULT of SEC_RES. -/
inductive SecRes where
  | ok | authFail | badKey | badLen | verifyFail | noKey
  deriving DecidableEq, Repr

def SecRes.code : SecRes → BitVec 4
  | .ok => 0 | .authFail => 1 | .badKey => 2 | .badLen => 3 | .verifyFail => 4 | .noKey => 5

/-- What an operation leaves: its RESULT, its output, and the state after it. -/
structure SecOut where
  res : SecRes
  out : List Byte
  s : State

def SecOut.fail (r : SecRes) (s : State) : SecOut := { res := r, out := [], s := s }

/-- The key of a slot, when it holds one of an admitted type. -/
def secKey (s : State) (k : BitVec 6) (typ : BitVec 3 → Bool) : Except SecRes HostKey :=
  if h : k.toNat < 16 then
    match s.sec.hk[k.toNat] with
    | none => .error .noKey
    | some x => if typ x.typ then .ok x else .error .badKey
  else .error .badKey

def isAes (t : BitVec 3) : Bool := t == 3
def isEc (t : BitVec 3) : Bool := t == 1 || t == 2

/-- The curve of an EC key type. -/
def curveOf (t : BitVec 3) : Curve := if t = 2 then p384 else p256

def keyBytes (k : HostKey) : List Byte := beBytes 32 k.secret

/-- An uncompressed public point. -/
def pubBytes (c : Curve) (d : Nat) : List Byte := 0x04 :: ecPub c d

/-- The additional data of the GCM operations: a 12-byte nonce, the AAD's length in four bytes, the AAD. -/
def gcmAux (a : Word) (s : State) : List Byte × List Byte × State :=
  let h := s.srcBytes 9 a.toNat 16
  let n := min 65536 (leAt h.1 12 4)
  let d := h.2.srcBytes 9 (a.toNat + 16) n
  (h.1.take 12, d.1, d.2)

/-- HMAC-SHA-256, CMAC and the two GCM operations under an AES key. -/
def secAes (o : SecOp) (src : List Byte) (k : HostKey) (s : State) : SecOut :=
  let key := keyBytes k
  if o.op = 0x03 then { res := .ok, out := hmac256 key src, s := s }
  else if o.op = 0x06 then { res := .ok, out := cmac key src, s := s }
  else
    let x := gcmAux o.aux s
    if o.op = 0x04 then
      let r := gcmEnc key x.1 x.2.1 src
      { res := .ok, out := r.1 ++ r.2, s := x.2.2 }
    else if src.length < 16 then .fail .badLen x.2.2
    else
      let n := src.length - 16
      match gcmDec key x.1 x.2.1 (src.take n) (src.drop n) with
      | some p => { res := .ok, out := p, s := x.2.2 }
      | none => .fail .authFail x.2.2

/-- ECDSA sign and ECDH under an EC key. -/
def secEc (o : SecOp) (src : List Byte) (k : HostKey) (s : State) : SecOut :=
  let c := curveOf k.typ
  if o.op = 0x07 then
    if src.length ≠ 48 then .fail .badLen s
    else
      let d := s.draw
      { res := .ok, out := ecdsaSign c k.secret (Config.random d.1) src, s := d.2 }
  else if src.length ≠ 2 * c.len + 1 then .fail .badLen s
  else if src.headD 0 ≠ 0x04 then .fail .badKey s
  else match ecdh c k.secret (beNat (slice src 1 c.len)) (beNat (slice src (1 + c.len) c.len)) with
    | some z => { res := .ok, out := z, s := s }
    | none => .fail .badKey s

/-- ECDSA verify: AUX holds the public key and the signature; the length of the digest gives the curve. -/
def secVerify (o : SecOp) (src : List Byte) (s : State) : SecOut :=
  if src.length ≠ 32 ∧ src.length ≠ 48 then .fail .badLen s
  else
    let c := if src.length = 48 then p384 else p256
    let x := s.srcBytes 9 o.aux.toNat (4 * c.len + 1)
    let ok := x.1.headD 0 == 0x04
      && ecdsaVerify c (beNat (slice x.1 1 c.len)) (beNat (slice x.1 (1 + c.len) c.len)) src (x.1.drop (2 * c.len + 1))
    let d := x.2.draw
    { res := if ok then .ok else .verifyFail, out := (List.range 4).map fun i => Config.freeByte d.1 i, s := d.2 }

/-- Put a key into a slot. -/
def putKey (k : BitVec 6) (x : HostKey) (s : State) : State :=
  { s with sec.hk := s.sec.hk.set (Fin.ofNat 16 k.toNat) (some x) }

/-- GENKEY: a new secret in the slot; the output is the public key, and none for an AES key. -/
def secGenkey (o : SecOp) (s : State) : SecOut :=
  let t : BitVec 3 := BitVec.ofNat 3 o.len.toNat
  if 16 ≤ o.key.toNat then .fail .badKey s
  else if t = 0 ∨ 3 < t then .fail .badLen s
  else
    let d := s.draw
    let r := Config.random d.1
    let x := if t = 3 then r % 2 ^ 256 else r % ((curveOf t).n - 1) + 1
    { res := .ok, out := if t = 3 then [] else pubBytes (curveOf t) x,
      s := putKey o.key (hostKey t x false) d.2 }

/-- IMPORT of a blob of PURPOSE 0x04: a 32-byte key becomes an AES-256 key of the slot that the blob names. -/
def secImport (o : SecOp) (src : List Byte) (s : State) : SecOut :=
  if 16 ≤ o.key.toNat then .fail .badKey s
  else match if s.sec.zeroised then none else blobOpen p384 (Config.utk s.sec.gen) 4 (serialBytes s) src with
    | none => .fail .authFail s
    | some (slot, k) =>
      if slot ≠ o.key.toNat then .fail .badKey s
      else if k.length ≠ 32 then .fail .badLen s
      else { res := .ok, out := [], s := putKey o.key (hostKey 3 (beNat k) true) s }

/-- ATTEST over a 32-byte challenge. -/
def secAttest (src : List Byte) (s : State) : SecOut :=
  if src.length ≠ 32 then .fail .badLen s
  else
    let v := wordsBytes [wd s.sys.mode.code.toNat, s.thl.imgId, wd (mfVersion (manifestAt s actMan)), wd s.upd.minsvn.toNat]
    let d := s.draw
    { res := .ok, out := v ++ ecdsaSign p256 Config.dik (Config.random d.1) (sha256 (src ++ v)), s := d.2 }

/-- One operation. -/
def secRun (o : SecOp) (s : State) : SecOut :=
  let n := o.len.toNat
  if o.op = 0x0A then secGenkey o s
  else if o.op = 0x0C then
    let d := s.draw
    { res := .ok, out := leBytes n (Config.random d.1), s := d.2 }
  else
    let r := s.srcBytes 9 o.src.toNat n
    if o.op = 0x01 then { res := .ok, out := sha256 r.1, s := r.2 }
    else if o.op = 0x02 then { res := .ok, out := sha384 r.1, s := r.2 }
    else if o.op = 0x03 ∨ o.op = 0x04 ∨ o.op = 0x05 ∨ o.op = 0x06 then
      match secKey s o.key isAes with
      | .ok k => secAes o r.1 k r.2
      | .error e => .fail e s
    else if o.op = 0x07 ∨ o.op = 0x09 then
      match secKey s o.key isEc with
      | .ok k => secEc o r.1 k r.2
      | .error e => .fail e s
    else if o.op = 0x08 then secVerify o r.1 r.2
    else if o.op = 0x0B then secImport o r.1 r.2
    else secAttest r.1 r.2

/-- The tag served next: round-robin among the tags with an operation queued. -/
def nextTag (s : State) : Option (BitVec 4) :=
  ((List.range 16).map fun i => s.sec.last + BitVec.ofNat 4 (i + 1)).find? fun t => s.sec.queue.any (·.port == t)

/-- SEC_OP_COMPLETE: the oldest operation of the tag completes, SEC_RES is written, source 164 is raised, and 165 for a
failure. -/
def secComplete (s : State) : State :=
  match nextTag s with
  | none => s
  | some t =>
    match s.sec.queue.find? (·.port == t) with
    | none => s
    | some o =>
      let r := secRun o { s with sec.queue := s.sec.queue.erase o, sec.last := t }
      let s := if r.res = .ok ∨ r.res = .verifyFail then r.s.appWrite 9 o.dst.toNat r.out else r.s
      let s := { s with sec.result := r.res.code, sec.port := t, sec.olen := BitVec.ofNat 24 r.out.length }.raise 164
      if r.res = .ok then s else s.raise 165

def execSecOpComplete (s : State) : Host.Outcome State Fault Refusal := live s secComplete

/-! ### The key certificate (R386) -/

/-- What SEC_PUBKEYS holds: the key certificate over the public part of every device key and the device serial, signed by
DIK, then DIK's certificate. New transport keys have it signed anew (R389). -/
def certificate (s : State) : List Byte :=
  let g := s.sec.gen
  let body := Config.certBody
    [pubBytes p256 Config.metKey256, pubBytes p384 Config.metKey384, pubBytes p256 Config.dik, pubBytes p384 (Config.utk g),
      pubBytes p256 (Config.ttk g), pubBytes p256 (Config.ltk g)] (serialBytes s)
  Config.certDer body (ecdsaSign p256 Config.dik (Config.freeAt 5020 g).toNat (sha256 body)) ++ Config.dikCert

/-! ### The tamper monitor (R389) -/

/-- The TAMPER audit entries that wait, oldest first, when the kernel runs. -/
def auditTamper (s : State) : State :=
  if s.sys.power = .running ∧ !s.sys.metFail ∧ !s.sys.step3Stop then
    forAll s.sec.auditDue (fun (s : State) d => s.audit 0x0015 0xFF 0 0 0 d) { s with sec.auditDue := [] }
  else s

/-- TAMPER with the bitmap of the detectors: the host keys and the transport keys are zeroised in any power state, and the
kernel writes its entry when it runs. -/
def tamper (det : Word) (s : State) : State :=
  auditTamper { s with
    sec.hk := Vector.replicate 16 none, sec.zeroised := true, sec.tamper := true, sec.auditDue := s.sec.auditDue ++ [det] }

def execTamper (det : Word) (s : State) : Host.Outcome State Fault Refusal := .next (tamper det s)

end Sys2Proof.Machine
end

