-- ==== Sys2Proof/Machine/Upd.lean ====
section
/-! DEFINITION. The UPD block (R394 to R411): download, verification, activation, trial and confirmation, settings copies,
and key rotation. -/

namespace Sys2Proof.Machine

/-! ### The staging area (R394 to R398) -/

/-- Whether the staging area holds an image: a download has begun, or an update left the old or the rejected image there; a
first install leaves nothing there. -/
def hasStaged (s : State) : Bool := (s.upd.st != .idle || s.upd.superseded) && !memBlank (norBase + stgMan) 128 s.nor

/-- The staged manifest. -/
def stagedMan (s : State) : List Byte := manifestAt s stgMan

/-- NSPORE of the staged container. -/
def stagedSpores (s : State) : Nat := if hasStaged s then mfSpores (stagedMan s) else 0

def sporeSet (s : State) (k : Nat) : Bool := s.upd.map.getLsbD k

/-- The spores whose bit is clear. -/
def missing (s : State) : List Nat := (List.range (stagedSpores s)).filter fun k => !sporeSet s k

def missingCnt (s : State) : Nat := (missing s).length

def sporeCt (s : State) (k : Nat) : List Byte := s.norRead (stgOfs + 1024 * k) 1024
def sporeTag (s : State) (k : Nat) : List Byte := s.norRead (stgTags + 16 * k) 16

/-- One spore decrypted and checked (R396). -/
def sporeOpen (cek : BitVec 256) (man : List Byte) (k : Nat) (ct tag : List Byte) : Option (List Byte) :=
  gcmDec (beBytes 32 cek.toNat) (sporeNonce man k) (man.take 128) ct tag

/-- The digest of a block of an area: the ciphertexts of its spores, then their tags (R395). -/
def blockDigest (s : State) (ofs tags n i : Nat) : List Byte :=
  let c := min 64 (n - 64 * i)
  sha384 (s.norRead (ofs + 65536 * i) (1024 * c) ++ s.norRead (tags + 1024 * i) (16 * c))

/-- Every block digest of an area against its manifest. -/
def digestsOk (s : State) (ofs tags : Nat) (man : List Byte) : Bool :=
  (List.range (mfBlocks man)).all fun i => blockDigest s ofs tags (mfSpores man) i == slice man (128 + 48 * i) 48

/-! ### Download (R397 to R400) -/

/-- The state code of UPD_STAT. -/
def UpdState.code : UpdState → Nat
  | .idle => 0 | .erasing => 1 | .downloading => 2 | .complete => 3 | .verifying => 4 | .verified => 5 | .pending_ => 6
  | .trial => 7 | .rejected => 8

/-- The envelope in UPD_MBXIN: the CEK, when its purpose, slot, length and tag hold (R388). -/
def envelope (s : State) : Option (BitVec 256) :=
  if s.sec.zeroised then none
  else match blobOpen p384 (Config.utk s.sec.gen) 3 (serialBytes s) s.upd.mbxin with
    | none => none
    | some (slot, k) => if slot = 0 ∧ k.length = 32 then some (BitVec.ofNat 256 (beNat k)) else none

/-- RESULT of the checks of a BEGIN, with the status that it gives; 0 when all pass. -/
def beginCheck (s : State) (len : Nat) (man : List Byte) : Nat × Status :=
  if !mfFormatOk man || len != mfLength man then (7, .badArg)
  else if (envelope s).isNone then (2, .badArg)
  else if !mfKeyOk s man then (5, .refused)
  else if !mfSigOk man then (4, .refused)
  else if mfSvn man < s.upd.minsvn.toNat then (6, .refused)
  else (0, .done)

/-- Whether an update's state turns a BEGIN away: PENDING, TRIAL, or REJECTED with its swap-back due. -/
def beginBarred (s : State) : Bool :=
  s.upd.st == .pending_ || s.upd.st == .trial || (s.upd.st == .rejected && s.upd.swapBack)

/-- A BEGIN of a new container: its manifest and its CEK are stored, and the staging area is to be erased. -/
def beginNew (man : List Byte) (s : State) : State :=
  let s := (s.norErase stgMan 0x10000).norWrite stgMan man
  { s with
    upd.st := .erasing
    upd.eraseDue := true
    upd.map := 0
    upd.cid := mfCid man
    upd.cekStaged := (envelope s).map (kwWrap 0)
    upd.superseded := false }

/-- UPD_BEGIN (R397). -/
def updBegin (a : Vector Word 16) (s : State) : Reply :=
  let len := a[1].toNat
  if len < 369 ∨ 12609 < len then .deny { s with upd.result := 7 } .badArg
  else
    let r := s.srcBytes 9 a[0].toNat len
    let man := r.1
    let chk := beginCheck r.2 len man
    let s := r.2
    if chk.1 ≠ 0 then .deny { s with upd.result := BitVec.ofNat 4 chk.1 } chk.2
    else if beginBarred s then .deny s .refused
    else
      let busy := s.upd.st == .downloading || s.upd.st == .complete
      if busy && s.upd.cid != mfCid man then .deny s .busy
      else if busy then
        .later { s with upd.result := 0, upd.st := if s.upd.eraseDue then .erasing else s.upd.st } .updBegin
      else .later (beginNew man { s with upd.result := 0 }) .updBegin

/-- The state of a download whose erase is done: COMPLETE once every bit is set. -/
def downState (s : State) : UpdState := if missingCnt s = 0 then .complete else .downloading

/-- The erase of the staging area, its tag table and its swap sectors (R394, R397). -/
def eraseStaging (s : State) : State :=
  ((s.norErase stgOfs 0x1000000).norErase stgTags 0x40000).norErase swpOfs 0x20000

/-- UPD_BEGIN_DONE: the erase ends, or a resumed BEGIN that needed none; ok is whether the flash erased. -/
def beginDone (ok : Bool) (s : State) : State :=
  if !isPending s .upd .updBegin then s
  else if s.upd.st = .erasing ∧ !ok then
    mbxDone .upd .refused [] { s with upd.st := .downloading, upd.result := 8 }
  else
    let s := if s.upd.st = .erasing then
        { eraseStaging s with upd.eraseDue := false }
      else s
    let s := { s with upd.st := downState s }
    mbxDone .upd .done [wd s.upd.cid.toNat, wd (s.upd.cid.toNat / 2 ^ 32), wd (missingCnt s)] s

/-- Write back what the set bits vouch for in a sector of items, after its erase: the swap sector keeps the copy (R399). -/
def repairSector (base size per : Nat) (sector : Nat) (s : State) : State :=
  let swp := if base = stgOfs then swpOfs else swpTags
  let ks := ((List.range per).map fun i => per * sector + i).filter (sporeSet s)
  let kept := ks.map fun k => (k, s.norRead (base + size * k) size)
  let s := forAll kept (fun (s : State) p => s.norWrite (swp + size * (p.1 % per)) p.2) (s.norErase swp 0x10000)
  forAll kept (fun (s : State) p => s.norWrite (base + size * p.1) p.2) (s.norErase (base + 0x10000 * sector) 0x10000)

/-- A repair before a write whose slot or tag entry is not blank (R399). -/
def repair (k : Nat) (s : State) : State :=
  let data := !memBlank (norBase + stgOfs + 1024 * k) 1024 s.nor
  let tag := !memBlank (norBase + stgTags + 16 * k) 16 s.nor
  let s := if data then repairSector stgOfs 1024 64 (k / 64) s else s
  let s := if tag then repairSector stgTags 16 4096 (k / 4096) s else s
  if data || tag then { s with upd.repair := satInc s.upd.repair } else s

/-- UPD_SPORE (R398). Its arguments are judged before the state (R490), wherever an image is staged to judge them by. -/
def updSpore (a : Vector Word 16) (s : State) : Reply :=
  if !hasStaged s then .deny s .refused
  else
    let r := s.srcBytes 9 a[0].toNat 1044
    let k := leAt r.1 0 4
    let ct := slice r.1 4 1024
    let tag := slice r.1 1028 16
    let s := r.2
    if stagedSpores s ≤ k then .deny s .badArg
    else if ((stagedCek s).bind fun c => sporeOpen c (stagedMan s) k ct tag).isNone then
      .deny { s with upd.tagerr := satInc s.upd.tagerr } .badArg
    else if s.upd.st != .downloading || s.upd.eraseDue then .deny s .refused
    else if sporeSet s k then .ok s [wd (missingCnt s)]
    else
      let old := s.upd
      let s := repair k s
      let s := (s.norWrite (stgOfs + 1024 * k) ct).norWrite (stgTags + 16 * k) tag
      let s := { s with upd.map := s.upd.map ||| BitVec.ofNat 16384 (2 ^ k) }
      .ok { s with upd.st := downState s } [wd (missingCnt s)]

/-- The runs of consecutive numbers of a rising list, as start and length. -/
def runsOf : List Nat → List (Nat × Nat)
  | [] => []
  | k :: r => match runsOf r with
    | (b, n) :: t => if k + 1 = b then (k, n + 1) :: t else (k, 1) :: (b, n) :: t
    | [] => [(k, 1)]

/-- UPD_MISSING: the ranges of spores still needed, from an index on. -/
def updMissing (a : Vector Word 16) (s : State) : Reply :=
  if a[1].toNat < 1 ∨ 64 < a[1].toNat ∨ 16384 ≤ a[0].toNat ∨ s.upd.st != .downloading then .deny s .refused
  else
    let rs := (runsOf ((missing s).filter fun k => decide (a[0].toNat ≤ k))).take a[1].toNat
    .ok { s with upd.missBuf := rs.flatMap fun r => leBytes 2 r.1 ++ leBytes 2 r.2 } [wd rs.length]

/-! ### Verification (R401) -/

def updVerify (_ : Vector Word 16) (s : State) : Reply :=
  if s.upd.st = .complete ∨ s.upd.st = .verified then .later { s with upd.st := .verifying } .updVerify else .deny s .refused

/-- The spores whose tag fails, re-decrypted from flash. -/
def badSpores (s : State) : List Nat :=
  let man := stagedMan s
  (List.range (stagedSpores s)).filter fun k =>
    ((stagedCek s).bind fun c => sporeOpen c man k (sporeCt s k) (sporeTag s k)).isNone

/-- The checks after the tags: digests, key and signature, SVN; 0 when all pass. -/
def verifyRest (s : State) : Nat :=
  let man := stagedMan s
  if !digestsOk s stgOfs stgTags man then 3
  else if !mfKeyOk s man then 5
  else if !mfSigOk man then 4
  else if mfSvn man < s.upd.minsvn.toNat then 6
  else 0

/-- UPD_VERIFY_DONE: VERIFIED; or DOWNLOADING with the bits of the bad spores cleared; or COMPLETE with the failing check.
ok is whether the flash answered. -/
def verifyDone (ok : Bool) (s : State) : State :=
  if s.upd.st != .verifying then s
  else
    let bad := badSpores s
    let put := fun (st : UpdState) (r : Nat) (s : State) =>
      let s := { s with upd.st := st, upd.result := BitVec.ofNat 4 r }
      if isPending s .upd .updVerify then mbxDone .upd (if r = 0 then .done else .refused) [] s else s
    if !ok then put .complete 8 s
    else if missingCnt s ≠ 0 then put .downloading 1 s
    else if !bad.isEmpty then
      put .downloading 1 { s with upd.map := bad.foldl (fun m k => m &&& ~~~(BitVec.ofNat 16384 (2 ^ k))) s.upd.map }
    else
      let r := verifyRest s
      put (if r = 0 then .verified else .complete) r s

/-! ### Activation, trial and confirmation (R402 to R407) -/

/-- UPD_ACTIVATE (R402). -/
def updActivate (a : Vector Word 16) (s : State) : Reply :=
  if s.upd.st = .verified ∧ (s.sys.mode = .commission ∨ s.sys.mode = .service ∨ s.sys.mode = .maintain) then
    .ok { s with upd.st := .pending_, upd.resetAct := bitAt a[0] 0 } []
  else .deny s .refused

/-- UPD_CANCEL (R400). -/
def updCancel (a : Vector Word 16) (s : State) : Reply :=
  if a[0] = 1 then
    if s.upd.st = .downloading ∨ s.upd.st = .complete ∨ s.upd.st = .verified then
      .ok { s with upd.map := 0, upd.cekStaged := none, upd.st := .idle, upd.cid := 0, upd.eraseDue := false } []
    else .deny s .refused
  else if a[0] = 0 then
    if s.upd.st = .pending_ then .ok { s with upd.st := .complete, upd.resetAct := false } [] else .deny s .refused
  else .deny s .refused

/-- UPD_CONFIRM (R407). -/
def updConfirm (_ : Vector Word 16) (s : State) : Reply :=
  if s.upd.st = .trial then
    .ok { s with
      upd.st := .idle
      upd.minsvn := BitVec.ofNat 16 (max s.upd.minsvn.toNat (mfSvn (manifestAt s actMan)))
      upd.setlock := false
      upd.base := none
      upd.superseded := true
      upd.resetDeg := false
      upd.winFrom := none } []
  else .deny s .refused

/-- A rejection (R406): REASON and HOSTCODE, the event-log entry, source 161; the swap-back is due. -/
def reject (reason hostcode : Nat) (s : State) : State :=
  let s := { s with
    upd.st := .rejected
    upd.reason := BitVec.ofNat 8 reason
    upd.hostcode := BitVec.ofNat 8 hostcode
    upd.stchg := true
    upd.swapBack := true
    upd.resetRej := true
    upd.winFrom := none }
  (s.evlog 0x000B 0xFF (wd reason) (wd s.upd.hostcode.toNat) (wd (mfVersion (manifestAt s actMan))))

/-- UPD_REPORT: MIGRATION_FAILED or another failure rejects the image in trial. -/
def updReport (a : Vector Word 16) (s : State) : Reply :=
  if (a[0] ≠ 0x0C ∧ a[0] ≠ 0x01) ∨ s.upd.st ≠ .trial then .deny s .refused
  else .ok (reject (if a[0] = 0x0C then 3 else 4) a[1].toNat s) []

/-- Seconds left in the confirmation window; 0 outside TRIAL. -/
def confLeft (s : State) : Nat :=
  match s.upd.winFrom with
  | none => 0
  | some t =>
    if s.upd.st = .trial then (s.upd.winMin.toNat * 60000000000 - (s.now - t.toNat) + 999999999) / 1000000000 else 0

/-- UPD_STATUS. -/
def updStatus (_ : Vector Word 16) (s : State) : Reply :=
  .ok s [wd s.upd.st.code, wd s.upd.cid.toNat, wd (s.upd.cid.toNat / 2 ^ 32), wd s.upd.trials.toNat, wd (confLeft s),
    wd s.upd.minsvn.toNat, wd (mfVersion (manifestAt s actMan)), wd (if hasStaged s then mfVersion (stagedMan s) else 0)]

/-- CONF_WINDOW_WARNING: five minutes remain (R404). -/
def windowWarning (s : State) : State :=
  if s.upd.st = .trial ∧ s.upd.winFrom.isSome then { s with upd.winwarn := true } else s

def execConfWindowWarning (s : State) : Host.Outcome State Fault Refusal := live s windowWarning

/-- CONF_WINDOW_EXPIRY (R406). -/
def windowExpiry (s : State) : State := if s.upd.st = .trial ∧ s.upd.winFrom.isSome then reject 2 0 s else s

def execConfWindowExpiry (s : State) : Host.Outcome State Fault Refusal := live s windowExpiry

/-! ### Settings copies (R408, R409) -/

def setSize : Nat := 0x80000

/-- The LEN of a copy's header. -/
def copyLen (s : State) (b : Bool) : Nat := leAt (s.norRead (setOfs b) 32) 12 4
def copyGen (s : State) (b : Bool) : Nat := leAt (s.norRead (setOfs b) 32) 4 4
def copySchema (s : State) (b : Bool) : Nat := leAt (s.norRead (setOfs b) 32) 8 2

/-- A copy is valid when its MAGIC and its CRC hold. -/
def copyValid (s : State) (b : Bool) : Bool :=
  let h := s.norRead (setOfs b) 32
  leAt h 0 4 == Config.setMagic.toNat && decide (copyLen s b ≤ setSize - 32)
    && crc32c (s.norRead (setOfs b + 32) (copyLen s b)) == leAt h 16 4

/-- The current copy: the valid one whose GEN is newer. -/
def currentCopy (s : State) : Option Bool :=
  match copyValid s false, copyValid s true with
  | false, false => none
  | true, false => some false
  | false, true => some true
  | true, true => some (newer 32 (copyGen s false) (copyGen s true))

/-- The copy that SET_OPEN erases: the one that is not the base copy in a trial, else the spare. -/
def spareCopy (s : State) : Bool :=
  if s.upd.setlock then !(s.upd.base.getD false) else !((currentCopy s).getD true)

/-- SET_OPEN. -/
def setOpen (_ : Vector Word 16) (s : State) : Reply := .later { s with upd.opened := none } .setOpen

/-- SET_OPEN_DONE: the spare is erased; ok is whether the flash erased. -/
def setOpenDone (ok : Bool) (s : State) : State :=
  if !isPending s .upd .setOpen then s
  else
    let b := spareCopy s
    if ok then mbxDone .upd .done [] { s.norErase (setOfs b) setSize with upd.opened := some b }
    else
      let d := s.draw
      mbxDone .upd .refused [] (d.2.norWrite (setOfs b) ((List.range 32).map fun i => Config.freeByte d.1 i))

/-- Bytes as the flash holds them after programming: programming only clears bits. -/
def State.norProgram (s : State) (o : Nat) (l : List Byte) : State :=
  s.norWrite o (List.zipWith (· &&& ·) (s.norRead o l.length) l)

/-- SET_WRITE: into the content of the opened copy. -/
def setWrite (a : Vector Word 16) (s : State) : Reply :=
  let n := a[2].toNat
  if n < 4 ∨ 4096 < n ∨ n % 4 ≠ 0 ∨ setSize - 32 < a[0].toNat + n then .deny s .badArg
  else match s.upd.opened with
    | none => .deny s .refused
    | some b =>
      let r := s.srcBytes 9 a[1].toNat n
      .ok (r.2.norProgram (setOfs b + 32 + a[0].toNat) r.1) []

/-- SET_COMMIT: the header, one GEN newer than the current copy's. DESIGN CHOICE: R408's fields come to 36 bytes and its
header has 32, so the reserved field at the end has 4. -/
def setCommit (a : Vector Word 16) (s : State) : Reply :=
  if 65535 < a[0].toNat ∨ setSize - 32 < a[1].toNat then .deny s .refused
  else match s.upd.opened with
    | none => .deny s .refused
    | some b =>
      let gen := match currentCopy s with
        | some c => (copyGen s c + 1) % 2 ^ 32
        | none => 1
      let h := leBytes 4 Config.setMagic.toNat ++ leBytes 4 gen ++ leBytes 2 a[0].toNat ++ leBytes 2 0 ++ leBytes 4 a[1].toNat
        ++ leBytes 4 (crc32c (s.norRead (setOfs b + 32) a[1].toNat)) ++ leBytes 8 (mfCid (manifestAt s actMan)).toNat ++ leBytes 4 0
      .ok { s.norProgram (setOfs b) h with upd.opened := none } [wd gen]

/-! ### Key rotation (R387) -/

/-- KEY_ROTATE: a message of 250 bytes signed with the current key. -/
def keyRotate (a : Vector Word 16) (s : State) : Reply :=
  if 1 < a[0].toNat then .deny s .badArg
  else
    let r := s.srcBytes 9 a[1].toNat 250
    let m := r.1
    let s := r.2
    let key := slice m 57 97
    let cur := if a[0] = 0 then s.sec.fkd else s.sec.skd
    let modes := s.sys.mode == .commission || s.sys.mode == .maintain
    if leAt m 0 1 ≠ a[0].toNat ∨ slice m 1 8 ≠ serialBytes s ∨ !sigOk384 key (m.take 154) (m.drop 154) then .deny s .badArg
    else if !modes || cur != some (sha384 key) then .deny s .refused
    else
      let s := if a[0] = 0 then { s with sec.fkd := some (slice m 9 48) } else { s with sec.skd := some (slice m 9 48) }
      .ok (s.evlog 0x000A 0xFF a[0] 0 0) []

/-! ### The calls (R411) -/

def execUpdBegin (c : Call) (s : State) : Host.Outcome State Fault Refusal := live s (mbxCall .upd 0x0101 c updBegin)
def execUpdBeginDone (ok : Bool) (s : State) : Host.Outcome State Fault Refusal := live s (beginDone ok)
def execUpdSpore (c : Call) (s : State) : Host.Outcome State Fault Refusal := live s (mbxCall .upd 0x0102 c updSpore)
def execUpdMissing (c : Call) (s : State) : Host.Outcome State Fault Refusal := live s (mbxCall .upd 0x0103 c updMissing)
def execUpdVerify (c : Call) (s : State) : Host.Outcome State Fault Refusal := live s (mbxCall .upd 0x0104 c updVerify)
def execUpdVerifyDone (ok : Bool) (s : State) : Host.Outcome State Fault Refusal := live s (verifyDone ok)
def execUpdActivate (c : Call) (s : State) : Host.Outcome State Fault Refusal := live s (mbxCall .upd 0x0105 c updActivate)
def execUpdCancel (c : Call) (s : State) : Host.Outcome State Fault Refusal := live s (mbxCall .upd 0x0106 c updCancel)
def execUpdConfirm (c : Call) (s : State) : Host.Outcome State Fault Refusal := live s (mbxCall .upd 0x0107 c updConfirm)
def execUpdReport (c : Call) (s : State) : Host.Outcome State Fault Refusal := live s (mbxCall .upd 0x0108 c updReport)
def execUpdStatus (c : Call) (s : State) : Host.Outcome State Fault Refusal := live s (mbxCall .upd 0x0109 c updStatus)
def execSetOpen (c : Call) (s : State) : Host.Outcome State Fault Refusal := live s (mbxCall .upd 0x0201 c setOpen)
def execSetOpenDone (ok : Bool) (s : State) : Host.Outcome State Fault Refusal := live s (setOpenDone ok)
def execSetWrite (c : Call) (s : State) : Host.Outcome State Fault Refusal := live s (mbxCall .upd 0x0202 c setWrite)
def execSetCommit (c : Call) (s : State) : Host.Outcome State Fault Refusal := live s (mbxCall .upd 0x0203 c setCommit)
def execKeyRotate (c : Call) (s : State) : Host.Outcome State Fault Refusal := live s (mbxCall .upd 0x0301 c keyRotate)

/-- CLRCNT of UPD_EVT. -/
def updClear (s : State) : State := ({ s with upd.tagerr := 0, upd.repair := 0 }).statsCleared 0x5550 0

def execUpdClrcnt (s : State) : Host.Outcome State Fault Refusal := access .upd 0 s updClear

end Sys2Proof.Machine
end

