-- ==== Sys2Proof/Machine/RegView.lean ====
section
/-! DEFINITION. What each register reads, field by field as the register tables give it, for the fields that are no
parameter registers: one function per block, by the offset in it. Reserved bits read zero (R5). -/

namespace Sys2Proof.Machine

/-- A word from its fields: each with its lowest bit. -/
def pk (l : List (Nat × Nat)) : Nat := (l.map fun p => at_ p.2 p.1).sum

/-- The index of a family's member, by its offset. -/
def mem (n base stride o : Nat) [NeZero n] : Fin n := Fin.ofNat n ((o - base) / stride)

/-- The offset inside a family's member. -/
def rel (base stride o : Nat) : Nat := (o - base) % stride

/-- The low n bits of a signed number. -/
def low (n : Nat) (v : Int) : Nat := (v % (2 ^ n : Nat)).toNat

/-- Bits of a family that satisfy a test. -/
def bitsWhere (n : Nat) (p : Fin n → Bool) : Nat := ((fins n).map fun i => at_ (b2n (p i)) i.val).sum

/-- The word at an offset of a buffer. -/
def bufWord (l : List Byte) (o : Nat) : Nat := leAt l o 4

/-! ### The mailbox registers (R431 to R433) -/

def viewMbx (b : Mailbox) (o : Nat) : Nat :=
  if o = 0x100 then b.cmd.toNat
  else if 0x110 ≤ o ∧ o < 0x150 then (b.arg[mem 16 0x110 4 o]).toNat
  else if o = 0x180 then pk [(31, b2n b.busy), (30, b2n b.pend), (29, b2n b.coll), (16, b.callNo.toNat), (0, b.status.toNat)]
  else if 0x190 ≤ o ∧ o < 0x1D0 then (b.res[mem 16 0x190 4 o]).toNat
  else 0

/-! ### SYS, TIME, MESH, INTC, GPIO -/

def viewSys (s : State) (o : Nat) : Nat :=
  match o with
  | 0x10 => pk [(16, s.sys.oos.toNat), (8, s.sys.prev.code.toNat), (7, b2n s.sys.simgNone), (6, b2n s.sys.degLatched),
      (5, b2n s.sys.rtcInvalid), (0, s.sys.mode.code.toNat)]
  | 0x14 => s.sys.rstCause.toNat
  | 0x20 => pk [(31, b2n s.sys.autorstEn), (16, s.sys.autorstDelay.toNat), (0, s.sys.wdogTimeout.toNat)]
  | 0x30 => pk [(16, s.sys.actual.toNat), (0, s.sys.level.toNat)]
  | 0x34 => pk [(8, s.sys.pfwSrc.toNat), (0, s.sys.pfwThresh.toNat)]
  | 0x38 => pk [(16, s.sys.capMeas.toNat), (15, b2n s.sys.fresh), (0, s.sys.capNom.toNat)]
  | 0x3C => pk [(20, s.sys.vsup.toNat), (8, s.sys.vhold.toNat), (6, b2n s.sys.therm1), (5, b2n s.sys.therm1e),
      (4, b2n s.sys.holdLow), (3, b2n s.sys.shed), (2, b2n s.sys.pfwActive), (1, b2n s.sys.holdReady)]
  | 0x40 => pk [(16, s.sys.imeas.toNat), (0, s.sys.limit.toNat)]
  | 0x60 => s.sys.serial.toNat % 2 ^ 32
  | 0x64 => s.sys.serial.toNat / 2 ^ 32
  | _ => 0

def viewTime (s : State) (o : Nat) : Nat :=
  match o with
  | 0x10 => s.now % 2 ^ 32
  | 0x14 => s.now / 2 ^ 32
  | 0x18 => s.tshort.toNat
  | 0x20 => s.legalMs % 2 ^ 32
  | 0x24 => s.legalMs / 2 ^ 32
  | 0x28 => s.hwmMs % 2 ^ 32
  | 0x2C => s.hwmMs / 2 ^ 32
  | 0x30 => pk [(31, b2n s.time.lvalid), (30, b2n s.shifted), (29, b2n s.time.refdevE), (28, b2n s.time.vbakLow),
      (27, b2n (atLimit s.time.evlDrop)), (0, s.time.vbak.toNat)]
  | 0x34 => pk [(16, s.time.trim.toNat), (8, s.time.k2.toNat), (0, s.time.t0.toNat)]
  | 0x38 => pk [(16, s.time.refdev.toNat), (0, s.time.temp.toNat)]
  | 0x40 => Config.evlBase.toNat
  | 0x44 => s.time.evlNext.toNat
  | 0x48 => s.time.evlSeq.toNat
  | 0x4C => s.time.evlDrop.toNat
  | _ => 0

/-- MESH's registers. OUTST counts the tag of the read itself, which that read's response returns (R363). -/
def viewMesh (s : State) (o : Nat) : Nat :=
  match o with
  | 0x10 => pk [(31, b2n (satMesh s.mesh)), (8, s.mesh.peak.toNat), (0, dmaTags s + 1)]
  | 0x14 => pk [(16, s.mesh.par.toNat), (0, s.mesh.uncorr.toNat)]
  | 0x18 => pk [(16, s.mesh.lastPass.toNat), (0, s.mesh.corr.toNat)]
  | 0x1C => s.mesh.errAddr.toNat
  | 0x20 => pk [(28, s.mesh.errKind.toNat), (4, s.mesh.errReq.toNat)]
  | 0x24 => s.mesh.evt.toNat
  | _ => 0

/-- INTC, but for the claim registers. -/
def viewIntc (s : State) (o : Nat) : Nat :=
  if 0x400 ≤ o ∧ o < 0x800 then (s.intc.prio[mem 256 0x400 4 o]).toNat
  else if 0x800 ≤ o ∧ o < 0x820 then
    ((List.range 32).map fun i => at_ (b2n (pendingSrc s (8 * (o - 0x800) + i))) i).sum
  else if 0x1000 ≤ o ∧ o < 0x1400 then bitsOf (s.intc.enable[mem 8 0x1000 0x80 o]).toNat (8 * rel 0x1000 0x80 o + 31) (8 * rel 0x1000 0x80 o)
  else if 0x2000 ≤ o ∧ o < 0x2080 ∧ o % 16 = 0 then (s.intc.thresh[mem 8 0x2000 0x10 o]).toNat
  else 0

/-- KEY_STAT.ROUTE: where key presses go (R446). -/
def keyRoute (s : State) : Nat := if s.safe.entry.isSome then 2 else if s.bill.tok.entry then 1 else 0

def viewGpio (s : State) (o : Nat) : Nat :=
  match o with
  | 0x10 => ((fins 8).map fun n => at_ (gpOwner s n) (2 * n.val)).sum
  | 0x14 => s.gpio.dir.toNat
  | 0x18 => s.gpio.out.toNat
  | 0x1C => (gpioLevels s).toNat
  | 0x20 => s.gpio.irqcfg.toNat
  | 0x24 => s.gpio.evt.toNat
  | 0x28 => s.sys.straps.toNat
  | 0x40 => pk [(31, b2n (s.sys.straps.getLsbD 1)), (29, keyRoute s), (28, b2n s.gpio.ovf), (16, s.gpio.fifo.length)]
  | 0x44 => match s.gpio.fifo with
    | [] => 0
    | k :: _ => 2 ^ 31 + k.toNat
  | _ => 0

/-! ### DMA -/

def DmaState.code : DmaState → Nat
  | .idle => 0 | .waitDesc => 1 | .waitReq => 2 | .running => 3 | .aborting => 4 | .halted => 5

def viewDmaCh (c : DmaCh) (o : Nat) : Nat :=
  match o with
  | 0x0 => pk [(31, b2n c.en), (28, b2n c.enref), (24, c.prio.toNat), (16, c.reqsel.toNat)]
  | 0x4 => at_ c.ring.toNat 5
  | 0x8 => c.rlen.toNat
  | 0xC => c.head.toNat
  | 0x10 =>
    let bytes := match c.run with
      | some r => r.bytes
      | none => c.bytes.toNat
    pk [(29, c.st.code), (26, c.lastRes.toNat), (0, bytes)]
  | 0x14 => c.done.toNat
  | 0x18 => pk [(31, b2n (satDmaCh c)), (16, c.errCnt.toNat), (0, c.wdrCnt.toNat)]
  | 0x1C => c.desc.toNat
  | _ => 0

def viewDma (s : State) (o : Nat) : Nat :=
  if o = 0x10 then pk [(16, s.dma.age.toNat % 1024), (0, inFlight s)]
  else if o = 0x14 then bitsWhere 32 fun c => (s.dma.ch[c]).en && (s.dma.ch[c]).st != DmaState.halted
  else if o = 0x18 then bitsWhere 32 fun c => (s.dma.ch[c]).st == DmaState.halted
  else if o = 0x1C then s.dma.evt.toNat
  else if 0x100 ≤ o then viewDmaCh s.dma.ch[mem 32 0x100 0x40 o] (rel 0x100 0x40 o)
  else 0

/-! ### TXN, SEC, UPD -/

def TxnState.code : TxnState → Nat
  | .idle => 0 | .open_ => 1 | .queued => 2 | .committing => 3

def viewTxn (s : State) (o : Nat) : Nat :=
  let open_ (d : Fin 6) := (s.txn.dom[d]).st == TxnState.open_
  let work (d : Fin 6) := (s.txn.dom[d]).st == TxnState.queued || (s.txn.dom[d]).st == TxnState.committing
  if o = 0x10 then pk [(24, bitsWhere 6 work), (0, bitsWhere 6 open_)]
  else if o = 0x20 then pk [(16, s.txn.commitCnt.toNat), (0, s.txn.rollbackCnt.toNat)]
  else if o = 0x24 then pk [(31, b2n (satTxn s.txn)), (0, s.txn.expireCnt.toNat)]
  else if 0x200 ≤ o ∧ o < 0x260 then
    let t := s.txn.dom[mem 6 0x200 0x10 o]
    match rel 0x200 0x10 o with
    | 0 => pk [(29, t.st.code), (28, b2n t.ovf), (27, b2n t.latewr), (16, t.result.toNat),
        (0, (leaseLeft s t + 999999999) / 1000000000)]
    | 4 => t.id.toNat
    | 8 => t.shadow.length
    | _ => at_ t.reason.toNat 24
  else viewMbx s.mbx.txn o

def viewSec (s : State) (o : Nat) : Nat :=
  if o = 0x10 then pk [(31, b2n s.sec.tamper), (30, b2n s.sec.fkd.isSome), (29, b2n s.sec.skd.isSome), (28, b2n s.sec.qfull),
    (16, s.sec.queue.length)]
  else if o = 0x24 then s.sec.src.toNat
  else if o = 0x28 then s.sec.dst.toNat
  else if o = 0x2C then s.sec.aux.toNat
  else if o = 0x30 then pk [(28, s.sec.result.toNat), (24, s.sec.port.toNat), (0, s.sec.olen.toNat)]
  else if 0x100 ≤ o ∧ o < 0x140 then
    match s.sec.hk[mem 16 0x100 4 o] with
    | none => 0
    | some k => pk [(31, 1), (28, k.typ.toNat), (27, b2n k.imported)]
  else if 0x1000 ≤ o ∧ o < 0x1800 then
    bufWord (certificate s) (o - 0x1000)
  else 0

def viewUpd (s : State) (o : Nat) : Nat :=
  if o = 0x10 then pk [(28, s.upd.st.code), (24, s.upd.result.toNat), (22, s.upd.trials.toNat), (21, b2n s.upd.fwnone),
    (20, b2n s.upd.setlock)]
  else if o = 0x14 then pk [(16, stagedSpores s), (0, missingCnt s)]
  else if o = 0x18 then s.upd.confwin.toNat
  else if o = 0x1C then confLeft s
  else if o = 0x20 then pk [(24, s.upd.reason.toNat), (16, s.upd.hostcode.toNat)]
  else if o = 0x24 then mfVersion (manifestAt s actMan)
  else if o = 0x28 then (if hasStaged s then mfVersion (stagedMan s) else 0)
  else if o = 0x2C then pk [(16, s.upd.minsvn.toNat), (0, mfSvn (manifestAt s actMan))]
  else if o = 0x30 then
    match currentCopy s with
    | none => pk [(29, b2n (s.upd.base == some true)), (28, b2n s.upd.opened.isSome)]
    | some b => pk [(31, 1), (30, b2n b), (29, b2n (s.upd.base == some true)), (28, b2n s.upd.opened.isSome), (0, copySchema s b)]
  else if o = 0x34 then pk [(16, s.upd.tagerr.toNat), (0, s.upd.repair.toNat)]
  else if o = 0x38 then pk [(2, b2n (satUpd s.upd)), (1, b2n s.upd.winwarn), (0, b2n s.upd.stchg)]
  else if 0x3000 ≤ o ∧ o < 0x3100 then bufWord s.upd.missBuf (o - 0x3000)
  else if 0x3C00 ≤ o ∧ o < 0x3C80 then bufWord s.upd.mbxin (o - 0x3C00)
  else viewMbx s.mbx.upd o

/-! ### THL -/

/-- The header of a slot's base image, where one is there. -/
def slotHead (s : State) (k : Fin 2) : Option (List Byte) :=
  let h := s.norRead (slotOfs k) 128
  if slice h 0 4 == [0x54, 0x48, 0x53, 0x49] then some h else none

/-- SCHK after a slot's base image and its committed patches: that of the last of them. -/
def slotSchk (s : State) (k : Fin 2) (h : List Byte) : Nat :=
  match (s.thl.patches[k]).getLast? with
  | none => cSchk h
  | some p => cSchk (s.norRead (slotOfs k + p.1) 128)

/-- THL_PRCTL.STATE. -/
def PrState.code : PrState → Nat
  | .none => 0 | .staging => 1 | .staged => 2

/-- Bits of the partitions that the staged patch carries. -/
def stagedParts (s : State) : Nat :=
  if s.thl.pr = .staged then bitsWhere 8 fun p => frameTypes.any fun t => partOf t == p.val && carries s.thl.shadow t else 0

def viewThl (s : State) (o : Nat) : Nat :=
  if o = 0x10 then pk [(31, s.thl.act.val), (30, s.thl.next.val), (20, s.thl.applied % 16), (0, s.thl.fmt.toNat)]
  else if o = 0x14 then s.thl.imgId.toNat
  else if o = 0x18 then s.sys.metChk.toNat
  else if 0x20 ≤ o ∧ o < 0x40 then
    let k := mem 2 0x20 0x10 o
    match slotHead s k, rel 0x20 0x10 o with
    | none, 0 => pk [(31, b2n s.thl.verified[k]), (16, (s.thl.patches[k]).length)]
    | none, _ => 0
    | some h, 0 => pk [(31, b2n s.thl.verified[k]), (16, (s.thl.patches[k]).length), (8, cMajor h), (0, cMinor h)]
    | some h, 4 => cImageId h
    | some h, 8 => cSerial h
    | some h, _ => slotSchk s k h
  else if o = 0x40 then pk [(31, b2n s.thl.cmd.isSome), (24, s.thl.result.toNat), (8, s.thl.slot.val)]
  else if o = 0x44 then s.thl.progSrc.toNat
  else if o = 0x48 then s.thl.progLen.toNat
  else if o = 0x4C then s.thl.progOfs.toNat
  else if o = 0x60 then pk [(30, s.thl.pr.code), (24, s.thl.prResult.toNat), (16, stagedParts s)]
  else if o = 0x64 then s.thl.prSrc.toNat
  else if o = 0x68 then s.thl.prLen.toNat
  else if o = 0x80 then pk [(31, b2n (atLimit s.thl.passCnt)), (0, s.thl.lastPass.toNat)]
  else if o = 0x84 then s.thl.passCnt.toNat
  else if o = 0x88 then pk [(24, s.thl.parErr.toNat), (16, s.thl.uncorr.toNat), (8, s.thl.corrEvt.toNat),
    (1, b2n s.thl.prDone), (0, b2n s.thl.slotDone)]
  else if 0x100 ≤ o ∧ o < 0x180 then
    let p := mem 8 0x100 0x10 o
    match rel 0x100 0x10 o with
    | 0 => pk [(30, b2n (satPart s.thl.part[p])),
        (0, cellsIn p s.thl.frames[p] / 2)]
    | 4 => pk [(16, (s.thl.part[p]).corr.toNat), (0, (s.thl.part[p]).reload.toNat)]
    | _ => 0
  else if o = 0x200 then s.thl.gout.toNat
  else if o = 0x204 then bitsWhere 32 fun b => (ginOwner s b.val).isSome && s.thl.gin.getLsbD b.val
  else 0

/-! ### ETH, CAN -/

def viewEth (e : Eth) (o : Nat) : Nat :=
  if 0x20 ≤ o ∧ o < 0x60 then
    let i := mem 8 0x20 8 o
    if rel 0x20 8 o = 0 then (e.mcf[i]).toNat % 2 ^ 32 else pk [(31, b2n (e.mcfEn.getLsbD i.val)), (0, (e.mcf[i]).toNat / 2 ^ 32)]
  else match o with
    | 0x10 => pk [(31, b2n e.en), (30, b2n e.promisc), (29, b2n e.allmc)]
    | 0x14 => e.mac.toNat % 2 ^ 32
    | 0x18 => e.mac.toNat / 2 ^ 32
    | 0x60 => pk [(31, b2n e.up), (29, e.speed.toNat), (28, b2n e.duplex)]
    | 0x64 => e.rxfrm.toNat
    | 0x68 => e.txfrm.toNat
    | 0x6C => pk [(16, e.rxerr.toNat), (0, e.rxdrop.toNat)]
    | 0x70 => pk [(31, b2n (satEth e)), (0, e.txdrop.toNat)]
    | 0x74 => pk [(2, b2n e.linkchg), (1, b2n e.txe), (0, b2n e.rxe)]
    | _ => 0

def CanState.code : CanState → Nat
  | .active => 0 | .passive => 1 | .busOff => 2

def viewCan (s : State) (b : Fin 3) (o : Nat) : Nat :=
  let c := s.can[b]
  if 0x100 ≤ o then bufWord c.sfbuf (o - 0x100)
  else match o with
    | 0x10 => pk [(31, b2n c.en), (30, b2n c.arecov), (28, b2n c.fden), (0, c.txtmo.toNat)]
    | 0x14 => c.nbt.toNat
    | 0x18 => c.dbt.toNat
    | 0x1C => pk [(30, c.state.code), (29, b2n c.sfref), (24, c.txq.length), (8, c.tec.toNat), (0, c.rec_.toNat)]
    | 0x20 => c.sfEntry.toNat
    | 0x24 => pk [(16, bitsWhere 16 (entryAlloc s b)), (0, bitsWhere 16 fun e => (c.store[e]).isSome)]
    | 0x28 => c.rxfrm.toNat
    | 0x2C => c.txfrm.toNat
    | 0x30 => pk [(16, c.txtmoCnt.toNat), (0, c.busoffCnt.toNat)]
    | 0x34 => pk [(30, b2n (satCan c)), (0, c.rxdrop.toNat)]
    | _ => 0

/-! ### LOAD -/

def viewLoadCh (s : State) (n : Fin 10) (o : Nat) : Nat :=
  let c := s.load.ch[n]
  match o with
  | 0x8 => c.cmd.toNat
  | 0xC => pk [(31, b2n c.on), (30, b2n c.inrush), (29, b2n c.ilim), (28, b2n c.tsd), (27, b2n c.dtg), (26, b2n c.latch),
      (25, b2n c.shed), (24, b2n (ldHeld s n)), (23, b2n (ldCald s n || failSafe s)), (22, b2n (c.defer != Deferred.none)),
      (21, b2n c.clrref), (20, b2n (satLoadCh c)), (16, c.rcnt.toNat), (0, c.temp.toNat)]
  | 0x10 => pk [(16, c.tsdCnt.toNat), (0, c.ilimCnt.toNat)]
  | 0x14 => c.evt.toNat
  | _ => 0

def viewLoad (s : State) (o : Nat) : Nat :=
  if o = 0x10 then pk [(31, b2n s.load.uvhold), (30, b2n s.load.forced),
    (29, b2n (s.sys.mode == .start || s.sys.mode == .activate || s.sys.mode == .degraded || s.sys.mode == .lockout)),
    (16, bitsWhere 10 fun n => (s.load.ch[n]).latch), (0, bitsWhere 10 fun n => (s.load.ch[n]).on)]
  else if o = 0x14 then s.load.sense.toNat
  else if o = 0x30 then pk [(31, b2n s.load.wdEn), (16, s.load.wdOpen.toNat), (0, s.load.wdClose.toNat)]
  else if o = 0x38 then s.load.chal.toNat
  else if o = 0x3C then pk [(30, b2n (atLimit s.load.wdexp)), (18, s.load.cause.toNat), (16, s.load.good.toNat), (0, s.load.wdexp.toNat)]
  else if 0x100 ≤ o ∧ o < 0x240 then viewLoadCh s (mem 10 0x100 0x20 o) (rel 0x100 0x20 o)
  else 0

/-! ### VPn -/

def PMode.code : PMode → Nat
  | .f => 0 | .x1 => 1 | .pwm => 2

def PState.code : PState → Nat
  | .a => 0 | .b => 1 | .c => 2 | .d => 3 | .e => 4 | .f => 5 | .invalid => 6 | .unknown => 7

def LState.code : LState → Nat
  | .off => 0 | .idle => 1 | .sounding => 2 | .assigned => 3 | .matched => 4 | .linkUp => 5 | .linkDown => 6

def viewPilot (s : State) (n : Port) (o : Nat) : Nat :=
  let p := s.vp[n].pilot
  match o with
  | 0x10 => pk [(16, p.duty.toNat), (0, p.mode.toNat)]
  | 0x2C => pk [(9, p.effMode.code), (8, b2n p.ovr.isSome), (7, b2n p.diode.on), (6, b2n p.lowRange.on),
      (5, b2n p.outFault.on), (4, b2n p.senseFault.on), (0, p.state.code)]
  | 0x30 => pk [(16, low 16 p.vhigh), (0, low 16 p.vlow)]
  | 0x34 => p.mduty.toNat
  | 0x44 => pk [(16, p.res.toNat), (0, p.ppclass.toNat)]
  | 0x48 => rpuOf n
  | 0x4C => pk [(16, p.stchgCnt.toNat), (0, p.faultCnt.toNat)]
  | 0x50 => pk [(7, b2n (satPilot p)), (0, p.evt.toNat)]
  | _ => 0

def viewLink (s : State) (n : Port) (o : Nat) : Nat :=
  let l := s.vp[n].link
  let sw (i : Fin 4) := pk [(16, (l.swLen[i]).toNat), (0, (l.swDly[i]).toNat)]
  match o with
  | 0x100 => pk [(30, s.pf (0x20100100 + 0x10000 * n.val) 31 30), (24, b2n l.xr6en), (16, l.txatt.toNat), (0, l.lsup.toNat)]
  | 0x104 => pk [(31, b2n l.blen), (30, b2n l.swdefer), (24, l.thr.toNat), (16, l.swthr.toNat), (0, l.ext.toNat)]
  | 0x108 => sw 0
  | 0x10C => sw 1
  | 0x110 => sw 2
  | 0x114 => sw 3
  | 0x118 => pk [(16, l.margin.toNat), (8, l.defmax.toNat), (0, l.minsnd.toNat)]
  | 0x120 => pk [(24, l.lstate.code), (23, b2n !l.ambigMacs.isEmpty), (22, b2n l.xr6), (21, b2n (isCandidate s n))]
  | 0x124 => pk [(16, l.atten.toNat), (4, l.mrg.toNat), (0, l.result.toNat)]
  | 0x130 => pk [(31, b2n l.rxen), (16, l.coal.toNat), (0, l.tmo.toNat)]
  | 0x144 => pk [(16, l.sent.toNat), (8, bitsWhere 8 fun k => l.pushes.any fun p => p.slot == k), (0, l.failB.toNat)]
  | 0x150 => pk [(16, l.rxdrop.toNat), (0, l.rxerr.toNat)]
  | 0x154 => pk [(16, l.erased.toNat), (0, l.frameLost.toNat)]
  | 0x158 => pk [(16, l.mmedrop.toNat), (0, l.txtmoCnt.toNat)]
  | 0x15C => pk [(16, l.blankSym.toNat), (0, l.deferCnt.toNat)]
  | 0x160 => pk [(10, b2n (satLink l)), (0, l.evt.toNat % 1024)]
  | _ => 0

def viewVp (s : State) (n : Port) (o : Nat) : Nat :=
  let t := s.vp[n].tls
  if o < 0x100 then viewPilot s n o
  else if o < 0x180 then viewLink s n o
  else if 0x8000 ≤ o then (lookupD ((o - 0x8000) % 2048 / 4) 0 (s.vp[n].link.slots[mem 8 0x8000 2048 o])).toNat
  else match o with
    | 0x180 => pk [(31, b2n t.en), (24, t.suite.toNat)]
    | 0x184 => pk [(31, b2n t.selDir), (0, t.selWord.toNat)]
    | 0x194 => t.src.toNat
    | 0x198 => t.dst.toNat
    | 0x19C => pk [(28, t.result.toNat), (26, t.tx.queue.length), (24, t.rx.queue.length), (15, t.itype.toNat), (0, t.olen.toNat)]
    | _ => 0

/-! ### MET -/

/-- CRC-32C over the 1,024 coefficients, each as the word that MET_RSMPCOEF reads. -/
def rsmpCrc : Nat :=
  crc32c (wordsBytes ((List.range 1024).map fun m => (Config.resampCoef (m / 16) (m % 16)).setWidth 32))

/-- Whether a meter is enabled and all its channels have settled. -/
def mActive (s : State) (m : MeterId) : Bool := mEn s m && (mChans s m).all fun c => !(s.met.ch[c]).settling

def viewChan (s : State) (n : ChanId) (o : Nat) : Nat :=
  let c := s.met.ch[n]
  match o with
  | 0x14 => pk [(7, b2n c.valid), (6, b2n c.settling), (5, b2n c.stuck), (4, b2n c.loss), (3, b2n c.satf), (2, b2n (satChan c)),
      (1, b2n c.tcStale), (0, b2n (c.stuck || c.loss))]
  | 0x18 => pk [(16, c.manerrCnt.toNat), (0, c.satCnt.toNat)]
  | 0x1C => low 32 c.x2
  | _ => 0

/-- One of the words of a legal, short or display view, by its offset in its group of four words. -/
def viewAcc (s : State) (m : MeterId) (o : Nat) : Nat :=
  let a := s.acc m (decide (8 ≤ o % 16))
  let lo := o % 8 == 0
  match o / 16 with
  | 0 => if lo then legalView a % 2 ^ 32 else legalView a / 2 ^ 32 % 2 ^ 32
  | 1 => if lo then shortView a else wrapNum a % 256
  | _ => if lo then bcd 10 (dispWh a) % 2 ^ 32 else bcd 10 (dispWh a) / 2 ^ 32 % 256

def viewMeter (s : State) (m : MeterId) (o : Nat) : Nat :=
  let x := s.met.m[m]
  if 0x40 ≤ o ∧ o < 0x70 then viewAcc s m (o - 0x40)
  else match o with
    | 0x1C => keOf s m % 2 ^ 32
    | 0x20 => keOf s m / 2 ^ 32 % 2 ^ 32
    | 0x24 => klOf s m % 2 ^ 32
    | 0x28 => klOf s m / 2 ^ 32 % 2 ^ 32
    | 0x2C => pk [(7, b2n x.invalid), (6, b2n x.held), (5, b2n x.powerOvr), (3, x.phseq.toNat), (2, b2n x.neutralLost),
        (1, b2n (satMeter x)), (0, b2n (mActive s m))]
    | 0x30 => x.mpwr.toNat
    | 0x34 => pk [(16, x.holdCnt.toNat), (0, x.gapCnt.toNat)]
    | _ => 0

/-- The words of MET_SNAPACC of a meter: import and export ACC and RES. -/
def viewSnap (x : BitVec 160 × BitVec 160) (o : Nat) : Nat :=
  let a := if o < 0x10 then x.1 else x.2
  match o % 0x10 with
  | 0x0 => accOf a % 2 ^ 32
  | 0x4 => accOf a / 2 ^ 32 % 2 ^ 32
  | 0x8 => accOf a / 2 ^ 64 % 2 ^ 32
  | _ => resOf a

/-- The filter instances in use: the bitstream channels in modes 1 and 2, and the converters (R89, at most 36). -/
def instUsed (s : State) : Nat :=
  (fins 32).countP (fun n => chMode s n != 0 && chMode s n != 3) + (fins 4).countP (adEn s)

def viewMet (s : State) (o : Nat) : Nat :=
  if 0x100 ≤ o ∧ o < 0x200 then viewMbx s.mbx.met o
  else if 0x200 ≤ o ∧ o < 0x260 then low 24 (firHalf.getD ((o - 0x200) / 4) 0)
  else if 0x400 ≤ o ∧ o < 0x480 then
    let p := s.met.rp[mem 8 0x400 0x10 o]
    match rel 0x400 0x10 o with
    | 4 => pk [(31, b2n p.high), (30, b2n p.disagree), (29, b2n (atLimit p.swupCnt)), (0, p.swupCnt.toNat)]
    | 8 => p.dev.toNat
    | _ => 0
  else if 0x600 ≤ o ∧ o < 0x700 then
    let a := s.met.adc[mem 4 0x600 0x40 o]
    if rel 0x600 0x40 o = 4 then pk [(31, b2n a.calStale), (30, b2n (atLimit a.calCnt)), (0, a.calCnt.toNat)] else 0
  else if 0x800 ≤ o ∧ o < 0x840 then
    let x := s.met.ain[mem 16 0x800 4 o]
    pk [(31, b2n x.fine), (28, x.gain.toNat), (0, x.value.toNat)]
  else if 0xA00 ≤ o ∧ o < 0xA80 then
    let p := s.met.pls[mem 8 0xA00 0x10 o]
    match rel 0xA00 0x10 o with
    | 8 => pk [(31, b2n p.sat), (30, b2n (atLimit p.cnt)), (0, p.pend.toNat)]
    | 0xC => p.cnt.toNat
    | _ => 0
  else if 0x1000 ≤ o ∧ o < 0x1400 then viewChan s (mem 32 0x1000 0x20 o) (rel 0x1000 0x20 o)
  else if 0x2000 ≤ o ∧ o < 0x2C00 then viewMeter s (mem 12 0x2000 0x100 o) (rel 0x2000 0x100 o)
  else if 0x3100 ≤ o ∧ o < 0x3280 then viewSnap s.met.snap.acc[mem 12 0x3100 0x20 o] (rel 0x3100 0x20 o)
  else if 0x3400 ≤ o ∧ o < 0x3C00 then bufWord s.bill.auditBuf (o - 0x3400)
  else if 0x3C00 ≤ o ∧ o < 0x3C68 then bufWord s.bill.sealBuf (o - 0x3C00)
  else if 0x8000 ≤ o ∧ o < 0x9000 then
    (Config.resampCoef ((o - 0x8000) / 64) ((o - 0x8000) / 4 % 16)).toNat
  else match o with
    | 0x14 => pk [(31, b2n s.met.filterFault), (0, instUsed s)]
    | 0x18 => bitsWhere 32 fun n => (s.met.ch[n]).stuck || (s.met.ch[n]).loss
    | 0x20 => at_ (b2n s.met.rs.lineLost) 30
    | 0x24 => s.met.rs.freq.toNat
    | 0x28 => rsmpCrc
    | 0x3C => pk [(31, b2n s.met.bal.alarm), (30, b2n (atLimit s.met.bal.failCnt)), (16, s.met.bal.run.toNat), (0, s.met.bal.failCnt.toNat)]
    | 0x40 => s.met.bal.dev.toNat
    | 0x50 => pk [(31, b2n s.auditFull), (30, b2n s.auditWarn), (29, b2n (s.bill.lostCnt != 0)), (28, b2n (atLimit s.bill.lostCnt)),
        (0, s.auditUsed)]
    | 0x54 => s.bill.lostCnt.toNat
    | 0x3000 => s.met.snap.t.toNat % 2 ^ 32
    | 0x3004 => s.met.snap.t.toNat / 2 ^ 32
    | 0x3008 => s.met.snap.seq.toNat
    | 0x300C => s.met.snap.mask.toNat
    | _ => 0

/-! ### BILL -/

def viewBill (s : State) (o : Nat) : Nat :=
  let t := s.bill.tok
  if 0x100 ≤ o ∧ o < 0x200 then viewMbx s.mbx.bill o
  else if 0x3000 ≤ o ∧ o < 0x3C00 then bufWord s.bill.recBuf (o - 0x3000)
  else if 0x3C00 ≤ o ∧ o < 0x3C80 then bufWord s.bill.mbxin (o - 0x3C00)
  else if 0x4000 ≤ o ∧ o < 0x4C00 then
    let v := (s.bill.core.treg[mem 12 0x4000 0x100 o])[(Fin.ofNat 16 (rel 0x4000 0x100 o / 16) : Fin 16)]
    let e := if o % 16 < 8 then v.1 else v.2
    if o % 8 = 0 then e.toNat % 2 ^ 32 else e.toNat / 2 ^ 32
  else if 0x5000 ≤ o ∧ o < 0x6000 then bufWord s.bill.ocmfBuf (o - 0x5000)
  else match o with
    | 0x18 => pk [(16, bitsWhere 8 fun n => (s.sess n).isSome), (12, s.bill.core.ti.toNat), (8, s.bill.core.te.toNat),
        (4, (calNow s).season.toNat), (3, b2n (storeLow s)), (2, b2n s.shifted), (1, b2n (satBill s)), (0, b2n (calNow s).special)]
    | 0x1C => pk [(16, s.bill.adjBig.toNat), (0, s.bill.adjSmall.toNat)]
    | 0x20 => s.bill.core.bpc.toNat
    | 0x30 => bitsWhere 8 fun i => (t.slots[i]).isSome
    | 0x38 => pk [(31, b2n t.entry), (30, b2n t.lockedAt.isSome), (29, b2n (ledgerHigh s)), (28, b2n t.ledgerFull),
        (27, b2n (satTok t)), (16, t.keys.length), (0, ledgerUsed s)]
    | 0x3C => pk [(8, bitsWhere 8 fun n => (s.sess n).any fun x => x.token.isSome), (0, bitsWhere 8 fun n => (t.pendTok[n]).isSome)]
    | 0x40 => pk [(16, t.invalidCnt.toNat), (0, t.acceptCnt.toNat)]
    | _ => 0

/-! ### DISP -/

def viewDisp (s : State) (o : Nat) : Nat :=
  let d := s.disp
  if 0x200 ≤ o ∧ o < 0x240 then
    let g := d.rgn[mem 16 0x200 4 o]
    let run := match g.run with
      | none => 0
      | some u => pk [(10, frameOf s u % 64), (7, u.mode.toNat), (6, 1)]
    run + pk [(16, g.useq.toNat), (5, b2n g.pend.isSome), (4, b2n g.intentOpen), (3, b2n g.parked), (2, b2n g.damaged),
      (1, b2n g.redrawNeeded)]
  else match o with
    | 0x20 => pk [(20, d.band.toNat), (8, d.temp.toNat), (7, b2n (d.rails == Rails.up)), (6, b2n d.railFault), (5, b2n d.wftBad),
        (4, b2n d.tempRange), (3, b2n d.tempStale), (2, b2n d.flPermit), (1, b2n d.pfwBlock), (0, b2n (satDisp d))]
    | 0x304 => d.updsrc.toNat
    | 0x308 => pk [(1, b2n d.replaced), (0, b2n d.refused)]
    | 0x30C => pk [(16, d.replacedCnt.toNat), (8, d.parkCnt.toNat % 256), (0, d.railfCnt.toNat)]
    | 0x310 => d.parkCnt.toNat
    | _ => 0

/-! ### SAFE -/

def ConState.code : ConState → Nat
  | .open_ => 0 | .wait => 1 | .closing => 2 | .closed => 3 | .opening => 4 | .fault => 5

def Drive.code : Drive → Nat
  | .off => 0 | .pullIn => 1 | .hold => 2

def ImdState.code : ImdState → Nat
  | .good => 0 | .warning => 1 | .fault => 2 | .unknown => 3

/-- The coil current in mA, free within the bounds of R274 and R463: 2.5 A ±10 % in pull-in and IHOLD ±10 % in hold; zero
while the pair is off. -/
def coilCurrent (s : State) (c : Fin 12) : Nat :=
  let f := (Config.freeAt (6000 + c.val) s.free).toNat
  let within (ma : Nat) : Nat := ma - ma / 10 + f % (ma / 5 + 1)
  match (s.safe.coil[c]).drive with
  | .off => 0
  | .pullIn => within 2500
  | .hold => within (10 * clamp 10 60 (s.pf (0x20300900 + 8 * c.val) 23 16))

/-- SAFE_SEGSTAT without EN. -/
def viewSeg (s : State) (g : Fin 6) : Nat :=
  pk [(16, low 16 (segVolt s g * 10).floor), (12, (leader s g).val), (0, min 4095 (ratAbs (sideCur s (segBit g))).floor.toNat)]

/-- Whether a module is allocated across a tie that is not yet closed (R230). -/
def modPending (s : State) (m : Fin 48) : Bool :=
  if h : modPort s m < 8 then
    match outSeg s ⟨modPort s m, h⟩ with
    | some g => !(groupOf s (modSeg s m)).getLsbD g.val
    | none => false
  else false

/-- Whether the contactor of an outlet is UNPROVEN (R263). -/
def outUnproven (s : State) (n : Port) : Bool :=
  match outletCoil s n with
  | some c => (s.safe.coil[c]).unproven
  | none => false

def viewOut (s : State) (n : Port) (o : Nat) : Nat :=
  let x := s.safe.out[n]
  match o with
  | 0x0 => pk [(29, x.stop.toNat), (28, b2n (satOut x)), (27, b2n (outUnproven s n)), (0, (causeBits x.dems).toNat)]
  | 0x4 => pk [(16, x.vlim.toNat), (0, iLim s n)]
  | 0x8 => pk [(16, x.iallow.toNat), (0, x.temp.toNat)]
  | _ => pk [(16, x.fasttrip.toNat), (0, x.rampfail.toNat)]

def viewConn (c : Conn) (o : Nat) : Nat :=
  match o with
  | 0x0 => pk [(30, c.st.code), (29, b2n c.netdeg), (28, b2n c.verfail), (0, (keyCheck c.key).toNat)]
  | 0x4 => pk [(16, c.txseq.toNat), (0, c.rxseq.toNat)]
  | 0x8 => pk [(16, c.lost.toNat), (0, c.crcerr.toNat)]
  | 0xC => pk [(16, c.seqerr.toNat), (0, c.stale.toNat)]
  | 0x10 => pk [(16, c.wdexp.toNat), (0, c.single.toNat)]
  | _ => 0

def viewSafe (s : State) (o : Nat) : Nat :=
  let f := s.safe
  if 0x100 ≤ o ∧ o < 0x200 then viewMbx s.mbx.safe o
  else if 0x420 ≤ o ∧ o < 0x438 then viewSeg s (mem 6 0x420 4 o)
  else if 0x480 ≤ o ∧ o < 0x4B0 then
    let c := f.coil[mem 12 0x480 4 o]
    pk [(29, c.st.code), (28, b2n c.limit), (27, b2n (atLimit c.emopen)), (0, c.emopen.toNat)]
  else if 0x500 ≤ o ∧ o < 0x5C0 then at_ (b2n (modPending s (mem 48 0x500 4 o))) 5
  else if 0x700 ≤ o ∧ o < 0x780 then viewOut s (mem 8 0x700 0x10 o) (rel 0x700 0x10 o)
  else if 0x880 ≤ o ∧ o < 0x898 then
    let x := f.imd[mem 6 0x880 4 o]
    pk [(12, x.riso.toNat), (2, x.st.code), (1, b2n x.active), (0, b2n x.prechk)]
  else if 0x900 ≤ o ∧ o < 0x960 then
    let i := mem 12 0x900 8 o
    let c := f.coil[i]
    if o % 8 = 4 then
      pk [(30, c.drive.code), (29, b2n c.coilf), (28, b2n c.tstale), (27, b2n c.fbclose), (26, b2n c.fbdrop), (0, coilCurrent s i)]
    else 0
  else if 0x9D0 ≤ o ∧ o < 0x9F0 then (f.pair[mem 8 0x9D0 4 o]).disc.toNat
  else if 0xC40 ≤ o ∧ o < 0xE40 then viewConn f.conn[mem 16 0xC40 0x20 o] (rel 0xC40 0x20 o)
  else if 0x3400 ≤ o ∧ o < 0x3C00 then bufWord f.slogBuf (o - 0x3400)
  else if 0x3C00 ≤ o ∧ o < 0x3C80 then bufWord f.mbxin (o - 0x3C00)
  else match o with
    | 0x10 => pk [(31, b2n f.latch), (30, b2n f.stOk), (16, f.causes.toNat), (0, f.first.toNat)]
    | 0x14 => pk [(16, bitsWhere 8 fun n => govCat (f.out[n]).dems == some 0), (8, bitsWhere 8 fun n => (f.out[n]).ramp.isSome),
        (0, bitsWhere 8 fun n => !(f.out[n]).dems.isEmpty)]
    | 0x18 => f.sfevt.toNat
    | 0x20 => f.chk.toNat
    | 0x24 => pk [(31, b2n (f.confirmed == some f.chk)), (30, b2n f.entry.isSome), (29, b2n f.blocked), (8, f.result.toNat),
        (0, match f.entry with
          | some e => min 8 e.digits.length
          | none => 0)]
    | 0x30 => pk [(31, b2n (atLimit f.protDrop)), (19, slogProt s), (0, f.protDrop.toNat)]
    | 0x34 => pk [(16, hoursOf s), (15, b2n f.stDue), (0, f.tripDue.toNat)]
    | 0x38 => f.ftfail.toNat
    | 0x408 => pk [(31, b2n f.seq), (30, b2n f.poolref), (20, f.rule.toNat), (0, bitsWhere 12 fun c => (f.coil[c]).st == ConState.closed)]
    | 0x40C => f.poolevt.toNat
    | 0x9C0 => pk [(16, bitsWhere 16 fun i => (f.si[i]).infault), (0, bitsWhere 16 fun i => (f.si[i]).val)]
    | 0x9C4 => pk [(31, b2n (satDisc s)), (0, f.sievt.toNat)]
    | 0xE40 => pk [(16, bitsWhere 16 fun k => satConn f.conn[k]), (0, f.linkevt.toNat)]
    | _ => 0

/-! ### Every register -/

/-- The fields of a register that are no parameters. -/
def viewBlk (s : State) (k : BlkKind) (n o : Nat) : Nat :=
  match k with
  | .sys => viewSys s o
  | .time => viewTime s o
  | .dma => viewDma s o
  | .txn => viewTxn s o
  | .sec => viewSec s o
  | .upd => viewUpd s o
  | .thl => viewThl s o
  | .eth => viewEth s.eth[(Fin.ofNat 2 n : Fin 2)] o
  | .can => viewCan s (Fin.ofNat 3 n) o
  | .load => viewLoad s o
  | .gpio => viewGpio s o
  | .mesh => viewMesh s o
  | .intc => viewIntc s o
  | .vp => viewVp s (Fin.ofNat 8 n) o
  | .met => viewMet s o
  | .bill => viewBill s o
  | .disp => viewDisp s o
  | .safe => viewSafe s o

/-- The bits of a word that are parameter registers: those with access code RWT, those of a parameter set, and the
settings of LOAD that the site image presets. -/
def parMask (k : BlkKind) (o : Nat) : Nat :=
  match rowAt k o with
  | none => 0
  | some r => r.rwt ||| r.set ||| (if k = .load && (decide (0x100 ≤ o) && decide (o % 0x20 < 8) || decide (0x20 ≤ o ∧ o < 0x28)) then r.rw else 0)

/-- What a register reads (R3, R5, R429). -/
def regView (s : State) (k : BlkKind) (n base o : Nat) : Word :=
  if o = 0 then wd (at_ (blkCode k) 16 + (blkLevel k).toNat)
  else if o = 4 then wd (s.compat[blkIdx k n]).level.toNat
  else wd (((clampWord (base + o) (s.par (base + o))).toNat &&& parMask k o) ||| viewBlk s k n o)

end Sys2Proof.Machine
end

