-- ==== Sys2Proof/Machine/RegRead.lean ====
section
/-! DEFINITION. Reads over the mesh (R3, R6, R103, R104, R364, R428): register words with the latches of multi-word values,
the reads that act, and the memories. -/

namespace Sys2Proof.Machine

/-- Whether an offset is the low word of a multi-word value with access code ROS; its higher word follows it. -/
def rosLow (k : BlkKind) (o : Nat) : Bool :=
  match k with
  | .sys => o == 0x60
  | .time => o == 0x10 || o == 0x20 || o == 0x28
  | .met => rowHas 0x201C [(12, 256)] o || rowHas 0x2024 [(12, 256)] o
      || rowHas 0x2040 [(12, 256), (2, 8)] o || rowHas 0x2050 [(12, 256), (2, 8)] o || rowHas 0x2060 [(12, 256), (2, 8)] o
  | .bill => rowHas 0x4000 [(12, 256), (16, 16), (2, 8)] o
  | _ => false

/-- Whether an offset is the higher word of such a value. -/
def rosHigh (k : BlkKind) (o : Nat) : Bool := decide (4 ≤ o) && rosLow k (o - 4)

/-- The register of a short view: its meter, and whether it is the export view. -/
def shortOf (o : Nat) : Option (MeterId × Bool) :=
  if rowHas 0x2050 [(12, 256), (2, 8)] o then some (mem 12 0x2000 0x100 o, o % 16 == 8) else none

/-- The value of a key in a latch list, and the list with a new value for it. -/
def latchSet {β : Type} (k : Nat × Nat) (v : β) (l : List ((Nat × Nat) × β)) : List ((Nat × Nat) × β) :=
  (k, v) :: l.filter fun p => p.1 != k

/-- MULTIWRAP of a latch: the wrap number has grown by more than 1 since the requester's previous latch of the view, or
since the end of start-up (R104). -/
def multiWrap (s : State) (req a : Nat) (m : MeterId) (exp : Bool) : Bool × State :=
  let w0 := s.met.wrapStart[m]
  let prev := lookupD (req, a) (if exp then w0.2 else w0.1) s.wraps
  let now := wrapNum (s.acc m exp)
  (decide (prev + 1 < now), { s with wraps := latchSet (req, a) now s.wraps })

/-- Latch the higher word of a multi-word value for a requester. -/
def rosLatch (req a : Nat) (k : BlkKind) (n base o : Nat) (s : State) : State :=
  let hi := regView s k n base (o + 4)
  match if k = .met then shortOf o else none with
  | some (m, exp) =>
    let r := multiWrap s req a m exp
    { r.2 with ros := latchSet (req, a + 4) (hi ||| wd (at_ (b2n r.1) 31)) r.2.ros }
  | none => { s with ros := latchSet (req, a + 4) hi s.ros }

/-- A read of a register word. -/
def regRead (req a : Nat) (s : State) : State :=
  match blkAt a with
  | none => s.decodeErr (wd a) req 4
  | some (i, b) =>
    let o := a - b.base
    if a % 4 ≠ 0 then s.decodeErr (wd a) req 5
    else if !hasWord b.kind o then s.decodeErr (wd a) req 4
    else if o ≠ 0 ∧ o ≠ 4 ∧ s.compat[i].level = 0 then s.busErr
    else if rosHigh b.kind o then s.busOk (lookupD (req, a) 0 s.ros)
    else
      let v := regView s b.kind b.n b.base o
      if rosLow b.kind o then (rosLatch req a b.kind b.n b.base o s).busOk v
      else if b.kind = .gpio ∧ o = 0x44 then keyFifoRead s
      else if b.kind = .intc ∧ rowHas 0x2004 [(8, 0x10)] o then plicClaim (mem 8 0x2004 0x10 o) s
      else s.busOk v

/-- A read of n bytes of the memories; an uncorrectable word of SRAM comes with a poison mark (R367). -/
def memWordRead (req a n : Nat) (s : State) : State :=
  match s.appRead a n with
  | none => s.decodeErr (wd a) req 4
  | some l =>
    if poisoned s a n && inSram a n then
      if h : req < 4 then sramFetch ⟨req, h⟩ (wd a) s.busErr else (s.eccErr a req).busErr
    else s.busOk (wd (leNat l))

/-- A read by a requester, anywhere in the application map: a byte or halfword access to a register space breaks R3. -/
def busRead (req a : Nat) (size : AccSize) (s : State) : State :=
  if (blkAt a).isSome then
    if size = .word then regRead req a s else s.decodeErr (wd a) req 5
  else memWordRead req a size.bytes s

/-- ROS_LOW_READ: a requester's read; of a multi-word value's low word it latches the whole value. -/
def execRosLowRead (req : Fin 10) (a : Word) (size : AccSize) (s : State) : Host.Outcome State Fault Refusal :=
  live s fun s => if portMute s req.val then s else busRead req.val a.toNat size s.tagged

end Sys2Proof.Machine
end

