-- ==== Sys2Proof/Machine/TimeSet.lean ====
section
/-! DEFINITION. The MET time calls (R419 to R421) with the effect of a clock adjustment on billing (R130 to R133, R420). -/

namespace Sys2Proof.Machine

/-- LOFS so that legal time reads a value in ms now, and the RTC loaded from it (R414, R419). -/
def setLegal (ms : Nat) (s : State) : State :=
  { s.setLofs ms with time.rtcSec := wd (ms / 1000), time.rtcFrac := BitVec.ofNat 15 (ms % 1000 * 32768 / 1000) }

/-- The sum of the small adjustments within the demand interval of a legal time (R130). -/
def adjustedBy (s : State) (old : Nat) : Nat :=
  if s.bill.core.adjInt.toInt = lastDemand s.par old then s.bill.core.adjSum else 0

/-- An adjustment within the limit: an event-log entry and ADJ_SMALL; what a forward step passes over is processed at A
with the energy booked up to A; after a set-back the new time selects the tariffs, and the boundaries occur again (R130,
R132). -/
def adjustSmall (old : Nat) (adj : Int) (new : Nat) (reason : Nat) (s : State) : State :=
  let w := words2 (BitVec.ofInt 64 adj).toNat
  let s := (setLegal new s).evlog 0x0004 0xFF (w.getD 0 0) (w.getD 1 0) (wd reason)
  let s := { s with bill.adjSmall := satInc s.bill.adjSmall }
  let s := s.modCore fun c =>
    { c with adjSum := adjustedBy s old + adj.natAbs, adjInt := BitVec.ofInt 64 (lastDemand s.par (min old new)) }
  if 0 < adj then boundary (.pass old new) s else if adj < 0 then boundary (.back new) s else s

/-- TIME_ADJUST, ADJ_BIG and source 79 of an adjustment beyond the limit (R131). -/
def adjustNote (adj : Int) (reason : Nat) (s : State) : State :=
  let w := words2 (BitVec.ofInt 64 adj).toNat
  let s := (s.audit 0x0002 0xFF reason 0 (w.getD 0 0) (w.getD 1 0)).raise 79
  { s with bill.adjBig := satInc s.bill.adjBig }

/-- An adjustment beyond the limit while legal time is valid: A is a boundary (R131). -/
def adjustBig (old : Nat) (adj : Int) (new : Nat) (reason : Nat) (s : State) : State :=
  setLegal new (boundary (.adjust old adj new) (adjustNote adj reason s))

/-- The first SET_TIME while LVALID is 0: legal time becomes valid (R420). -/
def adjustFirst (adj : Int) (new : Nat) (reason : Nat) (s : State) : State :=
  let s := setLegal new (boundary (.first new) (adjustNote adj reason s))
  { s with time.lvalid := true, sys.rtcInvalid := false, sys.rstCause := s.sys.rstCause &&& ~~~0x800 }

/-- SET_TIME (R419): the adjustment in ms is the result. -/
def setTime (a : Vector Word 16) (s : State) : Reply :=
  let new : Nat := a[0].toNat + a[1].toNat * 2 ^ 32
  let old := s.legalMs
  let adj : Int := (new : Int) - old
  let reason := field a[2] 7 0
  let lim := tlimit s.par * 1000
  let first := !s.time.lvalid
  let big := first || decide (lim < adj.natAbs) || decide (lim < adjustedBy s old + adj.natAbs)
  checks s [(decide (4294967296000 ≤ new), .badArg), (big && s.auditFull, .logFull)]
    (.ok (if first then adjustFirst adj new reason s else if big then adjustBig old adj new reason s
      else adjustSmall old adj new reason s) (words2 (BitVec.ofInt 64 adj).toNat))

def execSetTime (c : Call) (s : State) : Host.Outcome State Fault Refusal := live s (mbxCall .met 0x0301 c setTime)

/-- READ_TIME (R421). -/
def readTime (_ : Vector Word 16) (s : State) : Reply :=
  .ok s (words2 s.legalMs ++ words2 s.now ++ [wd (b2n s.time.lvalid + at_ (b2n s.shifted) 1)] ++ words2 s.hwmMs)

def execReadTime (c : Call) (s : State) : Host.Outcome State Fault Refusal := live s (mbxCall .met 0x0302 c readTime)

/-- TIME_RTCCFG as a word. -/
def rtcCfg (s : State) : Word := wd (at_ s.time.trim.toNat 16 + at_ s.time.k2.toNat 8 + s.time.t0.toNat)

/-- RTC_TRIM: TRIM, K2 and T0 within their ranges, in MAINTAIN, with an audit entry (R416, R421). -/
def rtcTrim (a : Vector Word 16) (s : State) : Reply :=
  let t := a[0].toInt
  let k := a[1].toInt
  let z := a[2].toInt
  let bad := decide (t < -3000 ∨ 3000 < t ∨ k < -100 ∨ 0 < k ∨ z < 15 ∨ 35 < z)
  checks s [(bad, .badArg), (s.sys.mode != .maintain, .refused), (s.auditFull, .logFull)]
    (let s' := { s with time.trim := BitVec.ofInt 16 t, time.k2 := BitVec.ofInt 8 k, time.t0 := BitVec.ofInt 8 z }
     .ok (s'.audit 0x0016 0xFF 0 0 (rtcCfg s) (rtcCfg s')) [])

def execRtcTrim (c : Call) (s : State) : Host.Outcome State Fault Refusal := live s (mbxCall .met 0x0303 c rtcTrim)

end Sys2Proof.Machine
end

