-- ==== Sys2Proof/Machine/RegWrite.lean ====
section
/-! DEFINITION. Writes over the mesh (R3, R5, R6, R16, R347, R358, R364, R428, R431): each register word under its access
codes, the windows' rule, the doorbells, and the memories. -/

namespace Sys2Proof.Machine

/-! ### Doorbells (R431) -/

/-- The body of a MET call. In every service a command code that its table does not list answers BAD_ARGUMENT: the spec
states no status for it. DESIGN CHOICE. -/
def metCalls (cmd : Nat) (a : Vector Word 16) (s : State) : Reply :=
  match cmd with
  | 0x0101 => readAcc a s
  | 0x0102 => snapshot a s
  | 0x0103 => readPq a s
  | 0x0104 => readHarm a s
  | 0x0105 => readBalance a s
  | 0x0106 => clearStatsCall a s
  | 0x0201 => readAudit a s
  | 0x0202 => archiveBegin a s
  | 0x0203 => archiveCommit a s
  | 0x0301 => setTime a s
  | 0x0302 => readTime a s
  | 0x0303 => rtcTrim a s
  | _ => .deny s .badArg

/-- The body of a BILL call. -/
def billCalls (cmd : Nat) (a : Vector Word 16) (s : State) : Reply :=
  match cmd with
  | 0x0101 => sessionOpen a s
  | 0x0102 => sessionCancel a s
  | 0x0103 => sessionStatus a s
  | 0x0104 => readRecord a s
  | 0x0105 => ackRecord a s
  | 0x0106 => readOcmf a s
  | 0x0107 => readDemand a s
  | 0x0201 => tokenResult a s
  | 0x0202 => tokenOpen a s
  | 0x0203 => tokenDiscard a s
  | 0x0204 => ledgerRead a s
  | 0x0205 => tokenKeyLoad a s
  | 0x0206 => tokenKeyInfo a s
  | _ => .deny s .badArg

/-- The body of a SAFE call; the trip test's passes are what the field does, and free. -/
def safeCalls (cmd : Nat) (a : Vector Word 16) (s : State) : Reply :=
  match cmd with
  | 0x0101 => safeBody false true closeReq a s
  | 0x0102 => safeBody false true stopCall a s
  | 0x0103 => safeBody false true setLimits a s
  | 0x0104 => safeBody false true rearmCall a s
  | 0x0105 => safeBody false false setOos a s
  | 0x0106 => safeBody false false contactorReplaced a s
  | 0x0107 => safeBody true false readChkval a s
  | 0x0108 => safeBody false false linkKeyLoad a s
  | 0x0201 =>
    let d := s.draw
    safeBody false false (tripTest ((Config.freeAt 5020 d.1).setWidth 4)) a d.2
  | 0x0202 => safeBody true false readSlog a s
  | 0x0203 => safeBody false false slogRelease a s
  | _ => safeBody false false (fun _ s => .deny s .badArg) a s

/-- The body of a TXN call. -/
def txnCalls (cmd : Nat) (a : Vector Word 16) (s : State) : Reply :=
  match cmd with
  | 0x0101 => txnBody txnBegin a s
  | 0x0102 => txnBody txnCommit a s
  | 0x0103 => txnBody txnRollback a s
  | 0x0104 => txnBody txnRenew a s
  | 0x0105 => txnBody txnPut a s
  | _ => txnBody (fun _ s => .deny s .badArg) a s

/-- The body of an UPD call. -/
def updCalls (cmd : Nat) (a : Vector Word 16) (s : State) : Reply :=
  match cmd with
  | 0x0101 => updBegin a s
  | 0x0102 => updSpore a s
  | 0x0103 => updMissing a s
  | 0x0104 => updVerify a s
  | 0x0105 => updActivate a s
  | 0x0106 => updCancel a s
  | 0x0107 => updConfirm a s
  | 0x0108 => updReport a s
  | 0x0109 => updStatus a s
  | 0x0201 => setOpen a s
  | 0x0202 => setWrite a s
  | 0x0203 => setCommit a s
  | 0x0301 => keyRotate a s
  | _ => .deny s .badArg

/-- A write of 1 to RING of a mailbox: the command word that stands in it is run. -/
def doorbell (i : MbxId) (s : State) : State :=
  ring i (fun cmd a s =>
    match i with
    | .met => metCalls cmd a s
    | .bill => billCalls cmd a s
    | .safe => safeCalls cmd a s
    | .txn => txnCalls cmd a s
    | .upd => updCalls cmd a s) s

/-- A write to a mailbox's own registers, by the offset. -/
def writeMbx (i : MbxId) (o : Nat) (v : Word) (s : State) : State :=
  let b := s.box i
  if o = 0x100 then s.setBox i { b with cmd := v }
  else if 0x110 ≤ o ∧ o < 0x150 then s.setBox i { b with arg := b.arg.set (mem 16 0x110 4 o) v }
  else if o = 0x180 then (if bitAt v 29 then s.setBox i { b with coll := false } else s)
  else if o = 0x1F0 then (if bitAt v 0 then doorbell i s else s)
  else s

/-- The mailbox of a kind of block. -/
def boxOf : BlkKind → Option MbxId
  | .met => some .met | .bill => some .bill | .safe => some .safe | .txn => some .txn | .upd => some .upd
  | _ => none

/-- Whether an offset is a mailbox register that a write may reach, of a block with a mailbox. -/
def mbxReg (o : Nat) : Bool :=
  o == 0x100 || (decide (0x110 ≤ o ∧ o < 0x150) && o % 4 == 0) || o == 0x180 || o == 0x1F0

/-- Replace the word at an offset of a buffer of bytes. -/
def putWord (l : List Byte) (o : Nat) (v : Word) : List Byte :=
  slice l 0 o ++ leBytes 4 v.toNat ++ l.drop (o + 4)

/-- A write to the input buffer of a mailbox, at 0x3C00. -/
def writeMbxIn (i : MbxId) (o : Nat) (v : Word) (s : State) : State :=
  match i with
  | .bill => { s with bill.mbxin := putWord s.bill.mbxin (o - 0x3C00) v }
  | .safe => { s with safe.mbxin := putWord s.safe.mbxin (o - 0x3C00) v }
  | .upd => { s with upd.mbxin := putWord s.upd.mbxin (o - 0x3C00) v }
  | _ => s

/-- Whether an offset lies in a mailbox's input buffer. -/
def mbxInReg (k : BlkKind) (o : Nat) : Bool :=
  decide (0x3C00 ≤ o ∧ o < 0x3C80) && (k == .bill || k == .safe || k == .upd)

/-! ### The MET, BILL and SAFE windows (R16) -/

/-- Clear event flags of SAFE. -/
def safeW1c (o : Nat) (v : Word) (s : State) : State :=
  if o = 0x18 then { s with safe.sfevt := s.safe.sfevt &&& ~~~(v.setWidth 5) }
  else if o = 0x40C then { s with safe.poolevt := s.safe.poolevt &&& ~~~(v.setWidth 5) }
  else if o = 0x9C4 then { s with safe.sievt := s.safe.sievt &&& ~~~(v.setWidth 17) }
  else if o = 0xE40 then { s with safe.linkevt := s.safe.linkevt &&& ~~~(v.setWidth 16) }
  else if 0x900 ≤ o ∧ o < 0x960 then
    s.modCoil (mem 12 0x900 8 o) fun c =>
      { c with fbclose := c.fbclose && !bitAt v 27, fbdrop := c.fbdrop && !bitAt v 26 }
  else s

/-- A write to a word of one of the windows, and whether it is accepted. -/
def writeWindow (k : BlkKind) (base o : Nat) (v : Word) (s : State) : Option State :=
  match boxOf k, rowAt k o with
  | some i, some r =>
    if mbxReg o then some (writeMbx i o v s)
    else if mbxInReg k o then some (writeMbxIn i o v s)
    else if r.rwt ≠ 0 then some (rwtWrite (base + o) v s)
    else if r.w1c ≠ 0 then some (safeW1c o v s)
    else none
  | _, _ => none

/-! ### The register blocks -/

def writeSys (o : Nat) (v : Word) (s : State) : State :=
  match o with
  | 0x14 => { s with sys.rstCause := s.sys.rstCause &&& ~~~(v.setWidth 13) }
  | 0x20 => degcfgWrite v s
  | 0x24 => wdogKick v s
  | 0x30 => vcoreWrite v s
  | 0x34 => { s with sys.pfwSrc := v.extractLsb' 8 2, sys.pfwThresh := v.setWidth 6 }
  | 0x38 => { s with sys.capNom := BitVec.ofNat 14 (clamp 470 10000 (field v 13 0)) }
  | 0x3C => { s with
      sys.therm1e := s.sys.therm1e && !bitAt v 5
      sys.holdLow := s.sys.holdLow && !bitAt v 4
      sys.shed := s.sys.shed && !bitAt v 3 }
  | 0x40 => { s with sys.limit := BitVec.ofNat 14 (clamp 2000 12000 (field v 13 0)) }
  | _ => s

def writeTime (o : Nat) (v : Word) (s : State) : State :=
  match o with
  | 0x30 => { s with time.refdevE := s.time.refdevE && !bitAt v 29 }
  | 0x4C => if bitAt v 31 then evlClrcnt s else s
  | _ => s

/-- A write to DMA_CHCFG: the settings, then ABORT, EN and KICK. -/
def writeChcfg (c : Fin 32) (v : Word) (s : State) : State :=
  let s := setPrio c (v.extractLsb' 24 2) (s.modDma c fun x => { x with enref := x.enref && !bitAt v 28 })
  let s := if c.val < 8 then s else selectRequest c (v.extractLsb' 16 5) ((s.dma.ch[c]).en && bitAt v 31) s
  let s := if bitAt v 30 then dmaAbort c s else s
  let s := if bitAt v 31 then (if bitAt v 30 then s else dmaEnable c none s) else dmaDisable c s
  if bitAt v 29 then dmaKick c none s else s

def writeDma (o : Nat) (v : Word) (s : State) : State :=
  if o = 0x10 then
    let age := field v 25 16
    let s := { s with dma.age := BitVec.ofNat 11 (if age = 0 then 1024 else clamp 16 1024 age) }
    if bitAt v 31 then dmaClear s else s
  else if o = 0x1C then { s with dma.evt := s.dma.evt &&& ~~~v }
  else if 0x100 ≤ o then
    let c := mem 32 0x100 0x40 o
    let idle : Bool := (s.dma.ch[c]).st == .idle
    match rel 0x100 0x40 o with
    | 0x0 => writeChcfg c v s
    | 0x4 => if idle then s.modDma c fun x => { x with ring := v.extractLsb' 5 27 } else s
    | 0x8 => if idle then s.modDma c fun x => { x with rlen := BitVec.ofNat 13 (clamp 1 4096 (field v 12 0)) } else s
    | 0xC => if idle then s.modDma c fun x => { x with head := v.setWidth 12 } else s
    | _ => s
  else s

def writeTxn (o : Nat) (v : Word) (s : State) : State :=
  if o = 0x28 then (if bitAt v 31 then txnClear s else s)
  else if 0x200 ≤ o ∧ o < 0x260 then
    if rel 0x200 0x10 o = 0 then
      s.modTxn (mem 6 0x200 0x10 o) fun t => { t with ovf := t.ovf && !bitAt v 28, latewr := t.latewr && !bitAt v 27 }
    else s
  else writeMbx .txn o v s

def writeSec (o : Nat) (v : Word) (s : State) : State :=
  match o with
  | 0x10 => { s with sec.tamper := s.sec.tamper && !bitAt v 31, sec.qfull := s.sec.qfull && !bitAt v 28 }
  | 0x20 =>
    let op := field v 31 26
    if 1 ≤ op ∧ op ≤ 13 then
      secQueue (BitVec.ofNat 6 op) (v.extractLsb' 22 4) (v.extractLsb' 16 6) (v.setWidth 16) s
    else s
  | 0x24 => { s with sec.src := v }
  | 0x28 => { s with sec.dst := v }
  | 0x2C => { s with sec.aux := v }
  | _ => s

def writeUpd (o : Nat) (v : Word) (s : State) : State :=
  if o = 0x18 then { s with upd.confwin := BitVec.ofNat 8 (clamp 1 240 (field v 7 0)) }
  else if o = 0x38 then
    let s := { s with upd.winwarn := s.upd.winwarn && !bitAt v 1, upd.stchg := s.upd.stchg && !bitAt v 0 }
    if bitAt v 31 then updClear s else s
  else if mbxInReg .upd o then writeMbxIn .upd o v s
  else writeMbx .upd o v s

/-- A write to THL_SLOTCTL: SLOT, and the command of 1 to 4. -/
def writeSlotctl (v : Word) (s : State) : State :=
  let k : Fin 2 := if bitAt v 8 then 1 else 0
  match field v 2 0 with
  | 1 => slotStart .erase true k s
  | 2 => slotWriteCmd k s
  | 3 => slotStart .verify true k s
  | 4 => slotSwitchCmd k s
  | _ => { s with thl.slot := k }

def writeThl (o : Nat) (v : Word) (s : State) : State :=
  match o with
  | 0x40 => writeSlotctl v s
  | 0x44 => { s with thl.progSrc := v }
  | 0x48 => { s with thl.progLen := v.setWidth 23 }
  | 0x4C => { s with thl.progOfs := v.setWidth 22 }
  | 0x60 =>
    let s := if bitAt v 1 then prDiscard s else s
    if bitAt v 0 then prStage s else s
  | 0x64 => { s with thl.prSrc := v }
  | 0x68 => { s with thl.prLen := v.setWidth 19 }
  | 0x88 => { s with
      thl.parErr := s.thl.parErr &&& ~~~(v.extractLsb' 24 8)
      thl.uncorr := s.thl.uncorr &&& ~~~(v.extractLsb' 16 8)
      thl.corrEvt := s.thl.corrEvt &&& ~~~(v.extractLsb' 8 8)
      thl.prDone := s.thl.prDone && !bitAt v 1
      thl.slotDone := s.thl.slotDone && !bitAt v 0 }
  | 0x8C => if bitAt v 31 then thlClear s else s
  | 0x200 => { s with thl.gout := v }
  | _ => s

def writeEth (m : Fin 2) (o : Nat) (v : Word) (s : State) : State :=
  if o = 0x10 then s.modEth m fun e => { e with en := bitAt v 31, promisc := bitAt v 30, allmc := bitAt v 29 }
  else if o = 0x14 then
    s.modEth m fun e => if e.en then e else { e with mac := BitVec.ofNat 48 (e.mac.toNat / 2 ^ 32 * 2 ^ 32 + v.toNat) }
  else if o = 0x18 then
    s.modEth m fun e =>
      if e.en then e else { e with mac := BitVec.ofNat 48 (field v 15 0 * 2 ^ 32 + e.mac.toNat % 2 ^ 32) }
  else if 0x20 ≤ o ∧ o < 0x60 then
    let i := mem 8 0x20 8 o
    s.modEth m fun e =>
      let old := (e.mcf[i]).toNat
      if o % 8 = 0 then { e with mcf := e.mcf.set i (BitVec.ofNat 48 (old / 2 ^ 32 * 2 ^ 32 + v.toNat)) }
      else
        { e with
          mcf := e.mcf.set i (BitVec.ofNat 48 (field v 15 0 * 2 ^ 32 + old % 2 ^ 32))
          mcfEn := if bitAt v 31 then e.mcfEn ||| BitVec.ofNat 8 (2 ^ i.val) else e.mcfEn &&& ~~~(BitVec.ofNat 8 (2 ^ i.val)) }
  else if o = 0x74 then
    let s := s.modEth m fun e =>
      { e with linkchg := e.linkchg && !bitAt v 2, txe := e.txe && !bitAt v 1, rxe := e.rxe && !bitAt v 0 }
    if bitAt v 31 then ethClrcnt m s else s
  else s

def writeCan (b : Fin 3) (o : Nat) (v : Word) (s : State) : State :=
  if o = 0x10 then
    let s := s.modCan b fun c =>
      { c with en := bitAt v 31, arecov := bitAt v 30, fden := bitAt v 28,
               txtmo := BitVec.ofNat 16 (clamp 1 10000 (field v 15 0)) }
    if bitAt v 29 then canRecov b s else s
  else if o = 0x14 then s.modCan b fun c =>
    { c with nbt := (if c.en then c.nbt &&& 0xFF000000 else v &&& 0xFF000000) ||| wd (at_ (max 1 (field v 23 16)) 16)
                    ||| (v &&& 0x0000FFFC) }
  else if o = 0x18 then s.modCan b fun c => { c with dbt := v &&& 0xFFFFF8FF }
  else if o = 0x1C then s.modCan b fun c => { c with sfref := c.sfref && !bitAt v 29 }
  else if o = 0x20 then
    let e : Fin 16 := Fin.ofNat 16 (field v 3 0)
    let s := sfEntry b e s
    let s := if bitAt v 30 then sfClear b e s else s
    if bitAt v 31 then sfLoad b e s else s
  else if o = 0x34 then (if bitAt v 31 then canClrcnt b s else s)
  else if 0x100 ≤ o ∧ o < 0x150 then s.modCan b fun c => { c with sfbuf := putWord c.sfbuf (o - 0x100) v }
  else s

/-- Set the host's fields of a LOAD parameter word; the generators and channels take them as R324 says. -/
def setPar (a mask : Nat) (v : Word) (s : State) : State :=
  let s := genSync { s with params := bankSet a (maskIn (s.par a) mask v) s.params }
  forAll (fins 10) (fun s n => openWindow n s) s

/-- LOAD_CHCFG, LOAD_CHPWM and LOAD_PG with the limits of their fields. -/
def loadPar (a : Nat) (mask : Nat) (v : Word) : Word :=
  let o := a - 0x200A0000
  if o < 0x100 then wd (at_ (b2n (bitAt v 31)) 31 + clamp 1000 1562500 (field v 20 0))
  else if o % 0x20 = 0 then
    wd (at_ (field v 28 24) 24 + at_ (max 1 (field v 23 16)) 16 + at_ (field v 15 12) 12 + at_ (clamp 1 50 (field v 11 6)) 6)
  else wd ((v.toNat &&& mask) / 512 * 512 + min 256 (field v 8 0))

def writeLoad (o : Nat) (v : Word) (s : State) : State :=
  if o = 0x14 then
    let s := loadSense (v.setWidth 4) s
    if bitAt v 31 then senseTest s else s
  else if o = 0x18 then (if bitAt v 31 then loadClrcnt s else s)
  else if 0x20 ≤ o ∧ o < 0x28 then setPar (0x200A0000 + o) 0x801FFFFF (loadPar (0x200A0000 + o) 0x801FFFFF v) s
  else if o = 0x30 then
    let close := clamp 10 1000 (field v 9 0)
    let s := if s.load.wdEn then s
      else { s with load.wdClose := BitVec.ofNat 10 close, load.wdOpen := BitVec.ofNat 10 (min (close / 2) (field v 25 16)) }
    if bitAt v 31 then loadWdStart s else s
  else if o = 0x34 then loadService (v.setWidth 16) s
  else if o = 0x3C then (if bitAt v 31 then loadWdrel s else s)
  else if 0x100 ≤ o ∧ o < 0x240 then
    let n := mem 10 0x100 0x20 o
    match rel 0x100 0x20 o with
    | 0x0 => if ldCald s n then s else setPar (0x200A0000 + o) 0x1FFFFFC0 (loadPar (0x200A0000 + o) 0x1FFFFFC0 v) s
    | 0x4 => if ldCald s n then s else setPar (0x200A0000 + o) 0xFF03FF (loadPar (0x200A0000 + o) 0xFF03FF v) s
    | 0x8 =>
      let s := if bitAt v 31 then
          let d := s.draw
          loadClrLatch n (bitAt (Config.freeAt 5021 d.1) 0) d.2
        else s
      loadCmd n (v.setWidth 2) s
    | 0xC => if bitAt v 21 then s.modLoad n fun c => { c with clrref := false } else s
    | 0x14 => s.modLoad n fun c => { c with evt := c.evt &&& ~~~(v.setWidth 4) }
    | _ => s
  else s

def writeGpio (o : Nat) (v : Word) (s : State) : State :=
  match o with
  | 0x14 => gpioSet (fun g => { g with dir := v.setWidth 8 }) s
  | 0x18 => gpioSet (fun g => { g with out := v.setWidth 8 }) s
  | 0x20 => { s with gpio.irqcfg := v.setWidth 16 }
  | 0x24 => { s with gpio.evt := s.gpio.evt &&& ~~~(v.setWidth 8) }
  | 0x40 => { s with gpio.ovf := s.gpio.ovf && !bitAt v 28 }
  | _ => s

def writeMesh (o : Nat) (v : Word) (s : State) : State :=
  if o = 0x24 then
    let s := { s with mesh.evt := s.mesh.evt &&& ~~~(v.setWidth 4) }
    if bitAt v 31 then meshClear s else s
  else s

/-- INTC: source 0 is reserved, so its priority and enable bits take nothing. -/
def writeIntc (o : Nat) (v : Word) (s : State) : State :=
  if 0x400 < o ∧ o < 0x800 then { s with intc.prio := s.intc.prio.set (mem 256 0x400 4 o) (v.setWidth 3) }
  else if 0x1000 ≤ o ∧ o < 0x1400 then
    let c := mem 8 0x1000 0x80 o
    let lo := 8 * rel 0x1000 0x80 o
    let old := (s.intc.enable[c]).toNat
    let new := old - old / 2 ^ lo % 2 ^ 32 * 2 ^ lo + v.toNat * 2 ^ lo
    { s with intc.enable := s.intc.enable.set c (BitVec.ofNat 256 (new / 2 * 2)) }
  else if rowHas 0x2000 [(8, 0x10)] o then { s with intc.thresh := s.intc.thresh.set (mem 8 0x2000 0x10 o) (v.setWidth 3) }
  else if rowHas 0x2004 [(8, 0x10)] o then plicComplete (mem 8 0x2004 0x10 o) v s
  else s

/-- VP_PEVT. -/
def writePevt (n : Port) (v : Word) (s : State) : State :=
  let s := s.modPilot n fun p => { p with evt := p.evt &&& ~~~(v.setWidth 8 &&& 0x7F) }
  if bitAt v 31 then pevtClrcnt n s else s

/-- VP_LEVT. -/
def writeLevt (n : Port) (v : Word) (s : State) : State :=
  let s := s.modLink n fun l => { l with evt := l.evt &&& ~~~(v.setWidth 11 &&& 0x3FE) }
  let s := if bitAt v 30 then slacRearm n s else s
  if bitAt v 31 then levtClrcnt n s else s

/-- VP_TLSCFG: a SUITE above 4 is refused. An engine that EN lets in joins those of the shared engines. -/
def writeTlscfg (n : Port) (v : Word) (s : State) : State :=
  let s := if bitAt v 31 && !(s.vp[n].tls).en then holdEngine s else s
  let s := s.modTls n fun t =>
    { t with en := bitAt v 31, suite := if field v 27 24 ≤ 4 then v.extractLsb' 24 4 else t.suite }
  let s := if bitAt v 2 then tlsClear n s else s
  let s := if bitAt v 1 then tlsInstall true n s else s
  if bitAt v 0 then tlsInstall false n s else s

def writeVp (n : Port) (o : Nat) (v : Word) (s : State) : State :=
  if 0x8000 ≤ o then
    let k : Fin 8 := Fin.ofNat 8 ((o - 0x8000) / 0x800)
    s.modLink n fun l => { l with slots := l.slots.set k (bankSet ((o - 0x8000) % 0x800 / 4) v l.slots[k]) }
  else match o with
  | 0x10 => pilotCtl n v s
  | 0x50 => writePevt n v s
  | 0x100 => s.modLink n fun l =>
      { l with xr6en := bitAt v 24, txatt := BitVec.ofNat 5 (min 30 (field v 20 16)),
               lsup := BitVec.ofNat 10 (clamp 1 1000 (field v 9 0)) }
  | 0x104 => s.modLink n fun l =>
      { l with blen := bitAt v 31, swdefer := bitAt v 30, thr := BitVec.ofNat 5 (clamp 6 30 (field v 28 24)),
               swthr := BitVec.ofNat 5 (clamp 6 30 (field v 20 16)), ext := BitVec.ofNat 4 (min 8 (field v 3 0)) }
  | 0x118 => s.modLink n fun l =>
      { l with margin := BitVec.ofNat 8 (clamp 60 200 (field v 23 16)), defmax := BitVec.ofNat 3 (max 1 (field v 10 8)),
               minsnd := BitVec.ofNat 5 (clamp 1 20 (field v 4 0)) }
  | 0x130 => s.modLink n fun l =>
      { l with rxen := bitAt v 31, coal := BitVec.ofNat 5 (clamp 1 8 (field v 20 16)),
               tmo := BitVec.ofNat 10 (clamp 10 1000 (field v 9 0)) }
  | 0x140 => txPush n v s
  | 0x144 => s.modLink n fun l =>
      { l with sent := l.sent &&& ~~~(v.extractLsb' 16 8), failB := l.failB &&& ~~~(v.setWidth 8) }
  | 0x160 => writeLevt n v s
  | 0x180 => writeTlscfg n v s
  | 0x184 => s.modTls n fun t => { t with selDir := bitAt v 31, selWord := v.setWidth 5 }
  | 0x188 => tlsKeyWord n v s
  | 0x190 => tlsQueue n (bitAt v 31) (v.extractLsb' 23 8) (field v 14 0) s
  | 0x194 => s.modTls n fun t => { t with src := v }
  | 0x198 => s.modTls n fun t => { t with dst := v }
  | _ =>
    if 0x108 ≤ o ∧ o ≤ 0x114 then
      let i := mem 4 0x108 4 o
      let maxDly := if o = 0x108 then 2000 else 50000
      let dly := if o = 0x108 then field v 10 0 else field v 15 0
      s.modLink n fun l =>
        { l with swLen := l.swLen.set i (BitVec.ofNat 16 (min 10000 (field v 31 16))),
                 swDly := l.swDly.set i (BitVec.ofNat 16 (min maxDly dly)) }
    else s

def writeDisp (base o : Nat) (v : Word) (s : State) : State :=
  if 0x200 ≤ o ∧ o < 0x240 then
    if bitAt v 1 then s.modRgn (mem 16 0x200 4 o) fun r => { r with redrawNeeded := false } else s
  else match o with
  | 0x300 => updateRequest (Fin.ofNat 16 (field v 3 0)) (v.extractLsb' 5 3) s
  | 0x304 => { s with disp.updsrc := v }
  | 0x308 => { s with disp.replaced := s.disp.replaced && !bitAt v 1, disp.refused := s.disp.refused && !bitAt v 0 }
  | 0x314 => if bitAt v 0 then dispClrcnt s else s
  | _ => match rowAt .disp o with
    | some r => if r.rwt = 0 then s else rwtWrite (base + o) v s
    | none => s

/-- A write to a word of a block outside the windows of R16; a write to what is read-only changes nothing. -/
def writeBlk (k : BlkKind) (n base o : Nat) (v : Word) (s : State) : State :=
  match k with
  | .sys => writeSys o v s
  | .time => writeTime o v s
  | .dma => writeDma o v s
  | .txn => writeTxn o v s
  | .sec => writeSec o v s
  | .upd => writeUpd o v s
  | .thl => writeThl o v s
  | .eth => writeEth (Fin.ofNat 2 n) o v s
  | .can => writeCan (Fin.ofNat 3 n) o v s
  | .load => writeLoad o v s
  | .gpio => writeGpio o v s
  | .mesh => writeMesh o v s
  | .intc => writeIntc o v s
  | .vp => writeVp (Fin.ofNat 8 n) o v s
  | .disp => writeDisp base o v s
  | .met | .bill | .safe => s

/-- Whether a kind of block is one of the windows of R16. -/
def isWindow (k : BlkKind) : Bool := k == .met || k == .bill || k == .safe

/-! ### The write itself -/

/-- The stop-frame store's registers, which DMA cannot reach (R442): CAN_SFCMD and CAN_SFBUF. -/
def stopStore (k : BlkKind) (o : Nat) : Bool := k == .can && (o == 0x20 || decide (0x100 ≤ o ∧ o < 0x150))

/-- A word write to a register. -/
def regWrite (req a : Nat) (v : Word) (s : State) : State :=
  match blkAt a with
  | none => s.decodeErr (wd a) req 4
  | some (i, b) =>
    let o := a - b.base
    if a % 4 ≠ 0 then s.decodeErr (wd a) req 5
    else if !hasWord b.kind o then s.decodeErr (wd a) req 4
    else if o = 4 then compatWrite i (v.setWidth 16) s
    else if o = 0 ∧ !isWindow b.kind then { s.busOk 0 with compat := vmod s.compat i fun v => { v with locked := true } }
    else if s.compat[i].level = 0 ∨ (req = 4 ∧ stopStore b.kind o) then s.busErr
    else if isWindow b.kind then
      match writeWindow b.kind b.base o v s with
      | some _ => onBlock b.kind b.n s fun s => (writeWindow b.kind b.base o v s).getD s
      | none => s.busErr
    else onBlock b.kind b.n s (writeBlk b.kind b.n b.base o v)

/-- A write of 1, 2 or 4 bytes to a memory: SRAM takes it, but for a part of an uncorrectable word (R367); the boot ROM,
the NOR window and the Sinter window take none (R8, R394, R428). -/
def memWrite (req a : Nat) (bs : List Byte) (s : State) : State :=
  if inSram a bs.length then
    match ramStore s a bs with
    | some s => s.busOk 0
    | none => s.busErr
  else if inside a bs.length norBase norSize || inside a bs.length 0 0x20000 || inside a bs.length sinterBase 0x200000 then s.busErr
  else s.decodeErr (wd a) req 4

/-- A write by a requester, anywhere in the application map: a byte or halfword access to a register space breaks R3. -/
def busWrite (req a : Nat) (size : AccSize) (v : Word) (s : State) : State :=
  if (blkAt a).isSome then
    if size = .word then regWrite req a v s else s.decodeErr (wd a) req 5
  else memWrite req a ((leBytes 4 v.toNat).take size.bytes) s

/-- REGISTER_WRITE: a write that has no row of its own. -/
def execRegisterWrite (req : Fin 10) (a : Word) (size : AccSize) (v : Word) (s : State) : Host.Outcome State Fault Refusal :=
  live s fun s => if portMute s req.val then s else busWrite req.val a.toNat size v s.tagged

/-- RWT_SHADOW_WRITE: a write to a parameter register with access code RWT; any other address is an ordinary write. -/
def execRwtShadowWrite (a v : Word) (s : State) : Host.Outcome State Fault Refusal := live s fun s => regWrite 0 a.toNat v s.tagged

end Sys2Proof.Machine
end

