-- ==== Sys2Proof/Machine/Dma.lean ====
section
/-! DEFINITION. The DMA engine's bursts (R374, R377, R378, R381, R382, R385): the grant of a burst buffer, which reads the
burst's source, and its end, which writes the destination. -/

namespace Sys2Proof.Machine

/-! ### Where a burst's bytes lie (R374, R377) -/

/-- The length of a line of the source, and of the destination; an element of an index mode is one. -/
def srcLine (w : Vector Word 8) : Nat := lineLen w[3]
def dstLine (w : Vector Word 8) : Nat := if dMode w = 1 then lineLen w[5] else lineLen w[3]

/-- Whether the bursts run from the end of the transfer (R381). -/
def backward (w : Vector Word 8) : Bool := dSafe w && decide (w[1].toNat < w[2].toNat)

/-- The next burst of a descriptor of which some bytes are granted: its first byte in the stream, and its length. -/
def nextBurst (w : Vector Word 8) (granted : Nat) : Nat × Nat :=
  let total := dTotal w
  if backward w then
    let e := total - granted
    let len := min (dBurst w) (e - (e - 1) / srcLine w * srcLine w)
    (e - len, len)
  else
    let o := granted
    (o, min (dBurst w) (min (srcLine w - o % srcLine w) (dstLine w - o % dstLine w)))

/-- An address, modulo 2^32. -/
def wrap32 (x : Nat) : Nat := x % 2 ^ 32

/-- Read words of a register space, one after the other; a fixed address is read again. -/
def regWords (a : Nat) (fixed : Bool) : Nat → State → List Byte × State × Option DmaResult
  | 0, s => ([], s, none)
  | n + 1, s =>
    let s := regRead 4 a s
    if s.bus.err then ([], s, some .busError)
    else
      let d := leBytes 4 s.bus.data.toNat
      let t := regWords (if fixed then a else wrap32 (a + 4)) fixed n s
      (d ++ t.1, t.2)

/-- A part of a word at a register space breaks R3. -/
def regTail (a len : Nat) (t : List Byte × State × Option DmaResult) : List Byte × State × Option DmaResult :=
  if t.2.2.isNone && len % 4 != 0 then ([], t.2.1.decodeErr (wd (a + len / 4 * 4)) 4 5, some .busError) else t

/-- The bytes of a burst's source in memory or in a register space. -/
def readSource (a len : Nat) (fixed : Bool) (s : State) : List Byte × State × Option DmaResult :=
  if inRegs a then regTail a len (regWords a fixed (len / 4) s)
  else
    let n := if fixed then 4 else len
    match s.appRead a n with
    | none => ([], s.decodeErr (wd a) 4 4, some .busError)
    | some l =>
      if poisoned s a n && inSram a n then ([], s.eccRun a n 4, some .eccError)
      else (if fixed then (List.replicate (len / 4) l).flatten else l, s, none)

/-- Which part of an access of DMA a parity error is on, where it is on this request of it. -/
def parOn (k : DmaReq) (par : Option (DmaReq × Bool)) : Option Bool := (par.filter fun p => p.1 == k).map (·.2)

/-- A read of DMA at an address whose request or response meets a parity error: none of it takes place, or its data are lost
(R364, R366). -/
def parRead (hit : Option Bool) (record : Bool → State → State) (read : State → List Byte × State × Option DmaResult)
    (s : State) : List Byte × State × Option DmaResult :=
  match hit with
  | none => read s
  | some false => ([], record false s, some .busError)
  | some true => ([], record true (read s).2.1, some .busError)

/-- The read of the index table's entry for an element, from a memory or a register space. -/
def indexAt (w : Vector Word 8) (i : Nat) (s : State) : List Byte × State × Option DmaResult :=
  readSource (wrap32 (w[4].toNat + 4 * i)) 4 false s

/-- That read over the mesh, with its parity error if it meets one. -/
def indexRead (w : Vector Word 8) (i : Nat) (hit : Option Bool) (s : State) : List Byte × State × Option DmaResult :=
  parRead hit (meshPar 4 (wd (wrap32 (w[4].toNat + 4 * i)))) (indexAt w i) s.tagged

/-- The source address of a byte of the stream, and the error that the read of the index table met. -/
def srcAddr (w : Vector Word 8) (off : Nat) (hit : Option Bool) (s : State) : Nat × State × Option DmaResult :=
  let l := srcLine w
  if dSfix w then (w[1].toNat, s, none)
  else match dMode w with
    | 1 => (wrap32 (w[1].toNat + off / l * w[4].toNat + off % l), s, none)
    | 2 =>
      let t := indexRead w (off / l) hit s
      (wrap32 (w[1].toNat + leNat t.1 + off % l), t.2)
    | _ => (wrap32 (w[1].toNat + off), s, none)

/-- The destination address of a byte of the stream, as srcAddr. -/
def dstAddr (w : Vector Word 8) (off : Nat) (hit : Option Bool) (s : State) : Nat × State × Option DmaResult :=
  let l := dstLine w
  if dDfix w then (w[2].toNat, s, none)
  else match dMode w with
    | 1 => (wrap32 (w[2].toNat + off / l * w[6].toNat + off % l), s, none)
    | 3 =>
      let t := indexRead w (off / l) hit s
      (wrap32 (w[2].toNat + leNat t.1 + off % l), t.2)
    | _ => (wrap32 (w[2].toNat + off), s, none)

/-- Whether an address is one of the destination's bytes. -/
def inDest (s : State) (w : Vector Word 8) (a : Nat) : Bool :=
  let l := dstLine w
  let hit (base len : Nat) : Bool := decide (wrap32 (a + 2 ^ 32 - wrap32 base) < len)
  if dDfix w then hit w[2].toNat 4
  else match dMode w with
    | 1 => (List.range (lineCnt w[5])).any fun i => hit (w[2].toNat + i * w[6].toNat) l
    | 3 => (List.range (lineCnt w[3])).any fun i =>
      let t := indexAt w i s
      t.2.2.isNone && hit (w[2].toNat + leNat t.1) l
    | _ => hit w[2].toNat (dTotal w)

/-- SWAP on a part of the stream that begins at a unit. -/
def swapBytes (m : Nat) : List Byte → List Byte
  | a :: b :: c :: d :: r =>
    if m = 1 then b :: a :: d :: c :: swapBytes m r
    else if m = 2 then d :: c :: b :: a :: swapBytes m r
    else if m = 3 then c :: d :: a :: b :: swapBytes m r
    else a :: b :: c :: d :: swapBytes m r
  | [a, b] => if m = 1 then [b, a] else [a, b]
  | l => l

/-! ### The peripherals' FIFOs (R371, R382) -/

/-- Take bytes off a queue of records, from an offset in the first. -/
def takeRec (n off : Nat) : List (List Byte) → List Byte × Nat × List (List Byte)
  | [] => ([], 0, [])
  | r :: rs =>
    let a := (r.drop off).take n
    if off + n < r.length then (a, off + n, r :: rs)
    else
      let t := takeRec (n - a.length) 0 rs
      (a ++ t.1, t.2)

/-- A receive peripheral gives up to n bytes. -/
def periphTake (r n : Nat) (s : State) : List Byte × State :=
  if 1 ≤ r ∧ r ≤ 8 then
    let p : Port := Fin.ofNat 8 (r - 1)
    let l := s.vp[p].link
    let t := takeRec n l.rxOff l.rxStore
    (t.1, s.modLink p fun l => { l with rxOff := t.2.1, rxStore := t.2.2 })
  else if r = 9 ∨ r = 11 then
    let m : Fin 2 := if r = 9 then 0 else 1
    let t := takeRec n (s.eth[m]).rxOff (s.eth[m]).rxFifo
    (t.1, s.modEth m fun e => { e with rxOff := t.2.1, rxFifo := t.2.2 })
  else
    let b : Fin 3 := Fin.ofNat 3 ((r - 13) / 2)
    let t := takeRec n 0 (s.can[b]).rxFifo
    (t.1, s.modCan b fun c => { c with rxFifo := match t.2.2 with
      | [] => []
      | x :: xs => x.drop t.2.1 :: xs })

/-- A transmit peripheral takes bytes: ETH into its FIFO, CAN record by record into its queue. -/
def periphPut (r : Nat) (bs : List Byte) (s : State) : State :=
  if r = 10 ∨ r = 12 then s.modEth (if r = 10 then 0 else 1) fun e => { e with txFifo := e.txFifo ++ bs }
  else
    s.modCan (Fin.ofNat 3 ((r - 14) / 2)) fun c => canFill (canFill { c with txPart := c.txPart ++ bs })

/-! ### Reading the source (R367, R374, R385) -/

/-- The source of a burst as the stream carries it: read, swapped, and without OVLSAFE free wherever a source byte lies
among the destination's. The last component tells that a receive peripheral had too little. -/
def burstData (w : Vector Word 8) (r off len src : Nat) (s : State) : List Byte × State × Option DmaResult × Bool :=
  if reqRx r then
    let t := periphTake r len s
    (swapBytes (dSwap w) (fit len t.1), t.2, none, decide (t.1.length < len))
  else
    let t := readSource src len (dSfix w) s
    if dSafe w || reqTx r then (swapBytes (dSwap w) t.1, t.2.1, t.2.2, false)
    else
      let d := t.2.1.draw
      let bytes := t.1.zipIdx.map fun p =>
        let at_ := if dSfix w then src + p.2 % 4 else wrap32 (src + p.2)
        if inDest s w at_ then (true, Config.freeByte d.1 (off + p.2)) else (false, p.1)
      if bytes.any (·.1) then (swapBytes (dSwap w) (bytes.map (·.2)), d.2, t.2.2, false)
      else (swapBytes (dSwap w) t.1, t.2.1, t.2.2, false)

/-! ### The grant (R377, R378) -/

/-- Whether a channel is ready for a burst. -/
def dmaReady (s : State) (c : Fin 32) : Bool :=
  let x := s.dma.ch[c]
  match x.run with
  | none => false
  | some r =>
    x.en && x.st == .running && r.err.isNone && decide (r.granted < dTotal r.w)
      && decide (r.flight.length < if dSafe r.w then 1 else 4) && reqOn s x.reqsel.toNat

/-- The channel that a free buffer goes to: the highest effective priority, round-robin among equals. -/
def dmaChoice (s : State) : Option (Fin 32) :=
  let ready := ((fins 32).map fun i => (Fin.ofNat 32 (s.dma.last + 1 + i.val) : Fin 32)).filter fun c => dmaReady s c
  let top := (ready.map fun c => (s.dma.ch[c]).level).foldl max 0
  ready.find? fun c => (s.dma.ch[c]).level == top

/-- The counting of a grant: the others that are ready age, and the granted channel starts anew. -/
def dmaAge (g : Fin 32) (s : State) : State :=
  let s0 := s
  forAll (fins 32) (fun s c =>
    if c = g then s.modDma c fun x => { x with level := x.prio.toNat, age := 0 }
    else if dmaReady s0 c then
      s.modDma c fun x =>
        if s.dma.age.toNat ≤ x.age + 1 then { x with level := min 3 (x.level + 1), age := 0 } else { x with age := x.age + 1 }
    else s) { s with dma.last := g.val }

/-- The running descriptor of a channel, changed. -/
def State.modRun (s : State) (c : Fin 32) (f : DmaRun → DmaRun) : State :=
  s.modDma c fun x => { x with run := x.run.map f }

/-- An error on a burst: the descriptor ends with it when its other bursts are complete (R385). -/
def burstFails (c : Fin 32) (e : DmaResult) (s : State) : State :=
  dmaFinish c none (s.modRun c fun r => { r with err := some (r.err.getD e) })

/-- The read-ahead of the descriptor at HEAD + 1 (R372). One that meets an error is read again when its turn comes. -/
def dmaPrefetch (c : Fin 32) (hit : Option Bool) (s : State) : State :=
  let x := s.dma.ch[c]
  let h := nextHead x x.head.toNat
  if x.pre.isSome || h == x.head.toNat then s
  else
    let d := fetchDesc (descAddr x h) hit s
    if d.2.1.isSome then d.2.2 else d.2.2.modDma c fun x => { x with pre := some d.1, desc := wd (descAddr x h) }

/-- What the mesh records of a parity error on an access of DMA at one side of a descriptor: at the FIFO of its request, or at
an address. -/
def sidePar (fifo : Bool) (q a : Nat) (onResponse : Bool) (s : State) : State :=
  if fifo then parRecord 4 (Config.fifoAddr q) onResponse s else meshPar 4 (wd a) onResponse s

/-- The burst at b of a running descriptor from one address to another: the read of its source, and its place among those
in flight. hit tells of a parity error on the read's request, which then has no effect, or on its response (R366). -/
def burstRead (c : Fin 32) (r : DmaRun) (b : Nat × Nat) (src dst : Nat) (ecc : Bool) (hit : Option Bool) (s : State) : State :=
  let q := (s.dma.ch[c]).reqsel.toNat
  let own (a : Nat) (fixed : Bool) : Bool := inDma a || (!fixed && inDma (a + b.2 - 1))
  if (!reqRx q && own src (dSfix r.w)) || (!reqTx q && own dst (dDfix r.w)) then burstFails c .badDesc s
  else if hit = some false then burstFails c .busError (sidePar (reqRx q) q src false s.tagged)
  else
    let s := if ecc && !reqRx q && inSram src 1 then s.tagged.mark src else s.tagged
    let t := burstData r.w q b.1 b.2 src s
    if hit = some true then burstFails c .busError (sidePar (reqRx q) q src true t.2.1)
    else match t.2.2.1 with
      | some e => burstFails c e t.2.1
      | none =>
        let s := t.2.1.modRun c fun r =>
          { r with
            granted := r.granted + b.2
            flight := r.flight ++ [{ off := b.1, data := t.1, dst := dst, late := t.2.2.2 }] }
        let s := if q ≠ 0 ∧ !periphReady s q then { s with dma.req := s.dma.req &&& ~~~(wd (2 ^ q)) } else s
        if r.granted + b.2 < dTotal r.w then settleReq c s else s

/-- A channel's next burst: its addresses, then the burst itself. -/
def burstStart (c : Fin 32) (ecc : Bool) (par : Option (DmaReq × Bool)) (s : State) : State :=
  let q := (s.dma.ch[c]).reqsel.toNat
  match (s.dma.ch[c]).run with
  | none => s
  | some r =>
    let b := nextBurst r.w r.granted
    let src := if reqRx q then (0, s, none) else srcAddr r.w b.1 (parOn .sourceIndex par) s
    match src.2.2 with
    | some e => burstFails c e src.2.1
    | none =>
      let dst := if reqTx q then (0, src.2.1, none) else dstAddr r.w b.1 (parOn .destIndex par) src.2.1
      match dst.2.2 with
      | some e => burstFails c e dst.2.1
      | none => burstRead c r b src.1 dst.1 ecc (parOn .source par) dst.2.1

/-- DMA_BURST_GRANT: a burst buffer is free. -/
def burstGrant (prefetch ecc : Bool) (par : Option (DmaReq × Bool)) (s : State) : State :=
  if 64 ≤ inFlight s then s
  else match dmaChoice s with
    | none => s
    | some c =>
      let s := burstStart c ecc par (dmaAge c s)
      if prefetch && (s.dma.ch[c]).run.isSome then dmaPrefetch c (parOn .descriptor par) s else s

def execDmaBurstGrant (prefetch ecc : Bool) (par : Option (DmaReq × Bool)) (s : State) : Host.Outcome State Fault Refusal :=
  live s (burstGrant prefetch ecc par)

/-! ### The end of a burst (R377, R380, R382, R385) -/

/-- Write words to a register space: how many bytes were taken, and the error that a word met. -/
def putWords (a : Nat) (fixed : Bool) : List Byte → State → Nat × State × Option DmaResult
  | b0 :: b1 :: b2 :: b3 :: r, s =>
    let s := regWrite 4 a (wd (leNat [b0, b1, b2, b3])) s
    if s.bus.err then (0, s, some .busError)
    else
      let t := putWords (if fixed then a else wrap32 (a + 4)) fixed r s
      (t.1 + 4, t.2)
  | [], s => (0, s, none)
  | _, s => (0, s.decodeErr (wd a) 4 5, some .busError)

/-- Write a burst's destination. -/
def writeDest (w : Vector Word 8) (r : Nat) (b : DmaBurst) (s : State) : Nat × State × Option DmaResult :=
  if reqTx r then (b.data.length, periphPut r b.data s, none)
  else if inRegs b.dst then putWords b.dst (dDfix w) b.data s
  else
    let s := memWrite 4 b.dst (burstBytes w b) s
    if s.bus.err then (0, s, some .busError) else (b.data.length, s, none)

/-- DMA_BURST_DONE: the oldest burst of a channel has its write responses. par tells of a parity error on the write's
request, which then has no effect, or on its response, or on the read of the descriptor that follows (R366). -/
def burstDone (c : Fin 32) (par : Option (DmaReq × Bool)) (s : State) : State :=
  let x := s.dma.ch[c]
  match x.run with
  | none => s
  | some r =>
    match r.flight with
    | [] => s
    | b :: rest =>
      let s := s.modRun c fun r => { r with flight := rest, late := r.late || b.late }
      let s := if b.late then s.modDma c fun x => { x with wdrCnt := satInc x.wdrCnt } else s
      let q := x.reqsel.toNat
      let hit := parOn .dest par
      if hit = some false then burstFails c .busError (sidePar (reqTx q) q b.dst false s)
      else
        let t := writeDest r.w q b s
        let s := t.2.1.modRun c fun r => { r with bytes := r.bytes + t.1 }
        if hit = some true then burstFails c .busError (sidePar (reqTx q) q b.dst true s)
        else match t.2.2 with
          | some e => burstFails c e s
          | none => dmaFinish c (parOn .descriptor par) s

def execDmaBurstDone (c : Fin 32) (par : Option (DmaReq × Bool)) (s : State) : Host.Outcome State Fault Refusal :=
  live s (burstDone c par)

end Sys2Proof.Machine
end

