-- ==== Sys2Proof/Machine/SafeTick.lean ====
section
/-! DEFINITION. The safety tick (R242): its order of steps. -/

namespace Sys2Proof.Machine

/-! ### The tick -/

/-- Stop frames that wait for the runtime to act (R23). -/
def releaseWaiting (s : State) : State :=
  let l := s.safe.release
  forAll l (fun s n => releaseOutlet n s) { s with safe.release := [] }

/-- The contactors in the order in which a tick looks at their feedback: those that may be confirmed closed come last, since
stops come before starts of the same instant (R125). -/
def fbOrder (s : State) : List (Fin 12) :=
  let closing := fun (c : Fin 12) => (s.safe.coil[c]).st == .closing
  (fins 12).filter (!closing ·) ++ (fins 12).filter closing

/-- SAFETY_TICK (R242). lv are the levels at the safe inputs, lorst the level of LORST, spDiff whether the compare vectors
of the SP copies differ. While both cores restart or Caldera has halted, only time passes. -/
def safetyTick (lv : BitVec 16) (lorst spDiff : Bool) (s : State) : State :=
  let rcBad := refOff s
  let s := { s with safe.tick := s.safe.tick + 1, safe.refAt := s.time.sysNs :: s.safe.refAt.take 63 }
  if s.safe.restarting || s.safe.halted then tickMeans s
  else
    let s := tickMeans (tickInputs lv lorst s)
    let s := releaseWaiting s
    let s := tickChecks spDiff rcBad s
    let s := forAll (fins 8) (fun s n => outTick n s) s
    let s := forAll (fins 6) (fun s g => imdTick g s) s
    let s := forAll (fbOrder s) (fun s c => fbCheck c s) s
    let s := forAll (fins 12) (fun s c => weldTick c s) s
    let s := forAll (fins 8) (fun s n => rampTick n s) s
    let s := acceptAll s
    let s := forAll (fins 12) (fun s c => closeTick c s) (autoOpen s)
    let s := forAll (fins 12) (fun s c => openTick c s) s
    oosDone (serveQueue 3 s)

def execSafetyTick (lv : BitVec 16) (lorst spDiff : Bool) (s : State) : Host.Outcome State Fault Refusal :=
  live s (safetyTick lv lorst spDiff)

/-- RAMP_TIMEOUT: the tick that contains t0 + T_RAMP without a tick below 5 A: an emergency opening (R259). -/
def rampTimeout (n : Port) (s : State) : State :=
  match (s.safe.out[n]).ramp, outletCoil s n with
  | some r, some c => if 4 * tRampMs s n ≤ r.k then coilOff c true s else s
  | _, _ => s

def execRampTimeout (n : Port) (s : State) : Host.Outcome State Fault Refusal := live s (rampTimeout n)

end Sys2Proof.Machine
end

