-- ==== Sys2Proof/Machine/Save.lean ====
section
/-! DEFINITION. The power-fail save and the cut without a save (R33, R47, R58 to R62, R134, R135, R137, R179, R339, R410, R433). -/

namespace Sys2Proof.Machine

/-! ### Step 2: the outputs (R59) -/

/-- Calls that wait end without a completion and count as not made (R433). -/
def dropCalls (s : State) : State :=
  let f := fun (b : Mailbox) => { b with busy := false, pend := false, what := none }
  { s with
    mbx := { met := f s.mbx.met, bill := f s.mbx.bill, safe := f s.mbx.safe, txn := f s.mbx.txn, upd := f s.mbx.upd }
    safe.coil := s.safe.coil.map fun (x : Coil) => { x with mbx := false, tie := none }
    safe.oosReq := none
    bill.sealPend := none
    bill.ocmfPend := none }

/-- An interrupted slot ERASE or WRITE leaves its area unknown (R339). -/
def tornSlot (s : State) : State :=
  match s.thl.cmd with
  | some .erase => (slotErased s.thl.cmdSlot false s).1
  | some .write => (slotWritten s.thl.cmdSlot false s).1
  | some .verify => s
  | some .switch => s
  | none => s

/-- The sizes of the staging area's data, tags and swap sectors. -/
def stgSize : Nat := 0x1000000
def tagsSize : Nat := 0x40000
def swpSize : Nat := 0x20000

/-- An interrupted erase of a BEGIN leaves the staging area unknown (R410). -/
def tornErase (s : State) : State :=
  if s.upd.st = .erasing then
    let a := s.freeBytes stgSize
    let b := a.2.freeBytes tagsSize
    let c := b.2.freeBytes swpSize
    ((c.2.norWrite stgOfs a.1).norWrite stgTags b.1).norWrite swpOfs c.1
  else s

/-- An interrupted erase of a settings copy leaves it unknown (R410). -/
def tornSettings (s : State) : State :=
  if isPending s .upd .setOpen then
    let a := s.freeBytes setSize
    a.2.norWrite (setOfs (spareCopy s)) a.1
  else s

/-- What a power failure or a reset leaves of the flash operations it interrupts (R339, R410). -/
def tornFlash (s : State) : State :=
  let s := tornSettings (tornErase (tornSlot s))
  { s with
    thl.cmd := none
    upd.st := if s.upd.st = .erasing then .downloading else s.upd.st
    upd.opened := none }

/-- Every coil pair turns off, with an opening under more than 5 A counted, and the stop frames of all allocated modules
are released. -/
def dropOutputs (s : State) : State :=
  let s := forAll (fins 8) (fun s n => releaseOutlet n s) (dropCalls (tornFlash s))
  let s := forAll (fins 12) (fun s c => coilOff c true s) s
  { s with safe.q := [], safe.raises := [], safe.seq := false, safe.entry := none }

/-! ### Step 4: the metrology island (R134, R135) -/

/-- Every running session stops with POWER_LOSS; its record is made at the next start (R135). -/
def stopRunning (s : State) : State := forAll (fins 8) (fun s n => freezeStop n 0x06 s) s

/-- The running part closes with flag bits; its record is made at the next start (R136). -/
def holdPart (bits : BitVec 16) (s : State) : State :=
  let r := endPart bits s
  r.2.modCore fun c => { c with held := c.held ++ [r.1], lostW := r.2.bill.lostTotal }

/-- POWER_FAIL of every enabled meter: the magnitude of its power (R135). -/
def powerFailAudits (s : State) : State :=
  forAll (fins 12) (fun s m => if mEn s m then s.audit 0x000E m.val 0 0 0 (wd s.met.m[m].mpwr.toInt.natAbs) else s) s

/-- A fine sample of a group that has been due since before the warning, or that its last bits made due: it is booked when its
instant precedes W (R101, R135). -/
def lastFine (w : BitVec 64) (g : Fin 2) (s : State) : State :=
  if (sampleInst s g).toNat < w.toNat then fineSample g s else s

/-- Sixteen bits of a group that come after the warning W, while the kernel closes its slices. -/
def lastBits (w : BitVec 64) (s : State) (b : FastBits) : State :=
  let t := s.met.grp[b.g].lastNs + BitVec.ofNat 64 (16 * bitNs s b.g)
  { lastFine w b.g (fastSample b.g b.bits b.miss { s with time.sysNs := t }) with time.sysNs := w }

/-- The samples whose instants precede W, some of whose bits come after it (R101). -/
def lastSamples (tail : List FastBits) (s : State) : State :=
  forAll tail (lastBits s.time.sysNs) (forAll (fins 2) (fun t g => lastFine s.time.sysNs g t) s)

/-- Every boundary that has been reached at W, with the samples that precede each (R134). -/
def lastBoundaries (tail : List FastBits) (s : State) : State := dueBoundaries (flushBounds (lastSamples tail s))

/-- The kernel's share of the save at the warning instant W. -/
def saveMetering (tail : List FastBits) (s : State) : State :=
  if kernelUp s then powerFailAudits (holdPart 0x8 (closeSlices (stopRunning (lastBoundaries tail s)))) else s

/-! ### Step 8: display updates (R61, R179) -/

/-- The energy above 8 V in the hold-up capacitance less that of steps 1 to 7, in 10^-18 J; 5 c in µF, VHOLD in 10 mV. -/
def displayBudget (s : State) (vhold : BitVec 12) : Int :=
  let nom := s.sys.capNom.toNat
  let v : Int := vhold.toNat
  let fiveC : Int := if s.sys.capMeas = 0 then 4 * nom else 5 * min s.sys.capMeas.toNat nom
  fiveC * (v * v - 640000) * 10000000 - 10 ^ 16

/-- The power of a mode for a region in a band, in nW. -/
def regionPower (s : State) (r : Fin 16) (mode : BitVec 3) (band : Nat) : Nat :=
  (s.disp.wf.power.getD mode.toNat []).getD band 0 * (s.pf (rgnBase r + 4) 26 16 * s.pf (rgnBase r + 4) 10 0)

/-- Time left in a running update, in ns. -/
def timeLeft (s : State) (u : RunUpd) : Nat := u.startNs.toNat + u.frames * frameNs - s.now

/-- What becomes of a running update. -/
inductive Fate where
  | continues | parks | abandoned
  deriving DecidableEq, Repr

/-- The fates of the running updates in the order of R179: the budget left and the time that the islands stay powered are
carried along. Energies in 10^-18 J: nW × ns. -/
def fates (s : State) : Int → Nat → List (Fin 16 × RunUpd) → List (Fin 16 × Fate)
  | _, _, [] => []
  | b, hold, (r, u) :: rest =>
    let t := timeLeft s u
    let need := regionPower s r u.mode u.band.toNat * t + 600000000 * (t - hold)
    let park := regionPower s r 6 u.band.toNat * 120000000 + 600000000 * (120000000 - hold)
    if (need : Int) ≤ b then (r, .continues) :: fates s (b - need) (max hold t) rest
    else if (park : Int) ≤ b then (r, .parks) :: fates s (b - park) (max hold 120000000) rest
    else (r, .abandoned) :: fates s b hold rest

/-- Put an update into its place: by increasing time left, and earlier regions first. -/
def insertUpd (s : State) (x : Fin 16 × RunUpd) : List (Fin 16 × RunUpd) → List (Fin 16 × RunUpd)
  | [] => [x]
  | y :: r => if timeLeft s x.2 < timeLeft s y.2 then x :: y :: r else y :: insertUpd s x r

/-- The running updates, legal first, then by increasing time left. -/
def runningOrder (s : State) : List (Fin 16 × RunUpd) :=
  let l := (fins 16).filterMap fun r => s.disp.rgn[r].run.map fun u => (r, u)
  let l := l.foldl (fun acc x => insertUpd s x acc) []
  l.filter (·.2.legal) ++ l.filter (fun x => !x.2.legal)

/-- The end of one running update in the save. -/
def meetFate (s : State) (x : Fin 16 × Fate) : State :=
  match x.2 with
  | .continues => s.modRgn x.1 fun g =>
    { g with run := none, intentOpen := false, needInit := false, damaged := false, shown := (g.run.map (·.target)).getD g.shown }
  | .parks =>
    { s.modRgn x.1 (fun g => { g with run := none, parked := true, shown := .hatched }) with disp.parkCnt := satInc s.disp.parkCnt }
  | .abandoned => s.modRgn x.1 fun g => { g with run := none, parked := true, shown := .mixed }

/-- Pending requests are discarded, running updates meet their fates, and the rails go down. -/
def saveDisplay (vhold : BitVec 12) (s : State) : State :=
  let s := { s with disp.rgn := s.disp.rgn.map fun (g : Region) => { g with pend := none } }
  let s := forAll (fates s (displayBudget s vhold) 0 (runningOrder s)) meetFate s
  { s with disp.rails := .down, disp.pfwBlock := true, disp.flPermit := false }

/-! ### The save -/

/-- A token entry in progress ends as at its timeout, and the pending tokens go (R149, R150). -/
def endEntries (s : State) : State :=
  discardTokens (if s.bill.tok.entry then endEntry (entryPort s.bill.tok.keys) 0x09 none s else s)

/-- Every pulse output goes to its inactive level, and its queue is discarded (R112). -/
def dropPulses (s : State) : State := { s with met.pls := s.met.pls.map fun (p : Pulse) => { p with pend := 0, endNs := 0 } }

/-- What step 2 leaves of the vehicle links: nothing to send, no keys and no records (R224). -/
def portsErased (s : State) : State :=
  forAll (fins 8) (fun s n =>
    (s.modTls n fun t => { t with tx := TlsDir.reset, rx := TlsDir.reset }).modLink n fun l => { l with rxStore := [], rxOff := 0 })
    (portsSilent s)

/-- At step 2 of the save the pilot outputs are in F (R186). -/
def pilotsOff (s : State) : State := forAll (fins 8) (fun s n => s.modPilot n fun p => { p with effMode := .f }) s

/-- The save of R59 at the warning, which completes; VHOLD is that of its step 1, and tail the modulator bits that come before
step 4 ends. The device then holds. -/
def powerFailSave (vhold : BitVec 12) (tail : List FastBits) (s : State) : State :=
  let s := { s with sys.pfwActive := true, sys.vhold := vhold }
  let s := pilotsOff (portsErased (dmaAllOff (dropOutputs s)))
  let s := { s with sys.coresRun := false, sys.coresHalted := false, sys.wdogRun := false, sys.actual := 0 }
  let s := dropPulses (endEntries (saveMetering tail s))
  let s := if kernelUp s then s.journal true else s
  loadAll { saveDisplay vhold { s with time.evlTail := 0 } with sys.power := .held }

/-- The comparator's threshold in units of 10 mV: 9.0 V + 0.25 V × THRESH, and THRESH above 44 acts as 44 (R58). -/
def pfwLevel (s : State) : Nat := 900 + 25 * min 44 s.sys.pfwThresh.toNat

/-- Whether SRC selects the comparator, and whether it selects the PFW ball: 0b00 and 0b01, and both otherwise. -/
def pfwCmpSel (s : State) : Bool := s.sys.pfwSrc != 1
def pfwBallSel (s : State) : Bool := s.sys.pfwSrc != 0

/-- POWER_FAIL_WARNING: a source raises the warning when SRC selects it, the comparator with VSUP below its threshold. -/
def powerFailWarning (src : PfwSource) (vhold : BitVec 12) (tail : List FastBits) (s : State) : State :=
  match src with
  | .comparator v =>
    if pfwCmpSel s && decide (v.toNat < pfwLevel s) then powerFailSave vhold tail { s with sys.pfwCmp := true, sys.vsup := v }
    else s
  | .ball => if pfwBallSel s then powerFailSave vhold tail { s with sys.pfwBall := true } else s

def execPowerFailWarning (src : PfwSource) (vhold : BitVec 12) (tail : List FastBits) (s : State) :
    Host.Outcome State Fault Refusal := live s (powerFailWarning src vhold tail)

/-- VSUP_BELOW_RETAIN: VSUP falls below 7.0 V after the save. -/
def execVsupBelowRetain (s : State) : Host.Outcome State Fault Refusal :=
  .next (if s.sys.power = .held then { s with sys.power := .off, sys.prev := s.sys.mode, sys.mode := .retain, thl.ball := 0 } else s)

/-! ### The cut without a save (R60, R137) -/

/-- Sessions after a cut: those only OPENED stand as they were opened; of the others, the journal's state of each session
that has not ended since. -/
def cutSess (now old : Option Session) : Option Session :=
  match now, old with
  | none, _ => none
  | some a, none => some a
  | some a, some b => if a.state = .opened then some a else some b

/-- GAP_BOUND: ceil(|P| × 100 ms) in Wh. -/
def gapWh (p : Word) : Nat := (p.toInt.natAbs + 35999) / 36000

/-- What recovery makes of a run that no save ended: the state of the newest journal record that carries the
accumulators, with every running session stopped and the running part closed at its instant (R33 step 4, R137). -/
def cutClose (s : State) : State :=
  let j := s.jrn
  let old := s.bill.core.sess
  let t := s.time.sysNs
  let lost := s.bill.lostTotal
  let s := s.modCore fun _ =>
    { j.core with sess := Vector.ofFn fun (n : Port) => cutSess old[n] j.core.sess[n] }
  let s := { s with
    time.sysNs := j.ns
    bill.lostTotal := j.lost
    met.m := Vector.ofFn fun (m : MeterId) =>
      { s.met.m[m] with imp := j.acc[m].1, exp := j.acc[m].2, mpwr := j.mpwr[m], gapInt := true } }
  let s := flushBounds s
  let s := forAll (fins 8) (fun (s : State) n =>
    if (s.sess n).any (fun x => x.state == .running) then
      (freezeStop n 0x06 s).modSess n fun x =>
        { x with flags := x.flags ||| 0x1, ltStop := j.legal, gapBound := gapWh j.mpwr[x.meter] }
    else s) s
  let s := holdPart 0x9 (closeSlices s)
  { s with
    time.sysNs := t
    bill.lostTotal := lost + (s.bill.lostTotal - j.lost)
    jrn := { acc := Vector.ofFn fun (m : MeterId) => (s.met.m[m].imp, s.met.m[m].exp), mpwr := j.mpwr, core := s.bill.core,
             legal := j.legal, ns := j.ns, lost := j.lost, save := true, gapDue := true } }

/-- What Sinter holds of the run that ends now: a save leaves it exact, and a run without one is closed at the journal. -/
def settle (s : State) : State := if s.jrn.save then s else cutClose s

/-- The journal record that recovery uses when it takes areas from the generation before the newest, closed as that generation
was left. The accumulators bring every other area with them, so that none is newer than they are (R33 step 4, R34). -/
def olderJrn (l : List SinterArea) (s : State) : Journal :=
  let old := (settle { s with jrn := s.jrnOld }).jrn
  if l.contains .acc then old
  else
    let c := if l.contains .tariffs then
        { s.jrn.core with treg := old.core.treg, ti := old.core.ti, te := old.core.te, season := old.core.season,
                          special := old.core.special }
      else s.jrn.core
    let c := if l.contains .sessions then { c with sess := old.core.sess, ended := old.core.ended } else c
    let c := if l.contains .interval then
        { c with part := old.core.part, due := old.core.due, held := old.core.held, maxDem := old.core.maxDem,
                 adjSum := old.core.adjSum, adjInt := old.core.adjInt, lostW := old.core.lostW }
      else c
    { s.jrn with core := c, gapDue := s.jrn.gapDue || (old.gapDue && l.contains .sessions) }

/-- The newest entries of the event log that a cut loses: any number of those not yet journaled (R424). -/
def loseTail (s : State) : State :=
  let d := s.draw
  let n := (Config.freeWord d.1).toNat % (s.time.evlTail + 1)
  { d.2 with
    time.evl := s.time.evl.drop n
    time.evlSeq := s.time.evlSeq - BitVec.ofNat 32 n
    time.evlNext := s.time.evlNext - BitVec.ofNat 14 n
    time.evlTail := 0 }

/-- CUT_WITHOUT_SAVE: VCORE falls below 0.88 V with steps many steps of the save complete, 0 when no warning came. Step 4
leaves a journal record at W that is no save record, step 5 Caldera's state with its counted openings, and step 6 the tail
of the event log; without them the newest earlier records stand. -/
def cutWithoutSave (steps : Fin 7) (tail : List FastBits) (s : State) : State :=
  let s := tornFlash s
  let counted := dropOutputs s
  let s := if 4 ≤ steps.val ∧ kernelUp s then (closeSlices (lastBoundaries tail s)).journal false else s
  let s := if 5 ≤ steps.val then { s with safe.coil := counted.safe.coil, safe.slog := counted.safe.slog,
                                          safe.slogSeq := counted.safe.slogSeq, safe.slogChain := counted.safe.slogChain }
    else s
  let s := if 6 ≤ steps.val then { s with time.evlTail := 0 } else s
  let s := pilotsOff (settle (loseTail s))
  loadAll { s with
    sys.power := .cut, sys.coresRun := false, sys.coresHalted := false, sys.wdogRun := false
    disp.rgn := s.disp.rgn.map fun (g : Region) =>
      { g with run := none, pend := none, shown := if g.run.isSome then .mixed else g.shown }
    disp.rails := .down
    thl.ball := 0
    safe.coil := (leaveUnproven s).safe.coil }

def execCutWithoutSave (steps : Fin 7) (tail : List FastBits) (s : State) : Host.Outcome State Fault Refusal :=
  live s (cutWithoutSave steps tail)

/-- WEAR_LEVELLING_MOVE: the journal controller moves data within Sinter; recovery completes or undoes an interrupted move
(R33 step 3), and no value that anything reads changes. -/
def execWearLevellingMove (s : State) : Host.Outcome State Fault Refusal := .next s

end Sys2Proof.Machine
end

