-- ==== Sys2Proof/Machine/StartUp.lean ====
section
/-! DEFINITION. Resets and the start-up sequence (R27, R29 to R36, R41, R47, R136, R181, R315, R336 to R338, R392 to
R410, R415): what Sinter and the flash keep, the eight steps, and the mode at the end. -/

namespace Sys2Proof.Machine

/-! ### What a reset leaves (the register tables' "Recovered" and "From Sinter"; R33, R410) -/

/-- RSTCAUSE of the last DEGRADED entry. -/
def degBits : Option DegCause → BitVec 13
  | none => 0
  | some .wdog => 0x4
  | some .mesh => 0x8
  | some .therm => 0x10

def sysAfter (y : Sys) (cause : BitVec 13) (u : StartUp) : Sys :=
  { Sys.reset with
    oos := y.oos, autorstEn := y.autorstEn, autorstDelay := y.autorstDelay, capMeas := y.capMeas, serial := y.serial
    needAuditRead := y.needAuditRead, lossOos := y.lossOos, rstCause := cause ||| degBits y.degCause, straps := u.straps
    hot := u.hot, capArm := decide (u.vhold.toNat < 200) }

/-- Time at step 2 (R413, R415, R420): system time from 0, and LOFS from the RTC, or, when the RTC has lost time, so that
legal time goes on from the newest legal time journaled. t is the time with the RTC as step 2 reads it. -/
def timeAfter (t : Time) (u : StartUp) : Time :=
  let valid := t.lvalid && u.rtc.isSome
  let ms : Nat := if u.rtc.isSome then t.rtcSec.toNat * 1000 + t.rtcFrac.toNat * 1000 / 32768 else t.newestLegal.toNat
  { Time.reset with
    lofs := BitVec.ofNat 64 (ms * 1000000)
    rtcSec := t.rtcSec, rtcFrac := t.rtcFrac, rtcSub := t.rtcSub, rtcGap := t.rtcGap
    rtcAcc := t.rtcAcc, lvalid := valid, newestLegal := t.newestLegal
    hwm := if t.hwm.toNat < t.newestLegal.toNat then t.newestLegal else t.hwm
    outage := if t.lvalid then t.newestLegal else t.outage
    trim := t.trim, k2 := t.k2, t0 := t.t0, evl := t.evl, evlNext := t.evlNext, evlSeq := t.evlSeq }

def metAfter (j : Journal) : Met :=
  { Met.reset with m := Vector.ofFn fun (m : MeterId) => { Meter.reset with imp := j.acc[m].1, exp := j.acc[m].2 } }

def billAfter (b : Bill) (j : Journal) : Bill :=
  { Bill.reset with
    core := j.core, sessCount := b.sessCount, recSeq := b.recSeq, store := b.store, demand := b.demand, signing := b.signing
    audit := b.audit, auditSeq := b.auditSeq, auditRead := b.auditRead, auditChain := b.auditChain, lostCnt := b.lostCnt
    lostTotal := b.lostTotal, seal_ := b.seal_, sealBuf := b.sealBuf
    tok := { Tokens.reset with ledger := b.tok.ledger, ledgerOld := b.tok.ledgerOld, slots := b.tok.slots } }

/-- The panel keeps its image, and Sinter the intents (R178). -/
def dispAfter (d : Disp) : Disp :=
  { Disp.reset with rgn := d.rgn.map fun (g : Region) =>
      { Region.reset with useq := g.useq, intentOpen := g.intentOpen, intentMode := g.intentMode, intentLt := g.intentLt,
                          parked := g.parked, shown := g.shown } }

def coilAfter (x : Coil) : Coil :=
  { Coil.reset with emopen := x.emopen, limit := x.limit, coilf := x.coilf, unproven := x.unproven, welded := x.welded }

/-- Caldera's journaled state; hours is HOURS at the end of the run. A LORST level that is high at the reset's release is
ignored until it has been low (R44). -/
def safeAfter (f : Safe) (hours : Nat) (u : StartUp) : Safe :=
  { Safe.reset with
    latch := f.latch, causes := f.causes, first := f.first, confirmed := f.confirmed, slog := f.slog, slogSeq := f.slogSeq
    slogChain := f.slogChain, protDrop := f.protDrop, hours0 := BitVec.ofNat 16 hours, stDue := f.stDue
    tripDue := f.tripDue, ftfail := f.ftfail, coil := f.coil.map coilAfter
    pair := f.pair.map fun (p : StopPair) => { StopPair.reset with disc := p.disc, latched := p.latched }
    conn := f.conn.map fun (c : Conn) => { Conn.reset with key := c.key }
    lorst := { Pulse0.reset with ignore := u.lorst } }

def loadAfter (l : Load) : Load :=
  { Load.reset with ch := l.ch.map fun (c : LoadCh) => { LoadCh.reset with fs := c.fs, fsduty := c.fsduty } }

/-- The slot chosen for this start becomes the active one (R340). -/
def thlAfter (t : Thl) : Thl :=
  { Thl.reset with
    act := t.next, next := t.next, patches := t.patches, lastImg := t.lastImg, lastMchk := t.lastMchk, journal := t.journal }

/-- New transport keys follow a zeroisation (R389). -/
def secAfter (c : Sec) : Sec :=
  { Sec.reset with
    tamper := c.tamper, fkd := c.fkd, skd := c.skd, hk := c.hk, auditDue := c.auditDue
    gen := if c.zeroised then c.gen + 1 else c.gen }

/-- An update after a reset (R401, R410): a verification begins anew, and an erase is finished at the next BEGIN. -/
def updStateAfter : UpdState → UpdState
  | .idle => .idle | .erasing => .downloading | .downloading => .downloading | .complete => .complete
  | .verifying => .complete | .verified => .complete | .pending_ => .pending_ | .trial => .trial | .rejected => .rejected

def updAfter (d : Upd) : Upd :=
  { Upd.reset with
    st := updStateAfter d.st, trials := d.trials, setlock := d.setlock, map := d.map, eraseDue := d.eraseDue, cid := d.cid
    cekStaged := d.cekStaged, cekActive := d.cekActive, minsvn := d.minsvn, reason := d.reason, hostcode := d.hostcode
    swapBack := d.swapBack, superseded := d.superseded, base := d.base }

/-- Transactions that the run left without a commit. -/
def openTxns (t : Txn) : Nat := t.dom.toList.countP (·.st != .idle)

/-- The device at step 2: every register at its reset value but for what Sinter, the flash and, over a reset that did not
take the supply away, the SRAM keep. The parameter registers hold the recovered allocation alone until step 6. -/
def afterReset (cause : BitVec 13) (u : StartUp) (s : State) : State :=
  let warm := s.sys.power == .running || s.sys.power == .held
  { State.reset with
    sys := sysAfter s.sys cause u, time := timeAfter (rtcRun (u.rtc.getD 0) s).time u, met := metAfter s.jrn, bill := billAfter s.bill s.jrn
    disp := dispAfter s.disp, safe := safeAfter (leaveUnproven s).safe (hoursOf s) u, load := loadAfter s.load
    txn := { Txn.reset with begun := s.txn.begun, rollbackCnt := BitVec.ofNat 16 (openTxns s.txn) }
    thl := thlAfter s.thl, sec := secAfter s.sec, upd := updAfter s.upd
    can := s.can.map fun (c : Can) => { Can.reset with store := c.store }
    params := keptSite s.params, jrn := s.jrn, jrnOld := s.jrnOld, nor := s.nor
    sram := if warm then s.sram else []
    mesh := { Mesh.reset with poison := if warm then s.mesh.poison else [] }
    free := s.free, pending := s.pending }

/-- A number of 40 ns periods as the present system time; it does not run backward. -/
def atNs (n : Nat) (s : State) : State := { s with time.sysNs := BitVec.ofNat 64 (max s.now (40 * n)) }

/-- Set bits of SYS_RSTCAUSE. -/
def causeBit (n : Nat) (s : State) : State := { s with sys.rstCause := s.sys.rstCause ||| BitVec.ofNat 13 (2 ^ n) }

/-! ### Steps 1 to 3 -/

/-- The supply at step 1: HOLD_READY and, from the stored capacitance, HOLD_LOW (R55, R57). -/
def bootSupply (u : StartUp) (s : State) : State :=
  let s := holdReady u.vsup u.vhold s
  if capLow s then { s with sys.holdLow := true } else s

/-- Step 2: the flags of legal time (R36, R415), and the transition into START. -/
def bootTime (old : Mode) (u : StartUp) (s : State) : State :=
  let s := { s with sys.rtcInvalid := !s.time.lvalid }
  let s := if u.rtc.isNone then causeBit 11 s else s
  if old = .start then s
  else
    let d := s.draw
    d.2.evlog 0x0001 0xFF (wd old.code.toNat) (wd Mode.start.code.toNat) (Config.freeAt 5000 d.1)

/-- Step 3: Caldera's self-test and the latch record (R32, R43, R306). A failed self-test stops start-up in LOCKOUT. -/
def bootSelftest (u : StartUp) (s : State) : State :=
  let s := slogSelftest u.selftest (atNs u.at3 s)
  if u.selftest = 0 then
    let s := { s with safe.stOk := true, safe.stDone := some 0, safe.hours0 := 0, safe.stDue := false }
    if s.safe.latch then causeBit 6 s else s
  else
    let s := latchFault 0 s
    setMode .lockout { s with safe.halted := true, sys.step3Stop := true }

/-! ### Step 4: the boot manager (R392, R393, R402 to R406, R409) -/

/-- Two ranges of the flash exchanged: a lies below b, and they do not overlap. -/
def memSwap (a b n : Nat) (l : List Host.Cell) : List Host.Cell :=
  let lo := l.filter fun x => x.1 < a
  let inA := l.filter fun x => a ≤ x.1 && x.1 < a + n
  let mid := l.filter fun x => a + n ≤ x.1 && x.1 < b
  let inB := l.filter fun x => b ≤ x.1 && x.1 < b + n
  let hi := l.filter fun x => b + n ≤ x.1
  lo ++ inB.map (fun x => (x.1 - (b - a), x.2)) ++ mid ++ inA.map (fun x => (x.1 + (b - a), x.2)) ++ hi

/-- NBLK of R403: the larger of the two images. -/
def swapBlocks (s : State) : Nat :=
  let n := fun (ofs : Nat) => let m := manifestAt s ofs; if mfFormatOk m then mfBlocks m else 0
  max (n actMan) (n stgMan)

/-- The swap of R403: data, tags and manifests of the two areas, and the two wrapped CEKs. The swap sectors keep what was
saved last: the active area's last block, and the old active manifest. -/
def swapAreas (s : State) : State :=
  let nb := swapBlocks s
  let old := s
  let s := { s with
    nor := memSwap (norBase + actMan) (norBase + stgMan) 0x10000
      (memSwap (norBase + actTags) (norBase + stgTags) (1024 * nb)
        (memSwap (norBase + actOfs) (norBase + stgOfs) (65536 * nb) s.nor)) }
  let s := if nb = 0 then s else s.norWrite swpOfs (old.norRead (actOfs + 65536 * (nb - 1)) 0x10000)
  let s := s.norWrite swpTags (old.norRead actMan 0x10000)
  { s with upd.cekActive := s.upd.cekStaged, upd.cekStaged := s.upd.cekActive, upd.cid := mfCid (manifestAt s stgMan) }

/-- ACTIVATE runs one of its two procedures and goes back to START (R27). -/
def inActivate (f : State → State) (s : State) : State := setMode .start (causeBit 7 (f (setMode .activate s)))

/-- The activation: the new image enters TRIAL, and the current settings copy becomes the base copy (R403, R409). -/
def activate (s : State) : State :=
  let s := swapAreas s
  { s with
    upd.st := .trial, upd.trials := 0, upd.stchg := true, upd.setlock := true, upd.base := currentCopy s, upd.superseded := false }

/-- The swap-back: the rejected image goes back to staging, and the base copy is current again (R403, R409). -/
def swapBack (s : State) : State :=
  let s := swapAreas s
  let s := if s.upd.setlock then s.norWrite (setOfs !(s.upd.base.getD false)) (List.replicate 32 0) else s
  { s with upd.st := .rejected, upd.swapBack := false, upd.resetRej := false, upd.setlock := false, upd.base := none }

/-- The checks of R392 on the active area. -/
def activeOk (s : State) : Bool :=
  let m := manifestAt s actMan
  mfFormatOk m && mfKeyOk s m && mfSigOk m && decide (s.upd.minsvn.toNat ≤ mfSvn m) && digestsOk s actOfs actTags m
    && s.upd.cekActive.isSome

/-- FKD is written by the first image that the boot manager accepts (R387). -/
def provisionFkd (s : State) : State :=
  if s.sec.fkd.isNone then { s with sec.fkd := some (sha384 (mfKey (manifestAt s actMan))) } else s

/-- The check of the confirmed image: without a good one the application cores stay in reset (R393). -/
def bootConfirmed (s : State) : State :=
  if activeOk s then provisionFkd s else { s with upd.fwnone := true, sys.oos := 0xFF }

/-- Start of an image in trial: the count, then the checks; a rejection swaps back at once (R404, R406). -/
def bootTrial (s : State) : State :=
  if s.upd.trials = 3 then bootConfirmed (inActivate swapBack (reject 1 0 s))
  else
    let s := { s with upd.trials := s.upd.trials + 1 }
    if activeOk s then provisionFkd s else bootConfirmed (inActivate swapBack (reject 5 0 s))

/-- Step 4. -/
def bootManager (u : StartUp) (s : State) : State :=
  let s := atNs u.at4 s
  let s := if s.upd.st = .pending_ then inActivate activate s
    else if s.upd.swapBack then inActivate swapBack s else s
  if s.upd.st = .trial then bootTrial s else bootConfirmed s

/-! ### Step 5: Sinter recovery (R33, R34) -/

/-- A store, a log or the ledger as recovery takes it from its older generation: without the entry written last (R34). The
areas that a journal record carries have been taken with it. -/
def olderArea (s : State) (a : SinterArea) : State :=
  match a with
  | .acc => s
  | .tariffs => s
  | .sessions => s
  | .interval => s
  | .audit => { s with bill.audit := s.bill.audit.tail, bill.auditRead := min s.bill.auditRead (s.bill.audit.length - 1) }
  | .records => { s with bill.store := s.bill.store.dropLast, bill.signing := s.bill.signing.dropLast }
  | .demand => { s with bill.demand := s.bill.demand.tail }
  | .ledger => { s with bill.tok.ledger := s.bill.tok.ledgerOld }

/-- An area that starts from its initial state. -/
def loseArea (s : State) (a : SinterArea) : State :=
  match a with
  | .acc => { s with met.m := s.met.m.map fun (x : Meter) => { x with imp := 0, exp := 0 } }
  | .tariffs => s.modCore fun c => { c with treg := BillCore.reset.treg, ti := 0, te := 0, season := 0, special := false }
  | .sessions => s.modCore fun c => { c with sess := Vector.replicate 8 none, ended := Vector.replicate 8 none }
  | .interval => s.modCore fun c => { c with part := Part.reset, due := 0, held := [], maxDem := 0, adjSum := 0, adjInt := 0 }
  | .audit => { s with bill.audit := [], bill.auditRead := 0 }
  | .records => { s with bill.store := [], bill.signing := [] }
  | .demand => { s with bill.demand := [] }
  | .ledger => { s with bill.tok.ledger := [] }

/-- Step 5: the event-log entry with the counts; that of discarded records is free unless a save made all complete. From
here the load switches hold the journaled fail-safe states (R315). -/
def recovery (u : StartUp) (rolled : Nat) (s : State) : State :=
  let s := forAll u.lost loseArea (forAll u.older olderArea (atNs u.at5 s))
  let s := if u.lost.isEmpty && u.older.isEmpty then s else causeBit 10 s
  let d := s.draw
  let gone := if s.jrn.gapDue || !u.lost.isEmpty || !u.older.isEmpty then Config.freeWord d.1 else 0
  loadAll (d.2.evlog 0x0002 0xFF 0 (wd rolled) gone)

/-! ### Step 6: the loader (R315, R336 to R338) -/

/-- SKD is written by the first container whose signature the loader accepts (R387). -/
def provisionSkd (k : Fin 2) (s : State) : State :=
  let c := slotImage s k
  if s.sec.skd.isNone && headOk false slotSize c && signatureOk c then { s with sec.skd := some (sha384 (cKey c)) } else s

/-- The fail-safe states of the loaded image are journaled (R315). -/
def journalFs (s : State) : State :=
  forAll (fins 10) (fun (s : State) n => s.modLoad n fun c =>
    { c with fs := BitVec.ofNat 2 (s.pf (ldA n) 31 30), fsduty := BitVec.ofNat 8 (s.pf (ldA n + 4) 31 24) }) s

/-- The kept changes over an image's words: a module's OUTLET stays with the SITE domain, whatever word a SAFE commit
journaled (R230, R238). -/
def keepOutlets (bank kept : List (Nat × Word)) : List (Nat × Word) :=
  kept.map fun c =>
    if 0x20300500 ≤ c.1 ∧ c.1 < 0x203005C0 then (c.1, (c.2 &&& ~~~(0xF : Word)) ||| (bankAt bank c.1 &&& 0xF)) else c

/-- Step 10 of R336 with the changes committed since this IMAGE_ID was first loaded (R338). -/
def install (k : Fin 2) (l : Loaded) (s : State) : State :=
  let kept := if s.thl.lastImg = some l.imgId then s.thl.journal else []
  let s := { s with
    params := bankMerge l.bank (keepOutlets l.bank kept)
    thl.act := k, thl.fmt := l.fmt, thl.imgId := l.imgId, thl.applied := l.applied, thl.frames := l.frames
    thl.portMap := l.portMap, thl.metSec := l.metSec, thl.safeSec := l.safeSec, thl.lastImg := some l.imgId
    thl.lastMchk := wd l.mchk, thl.journal := kept }
  let s := forAll (fins 32) (fun (s : State) n => s.modCh n (gainApply s n)) (restartParts gParts s)
  let s := forAll (fins 4) (fun (s : State) a => s.modAdc a fun x => { x with gain := startGain s a 0 }) s
  imdSync (genSync (journalFs (recheck s)))

/-- A base image with the committed patches of its slot: whether they pass. -/
def loadRest (k : Fin 2) (l : Loaded) (s : State) : Bool × State :=
  match loadPatches s k l s.thl.patches[k] with
  | .error _ => (false, s)
  | .ok l => (true, install k l s)

/-- One slot: whether it loads. A base image that changes the metrology check value takes an audit entry before its patches
are applied, and a full log fails the slot (R337, R338). -/
def loadFrom (k : Fin 2) (s : State) : Bool × State :=
  let s := provisionSkd k s
  match loadBase s k with
  | .error _ => (false, s)
  | .ok l =>
    if s.thl.lastImg.isSome ∧ wd l.mchk = s.thl.lastMchk then loadRest k l s
    else if s.auditFull then (false, s)
    else loadRest k l (s.audit 0x0014 0xFF 0 0 s.thl.lastMchk (wd l.mchk))

/-- Whether the waveform tables pass: their CRC, and every mode's frames in every band (R167). -/
def wftOk (u : StartUp) (s : State) : Bool :=
  u.wfCrc == s.par 0x2028001C && (List.range 8).all fun m => (List.range 16).all fun b =>
    let f := (u.wf.frames.getD m []).getD b 0
    decide (1 ≤ f) && decide (f ≤ if m = 6 then 10 else 51)

/-- What follows a load at step 6: the waveform tables, and the comparison of the two SP copies on the first safety tick
(R29, R332). -/
def afterLoad (u : StartUp) (s : State) : State :=
  let s := { s with disp.wf := u.wf, disp.wftBad := !wftOk u s, safe.spOk := if u.spDiff then 0 else 1 }
  if u.spDiff && !s.safe.causes.getLsbD 6 then latchFault 6 s else s

/-- Step 6: the active slot, else the other, else SIMG_NONE with an empty fabric (R31). -/
def loader (u : StartUp) (s : State) : State :=
  let k := s.thl.act
  let r := loadFrom k s
  if r.1 then afterLoad u r.2
  else
    let q := loadFrom (1 - k) r.2
    if q.1 then causeBit 8 (afterLoad u q.2)
    else imdSync (recheck { q.2 with sys.simgNone := true })

/-! ### Step 7: the metrology kernel (R34, R104, R136, R137, R157, R167, R181) -/

/-- GAP_ESTIMATED of every enabled meter, and GAP_EST when a session carries the flag (R137). -/
def gapEntries (s : State) : State :=
  if s.jrn.gapDue then
    let s := forAll (fins 12) (fun (s : State) m =>
      if mEn s m then s.audit 0x000C m.val 0 0 0 (wd (gapWh s.jrn.mpwr[m])) else s) s
    if s.bill.core.sess.toList.any (fun o => o.any fun x => x.state == .stopping && x.flags.getLsbD 0) then causeBit 9 s else s
  else s

/-- The slices start again: no energy has been booked since they closed, and their time runs from now. -/
def restartSlices (s : State) : State :=
  s.modCore fun c => { c with
    slices := Vector.ofFn fun (m : MeterId) =>
      { c.slices[m] with imp := BitVec.ofNat 64 (s.view m false), exp := BitVec.ofNat 64 (s.view m true), ns := s.time.sysNs } }

/-- The boundaries of the outage, unless legal time has been lost (R136, R420). -/
def bootBoundaries (s : State) : State :=
  if s.time.lvalid then
    setTariff (if s.time.newestLegal = 0 then writeHeld s else outageBoundaries s.time.newestLegal.toInt s.legalMs s)
  else s

/-- The stop records that the last run left to make, after all boundaries (R136). -/
def bootStops (s : State) : State :=
  forAll (fins 8) (fun s n =>
    if s.bill.signing.any (fun r => r.rtype == 2 && r.port == some n) then s else writeStop n s) s

/-- The part in which metering resumes carries OUTAGE (R136). -/
def bootPart (s : State) : State :=
  (openPart (if s.time.lvalid then lastDemand s.par s.legalMs else s.legalMs) 0x8 s).modCore fun c =>
    { c with bpFrom := BitVec.ofNat 64 s.legalMs, part := { c.part with lostAt := c.lostW } }

/-- RECOVERY_LOSS: an audit entry for every lost area, whose code the spec does not number, and every outlet out of
service until the log has been read and MAINTAIN is left (R34). -/
def lossEntries (l : List SinterArea) (s : State) : State :=
  if l.isEmpty then s
  else
    let s := forAll l (fun (s : State) _ =>
      let d := s.draw
      d.2.audit 0x000D 0xFF 0 (Config.freeAt 6000 d.1) 0 0) s
    { s with sys.oos := 0xFF, sys.needAuditRead := true, sys.lossOos := 0xFF }

/-- The kernel starts. -/
def kernelStart (u : StartUp) (s : State) : State :=
  let s := gapEntries s
  let s := restartSlices s
  let s := forAll (fins 12) (fun s m => meterEnable m 0 s) s
  let s := forAll (fins 8) (fun s n => cancelSession n 2 s) s
  let s := bootPart (bootStops (bootBoundaries s))
  let s := forAll (fins 8) (fun s q => pulseRestart q s) s
  let s := lossEntries u.lost (auditTamper s)
  let s := if s.disp.wftBad then s.audit 0x0013 0xFF 0 0x100 0 u.wfCrc else s
  (queueRedraws s).journal false

/-- Step 7. With a failed ROM checksum the kernel does not run until the next start (R32). The first latch of a view compares
with the recovered accumulators (R104). -/
def bootKernel (u : StartUp) (s : State) : State :=
  let s := atNs u.at7 s
  let s := { s with met.wrapStart := Vector.ofFn fun (m : MeterId) => (wrapNum s.met.m[m].imp, wrapNum s.met.m[m].exp) }
  if u.romOk then kernelStart u s else causeBit 12 { s with sys.metFail := true, sys.oos := 0xFF }

/-! ### Step 8: the mode (R35) and the application cores -/

/-- The application cores are released to the host firmware, halted at ENTRY with the HALT strap, and the watchdog starts
(R29, R393, R444). -/
def releaseCores (s : State) : State :=
  if s.upd.fwnone then s
  else
    let halt := s.sys.straps.getLsbD 0 && s.sys.straps.getLsbD 2
    { s with sys.coresRun := true, sys.coresHalted := halt, sys.wdogRun := !halt }

/-- The confirmation window of an image in trial (R404). -/
def startWindow (s : State) : State :=
  if s.upd.st = .trial then { s with upd.winFrom := some s.time.sysNs, upd.winMin := s.upd.confwin } else s

/-- The vehicle ports leave OFF with START (R224): a PLC port is IDLE, a 10BASE-T1S port has its link down (DEDUCED);
TXATT takes the image's value (R201). -/
def portsListen (s : State) : State :=
  forAll (fins 8) (fun s n => s.modLink n fun l =>
    { l with lstate := if isPlc s n then .idle else .linkDown,
             txatt := BitVec.ofNat 5 (min 30 (s.pf (vpBase n + 0x100) 20 16)) }) s

/-- Step 8. -/
def bootMode (s : State) : State :=
  let s := portsListen (pilotsStart s)
  let s := s.evlog 0x0003 0xFF (wd s.sys.rstCause.toNat) s.thl.imgId (wd (mfVersion (manifestAt s actMan)))
  let s := startWindow s
  if s.safe.latch then releaseCores (setMode .lockout s)
  else if s.sys.hot then
    trialFails (setMode .degraded { s with sys.degCause := some .therm, sys.degSince := s.time.sysNs })
  else releaseCores (setMode (normalMode s) s)

/-! ### The commands -/

/-- A reset with its cause bits, and the whole start-up sequence. -/
def startUp (cause : BitVec 13) (u : StartUp) (s : State) : State :=
  let s := settle (tornFlash s)
  let s := if u.older.isEmpty then s else { s with jrn := olderJrn u.older s }
  let rolled := openTxns s.txn
  let old := s.sys.mode
  let s := bootSelftest u (bootTime old u (bootSupply u (afterReset cause u s)))
  if s.sys.step3Stop then s
  else bootMode (bootKernel u (loader u (recovery u rolled (bootManager u s))))

/-- VSUP_RISE: VSUP rises above 7.5 V, from RETAIN, after a cut, or at the very first start. A device that holds after a
save waits until the warning clears (R47, R59). -/
def vsupRise (u : StartUp) (s : State) : State :=
  if s.sys.power = .off ∨ s.sys.power = .cut ∨ (s.sys.power = .running ∧ s.sys.mode = .start) then startUp 0x1 u s else s

def execVsupRise (u : StartUp) (s : State) : Host.Outcome State Fault Refusal := .next (vsupRise u s)

/-- NRST_RESET: nRST is asserted and released while VSUP is present. -/
def nrstReset (u : StartUp) (s : State) : State :=
  if s.sys.power = .running ∨ s.sys.power = .held then startUp 0x2 u s else s

def execNrstReset (u : StartUp) (s : State) : Host.Outcome State Fault Refusal := .next (nrstReset u s)

/-- Whether no selected source holds the warning: VSUP has risen 0.5 V above the threshold once the comparator has raised it,
and the level of the PFW ball is low (R58). -/
def pfwGone (ball : Bool) (u : StartUp) (s : State) : Bool :=
  !(pfwCmpSel s && decide (u.vsup.toNat < pfwLevel s + if s.sys.pfwCmp then 50 else 0)) && !(pfwBallSel s && ball)

/-- PFW_CLEAR: the warning clears after a save, with VSUP at or above 7.0 V (R47, R62). -/
def pfwClear (ball : Bool) (u : StartUp) (s : State) : State :=
  if s.sys.power = .held ∧ pfwGone ball u s ∧ 700 ≤ u.vsup.toNat then startUp 0 u s else s

def execPfwClear (ball : Bool) (u : StartUp) (s : State) : Host.Outcome State Fault Refusal := .next (pfwClear ball u s)

/-- Whether every session has been closed and signed. -/
def allSigned (s : State) : Bool :=
  s.bill.core.sess.toList.all (·.isNone) && s.bill.signing.all (fun r => r.port.isNone)

/-- DEGRADED_AUTO_RESET: the delay of R41 has run since the entry to DEGRADED. -/
def degAutoReset (u : StartUp) (s : State) : State :=
  if s.sys.mode = .degraded ∧ s.sys.autorstEn ∧ allSigned s ∧ (s.sys.degCause ≠ some .therm ∨ !s.sys.hot) then startUp 0x20 u s
  else s

def execDegradedAutoReset (u : StartUp) (s : State) : Host.Outcome State Fault Refusal := live s (degAutoReset u)

/-- Whether no session is OPENED, RUNNING or STOPPING. -/
def noSession (s : State) : Bool := s.bill.core.sess.toList.all (·.isNone)

/-- ACTIVATION_RESET: the reset that UPD_ACTIVATE asked for (R402). -/
def activationReset (u : StartUp) (s : State) : State :=
  if s.upd.st = .pending_ ∧ s.upd.resetAct ∧ noSession s then startUp 0 u s else s

def execActivationReset (u : StartUp) (s : State) : Host.Outcome State Fault Refusal := live s (activationReset u)

/-- REJECTION_RESET: the reset after a rejection (R406). -/
def rejectionReset (u : StartUp) (s : State) : State :=
  if s.upd.st = .rejected ∧ s.upd.resetRej ∧ noSession s then startUp 0 u s else s

def execRejectionReset (u : StartUp) (s : State) : Host.Outcome State Fault Refusal := live s (rejectionReset u)

/-- TRIAL_DEGRADED_RESET: the reset after a DEGRADED entry in trial (R405). -/
def trialReset (u : StartUp) (s : State) : State :=
  if s.upd.st = .trial ∧ s.upd.resetDeg ∧ s.sys.mode = .degraded ∧ allSigned s then startUp 0 u s else s

def execTrialDegradedReset (u : StartUp) (s : State) : Host.Outcome State Fault Refusal := live s (trialReset u)

end Sys2Proof.Machine
end

