-- ==== Sys2Proof/Machine/Dispatch.lean ====
section
/-! DEFINITION. The dispatch of the commands: one arm per constructor, each one call of its meaning. -/

namespace Sys2Proof.Machine

/-- A command's effect on everything but the queue. -/
def exec (i : Instr) (s : State) : Host.Outcome State Fault Refusal :=
  match i with
  | .vsupRise u => Sys2Proof.Machine.execVsupRise u s
  | .nrstReset u => Sys2Proof.Machine.execNrstReset u s
  | .holdupCapMeasured t vsup => Sys2Proof.Machine.execHoldupCapMeasured t vsup s
  | .powerFailWarning src vhold tail => Sys2Proof.Machine.execPowerFailWarning src vhold tail s
  | .pfwClear ball u => Sys2Proof.Machine.execPfwClear ball u s
  | .vsupBelowRetain => Sys2Proof.Machine.execVsupBelowRetain s
  | .cutWithoutSave steps tail => Sys2Proof.Machine.execCutWithoutSave steps tail s
  | .wdogKick v => Sys2Proof.Machine.execWdogKick v s
  | .wdogExpiry => Sys2Proof.Machine.execWdogExpiry s
  | .meshAckTimeout => Sys2Proof.Machine.execMeshAckTimeout s
  | .sramUncorrectableFetch core a => Sys2Proof.Machine.execSramUncorrectableFetch core a s
  | .thermalStage1 => Sys2Proof.Machine.execThermalStage1 s
  | .thermalStage2 => Sys2Proof.Machine.execThermalStage2 s
  | .thermalClear => Sys2Proof.Machine.execThermalClear s
  | .degradedAutoReset u => Sys2Proof.Machine.execDegradedAutoReset u s
  | .degcfgWrite v => Sys2Proof.Machine.execDegcfgWrite v s
  | .lorstPulse step => Sys2Proof.Machine.execLorstPulse step s
  | .vcoreLevelWrite v => Sys2Proof.Machine.execVcoreLevelWrite v s
  | .budgetShed avg => Sys2Proof.Machine.execBudgetShed avg s
  | .budgetGrantTimeout c => Sys2Proof.Machine.execBudgetGrantTimeout c s
  | .shedReenable => Sys2Proof.Machine.execShedReenable s
  | .fineSample g => Sys2Proof.Machine.execFineSample g s
  | .fastSample g bits miss => Sys2Proof.Machine.execFastSample g bits miss s
  | .rangeSwitchDown p => Sys2Proof.Machine.execRangeSwitchDown p s
  | .rangeSelfcheckBlock p => Sys2Proof.Machine.execRangeSelfcheckBlock p s
  | .manchesterLoss n => Sys2Proof.Machine.execManchesterLoss n s
  | .manchesterLossClear n => Sys2Proof.Machine.execManchesterLossClear n s
  | .stuck n => Sys2Proof.Machine.execStuck n s
  | .stuckClear n => Sys2Proof.Machine.execStuckClear n s
  | .gainRefresh => Sys2Proof.Machine.execGainRefresh s
  | .lineLost => Sys2Proof.Machine.execLineLost s
  | .filterSelftest first second => Sys2Proof.Machine.execFilterSelftest first second s
  | .adcSlotDwellEnd a => Sys2Proof.Machine.execAdcSlotDwellEnd a s
  | .adcCoarseValue a bits => Sys2Proof.Machine.execAdcCoarseValue a bits s
  | .adcFineValue a => Sys2Proof.Machine.execAdcFineValue a s
  | .adcCalStale a => Sys2Proof.Machine.execAdcCalStale a s
  | .meterInvalid m => Sys2Proof.Machine.execMeterInvalid m s
  | .meterInvalidStop m => Sys2Proof.Machine.execMeterInvalidStop m s
  | .meterSecond m => Sys2Proof.Machine.execMeterSecond m s
  | .phseqTimeout m => Sys2Proof.Machine.execPhseqTimeout m s
  | .pulseEmit q => Sys2Proof.Machine.execPulseEmit q s
  | .readAcc c => Sys2Proof.Machine.execReadAcc c s
  | .snapshot c => Sys2Proof.Machine.execSnapshot c s
  | .readPq c => Sys2Proof.Machine.execReadPq c s
  | .readHarm c => Sys2Proof.Machine.execReadHarm c s
  | .readBalance c => Sys2Proof.Machine.execReadBalance c s
  | .clearStats c => Sys2Proof.Machine.execClearStats c s
  | .journalPeriod => Sys2Proof.Machine.execJournalPeriod s
  | .demandBoundary => Sys2Proof.Machine.execDemandBoundary s
  | .billingPeriodClose => Sys2Proof.Machine.execBillingPeriodClose s
  | .tariffSwitch => Sys2Proof.Machine.execTariffSwitch s
  | .sessionOpen c => Sys2Proof.Machine.execSessionOpen c s
  | .sessionCancel c => Sys2Proof.Machine.execSessionCancel c s
  | .sessionStatus c => Sys2Proof.Machine.execSessionStatus c s
  | .sessionOpenedTimeout n => Sys2Proof.Machine.execSessionOpenedTimeout n s
  | .signRequestDone => Sys2Proof.Machine.execSignRequestDone s
  | .readRecord c => Sys2Proof.Machine.execReadRecord c s
  | .ackRecord c => Sys2Proof.Machine.execAckRecord c s
  | .readOcmf c => Sys2Proof.Machine.execReadOcmf c s
  | .readOcmfDone => Sys2Proof.Machine.execReadOcmfDone s
  | .readDemand c => Sys2Proof.Machine.execReadDemand c s
  | .creditCheck n => Sys2Proof.Machine.execCreditCheck n s
  | .readAudit c => Sys2Proof.Machine.execReadAudit c s
  | .archiveBegin c => Sys2Proof.Machine.execArchiveBegin c s
  | .archiveSealDone => Sys2Proof.Machine.execArchiveSealDone s
  | .archiveCommit c => Sys2Proof.Machine.execArchiveCommit c s
  | .setTime c => Sys2Proof.Machine.execSetTime c s
  | .readTime c => Sys2Proof.Machine.execReadTime c s
  | .rtcTrim c => Sys2Proof.Machine.execRtcTrim c s
  | .keyPress row col twin => Sys2Proof.Machine.execKeyPress row col twin s
  | .tokenEntryTimeout => Sys2Proof.Machine.execTokenEntryTimeout s
  | .pendingTokenExpiry n => Sys2Proof.Machine.execPendingTokenExpiry n s
  | .tokenLockExpiry => Sys2Proof.Machine.execTokenLockExpiry s
  | .tokenResult c => Sys2Proof.Machine.execTokenResult c s
  | .tokenOpen c => Sys2Proof.Machine.execTokenOpen c s
  | .tokenDiscard c => Sys2Proof.Machine.execTokenDiscard c s
  | .ledgerRead c => Sys2Proof.Machine.execLedgerRead c s
  | .tokenKeyLoad c => Sys2Proof.Machine.execTokenKeyLoad c s
  | .tokenKeyInfo c => Sys2Proof.Machine.execTokenKeyInfo c s
  | .keyFifoRead => Sys2Proof.Machine.execKeyFifoRead s
  | .dispUpdateRequest region mode => Sys2Proof.Machine.execDispUpdateRequest region mode s
  | .legalRedrawPeriod n => Sys2Proof.Machine.execLegalRedrawPeriod n s
  | .updateStart slot => Sys2Proof.Machine.execUpdateStart slot s
  | .updateEnd region => Sys2Proof.Machine.execUpdateEnd region s
  | .railIdleTimeout => Sys2Proof.Machine.execRailIdleTimeout s
  | .railFault rail => Sys2Proof.Machine.execRailFault rail s
  | .railRetry => Sys2Proof.Machine.execRailRetry s
  | .dispClrcnt => Sys2Proof.Machine.execDispClrcnt s
  | .pilotPeriodEnd n samples => Sys2Proof.Machine.execPilotPeriodEnd n samples s
  | .pilotCtlWrite n w => Sys2Proof.Machine.execPilotCtlWrite n w s
  | .vpPevtClrcnt n => Sys2Proof.Machine.execVpPevtClrcnt n s
  | .cmStartAttenCharInd n mac run announced => Sys2Proof.Machine.execCmStartAttenCharInd n mac run announced s
  | .cmMnbcSoundInd n mac run groups => Sys2Proof.Machine.execCmMnbcSoundInd n mac run groups s
  | .cmSlacParamReq mac run => Sys2Proof.Machine.execCmSlacParamReq mac run s
  | .slacWindowClose mac run => Sys2Proof.Machine.execSlacWindowClose mac run s
  | .cmAttenCharRsp n mac run => Sys2Proof.Machine.execCmAttenCharRsp n mac run s
  | .cmSlacMatchReq n mac run => Sys2Proof.Machine.execCmSlacMatchReq n mac run s
  | .cmValidateReq n mac => Sys2Proof.Machine.execCmValidateReq n mac s
  | .slacMatchTimeout n => Sys2Proof.Machine.execSlacMatchTimeout n s
  | .xrCapCnf n version => Sys2Proof.Machine.execXrCapCnf n version s
  | .xrCapTimeout n => Sys2Proof.Machine.execXrCapTimeout n s
  | .xr6Fallback n => Sys2Proof.Machine.execXr6Fallback n s
  | .switchingAnnouncement src at_ => Sys2Proof.Machine.execSwitchingAnnouncement src at_ s
  | .switchingWindowEnd n => Sys2Proof.Machine.execSwitchingWindowEnd n s
  | .frameReceive n kind frame samples => Sys2Proof.Machine.execFrameReceive n kind frame samples s
  | .rxCoalTimeout n => Sys2Proof.Machine.execRxCoalTimeout n s
  | .txPush n w => Sys2Proof.Machine.execTxPush n w s
  | .frameTransmitDone n air => Sys2Proof.Machine.execFrameTransmitDone n air s
  | .txTimeout n slot => Sys2Proof.Machine.execTxTimeout n slot s
  | .linkSupervisionTimeout n => Sys2Proof.Machine.execLinkSupervisionTimeout n s
  | .tlsKeyWord n w => Sys2Proof.Machine.execTlsKeyWord n w s
  | .tlsInsttx n => Sys2Proof.Machine.execTlsInsttx n s
  | .tlsInstrx n => Sys2Proof.Machine.execTlsInstrx n s
  | .tlsClear n => Sys2Proof.Machine.execTlsClear n s
  | .tlsProtect n ctype len => Sys2Proof.Machine.execTlsProtect n ctype len s
  | .tlsUnprotect n len => Sys2Proof.Machine.execTlsUnprotect n len s
  | .tlsOpComplete n unprotect => Sys2Proof.Machine.execTlsOpComplete n unprotect s
  | .slacRearm n => Sys2Proof.Machine.execSlacRearm n s
  | .vpLevtClrcnt n => Sys2Proof.Machine.execVpLevtClrcnt n s
  | .safetyTick si lorst spDiff => Sys2Proof.Machine.execSafetyTick si lorst spDiff s
  | .rampTimeout n => Sys2Proof.Machine.execRampTimeout n s
  | .coilAnnounceExpiry c => Sys2Proof.Machine.execCoilAnnounceExpiry c s
  | .closeConditionsMet c => Sys2Proof.Machine.execCloseConditionsMet c s
  | .pullinEnd c => Sys2Proof.Machine.execPullinEnd c s
  | .coilPullinSlow c => Sys2Proof.Machine.execCoilPullinSlow c s
  | .coilOvercurrent c => Sys2Proof.Machine.execCoilOvercurrent c s
  | .coilHoldUndercurrent c => Sys2Proof.Machine.execCoilHoldUndercurrent c s
  | .pulseTest c high pass => Sys2Proof.Machine.execPulseTest c high pass s
  | .pulseTestStale c => Sys2Proof.Machine.execPulseTestStale c s
  | .lockoutCoilRetest c high pass => Sys2Proof.Machine.execLockoutCoilRetest c high pass s
  | .testPulse b low => Sys2Proof.Machine.execTestPulse b low s
  | .discrepancyLockout j => Sys2Proof.Machine.execDiscrepancyLockout j s
  | .rearmInputEdge => Sys2Proof.Machine.execRearmInputEdge s
  | .feedbackChange k => Sys2Proof.Machine.execFeedbackChange k s
  | .feedbackCloseTimeout c => Sys2Proof.Machine.execFeedbackCloseTimeout c s
  | .feedbackOpenTimeout c => Sys2Proof.Machine.execFeedbackOpenTimeout c s
  | .weldWindowEnd c => Sys2Proof.Machine.execWeldWindowEnd c s
  | .tripChannelInvalid n => Sys2Proof.Machine.execTripChannelInvalid n s
  | .imdDwellEnd g => Sys2Proof.Machine.execImdDwellEnd g s
  | .imdUnknownTimeout g => Sys2Proof.Machine.execImdUnknownTimeout g s
  | .tempSensorStale n k => Sys2Proof.Machine.execTempSensorStale n k s
  | .overvoltageSlow n => Sys2Proof.Machine.execOvervoltageSlow n s
  | .overcurrentSecond n => Sys2Proof.Machine.execOvercurrentSecond n s
  | .pilotDisagreement n => Sys2Proof.Machine.execPilotDisagreement n s
  | .lockstepMismatch => Sys2Proof.Machine.execLockstepMismatch s
  | .lockstepTokenTimeout => Sys2Proof.Machine.execLockstepTokenTimeout s
  | .calderaSramUncorrectable => Sys2Proof.Machine.execCalderaSramUncorrectable s
  | .calderaPathParity onMesh => Sys2Proof.Machine.execCalderaPathParity onMesh s
  | .calderaRestartSelftest step => Sys2Proof.Machine.execCalderaRestartSelftest step s
  | .tieMatchTimeout c => Sys2Proof.Machine.execTieMatchTimeout c s
  | .closeReqTimeout c => Sys2Proof.Machine.execCloseReqTimeout c s
  | .canBusOff b => Sys2Proof.Machine.execCanBusOff b s
  | .hoursLimit => Sys2Proof.Machine.execHoursLimit s
  | .tripdueLimit n => Sys2Proof.Machine.execTripdueLimit n s
  | .confirmEntryTimeout => Sys2Proof.Machine.execConfirmEntryTimeout s
  | .confirmBlockExpiry => Sys2Proof.Machine.execConfirmBlockExpiry s
  | .connect p => Sys2Proof.Machine.execConnect p s
  | .data p => Sys2Proof.Machine.execData p s
  | .resetPress p => Sys2Proof.Machine.execResetPress p s
  | .resetRelease p step => Sys2Proof.Machine.execResetRelease p step s
  | .linkRearm p => Sys2Proof.Machine.execLinkRearm p s
  | .linkConfirm p => Sys2Proof.Machine.execLinkConfirm p s
  | .linkCycle k => Sys2Proof.Machine.execLinkCycle k s
  | .linkWatchdogExpiry k => Sys2Proof.Machine.execLinkWatchdogExpiry k s
  | .linkRetry k => Sys2Proof.Machine.execLinkRetry k s
  | .linkDualSkewExpiry k => Sys2Proof.Machine.execLinkDualSkewExpiry k s
  | .closeReq c => Sys2Proof.Machine.execCloseReq c s
  | .stop c => Sys2Proof.Machine.execStop c s
  | .setLimits c => Sys2Proof.Machine.execSetLimits c s
  | .rearm c => Sys2Proof.Machine.execRearm c s
  | .setOos c => Sys2Proof.Machine.execSetOos c s
  | .contactorReplaced c => Sys2Proof.Machine.execContactorReplaced c s
  | .readChkval c => Sys2Proof.Machine.execReadChkval c s
  | .linkKeyLoad c => Sys2Proof.Machine.execLinkKeyLoad c s
  | .tripTest c pass => Sys2Proof.Machine.execTripTest c pass s
  | .readSlog c => Sys2Proof.Machine.execReadSlog c s
  | .slogRelease c => Sys2Proof.Machine.execSlogRelease c s
  | .loadCmdWrite n cmd => Sys2Proof.Machine.execLoadCmdWrite n cmd s
  | .loadClrlatch n cool => Sys2Proof.Machine.execLoadClrlatch n cool s
  | .loadThermalEvent n guard temp => Sys2Proof.Machine.execLoadThermalEvent n guard temp s
  | .loadChannelRestart n => Sys2Proof.Machine.execLoadChannelRestart n s
  | .loadIlimEntry n => Sys2Proof.Machine.execLoadIlimEntry n s
  | .inrushWindowEnd n => Sys2Proof.Machine.execInrushWindowEnd n s
  | .uvholdSet => Sys2Proof.Machine.execUvholdSet s
  | .uvholdClear => Sys2Proof.Machine.execUvholdClear s
  | .deferredTurnOn => Sys2Proof.Machine.execDeferredTurnOn s
  | .loadSenseselWrite ch => Sys2Proof.Machine.execLoadSenseselWrite ch s
  | .sensetest => Sys2Proof.Machine.execSensetest s
  | .sensetestEnd => Sys2Proof.Machine.execSensetestEnd s
  | .loadWdogStart => Sys2Proof.Machine.execLoadWdogStart s
  | .loadWdogService resp => Sys2Proof.Machine.execLoadWdogService resp s
  | .loadWdogLate => Sys2Proof.Machine.execLoadWdogLate s
  | .loadWdrel => Sys2Proof.Machine.execLoadWdrel s
  | .loadClrcnt => Sys2Proof.Machine.execLoadClrcnt s
  | .slotErase k => Sys2Proof.Machine.execSlotErase k s
  | .slotWrite k => Sys2Proof.Machine.execSlotWrite k s
  | .slotVerify k => Sys2Proof.Machine.execSlotVerify k s
  | .slotSwitch k => Sys2Proof.Machine.execSlotSwitch k s
  | .slotCommandDone ok => Sys2Proof.Machine.execSlotCommandDone ok s
  | .prStage => Sys2Proof.Machine.execPrStage s
  | .prStagingDone => Sys2Proof.Machine.execPrStagingDone s
  | .prDiscard => Sys2Proof.Machine.execPrDiscard s
  | .configScrubCorrect p => Sys2Proof.Machine.execConfigScrubCorrect p s
  | .configUncorrectable p chans => Sys2Proof.Machine.execConfigUncorrectable p chans s
  | .fabricParityError p => Sys2Proof.Machine.execFabricParityError p s
  | .thlGoutWrite v => Sys2Proof.Machine.execThlGoutWrite v s
  | .thlClrcnt => Sys2Proof.Machine.execThlClrcnt s
  | .versions svc c => Sys2Proof.Machine.execVersions svc c s
  | .txnBegin c => Sys2Proof.Machine.execTxnBegin c s
  | .txnCommit c => Sys2Proof.Machine.execTxnCommit c s
  | .txnCommitDone agree => Sys2Proof.Machine.execTxnCommitDone agree s
  | .txnRollback c => Sys2Proof.Machine.execTxnRollback c s
  | .txnRenew c => Sys2Proof.Machine.execTxnRenew c s
  | .txnPut c => Sys2Proof.Machine.execTxnPut c s
  | .txnLeaseExpiry d => Sys2Proof.Machine.execTxnLeaseExpiry d s
  | .rwtShadowWrite a v => Sys2Proof.Machine.execRwtShadowWrite a v s
  | .compatWrite blk req => Sys2Proof.Machine.execCompatWrite blk req s
  | .txnClrcnt => Sys2Proof.Machine.execTxnClrcnt s
  | .meshParityError req a onResponse => Sys2Proof.Machine.execMeshParityError req a onResponse s
  | .sramScrubCorrect => Sys2Proof.Machine.execSramScrubCorrect s
  | .meshClrcnt => Sys2Proof.Machine.execMeshClrcnt s
  | .dmaEnable c par => Sys2Proof.Machine.execDmaEnable c par s
  | .dmaDisable c => Sys2Proof.Machine.execDmaDisable c s
  | .dmaAbort c => Sys2Proof.Machine.execDmaAbort c s
  | .dmaKick c par => Sys2Proof.Machine.execDmaKick c par s
  | .dmaRequestAssert r => Sys2Proof.Machine.execDmaRequestAssert r s
  | .dmaBurstGrant prefetch ecc par => Sys2Proof.Machine.execDmaBurstGrant prefetch ecc par s
  | .dmaBurstDone c par => Sys2Proof.Machine.execDmaBurstDone c par s
  | .dmaClrcnt => Sys2Proof.Machine.execDmaClrcnt s
  | .updBegin c => Sys2Proof.Machine.execUpdBegin c s
  | .updBeginDone ok => Sys2Proof.Machine.execUpdBeginDone ok s
  | .updSpore c => Sys2Proof.Machine.execUpdSpore c s
  | .updMissing c => Sys2Proof.Machine.execUpdMissing c s
  | .updVerify c => Sys2Proof.Machine.execUpdVerify c s
  | .updVerifyDone ok => Sys2Proof.Machine.execUpdVerifyDone ok s
  | .updActivate c => Sys2Proof.Machine.execUpdActivate c s
  | .activationReset u => Sys2Proof.Machine.execActivationReset u s
  | .updCancel c => Sys2Proof.Machine.execUpdCancel c s
  | .updConfirm c => Sys2Proof.Machine.execUpdConfirm c s
  | .updReport c => Sys2Proof.Machine.execUpdReport c s
  | .updStatus c => Sys2Proof.Machine.execUpdStatus c s
  | .confWindowWarning => Sys2Proof.Machine.execConfWindowWarning s
  | .confWindowExpiry => Sys2Proof.Machine.execConfWindowExpiry s
  | .rejectionReset u => Sys2Proof.Machine.execRejectionReset u s
  | .trialDegradedReset u => Sys2Proof.Machine.execTrialDegradedReset u s
  | .setOpen c => Sys2Proof.Machine.execSetOpen c s
  | .setOpenDone ok => Sys2Proof.Machine.execSetOpenDone ok s
  | .setWrite c => Sys2Proof.Machine.execSetWrite c s
  | .setCommit c => Sys2Proof.Machine.execSetCommit c s
  | .keyRotate c => Sys2Proof.Machine.execKeyRotate c s
  | .secSha256 p k len => Sys2Proof.Machine.execSecSha256 p k len s
  | .secSha384 p k len => Sys2Proof.Machine.execSecSha384 p k len s
  | .secHmacSha256 p k len => Sys2Proof.Machine.execSecHmacSha256 p k len s
  | .secGcmEncrypt p k len => Sys2Proof.Machine.execSecGcmEncrypt p k len s
  | .secGcmDecrypt p k len => Sys2Proof.Machine.execSecGcmDecrypt p k len s
  | .secCmac p k len => Sys2Proof.Machine.execSecCmac p k len s
  | .secEcdsaSign p k len => Sys2Proof.Machine.execSecEcdsaSign p k len s
  | .secEcdsaVerify p k len => Sys2Proof.Machine.execSecEcdsaVerify p k len s
  | .secEcdh p k len => Sys2Proof.Machine.execSecEcdh p k len s
  | .secGenkey p k len => Sys2Proof.Machine.execSecGenkey p k len s
  | .secImport p k len => Sys2Proof.Machine.execSecImport p k len s
  | .secRandom p k len => Sys2Proof.Machine.execSecRandom p k len s
  | .secAttest p k len => Sys2Proof.Machine.execSecAttest p k len s
  | .secOpComplete => Sys2Proof.Machine.execSecOpComplete s
  | .tamper det => Sys2Proof.Machine.execTamper det s
  | .updClrcnt => Sys2Proof.Machine.execUpdClrcnt s
  | .rtcLoad => Sys2Proof.Machine.execRtcLoad s
  | .rtcCompReading t n => Sys2Proof.Machine.execRtcCompReading t n s
  | .refdevMeasure dev => Sys2Proof.Machine.execRefdevMeasure dev s
  | .vbakMeasure v => Sys2Proof.Machine.execVbakMeasure v s
  | .evlDropSecond => Sys2Proof.Machine.execEvlDropSecond s
  | .evlClrcnt => Sys2Proof.Machine.execEvlClrcnt s
  | .rosLowRead req a size => Sys2Proof.Machine.execRosLowRead req a size s
  | .plicClaim ctx => Sys2Proof.Machine.execPlicClaim ctx s
  | .plicComplete ctx src => Sys2Proof.Machine.execPlicComplete ctx src s
  | .ethFrameReceive m frame good step => Sys2Proof.Machine.execEthFrameReceive m frame good step s
  | .ethFrameTransmit m => Sys2Proof.Machine.execEthFrameTransmit m s
  | .ethLinkChange m up speed full => Sys2Proof.Machine.execEthLinkChange m up speed full s
  | .ethClrcnt m => Sys2Proof.Machine.execEthClrcnt m s
  | .canFrameReceive b f => Sys2Proof.Machine.execCanFrameReceive b f s
  | .canFrameTransmit b sent => Sys2Proof.Machine.execCanFrameTransmit b sent s
  | .canTxTimeout b => Sys2Proof.Machine.execCanTxTimeout b s
  | .canSfLoad b e => Sys2Proof.Machine.execCanSfLoad b e s
  | .canSfClear b e => Sys2Proof.Machine.execCanSfClear b e s
  | .canRecov b => Sys2Proof.Machine.execCanRecov b s
  | .canBusoffRecovered b => Sys2Proof.Machine.execCanBusoffRecovered b s
  | .canErrorStateChange b tec rcc => Sys2Proof.Machine.execCanErrorStateChange b tec rcc s
  | .canClrcnt b => Sys2Proof.Machine.execCanClrcnt b s
  | .gpioEdge n v => Sys2Proof.Machine.execGpioEdge n v s
  | .registerWrite req a size v => Sys2Proof.Machine.execRegisterWrite req a size v s
  | .holdReady vsup vhold => Sys2Proof.Machine.execHoldReady vsup vhold s
  | .keyRelease => Sys2Proof.Machine.execKeyRelease s
  | .coreResume => Sys2Proof.Machine.execCoreResume s
  | .dmaRequestWithdraw r => Sys2Proof.Machine.execDmaRequestWithdraw r s
  | .configScrubPass ms => Sys2Proof.Machine.execConfigScrubPass ms s
  | .sramScrubPass ms => Sys2Proof.Machine.execSramScrubPass ms s
  | .gPartitionSignal g => Sys2Proof.Machine.execGPartitionSignal g s
  | .wearLevellingMove => Sys2Proof.Machine.execWearLevellingMove s
  | .loadIlimExit n => Sys2Proof.Machine.execLoadIlimExit n s
  | .railsUp => Sys2Proof.Machine.execRailsUp s

end Sys2Proof.Machine
end

