-- ==== Sys2Proof/Machine/Idle.lean ====
section
/-! DEFINITION. What happens while no command waits: time passes (R412, R413), and with it what needs no command. -/

namespace Sys2Proof.Machine

/-- One period of the reference while the device runs: the boundaries that it lets be made (R101), the display's rails (R165)
and the pulse generators (R324). -/
def idle (s : State) : State :=
  if s.sys.power = .running then pulseStep (railStep (settleBounds (refPeriod s))) else s

end Sys2Proof.Machine
end

