-- ==== Sys2Proof/Machine/Balls.lean ====
section
/-! DEFINITION. The state of the balls in each power state and mode (R457, R474, R475). The balls whose level follows from a
running function of the device are `driven` by it, under the rule of that function. -/

namespace Sys2Proof.Machine

/-- The balls of R474. -/
inductive Ball where
  | coil (c : Fin 12)       -- HSn and LSn
  | testPulse (b : Bool)    -- TPA, TPB
  | load (n : Fin 10)
  | lsense
  | pilot (n : Port)        -- CPOn
  | plc (n : Port)          -- PLCPn, PLCNn
  | mb (n : Fin 32)         -- MBn, an output where a G partition drives it (R330)
  | mclk (g : Fin 2)
  | pulse (q : Fin 8)       -- PLS0 to PLS7
  | vrefc | vio33 | vaux5
  | display
  | sgmii (m : Fin 2)
  | canTx (b : Fin 3)
  | gp (n : Fin 8)
  | nflt
  | safeIn (i : Fin 16)     -- SI0 to SI15
  | cps (n : Port) | pps (n : Port)
  | ain (a : Fin 12)
  | sgmiiRx (m : Fin 2)
  | canRx (b : Fin 3)
  | nrst | pfw | lorst
  | x25 | x32               -- X25I and X25O, X32I and X32O
  | debug                   -- TCKC, TMSC
  deriving DecidableEq, Repr

/-- The state of a ball: an output's level, or that a function drives it, electrical idle or high impedance; an input, with
its pull, its input current or its termination; a crystal's oscillation; and a line that is ignored. -/
inductive BallState where
  | highZ | low | high | idle | driven | input | pullUp | pullDown | drawing | terminated | oscillating | ignored
  deriving DecidableEq, Repr

/-- A level as a state of a ball. -/
def BallState.ofLevel (b : Bool) : BallState := if b then .high else .low

/-- The modes in which nFLT is released (R457). -/
def nfltFree : Mode → Bool
  | .commission | .service | .maintain | .retain => true
  | .start | .activate | .degraded | .lockout => false

/-- The state of a ball in reset (R474). -/
def ballInReset : Ball → BallState
  | .coil _ | .testPulse _ | .load _ | .lsense | .plc _ | .ain _ => .highZ
  | .pilot _ | .mclk _ | .pulse _ | .vrefc | .vio33 | .vaux5 | .display | .nflt => .low
  | .sgmii _ => .idle
  | .canTx _ => .high
  | .gp n => if n.val < 3 then .pullDown else .input
  | .mb _ | .cps _ | .canRx _ | .pfw => .input
  | .pps _ | .nrst => .pullUp
  | .lorst => .pullDown
  | .safeIn _ => .drawing
  | .sgmiiRx _ => .terminated
  | .x25 | .x32 => .oscillating
  | .debug => .ignored

/-- The step of the start-up up to which R474 keeps a ball in its state in reset; the other groups have events of their own. -/
def ballStep : Ball → Nat
  | .coil _ | .testPulse _ => 3
  | .load _ | .lsense => 5
  | .mclk _ | .pulse _ | .mb _ => 6
  | .pilot _ => 10
  | .vrefc | .vio33 | .vaux5 => 1
  | .sgmii _ | .canTx _ => 8
  | .gp _ | .debug => 2
  | .safeIn _ => 3
  | .cps _ | .pps _ | .ain _ => 1
  | .plc _ | .display | .nflt | .sgmiiRx _ | .canRx _ | .nrst | .pfw | .lorst | .x25 | .x32 => 0

/-- The last step that a start-up has carried out: one that step 3 stopped never begins its work there (R32). -/
def startStep (s : State) : Nat := if s.sys.mode = .start then 0 else if s.sys.step3Stop then 2 else 10

/-- The state of a ball, by its number as in the port map, that the port map gives to a G partition: its level where the
partition drives it, else an input. -/
def ballGiven (s : State) (b : Nat) : BallState :=
  if Config.portDrives s.thl.portMap b then .ofLevel (s.thl.ball.getLsbD b) else .input

/-- A pin of GPIO: the scanner drives the rows and pulls the columns up, and a pin of GPIO's own is an output where DIR says
so (R445, R447). -/
def gpBall (s : State) (n : Fin 8) : BallState :=
  match gpOwner s n with
  | 0 => if s.gpio.dir.getLsbD n.val then .ofLevel (s.gpio.out.getLsbD n.val) else .input
  | 1 => if n.val < 4 then .driven else .pullUp
  | _ => ballGiven s (40 + n.val)

/-- The state of a ball outside reset: the levels that the model holds, and `driven` for the waveforms of a function. -/
def ballRunning (s : State) : Ball → BallState
  | .nflt => if nfltFree s.sys.mode then .highZ else .low
  | .load n => .ofLevel (ldBall s n)
  | .mb n => if (ballOwner s n.val).isSome then ballGiven s n.val else .input
  | .pulse q => if (ballOwner s (32 + q.val)).isSome then ballGiven s (32 + q.val) else .ofLevel (plsLevel s q)
  | .gp n => gpBall s n
  | .coil c => if (s.safe.coil[c]).drive = .off then .highZ else .driven
  | .testPulse _ => .high
  | .mclk g => if grpEn s g then .driven else .low
  | .display => if s.disp.rails = .down then .low else .driven
  | .plc n => if (s.vp[n]).link.lstate = .off ∨ portOn s n = false then .highZ else .driven
  | .debug => if s.sys.straps.getLsbD 0 then .driven else .ignored
  | b@(.safeIn _) | b@(.cps _) | b@(.pps _) | b@(.ain _) | b@(.sgmiiRx _) | b@(.canRx _) | b@.nrst | b@.pfw | b@.lorst
  | b@.x25 | b@.x32 => ballInReset b
  | .lsense | .pilot _ | .vrefc | .vio33 | .vaux5 | .sgmii _ | .canTx _ => .driven

/-- The state of a ball in RETAIN: unpowered, nFLT included, but for the crystal of X32, and for the safe inputs, which draw
their current from the external circuit (R475). -/
def ballInRetain : Ball → BallState
  | .x32 => .oscillating
  | .safeIn _ => .drawing
  | _ => .highZ

/-- The state of a ball (R474, R475). -/
def ballState (s : State) (b : Ball) : BallState :=
  if s.sys.power = .off then ballInRetain b
  else if s.sys.power = .cut ∨ startStep s < ballStep b then ballInReset b
  else ballRunning s b

end Sys2Proof.Machine
end

