-- ==== Sys2Proof/WellFormed.lean ====
section
/-! DEFINITION. The commands that a sender can form: the bounds that a command's operand lists have on its interface. -/

namespace Sys2Proof

/-- The converter samples of one 1 ms pilot period, at most one a microsecond (R190). -/
def periodOk (samples : List (BitVec 12)) : Bool := decide (samples.length ≤ 1000)

/-- Whether a command's operands can be formed. The operand types bound every other command. -/
def wellFormed : Instr → Bool
  | .pilotPeriodEnd _ samples => periodOk samples
  | .cmMnbcSoundInd _ _ _ groups => decide (groups.length = 58)
  | .frameReceive _ _ frame _ => decide (frame.length ≤ 1522)
  | _ => true

end Sys2Proof
end

