-- ==== Sys2Proof/Safety.lean ====
section
/-! DEFINITION. What counts as a safe run: no stop, memories in canonical form, and, while the device does not run, every
output off; and the conditions under which a command meets a device that takes it. -/

namespace Sys2Proof.Machine

/-- A step that answers a next state. -/
def Completes (o : Host.Outcome State Fault Refusal) : Prop := ∃ t, o = .next t

/-- Both memories are in canonical form and lie in their windows. -/
def MemInv (s : State) : Prop :=
  (Memory.wf sramBlank s.sram ∧ Memory.within sramBase sramSize s.sram)
    ∧ (Memory.wf norBlank s.nor ∧ Memory.within norBase norSize s.nor)

/-- Every coil pair is off and every load switch is off. -/
def OutputsOff (s : State) : Prop :=
  (∀ c : Fin 12, (s.safe.coil[c]).drive = .off) ∧ ∀ n : Fin 10, (s.load.ch[n]).on = false

/-- While the device does not run, its outputs are off (R49, R59). -/
def StoppedInv (s : State) : Prop := s.sys.power ≠ .running → OutputsOff s

/-! ### When a command is taken -/

/-- The device runs. -/
def Runs (s : State) : Prop := s.sys.power = .running

/-- A block takes register accesses: the device runs, and the block's COMPAT holds a level (R358). -/
def Answers (k : BlkKind) (n : Nat) (s : State) : Prop := Runs s ∧ blkUp s k n = true

/-- The state after a register write to a block that does nothing else: the transaction completes, having held its tag, and
the block's COMPAT is settled (R358, R363). -/
def written (k : BlkKind) (n : Nat) (s : State) : State :=
  { s.tagged with
    compat := vmod s.compat (blkIdx k n) fun v => { v with locked := true }
    bus := { err := false, data := 0 } }

/-- A service takes a call: its block answers, nothing is BUSY or PEND, the version is 0x01, and the service is not
refused as a whole (R31, R32, R431 to R433). -/
def CanCall (i : MbxId) (c : Call) (s : State) : Prop :=
  Answers (mbxBlk i) 0 s ∧ (s.box i).busy = false ∧ (s.box i).pend = false ∧ c.sver = 1 ∧ wholeRefused s i = false

/-- A service takes a call of SAFE that LOCKOUT turns away (R299). -/
def CanCallSafe (c : Call) (s : State) : Prop := CanCall .safe c s ∧ s.sys.mode ≠ .lockout

/-- A service takes a call of SAFE for an outlet, which COMMISSION turns away too (R299). -/
def CanCallOutlet (c : Call) (s : State) : Prop := CanCallSafe c s ∧ s.sys.mode ≠ .commission

/-- The argument registers that a call's body reads (R431). -/
def callArgs (i : MbxId) (c : Call) (s : State) : Vector Word 16 := setFrom (s.box i).arg 0 c.args

/-- A call has answered a status, with results from RES0 on; PEND is set with ACCEPTED only (R432, R433). -/
def Returns (i : MbxId) (st : Status) (res : List Word) (t : State) : Prop :=
  (t.box i).status = st.code ∧ (t.box i).pend = (st == .accepted)
    ∧ ∀ (k : Fin 16) (w : Word), res[k.val]? = some w → (t.box i).res[k] = w

/-- Nothing but a service's own mailbox, the settled COMPAT of its block and the bus changes, and PEAK as the call's own
accesses leave it. -/
def OnlyBox (i : MbxId) (s t : State) : Prop :=
  t = { s.tagged with mbx := t.mbx, compat := t.compat, bus := t.bus } ∧ ∀ j : MbxId, j ≠ i → t.box j = s.box j

/-- A port's own messages after it has sent some, in order: they go at once, or wait behind what a switching window holds, or,
before the port is enabled, do not go at all (R213, R474). -/
def Sends (s : State) (n : Port) (ms : List Mme) (t : State) : Prop :=
  let l := s.vp[n].link
  let m := t.vp[n].link
  let held := (l.swdefer = true ∧ ∃ w ∈ l.windows, s.now < w.2) ∨ l.mmeHeld ≠ []
  (portOn s n = false → m.mmeOut = l.mmeOut ∧ m.mmeHeld = l.mmeHeld)
    ∧ (portOn s n = true → ¬ held → m.mmeOut = ms.reverse ++ l.mmeOut ∧ m.mmeHeld = [])
    ∧ (portOn s n = true → held → m.mmeOut = l.mmeOut ∧ m.mmeHeld = l.mmeHeld ++ ms)

/-- The commands that act on a device that does not run: the starts, the fall of VSUP below the retention level, the stop
frames that a save released (R59), the tamper monitor and the RTC's own reading, which run from VBAK. -/
def actsStopped : Instr → Bool
  | .vsupRise _ => true
  | .nrstReset _ => true
  | .pfwClear _ _ => true
  | .vsupBelowRetain => true
  | .tamper _ => true
  | .rtcCompReading _ _ => true
  | .canFrameTransmit _ _ => true
  | _ => false

/-! ### Which commands may change which block -/

/-- The commands that may change SYS, and with it the mode and the power state. -/
def mayChangeSys : Instr → Bool
  | .vsupRise _ | .nrstReset _ | .holdupCapMeasured _ _ | .powerFailWarning _ _ _ | .pfwClear _ _ | .vsupBelowRetain
  | .cutWithoutSave _ _ | .wdogKick _ | .wdogExpiry | .meshAckTimeout | .sramUncorrectableFetch _ _ | .thermalStage1
  | .thermalStage2 | .thermalClear | .degradedAutoReset _ | .degcfgWrite _ | .lorstPulse _ | .vcoreLevelWrite _
  | .budgetShed _ | .readAudit _ | .setTime _ | .keyPress _ _ _ | .safetyTick _ _ _ | .coilPullinSlow _
  | .coilOvercurrent _ | .coilHoldUndercurrent _ | .pulseTest _ _ _ | .discrepancyLockout _ | .feedbackChange _
  | .feedbackOpenTimeout _ | .weldWindowEnd _ | .lockstepMismatch | .lockstepTokenTimeout | .calderaSramUncorrectable
  | .calderaPathParity _ | .meshParityError _ _ _ | .confirmEntryTimeout | .resetRelease _ _ | .linkConfirm _
  | .loadCmdWrite _ _ | .deferredTurnOn | .configUncorrectable _ _ | .fabricParityError _ | .txnCommitDone _
  | .rwtShadowWrite _ _ | .dmaBurstGrant _ _ _ | .dmaBurstDone _ _ | .activationReset _ | .rejectionReset _
  | .trialDegradedReset _ | .rosLowRead _ _ _ | .ethFrameReceive _ _ _ _ | .registerWrite _ _ _ _ | .holdReady _ _
  | .coreResume => true
  | _ => false

/-- The commands that may change MET, and with it an energy register. -/
def mayChangeMet : Instr → Bool
  | .vsupRise _ | .nrstReset _ | .powerFailWarning _ _ _ | .pfwClear _ _ | .cutWithoutSave _ _ | .degradedAutoReset _
  | .fineSample _ | .fastSample _ _ _ | .rangeSwitchDown _ | .rangeSelfcheckBlock _ | .manchesterLoss _
  | .manchesterLossClear _ | .stuck _ | .stuckClear _ | .gainRefresh | .lineLost | .filterSelftest _ _
  | .adcSlotDwellEnd _ | .adcCoarseValue _ _ | .adcFineValue _ | .adcCalStale _ | .meterInvalid _ | .meterInvalidStop _
  | .meterSecond _ | .phseqTimeout _ | .pulseEmit _ | .snapshot _ | .clearStats _ | .demandBoundary
  | .billingPeriodClose | .tariffSwitch | .setTime _ | .safetyTick _ _ _ | .feedbackChange _ | .feedbackOpenTimeout _
  | .weldWindowEnd _ | .configUncorrectable _ _ | .txnCommitDone _ | .rwtShadowWrite _ _ | .dmaBurstDone _ _
  | .activationReset _ | .rejectionReset _ | .trialDegradedReset _ | .registerWrite _ _ _ _ => true
  | _ => false

/-- The commands that may change BILL: a session, a record, a log or a token. -/
def mayChangeBill : Instr → Bool
  | .vsupRise _ | .nrstReset _ | .powerFailWarning _ _ _ | .pfwClear _ _ | .cutWithoutSave _ _ | .wdogKick _
  | .wdogExpiry | .meshAckTimeout | .sramUncorrectableFetch _ _ | .thermalStage2 | .degradedAutoReset _ | .fineSample _
  | .rangeSelfcheckBlock _ | .filterSelftest _ _ | .meterInvalid _ | .meterSecond _ | .phseqTimeout _ | .snapshot _
  | .clearStats _ | .demandBoundary | .billingPeriodClose | .tariffSwitch | .sessionOpen _ | .sessionCancel _
  | .sessionOpenedTimeout _ | .signRequestDone | .readRecord _ | .ackRecord _ | .readOcmf _ | .readOcmfDone
  | .readDemand _ | .readAudit _ | .archiveBegin _ | .archiveSealDone | .archiveCommit _ | .setTime _ | .rtcTrim _
  | .keyPress _ _ _ | .tokenEntryTimeout | .pendingTokenExpiry _ | .tokenLockExpiry | .tokenOpen _ | .tokenDiscard _
  | .ledgerRead _ | .railFault _ | .safetyTick _ _ _ | .coilPullinSlow _ | .coilOvercurrent _ | .coilHoldUndercurrent _
  | .pulseTest _ _ _ | .discrepancyLockout _ | .feedbackChange _ | .feedbackOpenTimeout _ | .weldWindowEnd _
  | .lockstepMismatch | .lockstepTokenTimeout | .calderaSramUncorrectable | .calderaPathParity _
  | .meshParityError _ _ _ | .configUncorrectable _ _ | .fabricParityError _ | .txnCommitDone _ | .rwtShadowWrite _ _
  | .dmaBurstGrant _ _ _ | .dmaBurstDone _ _ | .activationReset _ | .rejectionReset _ | .trialDegradedReset _
  | .tamper _ | .rosLowRead _ _ _ | .lorstPulse _ | .resetRelease _ _ | .ethFrameReceive _ _ _ _
  | .registerWrite _ _ _ _ => true
  | _ => false

/-- The commands that may change Caldera, and with it a coil pair, a latch or a demand. -/
def mayChangeSafe : Instr → Bool
  | .vsupRise _ | .nrstReset _ | .powerFailWarning _ _ _ | .pfwClear _ _ | .cutWithoutSave _ _ | .wdogKick _
  | .wdogExpiry | .meshAckTimeout | .sramUncorrectableFetch _ _ | .thermalStage2 | .degradedAutoReset _ | .lorstPulse _
  | .budgetGrantTimeout _ | .fastSample _ _ _ | .filterSelftest _ _ | .adcCoarseValue _ _ | .adcFineValue _
  | .meterInvalidStop _ | .creditCheck _ | .keyPress _ _ _ | .safetyTick _ _ _ | .rampTimeout _ | .coilAnnounceExpiry _
  | .closeConditionsMet _ | .pullinEnd _ | .coilPullinSlow _ | .coilOvercurrent _ | .coilHoldUndercurrent _
  | .pulseTest _ _ _ | .pulseTestStale _ | .lockoutCoilRetest _ _ _ | .testPulse _ _ | .discrepancyLockout _
  | .rearmInputEdge | .feedbackChange _ | .feedbackCloseTimeout _ | .feedbackOpenTimeout _ | .weldWindowEnd _
  | .tripChannelInvalid _ | .imdDwellEnd _ | .imdUnknownTimeout _ | .tempSensorStale _ _ | .overvoltageSlow _
  | .overcurrentSecond _ | .pilotDisagreement _ | .lockstepMismatch | .lockstepTokenTimeout | .calderaSramUncorrectable
  | .calderaPathParity _ | .meshParityError _ _ _ | .calderaRestartSelftest _ | .tieMatchTimeout _ | .closeReqTimeout _
  | .canBusOff _ | .hoursLimit | .tripdueLimit _ | .confirmEntryTimeout | .confirmBlockExpiry | .connect _ | .data _
  | .resetPress _ | .resetRelease _ _ | .linkRearm _ | .linkConfirm _ | .linkCycle _ | .linkWatchdogExpiry _
  | .linkRetry _ | .linkDualSkewExpiry _ | .closeReq _ | .stop _ | .setLimits _ | .rearm _ | .setOos _
  | .contactorReplaced _ | .tripTest _ _ | .readSlog _ | .slogRelease _ | .configUncorrectable _ _
  | .fabricParityError _ | .txnCommitDone _ | .rwtShadowWrite _ _ | .dmaBurstGrant _ _ _ | .dmaBurstDone _ _
  | .activationReset _ | .rejectionReset _ | .trialDegradedReset _ | .rosLowRead _ _ _ | .ethFrameReceive _ _ _ _
  | .registerWrite _ _ _ _ => true
  | _ => false

/-- The commands that may change a vehicle port. -/
def mayChangeVp : Instr → Bool
  | .vsupRise _ | .nrstReset _ | .powerFailWarning _ _ _ | .pfwClear _ _ | .cutWithoutSave _ _ | .wdogKick _
  | .wdogExpiry | .meshAckTimeout | .sramUncorrectableFetch _ _ | .thermalStage2 | .degradedAutoReset _ | .lorstPulse _
  | .keyPress _ _ _ | .pilotPeriodEnd _ _ | .pilotCtlWrite _ _ | .vpPevtClrcnt _ | .cmStartAttenCharInd _ _ _ _
  | .cmMnbcSoundInd _ _ _ _ | .cmSlacParamReq _ _ | .slacWindowClose _ _ | .cmAttenCharRsp _ _ _ | .cmSlacMatchReq _ _ _
  | .cmValidateReq _ _ | .slacMatchTimeout _ | .xrCapCnf _ _ | .xrCapTimeout _ | .xr6Fallback _
  | .switchingAnnouncement _ _ | .switchingWindowEnd _ | .frameReceive _ _ _ _ | .rxCoalTimeout _ | .txPush _ _
  | .frameTransmitDone _ _ | .txTimeout _ _ | .linkSupervisionTimeout _ | .tlsKeyWord _ _ | .tlsInsttx _ | .tlsInstrx _
  | .tlsClear _ | .tlsProtect _ _ _ | .tlsUnprotect _ _ | .tlsOpComplete _ _ | .slacRearm _ | .vpLevtClrcnt _
  | .safetyTick _ _ _ | .closeConditionsMet _ | .pullinEnd _ | .coilPullinSlow _ | .coilOvercurrent _
  | .coilHoldUndercurrent _ | .pulseTest _ _ _ | .discrepancyLockout _ | .feedbackChange _ | .feedbackOpenTimeout _
  | .weldWindowEnd _ | .pilotDisagreement _ | .lockstepMismatch | .lockstepTokenTimeout | .calderaSramUncorrectable
  | .calderaPathParity _ | .meshParityError _ _ _ | .confirmEntryTimeout | .resetRelease _ _ | .linkConfirm _ | .rearm _
  | .configUncorrectable _ _ | .fabricParityError _ | .rwtShadowWrite _ _ | .dmaEnable _ _ | .dmaDisable _ | .dmaAbort _
  | .dmaKick _ _ | .dmaBurstGrant _ _ _ | .dmaBurstDone _ _ | .activationReset _ | .rejectionReset _ | .trialDegradedReset _
  | .rosLowRead _ _ _ | .ethFrameReceive _ _ _ _ | .canFrameTransmit _ _ | .registerWrite _ _ _ _ => true
  | _ => false

/-- The commands that may change a parameter register in effect. -/
def mayChangePar : Instr → Bool
  | .vsupRise _ | .nrstReset _ | .pfwClear _ _ | .degradedAutoReset _ | .txnCommitDone _ | .rwtShadowWrite _ _
  | .dmaBurstDone _ _ | .activationReset _ | .rejectionReset _ | .trialDegradedReset _ | .registerWrite _ _ _ _ => true
  | _ => false

end Sys2Proof.Machine
end

