-- ==== Sys2Proof/Certificates/Slice0/Obligations.lean ====
section
/-! DEFINITION. The statements for the provers, from the numbered rules of the spec and from the machine as a whole. -/

section

open Sys2Proof Sys2Proof.Machine

/-- A step takes the command at the front of the queue and runs it with the rest of the queue
(95_what_each_step_holds.md). -/
def Obligations.StepRunsFrontCommand : Prop :=
  ∀ (s : State) (c : Instr) (rest : List Instr), s.pending = c :: rest →
    step s = exec c { s with pending := rest }

/-- On an empty queue the block idles: while it runs, 40 ns of system time and of the RTC pass, the boundaries that wait for
their samples are settled, and the display's rails and the pulse generators go on; with no boundary waiting nothing else
changes, and with the rails at rest, no generator on and no first pulse awaited nothing but time does (R101, R165, R324, R412,
R413, 20_time_counters_and_logs.md; that an empty queue's step is one reference period is the model's choice, log 3, and so is
the RTC's share of it, log 199). -/
def Obligations.EmptyQueueIdlesOneReferencePeriod : Prop :=
  ∀ s : State, s.pending = [] →
    (Runs s → ∃ t, step s = .next t ∧ t.time.sysNs = s.time.sysNs + 40 ∧ t.pending = [] ∧ t.sys = s.sys ∧ t.safe = s.safe
        ∧ t.vp = s.vp ∧ t.params = s.params
        ∧ (s.time.rtcSub < 100000000 - 131072 → t.time.rtcSec = s.time.rtcSec ∧ t.time.rtcFrac = s.time.rtcFrac
            ∧ t.time.rtcSub = s.time.rtcSub + 131072)
        ∧ (100000000 - 131072 ≤ s.time.rtcSub → s.time.rtcSub < 100000000 → t.time.rtcSub = s.time.rtcSub + 131072 - 100000000
            ∧ t.time.rtcSec.toNat * 32768 + t.time.rtcFrac.toNat
              = (s.time.rtcSec.toNat * 32768 + s.time.rtcFrac.toNat + 1) % 2 ^ 47)
        ∧ (∀ b r, s.bill.core.bounds = b :: r → allPast (refPeriod s) b.ns.toNat = false → t.bill = s.bill ∧ t.met = s.met)
        ∧ (∀ b, s.bill.core.bounds = [b] → allPast (refPeriod s) b.ns.toNat = true →
          let u := endBound b ((refPeriod s).modCore fun c => { c with bounds := [] })
          t.bill = u.bill ∧ t.met = u.met ∧ (b.what = .skip → t.met.bal.skip = true))
        ∧ (s.bill.core.bounds = [] →
          t = { s with time := t.time, disp.rails := t.disp.rails, load := t.load }
            ∧ ((s.disp.rails = .down ∨ s.disp.rails = .up) → t.disp.rails = s.disp.rails)
            ∧ ((∀ g : Fin 2, (s.load.gen[g]).on = false) → t.load = { s.load with ch := t.load.ch }
              ∧ ∀ n : Fin 10, t.load.ch[n] = s.load.ch[n] ∨ ((s.load.ch[n]).await = true
                ∧ t.load.ch[n] = { s.load.ch[n] with inrush := true, await := false }))))
      ∧ (¬ Runs s → step s = .next s)

/-- Every command, of every one of the constructors of Instr, completes in every state: exec answers a next state, and so
does every step (95_what_each_step_holds.md, R364). -/
def Obligations.EveryCommandCompletes : Prop :=
  (∀ (c : Instr) (s : State), ∃ t, exec c s = .next t) ∧ ∀ s : State, ∃ t, step s = .next t

/-- While the device holds after a save, is in RETAIN or is held in reset, only supply, reset, tamper and RTC events act,
and the stop frames that a save released are still sent (R49, R59, R60, 03_supply_and_power_fail.md; that they still go out
while the device holds is the model's choice, log 168). -/
def Obligations.StoppedDeviceIgnoresCommands : Prop :=
  (∀ (c : Instr) (s : State), ¬ Runs s → actsStopped c = false → exec c s = .next s)
    ∧ ∀ (s : State) (b : Fin 3) (sent : Bool), ¬ Runs s →
      let c := s.can[b]
      ((s.sys.power ≠ .held ∨ nextStop c = none) → exec (.canFrameTransmit b sent) s = .next s)
        ∧ ∀ k r, s.sys.power = .held → nextStop c = some k → c.store[k] = some r → c.en = true → c.state ≠ .busOff →
          ¬ (recFdf r = true ∧ c.fden = false) → ∃ t, exec (.canFrameTransmit b true) s = .next t
            ∧ t.can = s.can.set b { c with
                txfrm := c.txfrm + 1, line := some (canFrame c.state r)
                released := c.released &&& ~~~(BitVec.ofNat 16 (2 ^ k.val)) }

/-- No command adds to, removes from or reorders the commands that wait (95_what_each_step_holds.md). -/
def Obligations.CommandsLeaveQueueAlone : Prop :=
  ∀ (c : Instr) (s t : State), exec c s = .next t → t.pending = s.pending

/-- Every step keeps both memories in canonical form and inside their windows (R428,
21_host_interfaces_and_register_map.md). -/
def Obligations.MemoriesStayCanonicalAndInRange : Prop :=
  ∀ s t : State, MemInv s → step s = .next t → MemInv t

/-- Every step keeps every coil pair and load switch off while the device does not run (R49, R59, R60, R314, R315). -/
def Obligations.OutputsStayOffWhileStopped : Prop :=
  ∀ s t : State, StoppedInv s → step s = .next t → StoppedInv t

/-- The state after reset has canonical memories, every output off, an empty queue and the mode START (R25, R428,
02_modes_and_startup.md). -/
def Obligations.ResetMeetsTheInvariants : Prop :=
  MemInv State.reset ∧ OutputsOff State.reset ∧ StoppedInv State.reset
    ∧ State.reset.pending = [] ∧ State.reset.sys.mode = .start

/-- Only the named commands can change SYS: the mode, the power state, the out-of-service set or a supply setting (R27,
R28, 02_modes_and_startup.md). -/
def Obligations.OnlyNamedCommandsChangeTheMode : Prop :=
  ∀ (c : Instr) (s t : State), mayChangeSys c = false → exec c s = .next t → t.sys = s.sys

/-- Only the named commands can change the metrology block: no other host access or event reaches an energy register
(R13, R16, 05_meters_and_energy.md). -/
def Obligations.OnlyNamedCommandsChangeMetering : Prop :=
  ∀ (c : Instr) (s t : State), mayChangeMet c = false → exec c s = .next t → t.met = s.met

/-- Only the named commands can change sessions, records, the audit log or tokens (R13, R16, 06_billing_and_tariffs.md,
07_prepayment_tokens.md). -/
def Obligations.OnlyNamedCommandsChangeBilling : Prop :=
  ∀ (c : Instr) (s t : State), mayChangeBill c = false → exec c s = .next t → t.bill = s.bill

/-- Only the named commands can change Caldera: coil pairs, demands, the lock-out latch, the safety link and its log
(R13, R16, 12_caldera_safety_functions.md, 13_caldera_io_and_safety_link.md). -/
def Obligations.OnlyNamedCommandsChangeCaldera : Prop :=
  ∀ (c : Instr) (s t : State), mayChangeSafe c = false → exec c s = .next t → t.safe = s.safe

/-- Only the named commands can change a vehicle port: its pilot, its link or its record engine
(09_pilot_and_proximity.md, 10_vehicle_link.md). -/
def Obligations.OnlyNamedCommandsChangePorts : Prop :=
  ∀ (c : Instr) (s t : State), mayChangeVp c = false → exec c s = .next t → t.vp = s.vp

/-- A parameter register in effect changes only at a start, at a commit, or by a write to a register of LOAD: a register write
at any other address, of a core, the debug port or DMA, leaves all of them (R16, R17, R347,
17_transactions_and_interface_versions.md). -/
def Obligations.ParametersChangeOnlyAtStartOrCommit : Prop :=
  let outside (a : Nat) := a < 0x200A0000 ∨ 0x200B0000 ≤ a
  (∀ (c : Instr) (s t : State), mayChangePar c = false → exec c s = .next t → t.params = s.params)
  ∧ (∀ (q : Fin 10) (a v : Word) (size : AccSize) (s t : State), outside a.toNat →
    exec (.registerWrite q a size v) s = .next t ∨ exec (.rwtShadowWrite a v) s = .next t → t.params = s.params)
  ∧ ∀ (k : Fin 32) (par : Option (DmaReq × Bool)) (s t : State),
    (∀ d b r, (s.dma.ch[k]).run = some d → d.flight = b :: r →
      outside b.dst ∧ ∀ i : Nat, 4 * i < b.data.length → outside (wrap32 (b.dst + 4 * i))) →
    exec (.dmaBurstDone k par) s = .next t → t.params = s.params

/-- Each of the seven starts runs the start-up sequence whenever its condition holds, and a held device starts only by nRST or
when the warning has gone. The sequence starts system time from 0, ends in the mode of R35's table with its cause in
SYS_RSTCAUSE, and, where Caldera's self-test fails, in LOCKOUT (R27, R29, R32, R35, R41, R47, R59, R62, R402, R405, R406, R413,
02_modes_and_startup.md; the states that VSUP_RISE acts in beside RETAIN and a cut are log 130's reading, and that a failed
self-test halts Caldera until the next start is log 145's). -/
def Obligations.StartsRunTheSequenceOrEndInLockout : Prop :=
  ∀ (u : StartUp) (s : State) (ball : Bool),
    let Started (cause : BitVec 13) (c : Instr) :=
      let t := startUp cause u s
      exec c s = .next t ∧ Runs t ∧ t.pending = s.pending ∧ (afterReset cause u s).time.sysNs = 0
        ∧ (∀ i : Nat, i < 6 → t.sys.rstCause.getLsbD i = (cause.getLsbD i || decide (
          (i = 2 ∧ s.sys.degCause = some .wdog) ∨ (i = 3 ∧ s.sys.degCause = some .mesh) ∨ (i = 4 ∧ s.sys.degCause = some .therm))))
        ∧ (u.selftest = 0 → t.sys.mode =
          (if t.safe.latch then .lockout
          else if t.sys.hot then .degraded
          else if t.sys.simgNone || t.safe.confirmed != some t.safe.chk then .commission
          else if t.sys.oos ≠ 0 then .maintain
          else .service))
    (s.sys.power = .off ∨ s.sys.power = .cut ∨ (Runs s ∧ s.sys.mode = .start) → Started 0x1 (.vsupRise u))
      ∧ (s.sys.power = .held → exec (.vsupRise u) s = .next s)
      ∧ (Runs s ∨ s.sys.power = .held → Started 0x2 (.nrstReset u))
      ∧ (s.sys.power = .held → pfwGone ball u s = true → 700 ≤ u.vsup.toNat → Started 0 (.pfwClear ball u))
      ∧ (s.sys.power = .held → ¬ (pfwGone ball u s = true ∧ 700 ≤ u.vsup.toNat) → exec (.pfwClear ball u) s = .next s)
      ∧ (Runs s → s.sys.mode = .degraded → s.sys.autorstEn = true → allSigned s = true →
          (s.sys.degCause ≠ some .therm ∨ s.sys.hot = false) → Started 0x20 (.degradedAutoReset u))
      ∧ (Runs s → s.upd.st = .pending_ → s.upd.resetAct = true → noSession s = true → Started 0 (.activationReset u))
      ∧ (Runs s → s.upd.st = .rejected → s.upd.resetRej = true → noSession s = true → Started 0 (.rejectionReset u))
      ∧ (Runs s → s.upd.st = .trial → s.upd.resetDeg = true → s.sys.mode = .degraded → allSigned s = true →
          Started 0 (.trialDegradedReset u))
      ∧ ∀ c : Instr, u.selftest ≠ 0 →
        (c = .nrstReset u ∧ (Runs s ∨ s.sys.power = .held)) ∨ (c = .vsupRise u ∧ (s.sys.power = .off ∨ s.sys.power = .cut)) →
        ∃ t, exec c s = .next t ∧ t.sys.mode = .lockout ∧ t.safe.latch = true ∧ t.safe.causes.getLsbD 0 = true
          ∧ t.safe.halted = true ∧ t.sys.coresRun = false ∧ t.sys.wdogRun = false

/-- Step 8 enters the first mode of the table whose condition holds (R35). -/
def Obligations.ModeAtTheEndOfStartUp : Prop :=
  ∀ s : State, s.sys.mode = .start →
    (bootMode s).sys.mode =
        (if s.safe.latch then .lockout
        else if s.sys.hot then .degraded
        else if s.sys.simgNone || s.safe.confirmed != some s.safe.chk then .commission
        else if s.sys.oos ≠ 0 then .maintain
        else .service)
      ∧ (s.safe.latch = false → s.sys.hot = true → (bootMode s).sys.degCause = some .therm)
      ∧ (bootMode s).sys.oos = s.sys.oos

/-- SYS takes its writes as their tables say; the hold-up measurement, HOLD_READY, stage 1 and the first resume change
their own fields (R37, R38, R41, R52, R55, R57, R444, 02_modes_and_startup.md, 03_supply_and_power_fail.md; that CAP_MEAS is
rounded down and stays at 65,535 is the model's choice, log 164, that an evaluation sets HOLD_LOW and never clears it log 165's,
and the band of HOLD_READY on both sides log 6's). -/
def Obligations.SysWritesMeasurementsAndStages : Prop :=
  (∀ (s : State) (v : Word), Answers .sys 0 s →
    exec (.wdogKick 0xC0DE) s = .next { written .sys 0 s with sys.kicked := true }
      ∧ exec (.degcfgWrite v) s = .next { written .sys 0 s with
          sys.autorstEn := bitAt v 31
          sys.autorstDelay := BitVec.ofNat 12 (clamp 10 3600 (field v 27 16))
          sys.wdogTimeout := if s.sys.kicked then s.sys.wdogTimeout else BitVec.ofNat 14 (clamp 10 10000 (field v 13 0)) })
  ∧ (∀ (s : State) (v : Word),
    (Answers .sys 0 s → exec (.vcoreLevelWrite v) s = .next
      (if 1 ≤ field v 2 0 ∧ field v 2 0 ≤ 4 then
        { written .sys 0 s with sys.level := BitVec.ofNat 3 (field v 2 0), sys.actual := BitVec.ofNat 3 (field v 2 0) }
      else written .sys 0 s))
      ∧ (Runs s → exec .thermalStage1 s = .next { s with
          sys.therm1 := true, sys.therm1e := true, sys.hot := true
          sys.actual := if 2 < s.sys.actual then 2 else s.sys.actual })
      ∧ (Runs s → exec .thermalClear s = .next { s with sys.therm1 := false, sys.therm2 := false, sys.hot := false }))
  ∧ ∀ (s : State) (time : Nat) (vsup vhold : BitVec 12), Runs s →
    (let top := min 2000 (vsup.toNat - 100)
     let c := time * 20 / (top - 200)
     exec (.holdupCapMeasured time vsup) s = .next
       (if s.sys.capArm = true ∧ 200 < top then
         { s with
           sys.capMeas := BitVec.ofNat 16 (min 65535 c), sys.fresh := true, sys.capArm := false, sys.vsup := vsup
           sys.holdLow := s.sys.holdLow || (min 65535 c != 0 && decide (10 * min 65535 c < 8 * s.sys.capNom.toNat)) }
        else s))
      ∧ exec (.holdReady vsup vhold) s = .next { s with
          sys.vsup := vsup, sys.vhold := vhold
          sys.holdReady := decide (((vhold.toNat : Int) - (vsup.toNat - 30)).natAbs ≤ 100) }
      ∧ exec .coreResume s = .next
          (if s.sys.coresHalted then { s with sys.coresHalted := false, sys.wdogRun := true } else s)

/-- The five triggers of DEGRADED complete in every mode that takes them: in the three working modes they enter DEGRADED, in
LOCKOUT they latch its condition, and in DEGRADED they change nothing of the mode. That is each trigger's own effect in normal
execution, since R38 gives it no other (R28, R37, R38, R39, R367, 02_modes_and_startup.md; that the latest of several causes
counts in LOCKOUT is the model's choice, log 161). -/
def Obligations.DegradedTriggersActByMode : Prop :=
  ∀ (s : State) (core : Fin 4) (a v : Word), Runs s →
    let fields (w : DegCause) (y : Sys) : Sys := { y with degCause := some w, coresRun := false, wdogRun := false }
    let entered (w : DegCause) (y : Sys) : Sys :=
      { fields w y with prev := s.sys.mode, mode := .degraded, degSince := s.time.sysNs }
    let latched (w : DegCause) (y : Sys) : Sys := { fields w y with degLatched := true }
    let hot : Sys := { s.sys with therm2 := true, hot := true }
    let fetched := inSram a.toNat 1 = true ∧ s.sys.coresRun = true ∧ s.sys.coresHalted = false
    let acts := fun (f : DegCause → Sys → Sys) =>
      (s.sys.wdogRun = true → ∃ t, exec .wdogExpiry s = .next t ∧ t.sys = f .wdog s.sys)
        ∧ (Answers .sys 0 s → v ≠ 0xC0DE → ∃ t, exec (.wdogKick v) s = .next t ∧ t.sys = f .wdog s.sys)
        ∧ (∃ t, exec .meshAckTimeout s = .next t ∧ t.sys = f .mesh s.sys)
        ∧ (fetched → ∃ t, exec (.sramUncorrectableFetch core a) s = .next t ∧ t.sys = f .mesh s.sys)
        ∧ (∃ t, exec .thermalStage2 s = .next t ∧ t.sys = f .therm hot)
    ((s.sys.mode = .commission ∨ s.sys.mode = .service ∨ s.sys.mode = .maintain) → acts entered)
      ∧ (s.sys.mode = .lockout → acts latched)
      ∧ (s.sys.mode = .degraded → acts fun _ y => y)
      ∧ (s.sys.wdogRun = false → exec .wdogExpiry s = .next s)
      ∧ (¬ fetched → exec (.sramUncorrectableFetch core a) s = .next s)

/-- The warning saves and holds with every output off; a cut resets with every output off; VSUP below 7.0 V ends in
RETAIN, where every ball but the safe inputs and the crystal of X32 is high impedance (R47, R49, R58, R59, R60, R457, R474,
R475, 03_supply_and_power_fail.md; that the fall into RETAIN writes no MODE entry is the model's choice, log 133, that the
waiting boundaries are made at the save log 178's, that a wear-levelling move changes nothing that can be read log 200's, and
which write enables a port log 252's). -/
def Obligations.PowerFailSaveAndRetention : Prop :=
  ∀ (s : State) (v vhold : BitVec 12) (steps : Fin 7) (tail : List FastBits),
    let saves := fun i : Instr => ∃ t, exec i s = .next t ∧ t.sys.power = .held ∧ OutputsOff t ∧ t.pending = s.pending
      ∧ (∀ n : Port, (t.vp[n].pilot).effMode = .f) ∧ (kernelUp s = true → t.bill.core.bounds = [])
    let low := s.sys.pfwSrc ≠ 1 ∧ v.toNat < 900 + 25 * min 44 s.sys.pfwThresh.toNat
    (Runs s → low → saves (.powerFailWarning (.comparator v) vhold tail))
      ∧ (Runs s → ¬ low → exec (.powerFailWarning (.comparator v) vhold tail) s = .next s)
      ∧ (Runs s → s.sys.pfwSrc ≠ 0 → saves (.powerFailWarning .ball vhold tail))
      ∧ (Runs s → s.sys.pfwSrc = 0 → exec (.powerFailWarning .ball vhold tail) s = .next s)
      ∧ (Runs s → ∃ t, exec (.cutWithoutSave steps tail) s = .next t ∧ t.sys.power = .cut ∧ OutputsOff t ∧ t.pending = s.pending)
      ∧ (s.sys.power = .held → exec .vsupBelowRetain s = .next
          { s with sys.power := .off, sys.prev := s.sys.mode, sys.mode := .retain, thl.ball := 0 })
      ∧ (s.sys.power = .off → (∀ i, ballState s (.safeIn i) = .drawing) ∧ ballState s .x32 = .oscillating
        ∧ ∀ b : Ball, (∀ i, b ≠ .safeIn i) → b ≠ .x32 → ballState s b = .highZ)
      ∧ (s.sys.power = .cut → ∀ c : Fin 12, ballState s (.coil c) = .highZ ∧ ballState s .nflt = .low)
      ∧ (Runs s → ballState s .nflt = if nfltFree s.sys.mode then .highZ else .low)
      ∧ (∀ n : Port, (Runs s → s.sys.mode = .start → ballState s (.pilot n) = .low)
        ∧ (Runs s → ((s.vp[n].link).lstate = .off ∨ portOn s n = false) → ballState s (.plc n) = .highZ))
      ∧ exec .wearLevellingMove s = .next s

/-- The bits of a channel count towards LOSS and STUCK and their ends; the four commands enter and leave them on their own
channel alone, LOSS in Manchester mode only, and a clear makes it settle again (R66, R67, R77, R98,
04_sampling_and_filter_chain.md; that a run which reached its length stays due until its command is log 175's reading). -/
def Obligations.ChannelFaultsActOnTheirChannel : Prop :=
  (∀ (c : Chan) (raw b : Bool) (runlen : Nat),
    let sub := (manBit true true raw c).2
    let good := (manBit true false raw c).2
    let r := runBit runlen b c
    let run := if 0 < c.run ∧ b = c.lastBit then c.run + 1 else 1
    let clear := if runlen ≤ run then 0 else c.noRun + 1
    ((manBit true true raw c).1 = !c.lastSub ∧ sub.manerrCnt = satInc c.manerrCnt ∧ sub.subRun = c.subRun + 1
        ∧ (sub.lossDue = true ↔ c.lossDue = true ∨ (c.loss = false ∧ 16 ≤ c.subRun + 1)))
      ∧ ((manBit true false raw c).1 = raw ∧ good.subRun = 0
        ∧ (good.goodDue = true ↔ c.goodDue = true ∨ (c.loss = true ∧ 64 ≤ c.goodRun + 1)))
      ∧ (r.run = run ∧ r.noRun = clear ∧ (r.stuckDue = true ↔ c.stuckDue = true ∨ (c.stuck = false ∧ runlen ≤ run))
        ∧ (r.freeDue = true ↔ c.freeDue = true ∨ (c.stuck = true ∧ 64 ≤ clear))))
  ∧ ∀ (s : State) (n : ChanId) (a : Fin 4), Runs s →
    let again (c : Chan) : Chan :=
      { c with bits := 0, fines := 0, settling := true, valid := false, fastValid := false, rgw := 0 }
    exec (.manchesterLoss n) s = .next (s.modCh n fun c =>
        if c.lossDue && chMode s n == 2 then { c with loss := true, lossDue := false, valid := false, fastValid := false } else c)
      ∧ exec (.manchesterLossClear n) s = .next (s.modCh n fun c =>
        if c.loss && c.goodDue then again { c with loss := false, goodDue := false } else c)
      ∧ exec (.stuck n) s = .next (s.modCh n fun c =>
        if c.stuckDue then { c with stuck := true, stuckDue := false, valid := false, fastValid := false } else c)
      ∧ exec (.stuckClear n) s = .next (s.modCh n fun c =>
        if c.stuck && c.freeDue then again { c with stuck := false, freeDue := false } else c)
      ∧ exec .lineLost s = .next (if s.pb 0x20200020 31 then { s with met.rs.lineLost := true } else s)
      ∧ exec (.adcCalStale a) s = .next
        (if s.pb (adBase a) 31 then s.modAdc a fun c => { c with calStale := true } else s)

/-- A ranging pair goes LOW after 20 ms at or below 60 %, and a full LOW block above 5 % is compared against TOL (R79,
R81, R82, 04_sampling_and_filter_chain.md; the rounding of the deviation is the model's choice, log 22, and that every fine
sample counts, against 5 % of the LR member's full scale, log 26's). -/
def Obligations.RangePairsSwitchAndCheckThemselves : Prop :=
  ∀ (s : State) (p : Fin 8), Runs s →
    let r := s.met.rp[p]
    let fresh (r : RPair) : RPair := { r with sl := 0, sh := 0, blkN := 0, blkLow := true }
    let judged := r.blkLow = true ∧ 8192 * 2 ^ (31 - rpShift s p) ≤ 20 * r.sl
    let d := roundHalfUp (1000000 * (r.sh - r.sl)) r.sl.toNat
    let ex := if rpTol s p * 100 < d.natAbs then r.exceed + 1 else 0
    exec (.rangeSwitchDown p) s = .next
        (if r.high && decide (125000 / grpDiv s (chGroup s (rpLr s p)) ≤ r.downCnt) then
          { s with met.rp := vmod s.met.rp p fun r => { r with high := false, downCnt := 0, lowBits := 0 } }
        else s)
      ∧ (r.blkN < 8192 → exec (.rangeSelfcheckBlock p) s = .next s)
      ∧ (8192 ≤ r.blkN → ¬ judged → exec (.rangeSelfcheckBlock p) s = .next { s with met.rp := vmod s.met.rp p fresh })
      ∧ (8192 ≤ r.blkN → judged → ∃ t, exec (.rangeSelfcheckBlock p) s = .next t
          ∧ t.met = { s.met with rp := vmod s.met.rp p fun r =>
              { fresh r with dev := wdI d, exceed := ex, disagree := r.disagree || decide (3 ≤ ex) } }
          ∧ (ex < 3 ∨ r.disagree = true → t.bill = s.bill))

/-- A fast sample takes 16 modulator bits of its group through both CIC filters and leaves the other group's channels, a fine
sample filters and calibrates when due, and a refresh sets the gains by the newest valid temperatures (R63, R69, R70, R71, R72,
R74, R75, R77, R89, 04_sampling_and_filter_chain.md). -/
def Obligations.SamplesAdvanceTheChain : Prop :=
  (∀ (k runlen delay cnt : Nat) (man miss raw : Bool) (c : Chan),
    let line := ((manBit man miss raw c).1 :: c.delayLine).take 256
    let b := line.getD delay false
    let r := chanBit k runlen delay cnt man miss raw c
    let x := r.cic
    let z := c.cic
    let d1 := x.i4 - z.z1
    let d2 := d1 - z.z2
    let d3 := d2 - z.z3
    let y := (d3 - z.z4).toInt
    let f := r.fcic
    let e1 := f.j2 - c.fcic.w1
    r.delayLine = line ∧ r.bits = c.bits + 1
      ∧ x.i1 = z.i1 + (if b then 1 else -1) ∧ x.i2 = z.i2 + x.i1 ∧ x.i3 = z.i3 + x.i2 ∧ x.i4 = z.i4 + x.i3
      ∧ f.j1 = c.fcic.j1 + (if b then 1 else -1) ∧ f.j2 = c.fcic.j2 + f.j1
      ∧ (cnt % 2 ^ k = 2 ^ k - 1 → x.z1 = x.i4 ∧ x.z2 = d1 ∧ x.z3 = d2 ∧ x.z4 = d3
        ∧ (k ≤ 7 → r.hist = (y * 2 ^ (30 - 4 * k) :: c.hist).take 48)
        ∧ (8 ≤ k → r.hist = ((y + 2 ^ (4 * k - 31)) / 2 ^ (4 * k - 30) :: c.hist).take 48))
      ∧ (cnt % 2 ^ k ≠ 2 ^ k - 1 → r.hist = c.hist ∧ x.z1 = z.z1 ∧ x.z2 = z.z2 ∧ x.z3 = z.z3 ∧ x.z4 = z.z4)
      ∧ (cnt % 16 = 15 → r.fast = satS 16 ((e1 - c.fcic.w2).toInt * 128) ∧ f.w1 = f.j2 ∧ f.w2 = e1)
      ∧ (cnt % 16 ≠ 15 → r.fast = c.fast ∧ f.w1 = c.fcic.w1 ∧ f.w2 = c.fcic.w2))
  ∧ (∀ (c : FastCic) (a b d : Vector Bool 16),
    let run := fun (c : FastCic) (v : Vector Bool 16) => (v.toList.foldl FastCic.integrate c).comb
    (run (run (run c a).2 b).2 d).1 = ((List.range 31).map fun i =>
      ((min (i + 1) (31 - i) : Nat) : Int) * if (b.toList ++ d.toList).getD (i + 1) false then 1 else -1).sum)
  ∧ (firTaps.length = 48 ∧ firTaps.reverse = firTaps ∧ firTaps.sum = 2 ^ 23 ∧ (firTaps.map Int.natAbs).sum = 15962804)
  ∧ ∀ (s : State) (g : Fin 2) (bits miss : Vector (BitVec 16) 32) (first second : Bool), Runs s →
    (grpEn s g = false → exec (.fastSample g bits miss) s = .next s)
      ∧ (grpEn s g = true → ∃ t, exec (.fastSample g bits miss) s = .next t
        ∧ (let b := (s.met.grp[g]).bit
           let dec := (b + 16) / 2 ^ grpK s g - b / 2 ^ grpK s g
           t.met.grp = vmod s.met.grp g fun r => { r with
             bit := b + 16, cicIdx := r.cicIdx + dec, lastNs := s.time.sysNs, prevNs := r.lastNs
             due := r.due || decide (r.cicIdx / 2 < (r.cicIdx + dec) / 2) })
        ∧ (∀ n : ChanId, inGroup s g n = false → t.met.ch[n] = s.met.ch[n])
        ∧ (∀ n : ChanId, inGroup s g n = true →
          let k := grpK s g
          let f := (List.range 16).foldl (fun c i => chanBit k (chRunlen s n) (chDelay s n) ((s.met.grp[g]).bit + i)
            (chMode s n == 2) (miss[n].getLsbD i) (bits[n].getLsbD i) c) (s.met.ch[n])
          t.met.ch[n] = { f with
            fast := satS 16 (((f.fast - chOfs s n / 2 ^ 8) * (f.gainEff / 2 ^ 8) + 2 ^ 13) / 2 ^ 14)
            fastValid := decide (32 ≤ f.bits) && !f.stuck && !f.loss && decide (f.unroutedTo.toNat ≤ s.now) })
        ∧ t.met.m = s.met.m ∧ t.bill = s.bill)
      ∧ ((s.met.grp[g]).due = false → exec (.fineSample g) s = .next s)
      ∧ ((s.met.grp[g]).due = true → ∃ t, exec (.fineSample g) s = .next t
          ∧ t.met.grp = vmod s.met.grp g (fun r => { r with due := false, idx := r.idx + 1 })
          ∧ ∀ n : ChanId,
            let c := s.met.ch[n]
            let y := t.met.ch[n]
            let v := ((List.zipWith (· * ·) firTaps c.hist).sum + 2 ^ 29) / 2 ^ 30
            let settling := decide (c.bits < 51 * 2 ^ grpK s g - 3)
            (inGroup s g n = false → y.x2 = c.x2 ∧ y.valid = c.valid ∧ y.fines = c.fines ∧ y.satCnt = c.satCnt)
              ∧ (inGroup s g n = true → y.x2 = satS 26 (((satS 24 v - chOfs s n) * c.gainEff + 2 ^ 21) / 2 ^ 22)
                ∧ y.settling = settling ∧ y.fines = c.fines + 1
                ∧ y.valid = (!settling && !c.stuck && !c.loss && decide (c.unroutedTo.toNat ≤ s.now))
                ∧ (satS 24 v = v → y.satCnt = c.satCnt ∧ y.satf = c.satf)
                ∧ (satS 24 v ≠ v → y.satCnt = satInc c.satCnt ∧ y.satf = true)))
      ∧ (∃ t, exec (.filterSelftest first second) s = .next t
          ∧ t.met = { s.met with filterFault := s.met.filterFault || (first && second) })
      ∧ ((first && second) = false → exec (.filterSelftest first second) s = .next s)
      ∧ (∃ t, exec .gainRefresh s = .next t ∧ t.met = { s.met with ch := t.met.ch, ain := t.met.ain }
          ∧ ∀ n : ChanId,
            let src := tsrcIdx (chTsrc s n)
            let y := t.met.ch[n]
            y.gainEff = chGain s n + ((chGain s n * chTc s n * y.dt + 2 ^ 33) / 2 ^ 34)
              ∧ (chTsrc s n = 0 → y.dt = 0 ∧ y.tcStale = false)
              ∧ (chTsrc s n ≠ 0 → tempValid s src = false → y.dt = (s.met.ch[n]).dt ∧ y.tcStale = true)
              ∧ (∀ v, chTsrc s n ≠ 0 → tempValid s src = true → (s.met.ain[src]).last = some v →
                -4096 ≤ v.toInt - chTcal s n → v.toInt - chTcal s n < 4096 →
                y.dt = v.toInt - chTcal s n ∧ y.tcStale = false))

/-- A converter's dwell end moves to the next slot and keeps the input's gain, sixteen bits advance its filters and an
over-range coarse value lowers the gain, and a due fine value is published once settled (R83, R84, R85, R266,
04_sampling_and_filter_chain.md; that a lowered gain is stored is the model's choice, log 171). -/
def Obligations.ConverterSlotsFollowTheirTable : Prop :=
  ∀ (s : State) (a : Fin 4) (bits : BitVec 16), Runs s →
    let c := s.met.adc[a]
    let en := s.pb (adBase a) 31
    let src := slotSrc s a c.slot
    let input : Fin 16 := Fin.ofNat 16 src
    let fixed := slotFixed s a c.slot
    let fed := (List.range 16).foldl (fun c i => adcBit (bits.getLsbD i) c) c
    let lane := { fed with fast := fastCal fed.fast (adOfs a fed) (adGain a fed), fastValid := decide (32 ≤ fed.bits) }
    let lowers := src ≠ 15 ∧ 31 ≤ fed.bits ∧ fixed = false ∧ 9 * 32768 < 10 * fed.fast.natAbs ∧ fed.drops < 2 ∧ 0 < fed.gain
    let x2 := calFine (satS 24 (firOut c.hist)) (adOfs a c) (adGain a c)
    let v := ainValue s a c x2
    let upper := c.lastFine.any (fun r => decide (10 * r.natAbs < 2 ^ 23)) && decide (c.gain < 6)
    (en = false → exec (.adcSlotDwellEnd a) s = .next s ∧ exec (.adcCoarseValue a bits) s = .next s
        ∧ exec (.adcFineValue a) s = .next s)
      ∧ (en = true → (1 < adNslot s a ∨ c.slot ≠ 0) → ∃ t, exec (.adcSlotDwellEnd a) s = .next t
          ∧ (let k := (c.slot + 1) % adNslot s a
            let y := t.met.adc[a]
            y.slot = k ∧ y.bits = 0 ∧ y.drops = 0 ∧ y.fastValid = false
              ∧ y.gain = (if slotFixed s a k then slotGain s a k else t.met.ainGain[Fin.ofNat 16 (slotSrc s a k)])
              ∧ (src = 15 → y.calCnt = satInc c.calCnt ∧ y.calStale = false))
          ∧ t.met.ainGain = (if src = 15 ∨ fixed = true then s.met.ainGain
              else s.met.ainGain.set input (if upper then c.gain + 1 else c.gain))
          ∧ ∀ b : Fin 4, b ≠ a → t.met.adc[b] = s.met.adc[b])
      ∧ (en = true → adNslot s a = 1 → c.slot = 0 → ∃ t, exec (.adcSlotDwellEnd a) s = .next t
          ∧ (t.met.adc[a]).slot = 0 ∧ (t.met.adc[a]).bits = c.bits ∧ (t.met.adc[a]).gain = c.gain)
      ∧ (c.due = false → exec (.adcFineValue a) s = .next s)
      ∧ (en = true → c.due = true → (src = 15 ∨ c.bits < 3198) →
          exec (.adcFineValue a) s = .next (s.modAdc a fun c => { c with due := false }))
      ∧ (en = true → c.due = true → src ≠ 15 → 3198 ≤ c.bits → ∃ t, exec (.adcFineValue a) s = .next t
          ∧ t.met.ain = vmod s.met.ain input (fun x => { x with
              fine := true, gain := BitVec.ofNat 3 c.gain, value := v
              last := if slotTemp s a c.slot then some v else x.last
              lastNs := if slotTemp s a c.slot then s.time.sysNs else x.lastNs })
          ∧ t.met.adc = vmod s.met.adc a (fun c => { c with due := false, lastFine := some x2 }))
      ∧ (en = true → ∃ t, exec (.adcCoarseValue a bits) s = .next t
          ∧ (lowers → t.met.adc = vmod s.met.adc a (fun _ => { lane with gain := fed.gain - 3, drops := fed.drops + 1, bits := 0 }))
          ∧ (¬ lowers → t.met.adc = vmod s.met.adc a (fun _ => lane))
          ∧ t.met.ain = if src ≠ 15 ∧ 31 ≤ fed.bits ∧ fed.bits < 3198 then
              vmod s.met.ain input (fun x => { x with
                fine := false, gain := BitVec.ofNat 3 fed.gain, value := ainValue s a lane (fed.fast * 2 ^ 8) })
            else s.met.ain)

/-- A due fine sample adds the increment of R95 to exactly one of an enabled meter's two accumulators, import when positive,
export when negative: KE times the products of the new voltages and currents, less KL times the squares of the currents for an
outlet meter, of the currents that R98 integrates where RGW is set; an invalid sample books the last valid one's increment while
it is held, and then nothing (R78, R95, R96, R98, R99, 05_meters_and_energy.md). -/
def Obligations.EveryFineSampleBooksItsEnergy : Prop :=
  ∀ (s : State) (g : Fin 2), Runs s → (s.met.grp[g]).due = true → ∃ t, exec (.fineSample g) s = .next t ∧ ∀ m : MeterId,
    let a := s.met.m[m]
    let b := t.met.m[m]
    let counts := mEn s m = true ∧ mGroup s m = g
    let alone := (mCurr s m).Nodup
      ∧ ∀ k : MeterId, k ≠ m → mEn s k = true → mGroup s k = g → mRgw s k = true → ∀ c ∈ mCurr s k, c ∉ mCurr s m
    let v := (mVolt s m).map fun c => (t.met.ch[c]).x2
    let i := (mCurr s m).map fun c =>
      let x := match pairOfHr s c with
        | some p => (t.met.rp[p]).out
        | none => (t.met.ch[c]).x2
      if mRgw s m then rgwOut (mIgs s m) (rgwStep (mLeak s m) (s.met.ch[c]).rgw x) else x
    let e := (keOf s m : Int) * (List.zipWith (· * ·) v i).sum
      - if mRole s m = 0 then (klOf s m : Int) * (i.map fun x => x * x).sum else 0
    let q := if sampleValid t m then e else if a.heldRun < holdLimit s g then a.lastQ else 0
    (¬ counts → b.imp = a.imp ∧ b.exp = a.exp)
      ∧ (counts → (mRgw s m = true → alone) →
        b.imp = (if 0 < q then a.imp + BitVec.ofInt 160 q else a.imp)
          ∧ b.exp = (if q < 0 then a.exp + BitVec.ofInt 160 (-q) else a.exp))

/-- An invalid meter is marked and stops its session, each second closes its sums, and pulses leave with their spacing
(R99, R100, R106, R107, R111, 05_meters_and_energy.md; that NEUTRAL_LOST stays where the check is not enabled is the model's
choice, log 233). -/
def Obligations.MeterTimersActOnTheirMeter : Prop :=
  ∀ (s : State) (m : MeterId) (q : Fin 8), Runs s →
    let x := s.met.m[m]
    let expired := mEn s m = true ∧ x.invalid = false ∧ holdLimit s (mGroup s m) < x.heldRun
    let long := x.invalid = true ∧ mEn s m = true
    let stops := mRole s m = 0 ∧ (s.sess (mPort s m)).isSome = true
    let late := s.modM m fun x => { x with invalidLong := true }
    let p := s.met.pls[q]
    let ready := plsEn s q = true ∧ 0 < p.pend.toNat ∧ (∀ t, p.lastNs = some t → t + plsSpace s q ≤ s.now)
    let r := neutralRatio x
    let lost := if mNeutEn s m = false then x.neutralLost
      else if x.neutralLost then decide ((mNtol s m - 5) * r.2 ≤ 100 * r.1) else decide (mNtol s m * r.2 < 100 * r.1)
    (expired → ∃ t, exec (.meterInvalid m) s = .next t ∧ t.met = { s.met with m := vmod s.met.m m fun x =>
        { x with invalid := true, invalidSince := s.time.sysNs, gapCnt := satInc x.gapCnt } })
      ∧ (¬ expired → exec (.meterInvalid m) s = .next s)
      ∧ (long → stops → exec (.meterInvalidStop m) s = .next (late.demand (mPort s m) 1 11 0x08))
      ∧ (long → ¬ stops → exec (.meterInvalidStop m) s = .next late)
      ∧ (¬ long → exec (.meterInvalidStop m) s = .next s)
      ∧ (mEn s m = true → ∃ t, exec (.meterSecond m) s = .next t
          ∧ t.met.m[m] = { x with
              mpwr := wdI (powerW x.secQ), powerOvr := decide (1250000000000 * 2 ^ 64 < x.secAbs)
              neutralLost := lost
              secQ := 0, secAbs := 0, secN := 0, secU0 := 0, secV1 := 0, secV2 := 0, secV3 := 0 }
          ∧ (lost ≠ x.neutralLost → t.intc.raised.getLsbD 73 = true)
          ∧ ∀ k : MeterId, k ≠ m → t.met.m[k] = s.met.m[k])
      ∧ (mEn s m = false → exec (.meterSecond m) s = .next s)
      ∧ (¬ (mEn s m = true ∧ mSeqEn s m = true) → exec (.phseqTimeout m) s = .next s)
      ∧ (mEn s m = true → mSeqEn s m = true → ∃ t, exec (.phseqTimeout m) s = .next t
          ∧ t.met = { s.met with m := vmod s.met.m m fun x => { x with seqCand := 0, seqRun := 0, phseq := 0 } })
      ∧ (ready → exec (.pulseEmit q) s = .next { s with met.pls := vmod s.met.pls q fun p =>
          { p with pend := p.pend - 1, cnt := satInc p.cnt, lastNs := some s.now
                   endNs := s.now + 10000 * s.pf (plsBase q) 13 0 } })
      ∧ (¬ ready → exec (.pulseEmit q) s = .next s)

/-- The MET calls return what their table says, no read call changes an accumulator, and a snapshot keeps BUSY until each of
its meters has had a sample at or after its instant (R114, R115, R116, 05_meters_and_energy.md; that the call stays BUSY, with
its status written beside the buffer, is log 33's reading; the unit of READ_BALANCE's start and the rounding of its duration are
log 205's). -/
def Obligations.MetReadCallsAnswer : Prop :=
  ∀ (s : State) (c : Call) (m : MeterId), CanCall .met c s →
    let a := callArgs .met c s
    let mask := BitVec.ofNat 12 a[0].toNat
    (a[0].toNat = m.val → mEn s m = true → a[1].toNat ≤ 1 →
        let x := if a[1] = 1 then (s.met.m[m]).exp else (s.met.m[m]).imp
        let i := (s.met.m[m]).lastInst.toNat
        ∃ t, exec (.readAcc c) s = .next t ∧ OnlyBox .met s t
          ∧ Returns .met .done [wd (accOf x), wd (accOf x / 2 ^ 32), wd (accOf x / 2 ^ 64), wd (resOf x), wd (cryOf x),
              wd i, wd (i / 2 ^ 32)] t)
      ∧ (12 ≤ a[0].toNat ∨ 2 ≤ a[1].toNat →
        ∃ t, exec (.readAcc c) s = .next t ∧ OnlyBox .met s t ∧ Returns .met .badArg [] t)
      ∧ (a[0].toNat < 4096 → (∀ k : MeterId, mask.getLsbD k.val = true → mEn s k = true) → s.met.snap.wait = none →
        ∃ t, exec (.snapshot c) s = .next t ∧ t.met = { s.met with snap := t.met.snap } ∧ t.bill = s.bill
          ∧ (mask = 0 → Returns .met .done [wd s.now, wd (s.now / 2 ^ 32), s.met.snap.seq + 1] t
            ∧ t.met.snap = { t := s.time.sysNs, seq := s.met.snap.seq + 1, mask := 0, wait := none
                             acc := Vector.replicate 12 (0, 0) })
          ∧ (mask ≠ 0 → (t.box .met).busy = true ∧ (t.box .met).what = some .snapshot
            ∧ (t.box .met).status = (s.box .met).status ∧ t.met.snap = { s.met.snap with
                wait := some { t := s.time.sysNs, mask := mask, acc := Vector.replicate 12 none } }))
      ∧ (∀ (u : State) (g : Fin 2) (w : SnapWait), Runs u → (u.met.grp[g]).due = true → u.met.snap.wait = some w →
          let got := fun k : MeterId =>
            if mEn u k = true ∧ mGroup u k = g ∧ w.t.toNat ≤ (sampleInst u g).toNat then
              some ((w.acc[k]).getD ((u.met.m[k]).imp, (u.met.m[k]).exp))
            else w.acc[k]
          let all := ∀ k : MeterId, w.mask.getLsbD k.val = true → (got k).isSome = true
          ∃ t, exec (.fineSample g) u = .next t
            ∧ (all → t.met.snap.wait = none ∧ t.met.snap.t = w.t ∧ t.met.snap.seq = u.met.snap.seq + 1
              ∧ t.met.snap.mask = w.mask
              ∧ (∀ k : MeterId, w.mask.getLsbD k.val = true → some t.met.snap.acc[k] = got k)
              ∧ ((u.box .met).what = some .snapshot → (u.box .met).pend = false → (t.box .met).busy = false
                ∧ Returns .met .done [wd w.t.toNat, wd (w.t.toNat / 2 ^ 32), u.met.snap.seq + 1] t))
            ∧ (¬ all → t.box .met = u.box .met ∧ t.met.snap = { u.met.snap with
                wait := some { w with acc := Vector.ofFn got } }))
      ∧ (a[0].toNat = m.val → mEn s m = true → a[1].toNat < (mVolt s m).length →
        ∃ t, exec (.readPq c) s = .next t ∧ (t.box .met).status = Status.done.code ∧ t.met = s.met)
      ∧ (∀ k : ChanId, a[0].toNat = k.val → chRsmp s k = true → 1 ≤ a[1].toNat → a[1].toNat ≤ 50 → 1 ≤ a[2].toNat →
          a[2].toNat ≤ 15 → a[1].toNat + a[2].toNat ≤ 51 → s.pb 0x20200020 31 = true →
          ∃ t, exec (.readHarm c) s = .next t ∧ (t.box .met).status = Status.done.code ∧ t.met = s.met)
      ∧ (∀ b, s.met.bal.hist[a[0].toNat]? = some b → ∃ t, exec (.readBalance c) s = .next t ∧ OnlyBox .met s t
          ∧ Returns .met .done [wd b.start.toNat, wd (b.start.toNat / 2 ^ 32), b.dur, b.g, b.o, b.a, b.l, b.d,
              wd (b2n b.fail + at_ (b2n b.skipped) 1 + at_ (b2n b.outage) 2 + at_ (b2n b.split) 3)] t)
      ∧ (a[0].toNat < 64 → ∃ t, exec (.clearStats c) s = .next t ∧ (t.box .met).status = Status.done.code
          ∧ t.met.filterFault = s.met.filterFault ∧ t.met.bal.alarm = s.met.bal.alarm
          ∧ (∀ p : Fin 8, (t.met.rp[p]).disagree = (s.met.rp[p]).disagree)
          ∧ (∀ k : MeterId, (t.met.m[k]).imp = (s.met.m[k]).imp ∧ (t.met.m[k]).exp = (s.met.m[k]).exp
              ∧ (t.met.m[k]).invalid = (s.met.m[k]).invalid ∧ (t.met.m[k]).powerOvr = (s.met.m[k]).powerOvr
              ∧ (t.met.m[k]).phseq = (s.met.m[k]).phseq ∧ (t.met.m[k]).neutralLost = (s.met.m[k]).neutralLost)
          ∧ (a[0].toNat.testBit 3 = true → ∀ k : MeterId, (t.met.m[k]).holdCnt = 0 ∧ (t.met.m[k]).gapCnt = 0))

/-- A boundary that has been reached closes slices, parts with their balance, and billing periods with their records, in the
order of R125, at once or after the samples that precede it; one that has not been reached changes nothing (R33, R101, R108,
R109, R117, R118, R120, R122, R124, R125, R424, 06_billing_and_tariffs.md; that boundaries wait in a list until their samples are
in is the model's choice, log 178, and their order beside R125's log 34's). -/
def Obligations.BoundariesCloseInTheirOrder : Prop :=
  (∀ (s : State), Runs s → kernelUp s = true →
    let same := fun t : State => ∀ k : MeterId, (t.met.m[k]).imp = (s.met.m[k]).imp ∧ (t.met.m[k]).exp = (s.met.m[k]).exp
    let sliced := fun t u : State => t.bill.core.treg = (closeSlices u).bill.core.treg
      ∧ t.bill.core.slices = (closeSlices u).bill.core.slices
    let dur := s.now - s.bill.core.part.ns.toNat
    let skip := balSkips s dur
    let was := s.met.bal
    let wh := fun x : Int => wdI (roundHalfUp x (3600 * 10 ^ 6 * 10 ^ 9 * 2 ^ 64))
    let judged := fun (t : State) (x : BalTerms) =>
      let fail := !skip && decide (x.tol < x.d.natAbs)
      let run := if fail = was.alarm then 0 else was.run.toNat + 1
      x.d = (x.g - x.o - x.a) * (3600 * 10 ^ 6) - x.l
        ∧ (∃ l e, t.met.bal.hist = e :: l ∧ l = was.hist.take 15 ∧ e.start = s.bill.core.part.lt ∧ e.dur = wd (dur / 10 ^ 9)
          ∧ e.g = whWord x.g ∧ e.o = whWord x.o ∧ e.a = whWord x.a ∧ e.l = wh x.l ∧ e.d = wh x.d ∧ e.fail = fail
          ∧ e.skipped = skip)
        ∧ t.met.bal.skip = false
        ∧ (skip = true → t.met.bal.alarm = was.alarm ∧ t.met.bal.run = was.run ∧ t.met.bal.dev = was.dev
          ∧ t.met.bal.failCnt = was.failCnt)
        ∧ (skip = false → t.met.bal.dev = wh x.d ∧ t.met.bal.failCnt = (if fail then satInc was.failCnt else was.failCnt)
          ∧ t.met.bal.alarm = (if balN s ≤ run then !was.alarm else was.alarm)
          ∧ t.met.bal.run = BitVec.ofNat 4 (if balN s ≤ run then 0 else run))
    let waits := fun (i : Instr) (k : BoundKind) => ∃ t x, exec i s = .next t ∧ t.met = s.met ∧ t.time = s.time
      ∧ t.bill = { s.bill with core.bounds := insertBound x s.bill.core.bounds } ∧ x.ns = s.time.sysNs ∧ x.lofs = s.time.lofs
      ∧ x.what = k ∧ x.params = s.params ∧ (∀ m : MeterId, x.acc[m] = none)
      ∧ ((∀ b ∈ s.bill.core.bounds, b.ns ≠ s.time.sysNs) → t.bill.core.bounds = s.bill.core.bounds ++ [x])
    (quiet s = false →
        ((demandDue s).isSome = true → waits .demandBoundary .demand)
          ∧ ((periodDue s).isSome = true → waits .billingPeriodClose .period)
          ∧ (switchDue s = true → waits .tariffSwitch .switch))
      ∧ (∀ b, quiet s = true → demandDue s = some b → ∃ t, exec .demandBoundary s = .next t ∧ same t
        ∧ t.bill.core.part.lt = BitVec.ofInt 64 b ∧ t.bill.core.bpc = s.bill.core.bpc ∧ sliced t s
        ∧ (∀ m, gridMeter s = some m → balEn s = true → judged t (balTerms s m dur))
        ∧ ((gridMeter s = none ∨ balEn s = false) → t.met.bal = { was with skip := false })
        ∧ ((gridMeter s).isSome = true → ∃ r, t.bill.signing = s.bill.signing ++ [r] ∧ r.rtype = 3 ∧ r.seq = s.bill.recSeq)
        ∧ ((gridMeter s).isSome = false → t.bill.signing = s.bill.signing))
      ∧ (demandDue s = none → exec .demandBoundary s = .next s)
      ∧ (∀ b, quiet s = true → periodDue s = some b → ∃ t, exec .billingPeriodClose s = .next t ∧ same t
        ∧ t.bill.core.bpc = s.bill.core.bpc + 1 ∧ t.bill.core.lastBp = BitVec.ofInt 64 b ∧ t.bill.core.maxDem = 0
        ∧ sliced t (dueDemand s)
        ∧ (let u := dueDemand s
          let row := fun (m : MeterId) (f : BitVec 64 × BitVec 64 → BitVec 64) =>
            ((fins 16).map fun k => leBytes 8 (f (t.bill.core.treg[m])[k]).toNat).flatten
          (t.bill.signing.drop u.bill.signing.length).map (fun r => (r.rtype, (r.body.drop 8).take 16, r.body.drop 24))
            = ((fins 12).filter (mEn s)).map fun m => (4, leBytes 4 t.bill.core.bpc.toNat ++ leBytes 4 m.val ++ leBytes 8 b.toNat,
                leBytes 4 (if gridMeter s == some m then u.bill.core.maxDem else 0) ++ leBytes 4 0 ++ row m (·.1) ++ row m (·.2)))
        ∧ ∀ d, demandDue s = some d → t.bill.core.part.lt = BitVec.ofInt 64 d)
      ∧ (periodDue s = none → exec .billingPeriodClose s = .next s)
      ∧ (quiet s = true → switchDue s = true → ∃ t, exec .tariffSwitch s = .next t ∧ same t
        ∧ t.bill.core.ti = (tariffAt s.par s.legalMs).ti ∧ t.bill.core.te = (tariffAt s.par s.legalMs).te
        ∧ sliced t (duePeriod s))
      ∧ (switchDue s = false → exec .tariffSwitch s = .next s)
      ∧ ∃ t, exec .journalPeriod s = .next t ∧ t = { s with jrn := t.jrn, jrnOld := s.jrn, time := t.time }
        ∧ t.jrn.core = s.bill.core ∧ t.time.evlTail = 0
        ∧ ∀ m : MeterId, t.jrn.acc[m] = ((s.met.m[m]).imp, (s.met.m[m]).exp))
  ∧ (∀ s : State, Runs s → kernelUp s = false → exec .journalPeriod s = .next { s with time.evlTail := 0 })
  ∧ ∀ (s : State) (m : MeterId),
    let t := closeSlice m s
    let ti := s.bill.core.ti.toFin
    let te := s.bill.core.te.toFin
    let e := sliceNow s m
    (∀ k : Fin 16, ((t.bill.core.treg[m])[k]).1 = ((s.bill.core.treg[m])[k]).1 + (if k = ti then BitVec.ofNat 64 e.1 else 0)
        ∧ ((t.bill.core.treg[m])[k]).2 = ((s.bill.core.treg[m])[k]).2 + (if k = te then BitVec.ofNat 64 e.2.1 else 0))
      ∧ (∀ k : MeterId, k ≠ m → t.bill.core.treg[k] = s.bill.core.treg[k] ∧ t.bill.core.slices[k] = s.bill.core.slices[k])
      ∧ (t.bill.core.slices[m]).imp = BitVec.ofNat 64 (s.view m false)
      ∧ (t.bill.core.slices[m]).exp = BitVec.ofNat 64 (s.view m true)

/-- A session opens with the next ID when no check bars it, is cancelled without a record, runs with its copied prices and its
start record from the confirmed close to the confirmed opening, which stops it with its lines and its stop record, and stops when
its credit is used up (R119, R126, R127, R128, R129, R146, R159, R160, R247, R490, 06_billing_and_tariffs.md). -/
def Obligations.SessionsOpenCancelAndStop : Prop :=
  (∀ (s : State) (c : Call), CanCall .bill c s →
    let a := callArgs .bill c s
    (∀ (n : Port) (m : MeterId), a[0].toNat = n.val → outletMeter s n = some m → s.sys.mode ≠ .lockout →
      s.sys.mode ≠ .commission → (a[1].toNat = 0 ∨ a[1].toNat = 1 ∨ a[1].toNat = 3) →
      ((∀ b ∈ openChecks s n m, b.1 = false) →
        ∃ t x, exec (.sessionOpen c) s = .next t ∧ t.sess n = some x ∧ x.state = .opened ∧ x.id = s.bill.sessCount + 1
          ∧ x.meter = m ∧ x.auth = BitVec.ofNat 8 a[1].toNat ∧ x.token = none ∧ t.bill.sessCount = s.bill.sessCount + 1
          ∧ t.bill.recSeq = s.bill.recSeq ∧ (∀ k, k ≠ n → t.sess k = s.sess k)
          ∧ Returns .bill .done (words2 (s.bill.sessCount + 1).toNat) t)
        ∧ ((s.sess n).isSome = true →
          ∃ t, exec (.sessionOpen c) s = .next t ∧ OnlyBox .bill s t ∧ Returns .bill .refused [] t))
      ∧ (∀ (n : Port) (x : Session), a[0].toNat = n.val → s.sess n = some x →
        (x.state = .opened → ∃ t, exec (.sessionCancel c) s = .next t ∧ t.sess n = none ∧ t.bill.recSeq = s.bill.recSeq
          ∧ t.bill.signing = s.bill.signing ∧ (∀ k, k ≠ n → t.sess k = s.sess k) ∧ Returns .bill .done [] t)
        ∧ (x.state ≠ .opened → ∃ t, exec (.sessionCancel c) s = .next t ∧ OnlyBox .bill s t ∧ Returns .bill .refused [] t)
        ∧ ∃ t, exec (.sessionStatus c) s = .next t ∧ OnlyBox .bill s t
          ∧ Returns .bill .done (words2 x.id.toNat ++
              [wd (match x.state with | .opened => 1 | .running => 2 | .stopping => 3)]) t
          ∧ ((t.box .bill).res[9] = wd (at_ s.bill.core.ti.toNat 4 + s.bill.core.te.toNat))))
  ∧ (∀ (s : State) (c : Fin 12) (x : Session), Runs s → role s c = 1 → coilEn s c = true →
    clamp 4 40 (s.pf (siA (fbIn s c)) 7 0) ≤ (s.safe.si[fbIn s c]).run → (∀ k, k ≠ c → fbIn s k ≠ fbIn s c) →
    s.sess (conPort s c) = some x →
    let n := conPort s c
    let m := x.meter
    let ti := s.bill.core.ti
    let te := s.bill.core.te
    let e := sliceNow s m
    let at_S := quiet s = true ∧ demandDue s = none ∧ periodDue s = none ∧ switchDue s = false
    let price := fun k o : Nat => s.par (0x20241000 + 0x100 * m.val + 0x10 * k + o)
    let tar := 16 * ti.toNat + te.toNat
    let line : Line :=
      { tariff := ti.toNat, exp := false, price := x.pimp[ti.toFin], energy := e.1, tfee := x.tfee[ti.toFin], timeNs := e.2.2
        ecost := roundHalfUp (e.1 * (x.pimp[ti.toFin]).toNat) 10000
        tcost := (roundHalfUp (e.2.2 * (x.tfee[ti.toFin]).toNat) 60000000000).toNat }
    ((s.safe.coil[c]).st = .closing → (s.safe.si[fbIn s c]).deb = true → x.state = .opened →
      ∃ t y, exec (.feedbackChange (fbIn s c)) s = .next t ∧ t.sess n = some y ∧ y.state = .running
        ∧ y.id = x.id ∧ y.meter = m ∧ y.ltStart = BitVec.ofNat 64 s.legalMs ∧ y.nsStart = s.time.sysNs
        ∧ (∀ k : Fin 16, y.pimp[k] = price k 0 ∧ y.pexp[k] = price k 4 ∧ y.tfee[k] = price k 8)
        ∧ y.sfee = s.par (0x20240200 + 4 * m.val) ∧ y.currency = BitVec.ofNat 10 (s.pf 0x20240010 31 22)
        ∧ y.minor = BitVec.ofNat 2 (s.pf 0x20240010 21 20)
        ∧ (at_S → x.metered = false →
          y.metered = true ∧ y.lines = x.lines ∧ y.eiStart = BitVec.ofNat 64 (s.view m false)
            ∧ y.eeStart = BitVec.ofNat 64 (s.view m true) ∧ (t.bill.core.slices[m]).ns = s.time.sysNs
            ∧ ∃ r, t.bill.signing = s.bill.signing ++ [r] ∧ r.rtype = 1 ∧ r.seq = s.bill.recSeq ∧ r.port = some n
              ∧ y.startSeq = r.seq
              ∧ r.body.drop 8 = leBytes 8 x.id.toNat ++ leBytes 8 y.ltStart.toNat ++ leBytes 1 m.val ++ leBytes 1 n.val
                ++ leBytes 1 x.auth.toNat ++ leBytes 1 tar ++ leBytes 2 y.currency.toNat ++ leBytes 1 y.minor.toNat
                ++ leBytes 1 0 ++ leBytes 8 y.eiStart.toNat ++ leBytes 8 y.eeStart.toNat ++ leBytes 4 x.credit
                ++ leBytes 4 0 ++ fit 32 x.extref))
      ∧ ((s.safe.coil[c]).st = .opening → (s.safe.si[fbIn s c]).deb = false → x.state = .running → x.metered = true →
        s.safe.oosReq = none → at_S → mRole s m = 0 → mPort s m = n →
        ∃ t y r, exec (.feedbackChange (fbIn s c)) s = .next t ∧ t.sess n = some y ∧ y.state = .stopping
          ∧ y.reason = some (x.reason.getD 3) ∧ y.metered = false ∧ y.ltStop = BitVec.ofNat 64 s.legalMs
          ∧ y.durNs = s.now - x.nsStart.toNat ∧ y.eiStop = BitVec.ofNat 64 (s.view m false)
          ∧ y.eeStop = BitVec.ofNat 64 (s.view m true) ∧ y.lines = priceSlice x ti te e.1 e.2.1 e.2.2
          ∧ (x.lines = [] → 0 < e.1 → e.2.1 = 0 → y.lines = [line])
          ∧ t.bill.signing = s.bill.signing ++ [r] ∧ r.rtype = 2 ∧ r.seq = s.bill.recSeq ∧ r.port = some n
          ∧ (let cost : Int := (x.sfee.toNat : Int) + (y.lines.map fun l => l.ecost + (l.tcost : Int)).sum
            let billed : Int := (cost * 10 ^ x.minor.toNat + 500000) / 10 ^ 6
            r.body.drop 8 = leBytes 8 x.id.toNat ++ leBytes 8 x.ltStart.toNat ++ leBytes 8 y.ltStop.toNat
              ++ leBytes 1 m.val ++ leBytes 1 n.val ++ leBytes 1 x.auth.toNat ++ leBytes 1 (x.reason.getD 3).toNat
              ++ leBytes 2 x.currency.toNat ++ leBytes 1 x.minor.toNat ++ leBytes 1 y.lines.length
              ++ leBytes 8 x.eiStart.toNat ++ leBytes 8 y.eiStop.toNat ++ leBytes 8 x.eeStart.toNat
              ++ leBytes 8 y.eeStop.toNat ++ leBytes 8 (y.durNs / 1000000) ++ leBytes 8 x.sfee.toNat
              ++ leBytes 8 (BitVec.ofInt 64 cost).toNat ++ leBytes 8 (BitVec.ofInt 64 billed).toNat ++ leBytes 4 x.credit
              ++ leBytes 4 (if x.token.isSome then (((x.credit : Int) * 10000 - cost) / 10000).toNat else 0)
              ++ leBytes 4 y.gapBound ++ leBytes 4 x.startSeq.toNat ++ fit 32 x.extref ++ (y.lines.map lineBytes).flatten)))
  ∧ ∀ (s : State) (n : Port), Runs s →
    (∀ x, s.sess n = some x → x.state = .opened → ∃ t, exec (.sessionOpenedTimeout n) s = .next t ∧ t.sess n = none
        ∧ t.bill.recSeq = s.bill.recSeq ∧ ∀ k, k ≠ n → t.sess k = s.sess k)
      ∧ (¬ (∃ x, s.sess n = some x ∧ x.state = .opened) → exec (.sessionOpenedTimeout n) s = .next s)
      ∧ (∀ x, s.sess n = some x → x.state = .running → x.token.isSome = true →
        let p := ((s.met.m[x.meter]).mpwr.toInt).toNat
        let ti := s.bill.core.ti.toFin
        let reserve := creditReserve p (tRamp s n + 500) (x.pimp[ti]).toNat (x.tfee[ti]).toNat
        ((x.credit : Int) * 10000 - costNow s x ≤ reserve → exec (.creditCheck n) s = .next (s.demand n 1 11 0x07))
          ∧ (reserve < (x.credit : Int) * 10000 - costNow s x → exec (.creditCheck n) s = .next s))
      ∧ (¬ (∃ x, s.sess n = some x ∧ x.state = .running ∧ x.token.isSome = true) → exec (.creditCheck n) s = .next s)

/-- The oldest signing request is served first, a record goes to its store, and the record calls show and release it
(R122, R128, R138, R139, R141, R142, R146, 06_billing_and_tariffs.md). -/
def Obligations.RecordsAreSignedStoredAndRead : Prop :=
  (∀ (s : State), Runs s → kernelUp s = true →
    (s.bill.signing = [] → exec .signRequestDone s = .next s)
      ∧ (∀ r rest, s.bill.signing = r :: rest →
        let z := metSign (bitAt (wd (leAt r.body 2 2)) 14) r.body s.free
        ∃ t, exec .signRequestDone s = .next t ∧ t.bill.signing = rest
        ∧ t.bill.core.part = s.bill.core.part ∧ t.met = s.met
        ∧ (r.rtype = 3 → t.bill.demand = ({ r with sig := z } :: s.bill.demand).take 2880 ∧ t.bill.store = s.bill.store)
        ∧ ((r.rtype = 1 ∨ r.rtype = 2) → s.bill.store.length < 1024 →
          t.bill.store = s.bill.store ++ [{ r with sig := z }] ∧ t.bill.demand = s.bill.demand)
        ∧ (∀ n x, r.rtype = 2 → r.port = some n → s.sess n = some x → x.state = .stopping → t.sess n = none)))
  ∧ (∀ (s : State) (c : Call), CanCall .bill c s →
    let a := callArgs .bill c s
    (∀ r, heldRecord s a[0] = some r → ∃ t, exec (.readRecord c) s = .next t
        ∧ t.bill = { s.bill with recBuf := r.body ++ r.sig }
        ∧ Returns .bill .done [wd (r.body ++ r.sig).length, wd r.rtype.toNat, wd (b2n r.acked)] t)
      ∧ (heldRecord s a[0] = none → ∃ t, exec (.readRecord c) s = .next t ∧ OnlyBox .bill s t ∧ Returns .bill .badArg [] t)
      ∧ (∀ r, r ∈ s.bill.store → r.seq = a[0] → ∃ t, exec (.ackRecord c) s = .next t ∧ Returns .bill .done [] t
        ∧ t.bill = { s.bill with store := s.bill.store.map fun r => if r.seq = a[0] then { r with acked := true } else r })
      ∧ ((∀ r ∈ s.bill.store, r.seq ≠ a[0]) →
        (∃ t, exec (.ackRecord c) s = .next t ∧ OnlyBox .bill s t ∧ Returns .bill .badArg [] t)
          ∧ ∃ t, exec (.readOcmf c) s = .next t ∧ OnlyBox .bill s t ∧ Returns .bill .badArg [] t)
      ∧ (∀ r, a[0].toNat < 2880 → s.bill.demand[a[0].toNat]? = some r → ∃ t, exec (.readDemand c) s = .next t
        ∧ t.bill = { s.bill with recBuf := r.body ++ r.sig } ∧ Returns .bill .done [wd (r.body ++ r.sig).length, r.seq] t)
      ∧ (∀ r, r ∈ s.bill.store → r.seq = a[0] → r.rtype = 2 → ∃ t, exec (.readOcmf c) s = .next t
        ∧ t.bill = { s.bill with ocmfPend := some a[0] } ∧ t.sec = { s.sec with tlsRun := engineAt s } ∧ (t.box .bill).what = some .readOcmf ∧ Returns .bill .accepted [] t))
  ∧ ∀ (s : State) (q : Word) (r : Record), Runs s → isPending s .bill .readOcmf = true → s.bill.ocmfPend = some q →
    s.bill.store.find? (fun r => r.seq == q) = some r →
    ∃ t, exec .readOcmfDone s = .next t ∧ t.bill = { s.bill with ocmfPend := none, ocmfBuf := t.bill.ocmfBuf }
      ∧ t.bill.ocmfBuf = ocmfString s r s.free ∧ Returns .bill .done [wd (ocmfString s r s.free).length] t

/-- READ_AUDIT copies entries in order, a seal covers the oldest entries, and only its commit frees exactly those (R34,
R143, R144, R145, R147, 06_billing_and_tariffs.md). -/
def Obligations.AuditLogIsReadAndArchived : Prop :=
  (∀ (s : State) (c : Call), CanCall .met c s →
    let a := callArgs .met c s
    let l := auditOldest s
    let inSeal := fun (first last : Word) (e : AuditEntry) => decide (e.seq - first ≤ last - first)
    (∀ i, l.findIdx? (fun e => e.seq == a[0]) = some i → 1 ≤ a[1].toNat → a[1].toNat ≤ 64 →
        ∃ t, exec (.readAudit c) s = .next t ∧ t.bill.audit = s.bill.audit
          ∧ t.bill.auditBuf = (((l.drop i).take a[1].toNat).map auditBytes).flatten
          ∧ Returns .met .done [wd ((l.drop i).take a[1].toNat).length, s.bill.auditSeq - 1] t)
      ∧ ((l.findIdx? (fun e => e.seq == a[0]) = none ∨ a[1].toNat < 1 ∨ 64 < a[1].toNat) →
        ∃ t, exec (.readAudit c) s = .next t ∧ OnlyBox .met s t ∧ Returns .met .badArg [] t)
      ∧ (∀ e, s.bill.audit.getLast? = some e → (∃ x ∈ s.bill.audit, x.seq = a[0]) → s.bill.sealPend = none →
        s.bill.seal_ = none → ∃ t, exec (.archiveBegin c) s = .next t
          ∧ t.bill = { s.bill with sealPend := some (e.seq, a[0]) } ∧ t.sec = { s.sec with tlsRun := engineAt s } ∧ (t.box .met).what = some .archive
          ∧ Returns .met .accepted [] t)
      ∧ (∀ x, s.bill.seal_ = some x → x.last = a[0] → ∃ t, exec (.archiveCommit c) s = .next t ∧ Returns .met .done [] t
        ∧ t.bill.seal_ = none ∧ t.bill.lostCnt = 0
        ∧ t = { s.tagged with mbx := t.mbx, compat := t.compat, bus := t.bus, bill := t.bill }
        ∧ (s.bill.lostCnt = 0 → s.auditUsed ≤ 4096 → ∃ e, e.typ = 0x0010 ∧ e.item = a[0] ∧ t.bill.audit =
            e :: s.bill.audit.take (s.bill.audit.length - (l.takeWhile (inSeal x.first a[0])).length)))
      ∧ ((∀ x, s.bill.seal_ = some x → x.last ≠ a[0]) →
        ∃ t, exec (.archiveCommit c) s = .next t ∧ OnlyBox .met s t ∧ Returns .met .refused [] t))
  ∧ ∀ (s : State) (f q : Word), Runs s → s.bill.sealPend = some (f, q) → isPending s .met .archive = true →
    let inSeal := fun (first last : Word) (e : AuditEntry) => decide (e.seq - first ≤ last - first)
    ∃ t x, exec .archiveSealDone s = .next t ∧ t.bill.seal_ = some x ∧ x.first = f ∧ x.last = q
      ∧ x.digest = sha256 ((((auditOldest s).takeWhile (inSeal f q)).map auditBytes).flatten)
      ∧ t.bill = { s.bill with sealPend := none, seal_ := some x, sealBuf := sealBytes x } ∧ Returns .met .done [] t

/-- SET_TIME makes legal time the given value and answers the adjustment, READ_TIME returns it, and the trim changes
only in MAINTAIN (R130, R131, R416, R419, R420, R421, 20_time_counters_and_logs.md). -/
def Obligations.LegalTimeIsSetAndRead : Prop :=
  ∀ (s : State) (c : Call), CanCall .met c s →
    let a := callArgs .met c s
    let new : Nat := a[0].toNat + a[1].toNat * 2 ^ 32
    let adj : Int := (new : Int) - s.legalMs
    let lim := tlimit s.par * 1000
    let sum := if s.bill.core.adjInt.toInt = lastDemand s.par s.legalMs then s.bill.core.adjSum else 0
    let big := s.time.lvalid = false ∨ lim < adj.natAbs ∨ lim < sum + adj.natAbs
    let inRange := -3000 ≤ a[0].toInt ∧ a[0].toInt ≤ 3000 ∧ -100 ≤ a[1].toInt ∧ a[1].toInt ≤ 0 ∧ 15 ≤ a[2].toInt ∧ a[2].toInt ≤ 35
    (new < 4294967296000 → ¬ (big ∧ s.auditFull = true) → ∃ t, exec (.setTime c) s = .next t
        ∧ t.time.lofs = BitVec.ofInt 64 ((new : Int) * 1000000 - s.time.sysNs.toNat) ∧ t.time.sysNs = s.time.sysNs
        ∧ t.time.lvalid = true ∧ Returns .met .done (words2 (BitVec.ofInt 64 adj).toNat) t
        ∧ (¬ big → t.bill.core.adjSum = sum + adj.natAbs ∧ t.bill.adjSmall = satInc s.bill.adjSmall
          ∧ t.bill.core.adjInt = BitVec.ofInt 64 (lastDemand s.par (min s.legalMs new)))
        ∧ (big → s.time.lvalid = true → t.bill.core.adjSum = s.bill.core.adjSum ∧ t.bill.core.adjInt = s.bill.core.adjInt))
      ∧ (new < 4294967296000 → big → s.auditFull = true →
        ∃ t, exec (.setTime c) s = .next t ∧ OnlyBox .met s t ∧ Returns .met .logFull [] t)
      ∧ (∃ t, exec (.readTime c) s = .next t ∧ OnlyBox .met s t
        ∧ Returns .met .done (words2 s.legalMs ++ words2 s.now ++ [wd (b2n s.time.lvalid + at_ (b2n s.shifted) 1)]
            ++ words2 s.hwmMs) t)
      ∧ (inRange → s.sys.mode = .maintain → s.auditFull = false → ∃ t, exec (.rtcTrim c) s = .next t
        ∧ t.time.trim = BitVec.ofInt 16 a[0].toInt ∧ t.time.k2 = BitVec.ofInt 8 a[1].toInt
        ∧ t.time.t0 = BitVec.ofInt 8 a[2].toInt ∧ Returns .met .done [] t
        ∧ t.met = s.met ∧ t.sys = s.sys ∧ t.safe = s.safe)
      ∧ (inRange → s.sys.mode ≠ .maintain →
        ∃ t, exec (.rtcTrim c) s = .next t ∧ OnlyBox .met s t ∧ Returns .met .refused [] t)
      ∧ (¬ inRange → ∃ t, exec (.rtcTrim c) s = .next t ∧ OnlyBox .met s t ∧ Returns .met .badArg [] t)

/-- A key press feeds the token or the confirmation entry in progress, starts one, or reaches the host FIFO; the tokens' time
limits clear what they limit (R148, R149, R150, R151, R154, R288, R289, R445, 07_prepayment_tokens.md; that a press is one
command, after its five scans, is the model's choice, log 225, and that a confirmation entry keeps the first nine digits, one
more than can match, log 232's). -/
def Obligations.KeysGoWhereTheEntryInProgressSends : Prop :=
  ∀ (s : State) (row col : Fin 4) (twin : Bool) (n : Port), Runs s →
    let k := keyCode row col
    let key := exec (.keyPress row col twin) s
    let press := keypadOn s = true ∧ s.gpio.held = none
    let one := press ∧ twin = false
    let idle := one ∧ s.safe.entry = none ∧ s.bill.tok.entry = false
    let toTok := one ∧ s.safe.entry = none ∧ s.bill.tok.entry = true
    let en := s.pb 0x20240030 31
    let l := s.bill.tok.keys
    let digit (e : Entry) (d : BitVec 4) := key = .next { s with
      gpio.held := some k, safe.entry := some { digits := (e.digits ++ [d]).take 9, star := false } }
    (¬ press → key = .next s)
      ∧ (press → twin = true → key = .next { s with gpio.held := some k })
      ∧ (idle → k = 0xA → en = true → ∃ t, key = .next t ∧ t.bill.tok.entry = true ∧ t.bill.tok.keys = []
        ∧ t.gpio = { s.gpio with held := some k } ∧ t.safe = s.safe)
      ∧ (idle → k = 0xC → s.sys.mode = .commission → ∃ t, key = .next t ∧ t.bill = s.bill
        ∧ t.gpio = { s.gpio with held := some k } ∧ t.safe = { s.safe with entry := some { digits := [], star := false } })
      ∧ (idle → ¬ (k = 0xA ∧ en = true) → ¬ (k = 0xC ∧ s.sys.mode = .commission) →
        ∃ t, key = .next t ∧ t.bill = s.bill ∧ t.safe = s.safe
          ∧ t.gpio = (if s.gpio.fifo.length < 8 then { s.gpio with held := some k, fifo := s.gpio.fifo ++ [k] }
              else { s.gpio with held := some k, ovf := true }))
      ∧ (toTok → ∃ t, key = .next t ∧ t.gpio = { s.gpio with held := some k }
        ∧ t.intc.raised.getLsbD 85 = true ∧ t.safe = s.safe
        ∧ (k.toNat ≤ 9 → l ≠ [] → l.length < 21 → t.bill.tok = { s.bill.tok with keys := l ++ [k] })
        ∧ (1 ≤ k.toNat → k.toNat ≤ 8 → l = [] → t.bill.tok = { s.bill.tok with keys := [k] })
        ∧ ((k = 0 ∨ k = 9) → l = [] → t.bill.tok.entry = false ∧ t.bill.tok.lastCode = some 0x08
          ∧ t.bill.tok.pendTok = s.bill.tok.pendTok)
        ∧ (k.toNat ≤ 9 → 21 ≤ l.length → t.bill.tok = s.bill.tok)
        ∧ ((k = 0xA ∨ k = 0xB ∨ k = 0xC) → t.bill.tok = s.bill.tok)
        ∧ (k = 0xF → s.bill.tok.lockedAt ≠ none → t.bill.tok.entry = false ∧ t.bill.tok.lastCode = some 0x0B
          ∧ t.bill.tok.pendTok = s.bill.tok.pendTok ∧ t.bill.tok.invalidCnt = s.bill.tok.invalidCnt)
        ∧ (k = 0xE → t.bill.tok = { s.bill.tok with keys := l.dropLast })
        ∧ (k = 0xD → t.bill.tok.entry = false ∧ t.bill.tok.lastCode = some 0x09 ∧ t.bill.tok.pendTok = s.bill.tok.pendTok)
        ∧ (k = 0xF → s.bill.tok.lockedAt = none → l.length ≠ 21 → t.bill.tok.entry = false
          ∧ t.bill.tok.lastCode = some 0x01 ∧ t.bill.tok.pendTok = s.bill.tok.pendTok)
        ∧ (k = 0xF → s.bill.tok.lockedAt = none → l.length = 21 →
          (candidates s ((l.drop 1).map (·.toNat))).length ≠ 1 → t.bill.tok.entry = false ∧ t.bill.tok.lastCode = some 0x02
            ∧ t.bill.tok.pendTok = s.bill.tok.pendTok)
        ∧ (∀ v p, k = 0xF → s.bill.tok.lockedAt = none → l.length = 21 → entryPort l = some p →
          candidates s ((l.drop 1).map (·.toNat)) = [v] →
          t.bill.tok.entry = false ∧ t.bill.tok.lastCode = some (tokenCheck s p (bitsOf v 65 63) (tokenOf v))
            ∧ (tokenCheck s p (bitsOf v 65 63) (tokenOf v) = 0 → t.bill.tok.pendTok[p] = some (tokenOf v, s.time.sysNs))))
      ∧ (∀ e, one → s.safe.entry = some e →
        (e.star = true → k.toNat ≤ 5 → digit e (k + 10))
          ∧ (¬ (e.star = true ∧ k.toNat ≤ 5) → k.toNat ≤ 0xC → digit e k)
          ∧ (k = 0xE → key = .next { s with gpio.held := some k, safe.entry := some { e with star := true } })
          ∧ (k = 0xD → key = .next { s with gpio.held := some k, safe.entry := none })
          ∧ (k = 0xF → ∃ t, key = .next t ∧ t.safe.entry = none ∧ t.gpio = { s.gpio with held := some k }
            ∧ t.bill.tok = s.bill.tok
            ∧ t.safe.result = (if s.safe.blocked then 3
                else if e.digits.length = 8 ∧ entryValue e.digits = s.safe.chk then 1 else 2)))
      ∧ (s.bill.tok.entry = true → ∃ t, exec .tokenEntryTimeout s = .next t ∧ t.bill.tok.entry = false
        ∧ t.bill.tok.lastCode = some 0x09 ∧ t.bill.tok.pendTok = s.bill.tok.pendTok ∧ t.intc.raised.getLsbD 85 = true)
      ∧ (s.bill.tok.entry = false → exec .tokenEntryTimeout s = .next s)
      ∧ exec (.pendingTokenExpiry n) s = .next { s with bill.tok.pendTok := s.bill.tok.pendTok.set n none }
      ∧ exec .tokenLockExpiry s = .next { s with bill.tok.lockedAt := none }
      ∧ exec .keyRelease s = .next { s with gpio.held := none }
      ∧ (blkUp s .gpio 0 = false → exec .keyFifoRead s = .next { s.tagged with bus := { err := true, data := 0 } })
      ∧ (blkUp s .gpio 0 = true →
        (s.gpio.fifo = [] → exec .keyFifoRead s = .next { s.tagged with bus := { err := false, data := 0 } })
          ∧ (∀ x r, s.gpio.fifo = x :: r → exec .keyFifoRead s =
              .next { s.tagged with gpio.fifo := r, bus := { err := false, data := wd (2 ^ 31 + x.toNat) } }))

/-- TOKEN_OPEN binds a pending token that the ledger does not hold, and the other token calls return what their table
says (R155, R156, R157, R158, R161, R162, 07_prepayment_tokens.md; the byte order of the serial in a key blob is the model's
choice, log 210). -/
def Obligations.TokenCallsBindEachTokenOnce : Prop :=
  ∀ (s : State) (c : Call) (n : Port), CanCall .bill c s → s.sys.mode ≠ .lockout → s.sys.mode ≠ .commission →
    let a := callArgs .bill c s
    let r := (s.box .bill).res
    let tok := s.bill.tok
    (a[0].toNat = n.val → tok.pendTok[n] = none →
        ∃ t, exec (.tokenOpen c) s = .next t ∧ OnlyBox .bill s t ∧ Returns .bill .refused [r[0], r[1], 0x0C] t)
      ∧ (∀ x m, a[0].toNat = n.val → tok.pendTok[n] = some x → outletMeter s n = some m → inLedger s x.1.key = true →
        ∃ t, exec (.tokenOpen c) s = .next t ∧ OnlyBox .bill s t ∧ Returns .bill .refused [r[0], r[1], 0x06] t)
      ∧ (∀ x m, a[0].toNat = n.val → tok.pendTok[n] = some x → outletMeter s n = some m → inLedger s x.1.key = false →
        ledgerUsed s < 8192 → (∀ b ∈ openChecks s n m, b.1 = false) →
        ∃ t z, exec (.tokenOpen c) s = .next t ∧ Returns .bill .done (words2 (s.bill.sessCount + 1).toNat) t
          ∧ inLedger t x.1.key = true ∧ t.bill.tok.pendTok[n] = none ∧ t.sess n = some z ∧ z.state = .opened ∧ z.auth = 2
          ∧ z.credit = x.1.credit.toNat ∧ z.token = some x.1.key ∧ z.id = s.bill.sessCount + 1
          ∧ ∀ k, k ≠ n → t.sess k = s.sess k)
      ∧ (tok.lastCode = none → ∃ t, exec (.tokenResult c) s = .next t ∧ OnlyBox .bill s t ∧ Returns .bill .badArg [] t)
      ∧ (∀ code x, tok.lastCode = some code → tok.lastPort = some n → tok.lastTok = some x →
        ∃ t, exec (.tokenResult c) s = .next t ∧ t.bill = s.bill
          ∧ Returns .bill .done [wd n.val, wd code.toNat, wd x.credit.toNat, wd x.key.iday.toNat, wd x.key.kid.toNat,
              wd x.key.serial.toNat, wd (x.key.iday.toNat + 729)] t)
      ∧ (a[0].toNat = n.val → ∃ t, exec (.tokenDiscard c) s = .next t
        ∧ t.bill = { s.bill with tok.pendTok := tok.pendTok.set n none } ∧ Returns .bill .done [] t)
      ∧ (a[0].toNat < 8192 → 1 ≤ a[1].toNat → a[1].toNat ≤ 64 → ∃ t, exec (.ledgerRead c) s = .next t
        ∧ t.bill = { s.bill with recBuf := ((List.range (min a[1].toNat (8192 - a[0].toNat))).map fun i =>
            ledgerBytes (tok.ledger.getD (a[0].toNat + i) none)).flatten }
        ∧ Returns .bill .done [wd (min a[1].toNat (8192 - a[0].toNat))] t)
      ∧ ((8192 ≤ a[0].toNat ∨ a[1].toNat < 1 ∨ 64 < a[1].toNat) →
        ∃ t, exec (.ledgerRead c) s = .next t ∧ OnlyBox .bill s t ∧ Returns .bill .badArg [] t)
      ∧ (a[0].toNat < 8 → a[1] = 1 →
        let open_ := (s.txn.dom[(2 : Fin 6)]).st = .open_
        (open_ → ∃ t, exec (.tokenKeyLoad c) s = .next t ∧ t.bill = s.bill ∧ Returns .bill .done [] t
          ∧ t.txn.dom = vmod s.txn.dom 2 fun d => { d with keys := d.keys ++ [(a[0].toNat, none)] })
        ∧ (¬ open_ → ∃ t, exec (.tokenKeyLoad c) s = .next t ∧ OnlyBox .bill s t ∧ Returns .bill .noTxn [] t))
      ∧ (∀ k : List Byte, a[0].toNat = n.val → a[1] = 0 → s.sec.zeroised = false → (s.txn.dom[(2 : Fin 6)]).st = .open_ →
        blobOpen p256 (Config.ttk s.sec.gen) 1 (serialBytes s) s.bill.mbxin = some (n.val, k) → k.length = 16 →
        ∃ t, exec (.tokenKeyLoad c) s = .next t ∧ t.bill = s.bill ∧ Returns .bill .done [] t
          ∧ t.txn.dom = vmod s.txn.dom 2 fun d => { d with keys := d.keys ++ [(n.val, some (BitVec.ofNat 128 (beNat k)))] })
      ∧ (a[0].toNat = n.val → ∃ t, exec (.tokenKeyInfo c) s = .next t ∧ OnlyBox .bill s t
        ∧ Returns .bill .done [wd (b2n (tok.slots[n]).isSome), keyCheck tok.slots[n]] t)

/-- Display requests wait in one place per region, start one per slot with the rails up, drive their own pixels alone, and
end or are abandoned with their intents (R164, R165, R166, R171, R173, R175, R178, R183, R184, 08_legal_display.md; that a
host mode after its INIT keeps the age of its request is the model's choice, log 181, and that an update waits until falling
rails are down log 211's). -/
def Obligations.DisplayUpdatesStartRunAndEnd : Prop :=
  ∀ (s : State) (r : Fin 16) (mode : BitVec 3) (slot : Fin 4) (rail : Fin 5) (n : Port) (k : Fin 5) (since : BitVec 64),
    let g := s.disp.rgn[r]
    let d := s.disp
    let host := rgnEn s r = true ∧ rgnLegal s r = false ∧ mode ≠ 6
    let blocked := d.pfwBlock = true ∨ d.wftBad = true ∨ d.railFault = true ∨ d.retry = true ∨ slotBusy s slot = true
    let others := fun t : State => ∀ k : Fin 16, k ≠ r → t.disp.rgn[k] = s.disp.rgn[k]
    let lowered : Rails := match d.rails with
      | .down => .down
      | .rising j _ => .falling j s.time.sysNs
      | .up => .falling 4 s.time.sysNs
      | .falling j x => .falling j x
    let quietStep := s.pending = [] ∧ s.bill.core.bounds = [] ∧ since.toNat + 3000000 ≤ s.now ∧ s.now + 40 < 2 ^ 64
    (Answers .disp 0 s →
      (host → d.pfwBlock = false → g.pend = none → ∃ t, exec (.dispUpdateRequest r mode) s = .next t ∧ others t
        ∧ t.disp.rgn[r] = { g with
            pend := some
              { mode := mode, legal := false, initFirst := false, redraw := false, mark := false, order := d.order
                src := d.updsrc } })
        ∧ (¬ host → ∃ t, exec (.dispUpdateRequest r mode) s = .next t ∧ t.disp = { d with refused := true })
        ∧ ∃ t, exec .dispClrcnt s = .next t ∧ t.disp = { d with replacedCnt := 0, parkCnt := 0, railfCnt := 0 })
      ∧ (Runs s →
        (blocked ∨ nextPending s slot = none → exec (.updateStart slot) s = .next s)
          ∧ (∀ b, ¬ blocked → nextPending s slot = some r → activeBand s = some b → d.rails = .down →
            ∃ t, exec (.updateStart slot) s = .next t ∧ t.disp.rails = .rising 0 s.time.sysNs ∧ t.disp.rgn = d.rgn)
          ∧ (∀ b, ¬ blocked → nextPending s slot = some r → activeBand s = some b →
            (d.rails = .rising k since ∨ d.rails = .falling k since) →
            ∃ t, exec (.updateStart slot) s = .next t ∧ t.disp.rails = d.rails ∧ t.disp.rgn = d.rgn)
          ∧ (∀ b q, ¬ blocked → nextPending s slot = some r → activeBand s = some b → d.rails = .up → g.pend = some q →
            ∃ t u, exec (.updateStart slot) s = .next t ∧ others t ∧ (t.disp.rgn[r]).run = some u
              ∧ (t.disp.rgn[r]).pend = none ∧ (t.disp.rgn[r]).intentOpen = true ∧ (t.disp.rgn[r]).useq = g.useq + 1
              ∧ (t.disp.rgn[r]).intentMode = u.mode ∧ (t.disp.rgn[r]).intentLt = BitVec.ofNat 64 s.legalMs
              ∧ u.src = q.src ∧ u.legal = q.legal ∧ u.startNs = s.time.sysNs ∧ u.order = q.order ∧ u.band.toNat = b % 16
              ∧ ((q.initFirst || g.needInit) = false → u.mode = q.mode ∧ u.next = none))
          ∧ (d.rails = .rising k since → exec .railsUp s = .next { s with disp.rails := .up })
          ∧ ((d.rails = .down ∨ d.rails = .up ∨ d.rails = .falling k since) → exec .railsUp s = .next s)
          ∧ (d.rails = .up → anyRunning s = false →
            exec .railIdleTimeout s = .next { s with disp.rails := .falling 4 s.time.sysNs })
          ∧ (quietStep → d.rails = .rising k since → k.val < 4 →
            ∃ t, step s = .next t ∧ t.disp.rails = .rising (k + 1) (s.time.sysNs + 40) ∧ railsOn t.disp.rails = railOrder.take (k.val + 1))
          ∧ (quietStep → d.rails = .falling k since → ∃ t, step s = .next t
            ∧ t.disp.rails = (if k.val = 0 then .down else .falling (k - 1) (s.time.sysNs + 40))
            ∧ railsOn t.disp.rails = railOrder.take k.val)
          ∧ (¬ (d.rails = .up ∧ anyRunning s = false) → exec .railIdleTimeout s = .next s)
          ∧ (g.run = none → exec (.updateEnd r) s = .next s)
          ∧ (∀ u, g.run = some u → u.next = none → ∃ t, exec (.updateEnd r) s = .next t ∧ others t
            ∧ t.disp.rgn[r] = { g with
                run := none, intentOpen := false, needInit := false, damaged := false, shown := u.target
                redrawNeeded := g.redrawNeeded || u.mark, drawn := g.drawn || (u.legal && u.mode == 1) }
            ∧ t.intc.raised.getLsbD 129 = true ∧ t.disp.faultRun = 0)
          ∧ (∀ u m, g.run = some u → u.next = some m → ∃ t, exec (.updateEnd r) s = .next t ∧ others t
            ∧ t.intc.raised.getLsbD 129 = true ∧ t.disp.faultRun = 0 ∧ (t.disp.rgn[r]).shown = u.target
            ∧ (let now := (activeBand s).isSome = true ∧ (u.legal = true ∨ legalWaits s r = false)
              (now → (t.disp.rgn[r]).pend = g.pend ∧ ∃ w, (t.disp.rgn[r]).run = some w ∧ w.mode = m ∧ w.next = none
                ∧ w.legal = u.legal ∧ w.startNs = s.time.sysNs)
                ∧ (¬ now → (t.disp.rgn[r]).run = none ∧ ∃ q, (t.disp.rgn[r]).pend = some q ∧ q.order = u.order
                  ∧ (g.pend = none → q.mode = m ∧ q.legal = u.legal ∧ q.src = u.src))))
          ∧ (∀ x y : Nat, (∀ k : Fin 16, (d.rgn[k]).run = none ∨ x < rgnX s k ∨ rgnX s k + rgnW s k ≤ x ∨ y < rgnY s k
              ∨ rgnY s k + rgnH s k ≤ y) → driveCode s x y = 0)
          ∧ (d.rails = .down → exec (.railFault rail) s = .next s)
          ∧ (d.rails ≠ .down → ∃ t, exec (.railFault rail) s = .next t ∧ t.disp.rails = lowered ∧ t.disp.retry = true
            ∧ t.disp.faultRun = d.faultRun + 1 ∧ t.disp.railFault = (d.railFault || decide (3 ≤ d.faultRun + 1))
            ∧ t.disp.rgn[r] = if g.run.isSome then { g with run := none, parked := true, damaged := true, shown := .mixed } else g)
          ∧ (¬ (d.retry = true ∧ d.railFault = false) → exec .railRetry s = .next s)
          ∧ (d.retry = true → d.railFault = false → ∃ t, exec .railRetry s = .next t ∧ t.disp.retry = false
            ∧ (d.pfwBlock = false → rgnEn s r = true → g.damaged = true →
                ∃ q, (t.disp.rgn[r]).pend = some q ∧ q.redraw = true ∧ q.initFirst = true))
          ∧ ((s.sess n).any (fun x => x.state == .running) = false → exec (.legalRedrawPeriod n) s = .next s)
          ∧ ((s.sess n).any (fun x => x.state == .running) = true → legalRegion s n = some r → d.pfwBlock = false →
            ∃ t q, exec (.legalRedrawPeriod n) s = .next t ∧ others t ∧ (t.disp.rgn[r]).pend = some q ∧ q.mode = 1
              ∧ q.legal = true))

/-- A pilot period is measured unless it was cut short, its high plateau is classified with hysteresis and debounced into
STATE, and the next period has the imposed or the host's mode and the last written duty (R187, R188, R189, R190, R192, R193,
R195, R196, R197, R199, 09_pilot_and_proximity.md; which samples are the proximity codes is the model's choice, log 182). -/
def Obligations.PilotPeriodsMeasureThenObey : Prop :=
  ∀ (s : State) (n : Port) (sm : List (BitVec 12)) (w : Word),
    let p := s.vp[n].pilot
    let l := sm.take 1000
    let blank := cpBlank s n
    let duty := p.effDuty.toNat
    let mv := (pilotCodes p.effMode blank duty l).map fun c => (c.1, pilotMv s n c.2)
    let pp := proxCodes p.effMode duty l
    let vh := plateau s n (highSamples p.effMode blank duty l)
    let th := cpth s n
    let row (v : Int) : PState := if th 0x20 15 0 ≤ v then .invalid else if th 0x18 31 16 ≤ v then .a
      else if th 0x18 15 0 ≤ v then .b else if th 0x1C 31 16 ≤ v then .c else if th 0x1C 15 0 ≤ v then .d
      else if th 0x20 31 16 ≤ v then .e else .invalid
    let within (v lo hi : Int) : Bool := decide (lo - cpHyst s n < v ∧ v < hi + cpHyst s n)
    let stays (v : Int) : Bool := match p.state with
      | .a => within v (th 0x18 31 16) (th 0x20 15 0)
      | .b => within v (th 0x18 15 0) (th 0x18 31 16)
      | .c => within v (th 0x1C 31 16) (th 0x18 15 0)
      | .d => within v (th 0x1C 15 0) (th 0x1C 31 16)
      | .e => within v (th 0x20 31 16) (th 0x1C 15 0)
      | .invalid => decide (th 0x20 15 0 - cpHyst s n < v ∨ v < th 0x20 31 16 + cpHyst s n)
      | .f => false
      | .unknown => false
    let cls (v : Int) : PState := if stays v then p.state else row v
    (Runs s →
      ∃ t, exec (.pilotPeriodEnd n sm) s = .next t ∧ t = { s with vp := t.vp }
        ∧ (∀ k : Port, k ≠ n → t.vp[k] = s.vp[k])
        ∧ (let q := t.vp[n].pilot
          q.effMode = (pilotOverride s n).getD (hostMode p) ∧ q.ovr = pilotOverride s n ∧ q.effDuty = p.duty ∧ q.duty = p.duty
            ∧ q.cutShort = false
            ∧ (p.cutShort = true → q.vhigh = p.vhigh ∧ q.vlow = p.vlow ∧ q.mduty = p.mduty ∧ q.res = p.res
              ∧ q.ppclass = p.ppclass ∧ q.disagree = p.disagree)
            ∧ (p.cutShort = false →
              q.vhigh = (plateau s n (highSamples p.effMode blank duty l)).getD p.vhigh
                ∧ q.vlow = (plateau s n (lowSamples p.effMode blank duty l)).getD p.vlow
                ∧ q.mduty = measuredDuty p.lastMv mv
                ∧ (q.disagree = 0 ∨ q.disagree = p.disagree + 1)
                ∧ (pp ≠ [] → q.res = BitVec.ofNat 16 (ppRes (rpuOf n)
                    (roundHalfUp (pp.foldl (fun a c => a + (c.toNat : Int)) 0) pp.length).toNat)))
            ∧ (q.effMode = .f → q.senseFault.on = false → q.state = .f)
            ∧ (p.cutShort = false → q.state = if q.senseFault.on then .invalid else q.eng.cls)
            ∧ (p.effMode = .f → q.effMode ≠ .f → q.eng.cls = .unknown)
            ∧ (p.cutShort = false → p.effMode ≠ .f → q.effMode ≠ .f → p.eng.cls ≠ .f →
              (vh = none → q.eng = p.eng)
                ∧ ∀ v, vh = some v →
                  let run := if cls v = p.eng.cand then p.eng.run + 1 else 1
                  q.eng = { cls := if cpNdeb s n ≤ run then cls v else p.eng.cls, cand := cls v, run := run })))
      ∧ (Answers .vp n.val s →
        (∃ t, exec (.pilotCtlWrite n w) s = .next t ∧ (∀ k : Port, k ≠ n → t.vp[k] = s.vp[k])
          ∧ t.vp[n] = { s.vp[n] with pilot := { p with
              duty := BitVec.ofNat 11 (clamp 40 1940 (field w 26 16)), mode := BitVec.ofNat 2 (field w 1 0) } })
        ∧ ∃ t, exec (.vpPevtClrcnt n) s = .next t ∧ (∀ k : Port, k ≠ n → t.vp[k] = s.vp[k])
          ∧ t.vp[n] = { s.vp[n] with pilot := { p with stchgCnt := 0, faultCnt := 0 } })

/-- A matching run collects what the ports hear, is decided once for at most one port, and only REARM frees an ambiguous
vehicle (R203, R204, R205, R206, R216, R223, 10_vehicle_link.md; that a sounding without its 58 groups counts in RXERR is the
model's choice, logs 5 and 186). -/
def Obligations.SlacRunsAreDecidedOnce : Prop :=
  (∀ (s : State) (n : Port) (mac : BitVec 48) (run : BitVec 64) (ann : Nat) (g bad : List Nat), Runs s → g.length = 58 →
    bad.length ≠ 58 →
    let heard := isPlc s n = true ∧ listens s n = true ∧ (mmeLimit s n).1 = true
    (heard → ∃ t r, exec (.cmStartAttenCharInd n mac run ann) s = .next t ∧ findRun t mac run = some r
        ∧ r.starts.getLsbD n.val = true
        ∧ (∀ q, findRun s mac run = some q → r.snd = q.snd ∧ r.sum = q.sum ∧ r.decided = q.decided)
        ∧ (isCandidate s n = true → (t.vp[n].link).lstate = .sounding)
        ∧ ∀ k : Port, k ≠ n → t.vp[k] = s.vp[k])
      ∧ (heard → ∃ t, exec (.cmMnbcSoundInd n mac run g) s = .next t ∧ (∀ k : Port, k ≠ n → t.vp[k] = s.vp[k])
        ∧ (∀ q, findRun s mac run = some q → q.decided = false → ∃ r, findRun t mac run = some r
            ∧ r.snd[n] = q.snd[n] + 1 ∧ r.sum[n] = q.sum[n] + g.sum
            ∧ ∀ k : Port, k ≠ n → r.snd[k] = q.snd[k] ∧ r.sum[k] = q.sum[k])
        ∧ (∀ q, findRun s mac run = some q → q.decided = true → t.slac = s.slac))
      ∧ (¬ heard → (∃ t, exec (.cmStartAttenCharInd n mac run ann) s = .next t ∧ t.slac = s.slac)
        ∧ ∃ t, exec (.cmMnbcSoundInd n mac run g) s = .next t ∧ t.slac = s.slac)
      ∧ exec (.cmMnbcSoundInd n mac run bad) s = .next (if isPlc s n = true ∧ listens s n = true then
          s.modLink n fun l => { l with rxerr := satInc l.rxerr } else s)
      ∧ (∃ t, exec (.cmSlacParamReq mac run) s = .next t ∧ t.slac = s.slac
        ∧ (heard → isCandidate s n = true → Sends s n [.slacParamCnf mac run] t)
        ∧ (¬ (heard ∧ isCandidate s n = true) → Sends s n [] t)))
  ∧ (∀ (s : State) (mac : BitVec 48) (run : BitVec 64), Runs s →
    let newly := fun (t : State) (n : Port) =>
      (t.vp[n].link).assigned = some (mac, run) ∧ (s.vp[n].link).assigned ≠ some (mac, run)
    ((findRun s mac run).all (fun r => r.decided) = true → exec (.slacWindowClose mac run) s = .next s)
      ∧ ((findRun s mac run).any (fun r => !r.decided) = true → ∃ t, exec (.slacWindowClose mac run) s = .next t
        ∧ (findRun t mac run).any (fun r => r.decided) = true
        ∧ (∀ n k, newly t n → newly t k → n = k)
        ∧ (∀ n, newly t n → isCandidate s n = true ∧ (t.vp[n].link).lstate = .assigned ∧ (t.vp[n].link).rspSeen = false)
        ∧ ((∃ n : Port, mac ∈ (s.vp[n].link).ambigMacs) → ∀ n, ¬ newly t n))
      ∧ ∀ r, findRun s mac run = some r → r.decided = false →
        let cfg := s.vp[slacPort s].link
        let heard := fun n : Port => isPlc s n = true ∧ cfg.minsnd.toNat ≤ r.snd[n]
        let ambig := ∃ n : Port, mac ∈ (s.vp[n].link).ambigMacs
        let best := fun b : Port => isCandidate s b = true ∧ heard b ∧ ¬ ambig ∧ ∀ k, heard k → k ≠ b →
          attenOf r b + cfg.margin.toNat ≤ attenOf r k ∧ (attenOf r b < attenOf r k ∨ b < k)
        ∃ t, exec (.slacWindowClose mac run) s = .next t
          ∧ (∀ b, best b → (t.vp[b].link).assigned = some (mac, run) ∧ (t.vp[b].link).result = 1
            ∧ Sends s b [.attenCharInd mac run (attenOf r b)] t ∧ (∀ k, k ≠ b → Sends s k [] t)
            ∧ ∀ k, heard k → k ≠ b → (t.vp[k].link).result = 2 ∧ (t.vp[k].link).assigned = (s.vp[k].link).assigned)
          ∧ ((∀ b, ¬ best b) → ∀ k, (t.vp[k].link).assigned = (s.vp[k].link).assigned
            ∧ (heard k → (ambig → (t.vp[k].link).result = 4) ∧ (¬ ambig → (t.vp[k].link).result = 3)
              ∧ (isCandidate s k = true → (t.vp[k].link).deferCnt = satInc (s.vp[k].link).deferCnt
                ∧ (¬ ambig → (mac ∈ (t.vp[k].link).ambigMacs ↔
                  max 1 cfg.defmax.toNat ≤ (deferCount mac s.slac.deferred).1))))))
  ∧ ∀ (s : State) (n : Port), Answers .vp n.val s →
    let macs := (s.vp[n].link).ambigMacs
    (∃ t, exec (.slacRearm n) s = .next t ∧ t.slac.runs = s.slac.runs
        ∧ t.slac.deferred = s.slac.deferred.filter (fun p => !macs.contains p.1)
        ∧ ∀ k : Port, t.vp[k] = { s.vp[k] with link := { s.vp[k].link with
            ambigMacs := (s.vp[k].link).ambigMacs.filter (!macs.contains ·) } })
      ∧ (macs = [] → exec (.slacRearm n) s = .next (written .vp n.val s))

/-- A match needs the assigned run and its response, makes fresh keys, and XR6 follows the peer's answer only (R201,
R202, R205, R209, R210, R223, 10_vehicle_link.md). -/
def Obligations.AssignedPortsMatchThenChooseRobustMode : Prop :=
  ∀ (s : State) (n : Port) (mac : BitVec 48) (run : BitVec 64) (v : Nat), Runs s →
    let l := s.vp[n].link
    let heard := isPlc s n = true ∧ listens s n = true ∧ (mmeLimit s n).1 = true
    let mine := l.lstate = .assigned ∧ l.assigned = some (mac, run)
    let waits := l.xrWait = true ∧ l.lstate = .matched
    (∃ t, exec (.cmAttenCharRsp n mac run) s = .next t ∧ (∀ k : Port, k ≠ n → t.vp[k] = s.vp[k])
        ∧ (heard → mine → (t.vp[n].link).rspSeen = true)
        ∧ (¬ (heard ∧ mine) → (t.vp[n].link).rspSeen = l.rspSeen)
        ∧ (t.vp[n].link).lstate = l.lstate ∧ (t.vp[n].link).assigned = l.assigned)
      ∧ (∃ t, exec (.cmSlacMatchReq n mac run) s = .next t ∧ (∀ k : Port, k ≠ n → t.vp[k] = s.vp[k])
        ∧ (heard → mine → l.rspSeen = true →
          let m := t.vp[n].link
          let nmk := BitVec.ofNat 128 (Config.random s.free)
          let nid := BitVec.ofNat 56 (Config.random (s.free + 1))
          m.lstate = .matched ∧ m.nmk = some nmk ∧ m.nid = nid ∧ m.assigned = none ∧ m.evt.getLsbD 3 = true
            ∧ (l.xr6en = false → Sends s n [.slacMatchCnf mac run nmk nid] t ∧ m.xrWait = l.xrWait)
            ∧ (l.xr6en = true → Sends s n [.slacMatchCnf mac run nmk nid, .xrCapReq Config.oui 1] t ∧ m.xrWait = true))
        ∧ (¬ (heard ∧ mine ∧ l.rspSeen = true) → (t.vp[n].link).lstate = l.lstate ∧ (t.vp[n].link).nmk = l.nmk
          ∧ (t.vp[n].link).assigned = l.assigned))
      ∧ (heard → ∃ t, exec (.cmValidateReq n mac) s = .next t ∧ Sends s n [.validateCnf mac] t
        ∧ (t.vp[n].link).lstate = l.lstate)
      ∧ (l.lstate = .assigned → exec (.slacMatchTimeout n) s =
          .next (s.modLink n fun l => { l with lstate := .idle, assigned := none, rspSeen := false }))
      ∧ (l.lstate ≠ .assigned → exec (.slacMatchTimeout n) s = .next s)
      ∧ (waits → exec (.xrCapCnf n v) s = .next (s.modLink n fun l => { l with xrWait := false, xr6 := decide (v = 1) }))
      ∧ (¬ waits → exec (.xrCapCnf n v) s = .next s)
      ∧ (l.xrWait = true → exec (.xrCapTimeout n) s = .next (s.modLink n fun l => { l with xrWait := false, xr6 := false }))
      ∧ (l.xrWait = false → exec (.xrCapTimeout n) s = .next s)
      ∧ (l.xr6 = true → exec (.xr6Fallback n) s = .next (s.modLink n fun l => { l with xr6 := false, evt := l.evt ||| 0x40 }))
      ∧ (l.xr6 = false → exec (.xr6Fallback n) s = .next s)

/-- A received frame is stored or counted, a pushed frame is sent in order or fails, and windows open on every PLC port
(R209, R211, R212, R213, R215, R216, R217, R218, R219, R223, R224, 10_vehicle_link.md; that a data frame outside 64 to 1,522 bytes
counts in RXERR is the model's choice, logs 5 and 186, and the windows that ended and the air time are log 187's). -/
def Obligations.FramesAreStoredSentOrCounted : Prop :=
  ∀ (s : State) (n : Port) (kind : FrameKind) (fr : List Byte) (samples : List (BitVec 12)) (air : Nat) (w : Word) (slot : Fin 8)
    (src : Fin 4) (inst : BitVec 64),
    let l := s.vp[n].link
    let sl : Fin 8 := Fin.ofNat 8 (field w 18 16)
    let len := field w 10 0
    let queued := l.pushes.any (fun p => p.slot == sl) = true
    let fits := 60 ≤ len ∧ len ≤ 1522 ∧ isSlacMme (slotBytes l.slots[sl] len) = false
    let isolated := fun t : State => ∀ k : Port, k ≠ n → t.vp[k] = s.vp[k]
    let sized := 64 ≤ fr.length ∧ fr.length ≤ 1522
    let own := ∃ xr6, kind = .own xr6
    let taken := own ∧ sized ∧ isSlacMme fr = false ∧ (isMmeFrame fr = true ∨ takesDest n s.draw.1 fr = true)
    let kept := (kind = .outside ∧ isMmeFrame fr = false) ∨ isSlacMme fr = true
      ∨ (own ∧ isMmeFrame fr = false ∧ takesDest n s.draw.1 fr = false)
    let b := blanking s n (samples.map fun x => x.toInt)
    (Runs s →
      (listens s n = false → exec (.frameReceive n kind fr samples) s = .next s)
        ∧ (listens s n = true → ∃ t, exec (.frameReceive n kind fr samples) s = .next t ∧ isolated t
          ∧ (let m := t.vp[n].link
            m.rms2 = b.1 ∧ m.erased = satAdd l.erased b.2.2 ∧ m.blankSym = satAdd l.blankSym b.2.1
            ∧ (kind = .malformed ∨ (kind ≠ .badCheck ∧ ¬ sized) → m.rxerr = satInc l.rxerr ∧ m.rxStore = l.rxStore)
            ∧ (kind = .badCheck → m.frameLost = satInc l.frameLost ∧ m.rxerr = l.rxerr ∧ m.rxStore = l.rxStore)
            ∧ (kind = .foreign ∨ kept → m.rxStore = l.rxStore ∧ m.rxdrop = l.rxdrop)
            ∧ (taken → l.rxStore.length < 8 → m.fseq = l.fseq + 1
              ∧ ∃ h : List Byte, h.length = 16 ∧ m.rxStore = l.rxStore ++ [fit 2048 (h ++ fr)])
            ∧ (taken → 8 ≤ l.rxStore.length → m.rxdrop = satInc l.rxdrop ∧ m.rxStore = l.rxStore)
            ∧ (kind = .outside → sized → (isSlacMme fr = true ∨ isMmeFrame fr = true) → (mmeLimit s n).1 = false →
              m.mmedrop = satInc l.mmedrop ∧ m.rxStore = l.rxStore)
            ∧ (own → sized → isPlc s n = false → (s.vp[n].pilot).state.serves = true → (s.vp[n].pilot).ovr ≠ some .f →
              l.lstate = .linkDown → m.lstate = .linkUp)))
        ∧ (0 < l.rxSince → exec (.rxCoalTimeout n) s = .next (s.modLink n fun l => { l with rxSince := 0, evt := l.evt ||| 2 }))
        ∧ (¬ 0 < l.rxSince → exec (.rxCoalTimeout n) s = .next s)
        ∧ (∀ p, nextPush (isPlc s n) l.pushes = some p → mayTransmit s n air = true → exec (.frameTransmitDone n air) s =
            .next (s.modLink n fun l =>
              { l with
                sent := l.sent ||| slotBit p.slot, pushes := l.pushes.filter (fun q => q.slot ≠ p.slot)
                winHeard := l.winHeard.filter (fun w => decide (s.now < w.2.2))
                robust := robustOf s n (slotBytes l.slots[p.slot] p.len) }))
        ∧ ((nextPush (isPlc s n) l.pushes = none ∨ mayTransmit s n air = false) →
          exec (.frameTransmitDone n air) s = .next s)
        ∧ (l.swdefer = true → isPlc s n = true → (∃ x ∈ l.winHeard, x.1 + air ≤ s.now ∧ x.2.1 < s.now ∧ s.now < x.2.2 + air) →
          mayTransmit s n air = false)
        ∧ (l.lstate = .linkDown → isPlc s n = false → s.sys.mode ≠ .degraded → portOn s n = true → mayTransmit s n air = true)
        ∧ (portOn s n = false → mayTransmit s n air = false)
        ∧ (l.pushes.any (fun p => p.slot == slot) = true → ∃ t, exec (.txTimeout n slot) s = .next t ∧ isolated t
          ∧ t.vp[n].link = { l with pushes := l.pushes.filter (fun q => q.slot ≠ slot), failB := l.failB ||| slotBit slot
                                    txtmoCnt := satInc l.txtmoCnt, evt := l.evt ||| 0x80 })
        ∧ (l.pushes.any (fun p => p.slot == slot) = false → exec (.txTimeout n slot) s = .next s)
        ∧ (l.lstate = .linkUp → exec (.linkSupervisionTimeout n) s =
            .next (s.modLink n fun l => { l with lstate := .linkDown, evt := l.evt ||| 0x10 }))
        ∧ (l.lstate ≠ .linkUp → exec (.linkSupervisionTimeout n) s = .next s)
        ∧ (∃ t, exec (.switchingAnnouncement src inst) s = .next t ∧ t = { s with vp := t.vp }
          ∧ (t.vp[n].link).windows = (if l.swLen[src] = 0 ∨ isPlc s n = false then l.windows
              else addWindow (inst.toNat + 1000 * (l.swDly[src]).toNat)
                (inst.toNat + 1000 * (l.swDly[src]).toNat + 1000 * (l.swLen[src]).toNat) l.windows)
          ∧ (t.vp[n].link).winHeard = (if l.swLen[src] = 0 ∨ isPlc s n = false then l.winHeard
              else (s.now, inst.toNat + 1000 * (l.swDly[src]).toNat,
                inst.toNat + 1000 * (l.swDly[src]).toNat + 1000 * (l.swLen[src]).toNat) :: l.winHeard))
        ∧ exec (.switchingWindowEnd n) s = .next (s.modLink n fun l =>
            if l.swdefer && l.windows.tail.any (fun w => decide (s.now < w.2)) then { l with windows := l.windows.tail }
            else { l with windows := l.windows.tail, mmeOut := l.mmeHeld.reverse ++ l.mmeOut, mmeHeld := [] }))
      ∧ (Answers .vp n.val s →
        (¬ queued → fits → ∃ t, exec (.txPush n w) s = .next t ∧ isolated t
          ∧ t.vp[n].link = { l with pushes := l.pushes ++ [{ slot := sl, len := len, cap := BitVec.ofNat 2 (field w 27 26) }] })
        ∧ (¬ (¬ queued ∧ fits) → ∃ t, exec (.txPush n w) s = .next t ∧ isolated t
          ∧ t.vp[n].link = { l with failB := l.failB ||| slotBit sl })
        ∧ ∃ t, exec (.vpLevtClrcnt n) s = .next t ∧ isolated t ∧ t.vp[n].link = { l with
            rxdrop := 0, rxerr := 0, erased := 0, frameLost := 0, mmedrop := 0, txtmoCnt := 0, blankSym := 0, deferCnt := 0 })

/-- A record engine queues three operations per direction, installs keys with sequence number zero, and advances it on
success only, when it is its port's turn and no signature of the kernel waits, or it ran as the kernel's request came (R139,
R220, R221, R222, 10_vehicle_link.md; that the port whose turn it is when the request comes runs then is the model's choice, log
218). -/
def Obligations.RecordEngineKeepsItsDirectionsApart : Prop :=
  ∀ (s : State) (n : Port) (w : Word) (ct : Byte) (len : BitVec 15) (rx : Bool),
    let x := s.vp[n].tls
    let dir := fun (t : Tls) (rx : Bool) => if rx then t.rx else t.tx
    let isolated := fun t : State => ∀ k : Port, k ≠ n → t.vp[k] = s.vp[k]
    let op : Byte → TlsOp := fun ct => { src := x.src, dst := x.dst, len := len.toNat, ctype := ct }
    (Answers .vp n.val s →
      (∃ t, exec (.tlsKeyWord n w) s = .next t ∧ isolated t ∧ (t.vp[n].tls).selWord = x.selWord + 1
          ∧ dir (t.vp[n].tls) (!x.selDir) = dir x (!x.selDir)
          ∧ (∀ h : x.selWord.toNat < 19, (dir (t.vp[n].tls) x.selDir).stage = (dir x x.selDir).stage.set x.selWord.toNat w h))
        ∧ (∃ t, exec (.tlsInsttx n) s = .next t ∧ isolated t ∧ (t.vp[n].tls).rx = x.rx
          ∧ (t.vp[n].tls).tx = { x.tx with keys := some (x.suite.toNat, x.tx.stage.toList), seq := 0, stopped := false })
        ∧ (∃ t, exec (.tlsInstrx n) s = .next t ∧ isolated t ∧ (t.vp[n].tls).tx = x.tx
          ∧ (t.vp[n].tls).rx = { x.rx with keys := some (x.suite.toNat, x.rx.stage.toList), seq := 0, stopped := false })
        ∧ (∃ t, exec (.tlsClear n) s = .next t ∧ isolated t ∧ t.vp[n].tls = { x with
            tx := { TlsDir.reset with stopped := x.tx.stopped }, rx := { TlsDir.reset with stopped := x.rx.stopped } })
        ∧ (x.tx.stopped = false → x.tx.queue.length < 3 → ∃ t, exec (.tlsProtect n ct len) s = .next t ∧ isolated t
          ∧ t.vp[n].tls = { x with tx := { x.tx with queue := x.tx.queue ++ [op ct] } } ∧ t.sec.tlsRun = engineAt s)
        ∧ (x.rx.stopped = false → x.rx.queue.length < 3 → ∃ t, exec (.tlsUnprotect n len) s = .next t ∧ isolated t
          ∧ t.vp[n].tls = { x with rx := { x.rx with queue := x.rx.queue ++ [op 0] } } ∧ t.sec.tlsRun = engineAt s)
        ∧ ((x.tx.stopped = true ∨ 3 ≤ x.tx.queue.length) → ∃ t, exec (.tlsProtect n ct len) s = .next t ∧ isolated t
          ∧ t.vp[n].tls = x ∧ (t.vp[n].link).evt.getLsbD 8 = true))
      ∧ (Runs s →
        let serves := engineAt s = some n
        (¬ serves → exec (.tlsOpComplete n rx) s = .next s)
          ∧ (serves → (dir x rx).queue = [] →
            exec (.tlsOpComplete n rx) s = .next { s with sec.tlsLast := n, sec.tlsRun := none })
          ∧ (∀ k, s.sec.tlsRun = some k → tlsWaits s k = true → engineAt s = some k)
          ∧ ((∀ k, s.sec.tlsRun = some k → tlsWaits s k = false) → engineAt s = if kernelSigns s then none else tlsTurn s)
          ∧ (∀ k, tlsTurn s = some k → tlsWaits s k = true ∧ ∀ j : Port, tlsWaits s j = true →
            (k.val + 15 - s.sec.tlsLast.val) % 8 ≤ (j.val + 15 - s.sec.tlsLast.val) % 8)
          ∧ (∀ o q, serves → (dir x rx).queue = o :: q → ∃ t, exec (.tlsOpComplete n rx) s = .next t ∧ isolated t
            ∧ t.bill = s.bill ∧ t.sec.tlsRun = none ∧ t.sec.tlsLast = n
            ∧ dir (t.vp[n].tls) (!rx) = dir x (!rx) ∧ (t.vp[n].link).evt.getLsbD 9 = true
            ∧ ((dir x rx).keys = none → (t.vp[n].tls).result = 3)
            ∧ ((t.vp[n].tls).result = 0 → (dir (t.vp[n].tls) rx).seq = (dir x rx).seq + 1
              ∧ (dir (t.vp[n].tls) rx).queue = q)
            ∧ ((t.vp[n].tls).result ≠ 0 → (dir (t.vp[n].tls) rx).seq = (dir x rx).seq ∧ t.sram = s.sram ∧ t.nor = s.nor)))

/-- Every latching fault completes with the latch set, its cause recorded, LOCKOUT entered and every coil pair off; where its
condition does not hold nothing changes. That is each fault command's own effect in normal execution, since R246 gives it no
other (R42, R240, R246, R262, R263, R276, R277, R283, R366, 12_caldera_safety_functions.md; that a requester held in reset makes
no request whose parity could fail is log 219's reading). -/
def Obligations.LatchingFaultsLockOutAndDropEveryCoil : Prop :=
  ∀ (s : State) (c : Fin 12) (j : Fin 8) (high : Bool) (q : Fin 10) (ofs : BitVec 16), Runs s →
    (s.sys.mode = .commission ∨ s.sys.mode = .service ∨ s.sys.mode = .maintain ∨ s.sys.mode = .degraded) →
    let x := s.safe.coil[c]
    let locks := fun (i : Instr) (code : Nat) => ∃ t, exec i s = .next t ∧ t.sys.mode = .lockout ∧ t.safe.latch = true
      ∧ t.safe.causes.getLsbD code = true ∧ ∀ k : Fin 12, (t.safe.coil[k]).drive = .off
    let dt := clamp 4 8000 (s.pf (siA (stopIn s j)) 28 16)
    let due := stopEn s j = true ∧ (s.safe.pair[j]).fired = false ∧ dt ≤ (s.safe.pair[j]).diff
    let tested := s.pb (0x20300900 + 8 * c.val) 0 = true ∧ testDeferred s c = false
    locks .lockstepMismatch 1 ∧ locks .lockstepTokenTimeout 2 ∧ locks .calderaSramUncorrectable 3
      ∧ locks (.calderaPathParity none) 4
      ∧ (portMute s q.val = false → locks (.calderaPathParity (some (q, ofs))) 4)
      ∧ (portMute s q.val = true → exec (.calderaPathParity (some (q, ofs))) s = .next s)
      ∧ locks (.coilOvercurrent c) 9
      ∧ (x.drive = .pullIn → locks (.coilPullinSlow c) 9) ∧ (x.drive ≠ .pullIn → exec (.coilPullinSlow c) s = .next s)
      ∧ (x.drive = .hold → locks (.coilHoldUndercurrent c) 9)
      ∧ (x.drive ≠ .hold → exec (.coilHoldUndercurrent c) s = .next s)
      ∧ (tested → locks (.pulseTest c high false) 9) ∧ (¬ tested → exec (.pulseTest c high false) s = .next s)
      ∧ (due → locks (.discrepancyLockout j) 8) ∧ (¬ due → exec (.discrepancyLockout j) s = .next s)
      ∧ (x.fbo = true → (s.safe.si[fbIn s c]).deb = false → x.welded = false → locks (.feedbackOpenTimeout c) 7)
      ∧ (x.fbo = false → exec (.feedbackOpenTimeout c) s = .next s)
      ∧ (∀ w a v ch, x.win = some w → acrossOf s c = some (a, v, ch) →
        w.any = true → w.le10 = true → w.ge60 = true → thr s ch 50 ≤ w.hi - w.lo → x.welded = false → locks (.weldWindowEnd c) 7)

/-- No command but the expiry of a close's announcement, in SERVICE or MAINTAIN, starts the drive of a coil pair, and no command
but the end of its pull-in takes it to hold (R24, R231, R274, 13_caldera_io_and_safety_link.md). -/
def Obligations.OnlyAnAnnouncedCloseDrivesACoil : Prop :=
  ∀ (c : Instr) (s t : State) (k : Fin 12), exec c s = .next t →
    let was := (s.safe.coil[k]).drive
    let now := (t.safe.coil[k]).drive
    (now = .pullIn → was = .pullIn ∨ (c = .coilAnnounceExpiry k ∧ (s.safe.coil[k]).ph = .annClose ∧ Runs s
        ∧ (s.sys.mode = .service ∨ s.sys.mode = .maintain)))
      ∧ (now = .hold → was = .hold ∨ (c = .pullinEnd k ∧ was = .pullIn ∧ Runs s))

/-- Each step of a contactor's close and opening, each feedback change and test, and each timeout acts in its own phase only
and on its own pair (R231, R232, R233, R259, R262, R263, R274, R277, R285, R286, 13_caldera_io_and_safety_link.md). -/
def Obligations.ContactorsCloseAndOpenInSteps : Prop :=
  ∀ (s : State) (c : Fin 12) (n : Port) (i : Fin 16) (b high pass : Bool) (low : BitVec 16), Runs s →
    let x := s.safe.coil[c]
    let drives := fun t : State => ∀ k : Fin 12, (t.safe.coil[k]).drive = (s.safe.coil[k]).drive
    let rest := fun t : State => ∀ k : Fin 12, k ≠ c → t.safe.coil[k] = s.safe.coil[k]
    let one := fun (t : State) (y : Coil) => t.safe.coil[c] = y ∧ rest t
    let tested := s.pb (0x20300900 + 8 * c.val) 0 = true ∧ testDeferred s c = false
    let deb := (s.safe.si[fbIn s c]).deb
    (x.ph = .annClose → closeMode s = true → ∃ t, exec (.coilAnnounceExpiry c) s = .next t
        ∧ one t { x with drive := .pullIn, st := .closing, ph := .none, run := 0, cmdTick := s.safe.tick })
      ∧ (x.ph = .annClose → closeMode s = false → ∃ t, exec (.coilAnnounceExpiry c) s = .next t ∧ drives t
        ∧ (t.safe.coil[c]).ph = .none)
      ∧ (x.ph = .annOpen → ∃ t, exec (.coilAnnounceExpiry c) s = .next t ∧ (t.safe.coil[c]).drive = .off)
      ∧ ((x.ph = .none ∨ x.ph = .conds ∨ x.ph = .queued) → exec (.coilAnnounceExpiry c) s = .next s)
      ∧ (x.run < 10 → exec (.closeConditionsMet c) s = .next s)
      ∧ (10 ≤ x.run → x.tie = none → x.ph = .conds → ∃ t, exec (.closeConditionsMet c) s = .next t ∧ drives t
        ∧ ((t.safe.coil[c]).ph = .queued ∨ (t.safe.coil[c]).ph = .annClose))
      ∧ (x.drive = .pullIn → ∃ t, exec (.pullinEnd c) s = .next t ∧ (t.safe.coil[c]).drive = .hold
        ∧ ∀ k : Fin 12, k ≠ c → (t.safe.coil[k]).drive = (s.safe.coil[k]).drive)
      ∧ (x.drive ≠ .pullIn → exec (.pullinEnd c) s = .next s)
      ∧ (role s c = 1 → coilEn s c = true → x.st = .closing → (s.safe.si[fbIn s c]).deb = true →
        clamp 4 40 (s.pf (siA (fbIn s c)) 7 0) ≤ (s.safe.si[fbIn s c]).run → (∀ k, k ≠ c → fbIn s k ≠ fbIn s c) →
        ∃ t, exec (.feedbackChange (fbIn s c)) s = .next t ∧ (t.safe.coil[c]).st = .closed ∧ drives t)
      ∧ ((s.safe.si[i]).run < clamp 4 40 (s.pf (siA i) 7 0) → exec (.feedbackChange i) s = .next s)
      ∧ (x.st = .closing → deb = true → ∃ t, exec (.feedbackCloseTimeout c) s = .next t ∧ (t.safe.coil[c]).st = .fault
        ∧ (t.safe.coil[c]).drive = .off ∧ (t.safe.coil[c]).fbclose = true)
      ∧ (¬ (x.st = .closing ∧ deb = true) → exec (.feedbackCloseTimeout c) s = .next s)
      ∧ (x.fbo = true → deb = true → x.st = .opening → ∃ t, exec (.feedbackOpenTimeout c) s = .next t
        ∧ (t.safe.coil[c]).st = .open_ ∧ (t.safe.coil[c]).fbo = false ∧ drives t)
      ∧ (x.fbo = true → deb = true → x.st ≠ .opening → exec (.feedbackOpenTimeout c) s =
          .next (s.modCoil c fun x => { x with fbo := false }))
      ∧ (x.win = none → exec (.weldWindowEnd c) s = .next s)
      ∧ (∀ w, x.win = some w → (w.any = false ∨ w.le10 = false ∨ w.ge60 = false ∨ acrossOf s c = none
          ∨ ∃ a v ch, acrossOf s c = some (a, v, ch) ∧ w.hi - w.lo < thr s ch 50) →
        ∃ t, exec (.weldWindowEnd c) s = .next t ∧ one t { x with win := none, unproven := true })
      ∧ (x.ph = .conds → ∃ t, exec (.closeReqTimeout c) s = .next t ∧ rest t ∧ (t.safe.coil[c]).ph = .none
        ∧ (t.safe.coil[c]).drive = x.drive ∧ (x.mbx = true → (t.box .safe).status = Status.timeout.code))
      ∧ (x.ph ≠ .conds → exec (.closeReqTimeout c) s = .next s)
      ∧ (∀ y, x.tie = some y → y.cmd = false → ∃ t, exec (.tieMatchTimeout c) s = .next t ∧ rest t
        ∧ (t.safe.coil[c]).tie = none ∧ (t.safe.coil[c]).drive = x.drive ∧ t.safe.poolevt.getLsbD 4 = true)
      ∧ ((∀ y, x.tie = some y → y.cmd = true) → exec (.tieMatchTimeout c) s = .next s)
      ∧ (∀ r, (s.safe.out[n]).ramp = some r → outletCoil s n = some c →
        (4 * tRampMs s n ≤ r.k → ∃ t, exec (.rampTimeout n) s = .next t ∧ (t.safe.coil[c]).drive = .off ∧ rest t)
          ∧ (r.k < 4 * tRampMs s n → exec (.rampTimeout n) s = .next s))
      ∧ (tested → ∃ t, exec (.pulseTest c high true) s = .next t
        ∧ one t (if x.drive = .off then brightCount high true { x with tstale := false } else { x with tstale := false }))
      ∧ (¬ tested → exec (.pulseTest c high true) s = .next s)
      ∧ (s.pb (0x20300900 + 8 * c.val) 0 = true → ∃ t, exec (.pulseTestStale c) s = .next t ∧ one t { x with tstale := true })
      ∧ (s.sys.mode = .lockout → x.coilf = true → x.drive = .off → ∃ t, exec (.lockoutCoilRetest c high pass) s = .next t
        ∧ one t (brightCount high pass { x with tstale := false }))
      ∧ (∃ t, exec (.testPulse b low) s = .next t ∧ t.safe.coil = s.safe.coil
        ∧ (s.pf (siA i) 31 30 ≠ (if b then 2 else 1) → t.safe.si[i] = s.safe.si[i])
        ∧ (s.pf (siA i) 31 30 = (if b then 2 else 1) → low.getLsbD i.val = false →
          (t.safe.si[i]).infault = true ∧ (t.safe.si[i]).passes = 0)
        ∧ (s.pf (siA i) 31 30 = (if b then 2 else 1) → low.getLsbD i.val = true →
          ((t.safe.si[i]).infault = true ↔ (s.safe.si[i]).infault = true ∧ (s.safe.si[i]).passes < 2)))
      ∧ (s.safe.rain.fell = none → exec .rearmInputEdge s = .next s)
      ∧ (∀ len rise, s.safe.rain.fell = some (len, rise) → ∃ t, exec .rearmInputEdge s = .next t ∧ t.safe.coil = s.safe.coil
        ∧ t.safe.rain.fell = none
        ∧ (t.safe.out[n]).dems = (if (rainIn s).isSome ∧ 800 ≤ len ∧ len ≤ 8000 then
            (s.safe.out[n]).dems.filter (fun d => !step1Before s rise n d.why) else (s.safe.out[n]).dems))

/-- Each monitor and timer of Caldera completes: it raises its demand or records its result exactly under its condition
(R44, R45, R46, R197, R236, R246, R248, R254, R255, R256, R266, R269,
12_caldera_safety_functions.md, 14_safety_integration.md; that over-current counts only once limits have been given is the
model's choice, log 78, that RESULT 3 is reported only while entry is blocked log 74's, and the counting of a LORST pulse in
ticks log 63's). -/
def Obligations.MonitorsRaiseExactlyTheirDemand : Prop :=
  ∀ (s : State) (n : Port) (k : Fin 2) (g : Fin 6) (b : Fin 3) (step : Byte), Runs s →
    let o := s.safe.out[n]
    let i := s.safe.imd[g]
    let second := outEn s n && o.lims.isSome && secOver s n (iLim s n * (100 + s.pf (outA n + 8) 7 4)) 100
    let bus := (s.can[b]).en = true ∧ (s.can[b]).state ≠ .busOff
    (exec (.tripChannelInvalid n) s =
        .next (if outEn s n && o.runs.any (fun r => decide (4 ≤ r.bad)) then s.raiseDem n 0 10 0x03 .invalid else s))
      ∧ (exec (.overvoltageSlow n) s =
        .next (if outEn s n && decide (8 ≤ o.overRun) then s.raiseDem n 0 7 0x03 .overVolt else s))
      ∧ (exec (.overcurrentSecond n) s = .next (if second then s.raiseDem n 1 7 0x03 .overCurr else s))
      ∧ (outletLive s n = true → pilotDisagrees s n = true → ∃ t, exec (.pilotDisagreement n) s = .next t
        ∧ (t.vp[n].pilot).demandF = true ∧ t.safe = (s.raiseDem n 1 8 0x03 .pilotFault).safe)
      ∧ (¬ (outletLive s n = true ∧ pilotDisagrees s n = true) → exec (.pilotDisagreement n) s = .next s)
      ∧ ((tSlots s n).any (fun p => p.1 == k) = false → exec (.tempSensorStale n k) s = .next s)
      ∧ ((tSlots s n).any (fun p => p.1 == k) = true → ∃ t, exec (.tempSensorStale n k) s = .next t
        ∧ t.safe.out[n] = if k = 0 then { o with stale0 := true } else { o with stale1 := true })
      ∧ ((i.active && i.st == .unknown) = false → exec (.imdUnknownTimeout g) s = .next s)
      ∧ ((i.active && i.st == .unknown) = true → ∃ t, exec (.imdUnknownTimeout g) s = .next t ∧ t.safe.coil = s.safe.coil
        ∧ ∀ m ∈ outletsOf s (groupOf s g), outletLive s m = true →
          (t.safe.raises.any (fun r => r.port == m && r.why == .imdUnknown && r.cat == 1)
            || (t.safe.out[m]).dems.any (fun d => d.why == .imdUnknown && d.cat == 1)) = true)
      ∧ ((i.active = false ∨ i.ticks < tdwTicks s g) → exec (.imdDwellEnd g) s = .next s)
      ∧ (i.active = true → tdwTicks s g ≤ i.ticks → i.n = 0 → ∃ t, exec (.imdDwellEnd g) s = .next t
        ∧ t.safe.imd[g] = { i with on := false, ticks := 0, up := 0, un := 0, dw := [], r0 := none })
      ∧ (i.active = true → tdwTicks s g ≤ i.ticks → i.n ≠ 0 →
        let d : Dwell := { on := i.on, up := i.up / (i.n : Rat), un := i.un / (i.n : Rat) }
        let rs : Rat := (s.pf (imdA g) 15 0 : Nat)
        ∃ t, exec (.imdDwellEnd g) s = .next t ∧ (t.safe.imd[g]).ticks = 0
          ∧ (i.dw = [] → (t.safe.imd[g]).dw = [d] ∧ (t.safe.imd[g]).on = !i.on ∧ (t.safe.imd[g]).riso = i.riso)
          ∧ (∀ p q, i.dw = p :: q → (if d.on then risoOf (imdGm s g) rs p d else risoOf (imdGm s g) rs d p) = none →
            (t.safe.imd[g]).st = .unknown ∧ (t.safe.imd[g]).r0 = none
              ∧ (i.pre = .running → (t.safe.imd[g]).dw = [] ∧ (t.safe.imd[g]).on = false)
              ∧ (i.pre ≠ .running → (t.safe.imd[g]).dw = [d, p] ∧ (t.safe.imd[g]).on = !i.on))
          ∧ ∀ p q r, i.dw = p :: q →
            (if d.on then risoOf (imdGm s g) rs p d else risoOf (imdGm s g) rs d p) = some r →
            (t.safe.imd[g]).riso = BitVec.ofNat 20 (min 1048575 r.floor.toNat) ∧ (t.safe.imd[g]).r0 = some r
              ∧ (i.pre = .running → ((t.safe.imd[g]).prechk = true ↔ imdThr s g 15 0 ≤ r)))
      ∧ (bus → ∃ t, exec (.canBusOff b) s = .next t ∧ (t.can[b]).state = .busOff
        ∧ (t.can[b]).busoffCnt = satInc (s.can[b]).busoffCnt ∧ t.safe.coil = s.safe.coil)
      ∧ (¬ bus → exec (.canBusOff b) s = .next s)
      ∧ (s.safe.stDue = true ∨ hoursOf s < 8760 → exec .hoursLimit s = .next s)
      ∧ (s.safe.stDue = false → 8760 ≤ hoursOf s → ∃ t, exec .hoursLimit s = .next t ∧ t.safe.stDue = true ∧ t.safe.slogSeq = s.safe.slogSeq + 1
        ∧ t.safe.coil = s.safe.coil)
      ∧ exec (.tripdueLimit n) s = .next { s with safe.tripDue := s.safe.tripDue ||| BitVec.ofNat 8 (2 ^ n.val) }
      ∧ exec .confirmBlockExpiry s = .next { s with safe.blocked := false }
      ∧ (s.safe.entry = none → exec .confirmEntryTimeout s = .next s)
      ∧ (∀ e, s.safe.entry = some e → ∃ t, exec .confirmEntryTimeout s = .next t ∧ t.safe.entry = none
        ∧ (s.safe.blocked = true → t.safe.result = 3 ∧ t.safe.confirmed = s.safe.confirmed ∧ t.sys = s.sys)
        ∧ (s.safe.blocked = false → e.digits.length = 8 → entryValue e.digits = s.safe.chk →
          t.safe.result = 1 ∧ t.safe.confirmed = some s.safe.chk)
        ∧ (s.safe.blocked = false → ¬ (e.digits.length = 8 ∧ entryValue e.digits = s.safe.chk) →
          t.safe.result = 2 ∧ t.safe.confirmed = s.safe.confirmed ∧ t.sys = s.sys))
      ∧ (s.safe.restarting = false → exec (.calderaRestartSelftest step) s = .next s)
      ∧ (s.safe.restarting = true → ∃ t, exec (.calderaRestartSelftest step) s = .next t ∧ t.safe.coil = s.safe.coil
        ∧ t.safe.stOk = decide (step = 0) ∧ (step = 0 → t.safe.restarting = false) ∧ (step ≠ 0 → t.safe.halted = true))
      ∧ (s.safe.lorst.fell = none → exec (.lorstPulse step) s = .next s)
      ∧ (∀ len rise, s.safe.lorst.fell = some (len, rise) → (s.safe.latch = false ∨ s.sys.mode ≠ .lockout
          ∨ s.safe.restarting = true ∨ s.safe.halted = true ∨ len < 800 ∨ 8000 < len
          ∨ ∀ u, s.safe.stDone = some u → rise ≤ u) →
        exec (.lorstPulse step) s = .next { s with safe.lorst.fell := none })
      ∧ (∀ len rise u, s.safe.lorst.fell = some (len, rise) → s.safe.latch = true → s.sys.mode = .lockout →
        s.safe.restarting = false → s.safe.halted = false → s.safe.stDone = some u → u < rise → 800 ≤ len → len ≤ 8000 →
        persisting s ≠ 0 → exec (.lorstPulse step) s = .next
          (({ s with safe.lorst.fell := none } : State).slogPut 0x0003 0xFF (wd (persisting s)) (wd len) false))
      ∧ (∀ len rise u, s.safe.lorst.fell = some (len, rise) → s.safe.latch = true → s.sys.mode = .lockout →
        s.safe.restarting = false → s.safe.halted = false → s.safe.stDone = some u → u < rise → 800 ≤ len → len ≤ 8000 →
        persisting s = 0 →
        ∃ t, exec (.lorstPulse step) s = .next t
          ∧ (step = 0 → t.safe.latch = false ∧ t.safe.causes = 0 ∧ t.safe.stOk = true)
          ∧ (step ≠ 0 → t.safe.latch = true ∧ t.safe.causes.getLsbD 0 = true ∧ t.safe.halted = true ∧ t.sys = s.sys))

/-- A safety tick on which a stop channel reads 0 leaves every outlet of its scope under that stop pair's demand, and the
tick's cross-check of the 25 MHz reference and of the SP copies latches codes 5 and 6 (R12, R242, R244, R264, R281, R282,
12_caldera_safety_functions.md; that the safety tick stands for the RC time base and system time for the reference is the model's
choice, log 167). -/
def Obligations.StopInputsDemandOnEveryTick : Prop :=
  (∀ (s : State) (lv : BitVec 16) (lorst sp : Bool), Runs s → s.safe.restarting = false → s.safe.halted = false →
    ∃ t, exec (.safetyTick lv lorst sp) s = .next t ∧ t.safe.tick = s.safe.tick + 1 ∧ t.safe.tm = s.met.tick
      ∧ ∀ (j : Fin 8) (n : Port), stopEn s j = true → n ∈ stopMask s j →
        (∃ i : Fin 16, (i = stopIn s j ∨ i = stopIn s j + 1) ∧ (lv.getLsbD i.val = false ∨ (s.safe.si[i]).infault = true)) →
        ∃ d ∈ (t.safe.out[n]).dems, d.why = .pair j)
  ∧ (∀ (s : State) (lv : BitVec 16) (lorst sp : Bool), Runs s → (s.safe.restarting = true ∨ s.safe.halted = true) →
    ∃ t, exec (.safetyTick lv lorst sp) s = .next t
      ∧ t = { s with
          met.tick := t.met.tick, safe.tick := s.safe.tick + 1, safe.tm := s.met.tick
          safe.refAt := s.time.sysNs :: s.safe.refAt.take 63 })
  ∧ (∀ (s : State) (sp : Bool),
    (refOff s = true ↔ ∃ u, s.safe.refAt[63]? = some u ∧ 320000 < ((s.now : Int) - u.toNat - 16000000).natAbs)
      ∧ ((tickChecks sp true s).safe.rcOk = 0 ∧ (tickChecks sp true s).safe.causes.getLsbD 5 = true)
      ∧ ((tickChecks true (refOff s) s).safe.spOk = 0 ∧ (tickChecks true (refOff s) s).safe.causes.getLsbD 6 = true)
      ∧ tickChecks false false s = { s with safe.spOk := s.safe.spOk + 1, safe.rcOk := s.safe.rcOk + 1 })
  ∧ ∀ (s : State) (r : Raise) (c : Fin 12), outletCoil s r.port = some c → r.cat = 0 →
    ((s.safe.coil[c]).st = .closed ∨ (s.safe.coil[c]).st = .closing) → ((accept r s).safe.coil[c]).drive = .off

/-- Every SAFE call acts only where its conditions hold, answers as its table says, and no call drives a coil (R19, R27,
R235, R247, R267, R287, R299, R300, R308, R310, 14_safety_integration.md; that port masks count by their low 8 bits is the
model's choice, log 72, and which conditions of a close are judged at the request log 214's). -/
def Obligations.SafeCallsActWithinTheirConditions : Prop :=
  ∀ (s : State) (c : Call) (n : Port) (k : Fin 12),
    let a := callArgs .safe c s
    let o := s.safe.out[n]
    let drives := fun t : State => ∀ k : Fin 12, (t.safe.coil[k]).drive = (s.safe.coil[k]).drive
    let denied := fun (i : Instr) (st : Status) => ∃ t, exec i s = .next t ∧ OnlyBox .safe s t ∧ Returns .safe st [] t
    let vl := min a[1].toNat (s.pf (outA n + 4) 31 16)
    let il := min a[2].toNat (s.pf (outA n + 4) 15 0)
    (CanCallOutlet c s →
      (a[0].toNat = n.val → outletCoil s n = some k → outEn s n = true →
        (closeForbidden s n k = false → ∃ t, exec (.closeReq c) s = .next t ∧ drives t ∧ Returns .safe .accepted [] t
          ∧ (t.box .safe).what = some .closeReq
          ∧ t.safe.coil[k] = { s.safe.coil[k] with st := .wait, ph := .conds, run := 0, mbx := true, req := s.safe.reqs + 1 }
          ∧ t.safe.reqs = s.safe.reqs + 1
          ∧ (t.safe.out[n]).lims = some (a[1].toNat, a[2].toNat)
          ∧ iLim t n = if ppUse s n then min il (cableAmps (s.vp[n].pilot).ppclass.toNat) else il)
        ∧ (closeForbidden s n k = true → denied (.closeReq c) .refused))
      ∧ (a[0].toNat < 256 → (a[1] = 1 ∨ a[1] = 2) → ∃ t, exec (.stop c) s = .next t ∧ drives t ∧ Returns .safe .done [] t
        ∧ t.safe = { s.safe with raises := t.safe.raises }
        ∧ (a[0].getLsbD n.val = true → stopRuns s n = false → ∃ r ∈ t.safe.raises, r.port = n ∧ r.cat = 1
            ∧ r.reason = BitVec.ofNat 8 a[1].toNat ∧ r.why = .ends)
        ∧ (a[0].getLsbD n.val = false → t.safe.raises.filter (fun r => r.port == n) =
            s.safe.raises.filter (fun r => r.port == n)))
      ∧ (256 ≤ a[0].toNat ∨ (a[1] ≠ 1 ∧ a[1] ≠ 2) → denied (.stop c) .badArg)
      ∧ (∀ v i, a[0].toNat = n.val → stopRuns s n = false → o.lims = some (v, i) → a[1].toNat ≤ v → a[2].toNat ≤ i →
        ∃ t, exec (.setLimits c) s = .next t ∧ t.safe.coil = s.safe.coil ∧ Returns .safe .done [] t
          ∧ t.safe.out[n] = { o with lims := some (a[1].toNat, a[2].toNat), vlim := BitVec.ofNat 16 vl
                                     ilim := BitVec.ofNat 16 il }
          ∧ iLim t n = if ppUse s n then min il (cableAmps (s.vp[n].pilot).ppclass.toNat) else il)
      ∧ (a[0].toNat = n.val → (∀ v i, o.lims = some (v, i) → v < a[1].toNat ∨ i < a[2].toNat) → denied (.setLimits c) .badArg)
      ∧ (∀ v i, a[0].toNat = n.val → stopRuns s n = true → o.lims = some (v, i) → a[1].toNat ≤ v → a[2].toNat ≤ i →
        denied (.setLimits c) .refused)
      ∧ (∃ t, exec (.rearm c) s = .next t ∧ drives t
        ∧ Returns .safe .done [wd (rearmPorts (a[0].toNat % 256) s).1, wd (rearmPorts (a[0].toNat % 256) s).2.1] t
        ∧ (t.safe.out[n]).dems = (if a[0].getLsbD n.val && canRearm s n then [] else o.dems)))
    ∧ (CanCallSafe c s →
      let set : BitVec 8 := BitVec.ofNat 8 a[0].toNat
      let lost := set ≠ 0 ∧ s.sys.oos &&& s.sys.lossOos &&& ~~~set ≠ 0
      let stays := s.sys.mode = .maintain ∧ set = 0 ∧ staysMaintain s = true
      (closeMode s = true → ¬ stays → ¬ lost →
        (s.sys.needAuditRead = true → s.sys.oos &&& ~~~set = 0) → ∃ t, exec (.setOos c) s = .next t ∧ drives t
        ∧ Returns .safe .accepted [] t ∧ t.safe.oosReq = some set)
      ∧ (s.sys.needAuditRead = true → s.sys.oos &&& ~~~set ≠ 0 → denied (.setOos c) .refused)
      ∧ (stays ∨ lost → denied (.setOos c) .refused)
      ∧ (closeMode s = false → denied (.setOos c) .refused)
      ∧ (a[0].toNat = k.val → (role s k = 1 ∨ role s k = 2) → replaceRefused s k = false →
        ∃ t, exec (.contactorReplaced c) s = .next t ∧ Returns .safe .done [] t ∧ t.safe.slogSeq = s.safe.slogSeq + 1
          ∧ t.safe.coil[k] = { s.safe.coil[k] with emopen := 0, limit := false }
          ∧ ∀ j : Fin 12, j ≠ k → t.safe.coil[j] = s.safe.coil[j])
      ∧ (a[0].toNat = k.val → (role s k = 1 ∨ role s k = 2) → replaceRefused s k = true →
        denied (.contactorReplaced c) .refused)
      ∧ (a[0].toNat < 16 → a[1] = 1 →
        ((s.txn.dom[(3 : Fin 6)]).st = .open_ → ∃ t, exec (.linkKeyLoad c) s = .next t ∧ t.safe = s.safe
          ∧ Returns .safe .done [] t
          ∧ t.txn.dom = vmod s.txn.dom 3 fun d => { d with keys := d.keys ++ [(a[0].toNat, none)] })
        ∧ ((s.txn.dom[(3 : Fin 6)]).st ≠ .open_ → denied (.linkKeyLoad c) .noTxn))
      ∧ (∀ pass : BitVec 4, a[0].toNat = n.val → outEn s n = true → s.sys.mode = .maintain → s.sys.oos.getLsbD n.val = true →
        outletCoil s n = some k → (s.safe.coil[k]).st = .open_ →
        let used : BitVec 4 := if isAc s n then 0b1110 else 0b0011
        let bad := used &&& ~~~pass
        ∃ t, exec (.tripTest c pass) s = .next t ∧ drives t ∧ (t.safe.ftfail.getLsbD n.val = decide (bad ≠ 0))
          ∧ Returns .safe .done [wd (pass &&& used).toNat, wd bad.toNat] t)
      ∧ (∀ e, s.safe.slog.find? (fun e => e.seq == a[0]) = some e →
        (s.safe.latch = false → e.returned = true → ∃ t, exec (.slogRelease c) s = .next t ∧ Returns .safe .done [] t
          ∧ t.safe = { s.safe with slog := s.safe.slog.map fun e => if e.seq = a[0] then { e with prot := false } else e })
        ∧ (s.safe.latch = true ∨ e.returned = false → denied (.slogRelease c) .refused)))
    ∧ (CanCall .safe c s →
      (∃ t, exec (.readChkval c) s = .next t ∧ OnlyBox .safe s t
        ∧ Returns .safe .done [s.safe.chk, s.safe.confirmed.getD 0, wd (b2n (s.safe.confirmed == some s.safe.chk))] t)
      ∧ (let l := s.safe.slog.reverse.dropWhile (fun e => e.seq != a[0])
        let got := l.take a[1].toNat
        (1 ≤ a[1].toNat → a[1].toNat ≤ 64 → l ≠ [] → ∃ t, exec (.readSlog c) s = .next t
          ∧ t.safe = { s.safe with slogBuf := got.flatMap slogBytes, slog := t.safe.slog }
          ∧ t.safe.slog = s.safe.slog.map (fun e =>
              if (got.map (·.seq)).contains e.seq then { e with returned := true } else e)
          ∧ Returns .safe .done [wd got.length, s.safe.slogSeq - 1] t)
        ∧ (a[1].toNat < 1 ∨ 64 < a[1].toNat ∨ l = [] → denied (.readSlog c) .badArg)))

/-- A safety-link message acts only when its connection accepts it, and the link's timers move only their connection
(R45, R271, R285, R289, R290, R293, R294, R295, R296, R297, 13_caldera_io_and_safety_link.md; that a CONNECT before any last_seq
needs no earlier SEQ is the model's choice, log 215, and that a late second copy counts as one miss log 216's; the length of a
remote press is counted in safety ticks, log 63). -/
def Obligations.LinkMessagesActOnlyWhenAccepted : Prop :=
  ∀ (s : State) (p : LinkPdu) (k : Fin 16) (n : Port) (step : Byte), Runs s →
    let x := s.safe.conn[k]
    let msgs : List (Byte × Instr) := [(0x01, .connect p), (0x02, .data p), (0x03, .resetPress p), (0x04, .resetRelease p step),
      (0x05, .linkRearm p), (0x06, .linkConfirm p)]
    let good := fun ty : Byte => pduCrcOk s k ty p = true ∧ tagOk s k ty p = true
    let mine := pduConn s p = some k ∧ p.body.length < 64
    let first := dualOther s k p = none
    let accepted := (acceptPdu k p s).1 = true
    let u := (acceptPdu k p s).2
    let taken := mine ∧ x.st = .open_ ∧ first ∧ accepted
    let noted := fun ty : Byte => dualFirst k p (rxBytes ty p) u
    let starts := p.flags.getLsbD 2 = true ∨ x.ref = none
    let began := dualFirst k p (rxBytes 0x01 p) (if starts then s else u)
    let fits := leAt p.body 0 1 ≤ 1 ∧ 1 ≤ leAt p.body 1 1
    let others := fun t : State => ∀ j : Fin 16, j ≠ k → t.safe.conn[j] = s.safe.conn[j]
    let sent := fun t : State => ∃ f : Fin 2, (t.eth[f]).safeTx.length = (s.eth[f]).safeTx.length + 1
    let isStop : Why → Bool := fun w => match w with
      | .pair _ => true
      | .link _ => true
      | _ => false
    let ended := (noted 0x04).modConn k fun c => { c with press := none }
    let resets := fun b : Nat => s.safe.latch = true ∧ s.sys.mode = .lockout ∧ s.safe.restarting = false ∧ s.safe.halted = false
      ∧ (∃ d, s.safe.stDone = some d ∧ d < b) ∧ 800 ≤ s.safe.tick - b ∧ s.safe.tick - b ≤ 8000
    (∀ m ∈ msgs, (pduConn s p = none → exec m.2 s = .next s)
        ∧ (pduConn s p = some k → good m.1 → 64 ≤ p.body.length → exec m.2 s = .next s)
        ∧ (pduConn s p = some k → ¬ good m.1 → exec m.2 s = .next (s.modConn k fun c => { c with crcerr := satInc c.crcerr }))
        ∧ (mine → x.st = .closed → good m.1 → exec m.2 s = .next s)
        ∧ (mine → (x.st = .failed ∨ (x.st = .connecting ∧ m.1 ≠ 0x01)) → first → good m.1 →
          exec m.2 s = .next (if (acceptPdu k p s).1 then noted m.1 else u))
        ∧ (mine → x.st = .open_ → first → good m.1 → ¬ accepted → exec m.2 s = .next u)
        ∧ (∀ y, mine → x.st ≠ .closed → good m.1 → dualOther s k p = some y →
          (y.waits = false → exec m.2 s = .next (s.modConn k fun c => { c with copies := c.copies.filter fun z => !z.same y }))
            ∧ (y.waits = true → y.pdu = rxBytes m.1 p → ∃ t, exec m.2 s = .next t ∧ others t ∧ t.safe.coil = s.safe.coil
              ∧ (t.safe.conn[k]).st = x.st ∧ (t.safe.conn[k]).pairs = x.pairs + 1 ∧ ∀ f : Fin 2, (t.safe.conn[k]).miss[f] = 0)
            ∧ (y.waits = true → y.pdu ≠ rxBytes m.1 p → ∃ t, exec m.2 s = .next t ∧ others t ∧ t.safe.coil = s.safe.coil
              ∧ (t.safe.conn[k]).st = .failed)))
      ∧ (mine → x.st = .connecting → first → good 0x01 → ¬ starts → ¬ accepted → exec (.connect p) s = .next u)
      ∧ (mine → x.st = .connecting → first → good 0x01 → (starts ∨ accepted) → ¬ fits →
        exec (.connect p) s = .next (began.modConn k fun c => { c with verfail := true }))
      ∧ (mine → x.st = .connecting → first → good 0x01 → (starts ∨ accepted) → fits →
        ∃ t, exec (.connect p) s = .next t ∧ others t ∧ (t.safe.conn[k]).verfail = false ∧ t.safe.coil = s.safe.coil
          ∧ (p.flags.getLsbD 2 = false → sent t ∧ ((t.safe.conn[k]).st = .open_ ↔ x.acked = true))
          ∧ (p.flags.getLsbD 2 = true → (t.safe.conn[k]).rxseq = BitVec.ofNat 16 (leAt p.body 6 2) - 1
            ∧ (t.safe.conn[k]).ref = some ((pduOff s p : Rat), s.tshort)
            ∧ ((t.safe.conn[k]).st = .open_ ↔ x.seen = true)))
      ∧ (taken → good 0x01 → exec (.connect p) s = .next (if p.flags.getLsbD 2 then (noted 0x01).modConn k fun c =>
          { c with rxseq := BitVec.ofNat 16 (leAt p.body 6 2) - 1, ref := some ((pduOff s p : Rat), s.tshort) } else noted 0x01))
      ∧ (taken → good 0x02 → ∃ t, exec (.data p) s = .next t ∧ others t ∧ t.safe.coil = s.safe.coil
        ∧ (t.safe.conn[k]).bits = BitVec.ofNat 8 (leAt p.body 0 1) ∧ (t.safe.conn[k]).rxseq = p.seq
        ∧ ((BitVec.ofNat 8 (leAt p.body 0 1)).getLsbD n.val = false → (t.safe.conn[k]).step1[n] = none)
        ∧ (s.pb (connA k + 0x14) (8 + n.val) = true → (BitVec.ofNat 8 (leAt p.body 0 1)).getLsbD n.val = false →
          (s.pf (connA k + 0x14) 7 6 = 1 ∨ s.pf (connA k + 0x14) 7 6 = 2) →
          (t.safe.raises.any (fun r => r.port == n && r.why == .link k)
            || (t.safe.out[n]).dems.any (fun d => d.why == .link k)) = true))
      ∧ (taken → good 0x03 → exec (.resetPress p) s = .next (if s.pb (connA k) 27 && x.press.isNone then
          (noted 0x03).modConn k fun c => { c with press := some s.safe.tick } else noted 0x03))
      ∧ (taken → good 0x04 → (x.press = none ∨ s.pb (connA k) 27 = false) →
        exec (.resetRelease p step) s = .next (noted 0x04))
      ∧ (∀ b, taken → good 0x04 → x.press = some b → s.pb (connA k) 27 = true →
        (¬ resets b → exec (.resetRelease p step) s = .next ended)
          ∧ (resets b → persisting ended ≠ 0 → exec (.resetRelease p step) s =
            .next (ended.slogPut 0x0003 0xFF (wd (persisting ended)) (wd (s.safe.tick - b)) false))
          ∧ (resets b → persisting ended = 0 → ∃ t, exec (.resetRelease p step) s = .next t
            ∧ (step = 0 → t.safe.latch = false ∧ t.safe.causes = 0 ∧ t.safe.stOk = true)
            ∧ (step ≠ 0 → t.safe.latch = true ∧ t.safe.causes.getLsbD 0 = true ∧ t.safe.halted = true ∧ t.sys = s.sys)))
      ∧ (taken → good 0x05 → ∃ t, exec (.linkRearm p) s = .next t ∧ others t ∧ t.safe.coil = s.safe.coil
        ∧ (t.safe.out[n]).dems = (if s.pb (connA k) 26 && (leAt p.body 0 1).testBit n.val then
            (s.safe.out[n]).dems.filter (fun d => !(isStop d.why && demClear s n d)) else (s.safe.out[n]).dems))
      ∧ (taken → good 0x06 → exec (.linkConfirm p) s =
          .next (if s.pb (connA k) 26 then confirmResult k.val true (wd (leAt p.body 0 4)) (noted 0x06) else noted 0x06))
      ∧ (∃ t, exec (.linkCycle k) s = .next t ∧ others t ∧ t.safe.coil = s.safe.coil
        ∧ (connEn s k = false → (t.safe.conn[k]).st = .closed ∧ (t.safe.conn[k]).ref = none ∧ t.eth = s.eth)
        ∧ (connEn s k = true → x.st = .closed → (t.safe.conn[k]).st = .connecting ∧ sent t)
        ∧ (connEn s k = true → (x.st = .connecting ∨ x.st = .open_) → (t.safe.conn[k]).st = x.st ∧ sent t
          ∧ (t.safe.conn[k]).txseq = x.txseq + 1)
        ∧ (connEn s k = true → x.st = .failed → t = s))
      ∧ (x.st = .open_ → ∃ t, exec (.linkWatchdogExpiry k) s = .next t ∧ others t ∧ (t.safe.conn[k]).st = .failed
        ∧ (t.safe.conn[k]).wdexp = satInc x.wdexp ∧ t.safe.coil = s.safe.coil)
      ∧ (x.st ≠ .open_ → exec (.linkWatchdogExpiry k) s = .next s)
      ∧ (x.st = .failed → ∃ t, exec (.linkRetry k) s = .next t ∧ others t ∧ (t.safe.conn[k]).st = .connecting
        ∧ (t.safe.conn[k]).acked = false ∧ (t.safe.conn[k]).seen = false ∧ (t.safe.conn[k]).ref = x.ref)
      ∧ (x.st ≠ .failed → exec (.linkRetry k) s = .next s)
      ∧ (x.copies.find? (·.waits) = none → exec (.linkDualSkewExpiry k) s = .next s)
      ∧ (∀ y, x.copies.find? (·.waits) = some y → ∃ t, exec (.linkDualSkewExpiry k) s = .next t ∧ others t
        ∧ (t.safe.conn[k]).copies = x.copies.map (fun z => if z.same y then { z with waits := false } else z)
        ∧ (t.safe.conn[k]).single = satInc x.single
        ∧ (t.safe.conn[k]).miss[1 - y.net] = x.miss[1 - y.net] + 1 ∧ (t.safe.conn[k]).miss[y.net] = 0)

/-- Bringing a load channel to its effective state follows the precedence of R314, touches no other channel, and opens the
inrush window at the first pulse after it was off (R314, R317, R321, R324, 15_protected_load_switches.md). -/
def Obligations.LoadChannelTakesItsEffectiveState : Prop :=
  ∀ (s : State) (n : Fin 10),
    let t := loadOne s n
    let c := s.load.ch[n]
    (∀ m : Fin 10, m ≠ n → t.load.ch[m] = s.load.ch[m])
      ∧ (ldEff s n = false → (t.load.ch[n]).on = false)
      ∧ (ldEff s n = false → c.on = true → (t.load.ch[n]).inrush = false ∧ (t.load.ch[n]).ilim = false)
      ∧ (ldEff s n = true → c.on = true → c.await = false → t.load.ch[n] = c)
      ∧ (ldEff s n = true → c.on = true → c.await = true → t.load.ch[n] =
          if ldBall s n then { c with inrush := true, await := false } else c)
      ∧ (ldEff s n = true → c.on = false → c.defer ≠ .none → t.load.ch[n] = c)
      ∧ (ldEff s n = true → c.on = false → s.load.uvhold = false → c.defer = .none →
          (t.load.ch[n]).on = true ∧ (t.load.ch[n]).await = !ldBall t n ∧ (ldBall t n = true → (t.load.ch[n]).inrush = true)
            ∧ (ldCald s n = true ∨ (if failSafe s then c.fs else c.cmd) = 1 → ldBall t n = true))
      ∧ (ldEff s n = true → c.on = false → s.load.uvhold = true → c.defer = .none →
          (t.load.ch[n]).on = false ∧ (t.load.ch[n]).defer = .turnOn)
      ∧ ldEff s n = (s.sys.power == .running && !c.tsd && !c.latch && (ldCald s n || !c.shed)
          && (if ldCald s n then bridgeCmd s n
              else if ldHeld s n then false
              else if failSafe s then asksOn c.fs else asksOn c.cmd))

/-- The LOAD register writes do what their rules say and leave the other channels alone; a correct service in its window
advances CHAL, and an early, wrong or missing one forces the fail-safe states (R253, R316, R320, R322, R323, R326, R327,
15_protected_load_switches.md; that a service later than CLOSE is the expiry itself is log 82's reading). -/
def Obligations.LoadWritesTakeEffect : Prop :=
  (∀ (s : State) (n : Fin 10) (cmd : BitVec 2) (cool : Bool) (ch : BitVec 4), Answers .load 0 s →
    let w := written .load 0 s
    (ldCald s n = true → exec (.loadCmdWrite n cmd) s = .next w)
      ∧ (ldCald s n = false → ∃ t, exec (.loadCmdWrite n cmd) s = .next t ∧ (t.load.ch[n]).cmd = (if cmd = 3 then 0 else cmd)
        ∧ ∀ m : Fin 10, m ≠ n → t.load.ch[m] = s.load.ch[m])
      ∧ (cool = false → exec (.loadClrlatch n cool) s = .next (w.modLoad n fun c => { c with clrref := true }))
      ∧ (cool = true → s.load.uvhold = true →
          exec (.loadClrlatch n cool) s = .next (w.modLoad n fun c => { c with defer := .clear }))
      ∧ (cool = true → s.load.uvhold = false → ∃ t, exec (.loadClrlatch n cool) s = .next t
          ∧ (t.load.ch[n]).latch = false ∧ (t.load.ch[n]).tsd = false ∧ (t.load.ch[n]).rcnt = 0
          ∧ ∀ m : Fin 10, m ≠ n → t.load.ch[m] = s.load.ch[m])
      ∧ exec (.loadSenseselWrite ch) s = .next { w with load.sense := if 9 < ch.toNat then 9 else ch }
      ∧ exec .sensetest s = .next { w with load.test := true }
      ∧ exec .loadWdogStart s = .next
          (if s.load.wdEn then w else { w with load.wdEn := true, load.wdLast := s.time.sysNs })
      ∧ (∃ t, exec .loadWdrel s = .next t ∧ t.load.forced = (s.load.forced && s.load.good != 2))
      ∧ (∃ t, exec .loadClrcnt s = .next t ∧ t.load.wdexp = 0
          ∧ (∀ m : Fin 10, t.load.ch[m] = { s.load.ch[m] with tsdCnt := 0, ilimCnt := 0 })
          ∧ t.load = { s.load with ch := t.load.ch, wdexp := 0 }))
  ∧ ∀ (s : State) (resp : BitVec 16), Answers .load 0 s → s.load.wdEn = true →
    let early := s.now < s.load.wdLast.toNat + 1000000 * s.load.wdOpen.toNat
    let late := s.load.wdLast.toNat + 1000000 * s.load.wdClose.toNat < s.now
    let right := resp = s.load.chal ^^^ 0xFFFF
    let expired (cause : BitVec 2) (t : State) : Prop :=
      t.load = { s.load with
        ch := t.load.ch, forced := true, cause := cause, wdexp := satInc s.load.wdexp, good := 0, wdLast := s.time.sysNs }
        ∧ t.intc.raised = s.intc.raised ||| BitVec.ofNat 256 (2 ^ 122)
    (¬ early → ¬ late → right → exec (.loadWdogService resp) s = .next { written .load 0 s with
        load.chal := if s.load.chal.getLsbD 0 then (s.load.chal >>> 1) ^^^ 0xB400 else s.load.chal >>> 1
        load.wdLast := s.time.sysNs
        load.good := if s.load.good.toNat < 2 then s.load.good + 1 else 2 })
      ∧ (early → ∃ t, exec (.loadWdogService resp) s = .next t ∧ expired 1 t)
      ∧ (¬ early → late → ∃ t, exec (.loadWdogService resp) s = .next t ∧ expired 3 t)
      ∧ (¬ early → ¬ late → ¬ right → ∃ t, exec (.loadWdogService resp) s = .next t ∧ expired 2 t)
      ∧ (∃ t, exec .loadWdogLate s = .next t ∧ expired 3 t)

/-- Thermal events, restarts, limit entries and inrush ends set only their own channel's flags, counters and events
(R317, R318, R319, R321, R323, 15_protected_load_switches.md). -/
def Obligations.LoadFaultsStayOnTheirChannel : Prop :=
  ∀ (s : State) (n : Fin 10) (guard : Bool) (temp : BitVec 16), Runs s →
    let c := s.load.ch[n]
    let stop := !ldRestart s n || decide (ldRetry s n ≤ c.rcnt.toNat)
    exec (.loadThermalEvent n guard temp) s = .next (s.modLoad n fun c =>
        { c with on := false, inrush := false, ilim := false, tsd := true, dtg := guard, temp := temp, tsdCnt := satInc c.tsdCnt,
                 latch := c.latch || stop, evt := if stop then c.evt ||| 4 ||| 8 else c.evt ||| 4 })
      ∧ (c.tsd = true → c.latch = false → ∃ t, exec (.loadChannelRestart n) s = .next t
          ∧ (∀ m : Fin 10, m ≠ n → t.load.ch[m] = s.load.ch[m])
          ∧ ((ldAsked s n && (ldCald s n || !c.shed)) = true → s.load.uvhold = true →
              t.load.ch[n] = { c with defer := if c.defer = .clear then .clear else .restart })
          ∧ ((ldAsked s n && (ldCald s n || !c.shed)) = true → s.load.uvhold = false →
              (t.load.ch[n]).tsd = false ∧ (t.load.ch[n]).rcnt = c.rcnt + 1)
          ∧ ((ldAsked s n && (ldCald s n || !c.shed)) = false → t.load.ch[n] = { c with tsd := false }))
      ∧ exec (.loadIlimEntry n) s = .next (s.modLoad n fun c =>
          if c.on && !c.ilim then { c with ilim := true, ilimCnt := satInc c.ilimCnt, evt := c.evt ||| 2 } else c)
      ∧ exec (.loadIlimExit n) s = .next (s.modLoad n fun c => { c with ilim := false })
      ∧ exec (.inrushWindowEnd n) s = .next (s.modLoad n fun c => { c with inrush := false })
      ∧ exec .uvholdSet s = .next { s with load.uvhold := true }
      ∧ exec .uvholdClear s = .next { s with load.uvhold := false }
      ∧ exec .sensetestEnd s = .next { s with load.test := false }
      ∧ (s.load.uvhold = true → exec .deferredTurnOn s = .next s)
      ∧ (s.load.uvhold = false → (∀ m : Fin 10, (s.load.ch[m]).defer = .none) → exec .deferredTurnOn s = .next s)
      ∧ (s.load.uvhold = false → c.defer ≠ .none → (∀ m : Fin 10, m < n → (s.load.ch[m]).defer = .none) →
          ∃ t, exec .deferredTurnOn s = .next t ∧ (t.load.ch[n]).defer = .none
            ∧ ∀ m : Fin 10, m ≠ n → t.load.ch[m] = s.load.ch[m])

/-- The budget manager records the average and sheds the lowest-priority channel, one per average, and restores the
highest (R53, R54, R328, 03_supply_and_power_fail.md). -/
def Obligations.BudgetShedsOneChannelAtATime : Prop :=
  ∀ (s : State) (avg : BitVec 16) (c : Fin 12), Runs s →
    let sheds := s.sys.limit.toNat < avg.toNat ∨ (s.sys.shedding = true ∧ s.sys.limit.toNat ≤ avg.toNat)
    (¬ sheds → s.safe.q = [] →
        exec (.budgetShed avg) s = .next { s with sys.imeas := avg, sys.shedding := false })
      ∧ (sheds → ∃ t, exec (.budgetShed avg) s = .next t ∧ t.sys.imeas = avg ∧ t.sys.shedding = true
          ∧ (∀ n : Fin 10, (s.load.ch[n]).on = true → ldCald s n = false →
              (∀ m : Fin 10, m ≠ n → (s.load.ch[m]).on = true → ldCald s m = false →
                ldPri s n < ldPri s m ∨ (ldPri s n = ldPri s m ∧ m < n)) →
              (t.load.ch[n]).on = false ∧ (t.load.ch[n]).shed = true ∧ t.sys.shed = true
                ∧ ∀ m : Fin 10, m ≠ n → t.load.ch[m] = s.load.ch[m]))
      ∧ (failSafe s = false ∨ s.sys.limit.toNat ≤ s.sys.imeas.toNat + 500 → exec .shedReenable s = .next s)
      ∧ (failSafe s = true → s.sys.imeas.toNat + 500 < s.sys.limit.toNat →
          ∃ t, exec .shedReenable s = .next t
            ∧ ∀ n : Fin 10, (s.load.ch[n]).shed = true →
                (∀ m : Fin 10, m ≠ n → (s.load.ch[m]).shed = true → ldPri s m < ldPri s n) →
                (t.load.ch[n]).shed = false ∧ ∀ m : Fin 10, m ≠ n → t.load.ch[m] = s.load.ch[m])
      ∧ ((s.safe.coil[c]).ph = .queued → grantFits s = false →
          ∃ t, exec (.budgetGrantTimeout c) s = .next t ∧ (t.safe.coil[c]).ph = .none ∧ t.intc.raised.getLsbD 2 = true)
      ∧ ((s.safe.coil[c]).ph ≠ .queued ∨ grantFits s = true → exec (.budgetGrantTimeout c) s = .next s)

/-- A slot command runs only where it is accepted, a patch stages only in a THL transaction, and fabric errors mark
their partition (R330, R331, R339, R340, R341, R342, R343, R345, R346, R351, 16_thallus_fabric_and_site_image.md; that STAGE
without a THL transaction ends at once is log 91's reading, what a refused slot command changes log 89's, that a parity error
into SP latches code 4 log 92's, and the time that a rewrite of MP frames takes log 217's). -/
def Obligations.SlotsAndPatchesChangeByTheirCommands : Prop :=
  (∀ (s : State) (k : Fin 2) (v : Word), Answers .thl 0 s →
    let x := s.thl
    let cmds : List (Instr × SlotCmd × Bool) := [(.slotErase k, .erase, true), (.slotWrite k, .write, slotWriteFits s),
      (.slotVerify k, .verify, true), (.slotSwitch k, .switch, switchAllowed s k)]
    (∀ c ∈ cmds, ((slotAccepts s k && c.2.2) = true → ∃ t, exec c.1 s = .next t ∧ t.nor = s.nor
          ∧ t.thl = { x with
              slot := k, cmd := some c.2.1, cmdSlot := k, runSrc := x.progSrc, runLen := x.progLen, runOfs := x.progOfs })
        ∧ ((slotAccepts s k && c.2.2) = false → ∃ t, exec c.1 s = .next t ∧ t.nor = s.nor
          ∧ t.thl = { x with slot := k, result := 1 }))
      ∧ (x.pr ≠ .staging → (s.txn.dom[(5 : Fin 6)]).st ≠ .open_ → ∃ t, exec .prStage s = .next t
        ∧ t.thl = { x with prResult := 8, prDone := true })
      ∧ (x.pr ≠ .staging → (s.txn.dom[(5 : Fin 6)]).st = .open_ → ∃ t, exec .prStage s = .next t
        ∧ t.thl = { x with pr := .staging, shadow := [], stgSrc := x.prSrc, stgLen := x.prLen })
      ∧ (∃ t, exec .prDiscard s = .next t
        ∧ t.thl = if x.pr = .staged ∧ (s.txn.dom[(5 : Fin 6)]).st = .open_ then { x with pr := .none, shadow := [] } else x)
      ∧ exec (.thlGoutWrite v) s = .next { written .thl 0 s with thl.gout := v }
      ∧ ∃ t, exec .thlClrcnt s = .next t
        ∧ t.thl = { x with part := Vector.replicate 8 { corr := 0, reload := 0 }, passCnt := 0 })
  ∧ ∀ (s : State) (p : Fin 8) (ok : Bool) (chans : BitVec 32) (ms : Byte) (b : Fin 32) (n : Fin 80) (i : Fin 40) (lv : Bool),
    Runs s →
    let x := s.thl
    let k := x.cmdSlot
    let working := s.sys.mode = .commission ∨ s.sys.mode = .service ∨ s.sys.mode = .maintain
    let locks := fun (i : Instr) (code : Nat) => ∃ t, exec i s = .next t ∧ t.sys.mode = .lockout ∧ t.safe.latch = true
      ∧ t.safe.causes.getLsbD code = true ∧ ∀ c : Fin 12, (t.safe.coil[c]).drive = .off
    (x.cmd = none → exec (.slotCommandDone ok) s = .next s)
      ∧ (x.cmd = some .switch → exec (.slotCommandDone ok) s =
          .next { s with thl.next := k, thl.cmd := none, thl.result := 0, thl.slotDone := true })
      ∧ (x.cmd = some .erase → ∃ t, exec (.slotCommandDone ok) s = .next t ∧ t.thl.cmd = none ∧ t.thl.slotDone = true
        ∧ t.thl.verified[k] = false ∧ t.thl.patches[k] = [] ∧ t.thl.frames = x.frames ∧ t.params = s.params
        ∧ (ok = true → t.thl.result = 0 ∧ t.nor = memErase (norBase + slotOfs k) slotSize s.nor)
        ∧ (ok = false → t.thl.result = 2))
      ∧ (x.cmd = some .verify → ∃ t, exec (.slotCommandDone ok) s = .next t ∧ t.thl.cmd = none ∧ t.nor = s.nor
        ∧ (t.thl.verified[k] = true ↔ ok = true ∧ ∃ l, loadBase s k = .ok l) ∧ t.thl.frames = x.frames ∧ t.params = s.params)
      ∧ (x.cmd = some .write → ∃ t, exec (.slotCommandDone ok) s = .next t ∧ t.thl.cmd = none ∧ t.thl.verified[k] = false
        ∧ (t.thl.result = 0 ∨ t.thl.result = 2) ∧ (ok = false → t.thl.result = 2) ∧ t.thl.frames = x.frames
        ∧ ∀ a, (a < slotOfs k + x.runOfs.toNat ∨ slotOfs k + x.runOfs.toNat + x.runLen.toNat ≤ a) →
          t.norRead a 1 = s.norRead a 1)
      ∧ (x.pr ≠ .staging → exec .prStagingDone s = .next s)
      ∧ (x.pr = .staging → ∃ t, exec .prStagingDone s = .next t ∧ t.nor = s.nor ∧ t.txn = s.txn ∧ t.thl.prDone = true
        ∧ ((s.txn.dom[(5 : Fin 6)]).st ≠ .open_ → t.thl.prResult = 8)
        ∧ (t.thl.pr = .staged ↔ t.thl.prResult = 0) ∧ (t.thl.pr ≠ .staged → t.thl.pr = .none ∧ t.thl.shadow = []))
      ∧ (∃ t, exec (.configScrubCorrect p) s = .next t ∧ (t.thl.part[p]).corr = satInc (x.part[p]).corr
        ∧ t.thl.corrEvt = (x.corrEvt ||| BitVec.ofNat 8 (2 ^ p.val)) ∧ ∀ q : Fin 8, q ≠ p → t.thl.part[q] = x.part[q])
      ∧ exec (.configScrubPass ms) s = .next { s with thl.passCnt := satInc s.thl.passCnt, thl.lastPass := ms }
      ∧ (working → locks (.configUncorrectable 0 chans) 6 ∧ locks (.fabricParityError 0) 4)
      ∧ (p ≠ 0 → (∃ t, exec (.configUncorrectable p chans) s = .next t ∧ t.safe = s.safe ∧ t.sys = s.sys
          ∧ t.thl.uncorr = (x.uncorr ||| BitVec.ofNat 8 (2 ^ p.val)) ∧ (t.thl.part[p]).reload = satInc (x.part[p]).reload
          ∧ (p ≠ 1 → t.met = s.met)
          ∧ (p = 1 → ∀ c : ChanId, chans.getLsbD c.val = true → (t.met.ch[c]).valid = false
            ∧ (t.met.ch[c]).unroutedTo = s.time.sysNs + 100000))
        ∧ exec (.fabricParityError p) s = .next { s with thl.parErr := s.thl.parErr ||| BitVec.ofNat 8 (2 ^ p.val) })
      ∧ (ginOwner s b.val = none → exec (.gPartitionSignal (.gin b lv)) s = .next s)
      ∧ (ginOwner s b.val ≠ none → ∃ t, exec (.gPartitionSignal (.gin b lv)) s = .next t ∧ t = { s with thl.gin := t.thl.gin }
        ∧ t.thl.gin.getLsbD b.val = lv ∧ ∀ j, j ≠ b.val → t.thl.gin.getLsbD j = s.thl.gin.getLsbD j)
      ∧ (sourceOwner s n.val = none → exec (.gPartitionSignal (.source n lv)) s = .next s)
      ∧ (sourceOwner s n.val ≠ none → ∃ t, exec (.gPartitionSignal (.source n lv)) s = .next t
        ∧ t.thl = { x with user := t.thl.user } ∧ t.thl.user.getLsbD n.val = lv
        ∧ (sourceRises s n.val = true → lv = true → x.user.getLsbD n.val = false → t.intc.raised.getLsbD (176 + n.val) = true)
        ∧ (¬ (sourceRises s n.val = true ∧ lv = true ∧ x.user.getLsbD n.val = false) → t.intc = s.intc))
      ∧ (ballOwner s i.val = none → exec (.gPartitionSignal (.ball i lv)) s = .next s)
      ∧ (ballOwner s i.val ≠ none → ∃ t, exec (.gPartitionSignal (.ball i lv)) s = .next t ∧ t = { s with thl.ball := t.thl.ball }
        ∧ t.thl.ball.getLsbD i.val = lv)

/-- A transaction gathers words in its shadow, and only its commit, with DONE, changes parameters, each word of the shadow and
no other; every other end leaves them (R347, R348, R349, R350, R351, R353, R354, R358, R360, R362, 17_transactions_and_interface_versions.md; the status
of a call for a domain that cannot have a transaction is the model's choice, log 160). -/
def Obligations.TransactionsCommitWholeOrNotAtAll : Prop :=
  (∀ (s : State) (c : Call) (d : Fin 6), CanCall .txn c s → s.sys.mode ≠ .lockout →
    let a := callArgs .txn c s
    let x := s.txn.dom[d]
    let named := a[0].toNat = d.val ∧ x.st = .open_ ∧ x.id = a[1]
    let others := fun t : State => ∀ e : Fin 6, e ≠ d → t.txn.dom[e] = s.txn.dom[e]
    let lease := fun w : Word => if w = 0 then 60 else min w.toNat 600
    (a[0].toNat = d.val → txnAdmits s d = true → x.st = .idle → ∃ t, exec (.txnBegin c) s = .next t ∧ others t
        ∧ t.params = s.params ∧ t.txn.dom[d] = { x with
            st := .open_, ovf := false, latewr := false, lease := lease a[1] * 1000000000, leaseAt := s.time.sysNs
            id := s.txn.begun + 1, reason := BitVec.ofNat 8 a[2].toNat, shadow := [], keys := [] }
        ∧ Returns .txn .done [s.txn.begun + 1] t)
      ∧ (a[0].toNat = d.val → txnAdmits s d = true → x.st ≠ .idle →
        ∃ t, exec (.txnBegin c) s = .next t ∧ OnlyBox .txn s t ∧ Returns .txn .busy [] t)
      ∧ (named → ∃ t, exec (.txnCommit c) s = .next t ∧ others t ∧ t.params = s.params ∧ t.txn.queue = s.txn.queue ++ [d]
        ∧ (t.txn.dom[d]).shadow = x.shadow ∧ (t.txn.dom[d]).st = (if s.txn.queue.isEmpty then .committing else .queued)
        ∧ Returns .txn .accepted [] t)
      ∧ (named → ∃ t, exec (.txnRollback c) s = .next t ∧ others t ∧ t.params = s.params ∧ (t.txn.dom[d]).st = .idle
        ∧ (t.txn.dom[d]).shadow = [] ∧ (t.txn.dom[d]).keys = [] ∧ Returns .txn .done [] t)
      ∧ (named → ∃ t, exec (.txnRenew c) s = .next t ∧ others t ∧ t.txn.dom[d] = { x with
            lease := lease a[2] * 1000000000, leaseAt := s.time.sysNs }
        ∧ Returns .txn .done [wd (lease a[2])] t)
      ∧ (a[0].toNat = d.val → (x.st = .idle ∨ x.id ≠ a[1]) → ∀ i ∈ [Instr.txnCommit c, .txnRollback c, .txnRenew c],
        ∃ t, exec i s = .next t ∧ OnlyBox .txn s t ∧ Returns .txn .noTxn [] t)
      ∧ (6 ≤ a[0].toNat → ∀ i ∈ [Instr.txnCommit c, .txnRollback c, .txnRenew c],
        ∃ t, exec i s = .next t ∧ OnlyBox .txn s t ∧ Returns .txn .noTxn [] t)
      ∧ (a[0].toNat = d.val → x.st ≠ .idle → x.id = a[1] → a[2].toNat % 4 = 0 → domMask s d a[2].toNat ≠ 0 →
        a[3].toNat &&& reservedMask a[2].toNat = 0 → ∃ t, exec (.txnPut c) s = .next t ∧ others t ∧ t.params = s.params
          ∧ Returns .txn .done [] t ∧ t.txn = (place d a[2].toNat a[3] s).txn))
  ∧ (∀ (s : State) (d : Fin 6) (a : Nat) (v : Word),
    let x := s.txn.dom[d]
    let y := (place d a v s).txn.dom[d]
    (x.st = .idle → place d a v s = s)
      ∧ (x.st = .open_ → (x.shadow.any (fun p => p.1 == a) = true ∨ x.shadow.length < shadowCap d) →
        y = { x with shadow := bankSet a (clampWord a v &&& wd (domMask s d a)) x.shadow })
      ∧ (x.st = .open_ → ¬ (x.shadow.any (fun p => p.1 == a) = true ∨ x.shadow.length < shadowCap d) →
        y = { x with ovf := true })
      ∧ ((x.st = .queued ∨ x.st = .committing) → y = { x with latewr := true })
      ∧ ((x.shadow.map (·.1)).Pairwise (· < ·) → (y.shadow.map (·.1)).Pairwise (· < ·)))
  ∧ (∀ (s : State) (d : Fin 6) (agree : Bool), Runs s →
    let x := s.txn.dom[d]
    (s.txn.queue = [] → exec (.txnCommitDone agree) s = .next s)
      ∧ (∀ q, s.txn.queue = d :: q → d ∉ q → ∃ t, exec (.txnCommitDone agree) s = .next t
        ∧ t.txn.queue = q ∧ (t.txn.dom[d]).result = (runCommit d agree s).1.code
        ∧ ((runCommit d agree s).1 ≠ .done → t.params = s.params ∧ (t.txn.dom[d]).st = .open_
          ∧ (t.txn.dom[d]).shadow = x.shadow ∧ (t.txn.dom[d]).keys = x.keys)
        ∧ ((runCommit d agree s).1 = .done → (t.txn.dom[d]).st = .idle ∧ (t.txn.dom[d]).shadow = []
          ∧ (d = 5 → t.params = s.params)
          ∧ (∀ w, d ≠ 5 → x.shadow.filter (fun p => p.1 == w.1) = [w] →
            t.par w.1 = (s.par w.1 &&& ~~~(wd (domMask s d w.1))) ||| (w.2 &&& wd (domMask s d w.1)))
          ∧ (∀ a, x.shadow.filter (fun p => p.1 == a) = [] → t.par a = s.par a)
          ∧ (∀ w, d = 2 → x.keys.filter (fun p => p.1 % 8 == w.1 % 8) = [w] → t.bill.tok.slots[Fin.ofNat 8 w.1] = w.2)
          ∧ (∀ w, d = 3 → x.keys.filter (fun p => p.1 % 16 == w.1 % 16) = [w] → (t.safe.conn[Fin.ofNat 16 w.1]).key = w.2))
        ∧ (x.ovf = true → (runCommit d agree s).1 = .badArg))
      ∧ (x.st = .open_ → ∃ t, exec (.txnLeaseExpiry d) s = .next t ∧ (t.txn.dom[d]).st = .idle ∧ (t.txn.dom[d]).shadow = []
        ∧ t.params = s.params ∧ t.txn.expireCnt = satInc s.txn.expireCnt ∧ t.intc.raised.getLsbD 173 = true)
      ∧ (x.st ≠ .open_ → exec (.txnLeaseExpiry d) s = .next s))
  ∧ (∀ (s : State) (i : Fin 5) (c : Call), Answers (mbxBlk (mbxOf i)) 0 s → (s.box (mbxOf i)).busy = false →
    (s.box (mbxOf i)).pend = false → ∃ t, exec (.versions i c) s = .next t ∧ OnlyBox (mbxOf i) s t
      ∧ Returns (mbxOf i) .done [2, 1] t)
  ∧ (∀ (s : State) (v : Word),
    ∀ r ∈ [((1 : Fin 6), BlkKind.met, 0x20200010), (2, .bill, 0x20240010), (0, .safe, 0x20300404), (4, .disp, 0x20280010)],
      Answers r.2.1 0 s → ∃ t, exec (.rwtShadowWrite (BitVec.ofNat 32 r.2.2) v) s = .next t ∧ t.params = s.params
        ∧ t.txn = (place r.1 r.2.2 v s).txn)
  ∧ ∀ (s : State) (i : Fin 28) (req : BitVec 16), Runs s →
    (Answers .txn 0 s → ∃ t, exec .txnClrcnt s = .next t
        ∧ t.txn = { s.txn with commitCnt := 0, rollbackCnt := 0, expireCnt := 0 })
      ∧ ((s.compat[i]).locked = true → ∃ t, exec (.compatWrite i req) s = .next t ∧ t.compat = s.compat)
      ∧ (∀ b, blockMap[i.val]? = some b → (s.compat[i]).locked = false → ∃ t, exec (.compatWrite i req) s = .next t
        ∧ (t.compat[i]).level = (if blkLevel b.kind ≤ req then blkLevel b.kind else 0))

/-- A DMA channel takes up, moves, stops and reports its descriptor as its commands say, and the mesh counts its errors
(R363, R364, R366, R367, R371, R372, R376, R378, R380, R382, R383, R384; that an access is over with its command is log 93's
reading, and that a stop loses the rest of a record for every receive peripheral log 249's). -/
def Obligations.DmaChannelsRunTheirDescriptors : Prop :=
  (∀ (s : State) (c : Fin 32), Answers .dma 0 s →
    let x := s.dma.ch[c]
    let rest := fun t : State => ∀ d : Fin 32, d ≠ c → t.dma.ch[d] = s.dma.ch[d]
    let d := readDesc s (descAddr x x.head.toNat)
    let rest1 := fun t : State => ∀ p : Port, x.reqsel.toNat = p.val + 1 → (t.vp[p].link).rxOff = 0 ∧ (t.vp[p].link).rxStore =
      if (s.vp[p].link).rxOff = 0 then (s.vp[p].link).rxStore else (s.vp[p].link).rxStore.tail
    let tags : Mesh := { s.mesh with peak := BitVec.ofNat 7 (max s.mesh.peak.toNat (dmaTags s + 1)) }
    (∀ hit, x.en = true → exec (.dmaEnable c hit) s = .next (written .dma 0 s))
      ∧ (∀ hit, x.en = false → enableRefused s c = true → ∃ t, exec (.dmaEnable c hit) s = .next t ∧ rest t ∧ t.sram = s.sram
        ∧ t.dma.ch[c] = { x with enref := true })
      ∧ (∀ h, x.en = false → enableRefused s c = false → ∃ t, exec (.dmaEnable c (some h)) s = .next t ∧ rest t
        ∧ (t.dma.ch[c]).en = true ∧ (t.dma.ch[c]).st = .halted ∧ (t.dma.ch[c]).lastRes = 2
        ∧ (t.dma.ch[c]).errCnt = satInc x.errCnt ∧ t.mesh = { tags with
            par := satInc s.mesh.par, errAddr := wd (descAddr x x.head.toNat), errKind := if h then 2 else 1, errReq := 4
            evt := s.mesh.evt ||| 1 })
      ∧ (x.en = false → enableRefused s c = false → ∃ t, exec (.dmaEnable c none) s = .next t ∧ rest t
        ∧ (t.dma.ch[c]).en = true ∧ (t.dma.ch[c]).level = x.prio.toNat
        ∧ (d.2 = none → bitAt d.1[7] 31 = false → (t.dma.ch[c]).st = .waitDesc ∧ t.sram = s.sram)
        ∧ (d.2 = none → bitAt d.1[7] 31 = true → descBad x.reqsel.toNat d.1 = true →
          (t.dma.ch[c]).st = .halted ∧ (t.dma.ch[c]).lastRes = 4 ∧ (t.dma.ch[c]).errCnt = satInc x.errCnt))
      ∧ (x.en = false → exec (.dmaDisable c) s = .next (written .dma 0 s))
      ∧ (x.en = true → ∃ t, exec (.dmaDisable c) s = .next t ∧ rest t ∧ (t.dma.ch[c]).en = false
        ∧ (t.dma.ch[c]).st = .idle ∧ (t.dma.ch[c]).run = none ∧ rest1 t)
      ∧ (x.en = false → exec (.dmaAbort c) s = .next (written .dma 0 s))
      ∧ (x.en = true → (x.run = none ∨ ∃ r, x.run = some r ∧ r.flight = []) → ∃ t, exec (.dmaAbort c) s = .next t ∧ rest t
        ∧ (t.dma.ch[c]).en = false ∧ (t.dma.ch[c]).st = .idle ∧ (t.dma.ch[c]).run = none ∧ rest1 t
        ∧ ∀ r, x.run = some r → r.err = none → (t.dma.ch[c]).lastRes = 5 ∧ (t.dma.ch[c]).done = x.done + 1)
      ∧ (∀ r, x.en = true → x.run = some r → r.flight ≠ [] → ∃ t, exec (.dmaAbort c) s = .next t ∧ rest t
        ∧ t.dma.ch[c] = { x with st := .aborting })
      ∧ (∀ hit, x.st ≠ .waitDesc → x.pre = none → exec (.dmaKick c hit) s = .next (written .dma 0 s))
      ∧ (x.st = .waitDesc → d.2 = none → ∃ t, exec (.dmaKick c none) s = .next t ∧ rest t
        ∧ (bitAt d.1[7] 31 = false → (t.dma.ch[c]).st = .waitDesc ∧ (t.dma.ch[c]).run = x.run)
        ∧ (bitAt d.1[7] 31 = true → descBad x.reqsel.toNat d.1 = false →
          ((t.dma.ch[c]).st = .running ∨ (t.dma.ch[c]).st = .waitReq)
            ∧ ∃ r, (t.dma.ch[c]).run = some r ∧ r.w = d.1 ∧ r.granted = 0 ∧ r.bytes = 0 ∧ r.flight = []))
      ∧ ∃ t, exec .dmaClrcnt s = .next t ∧ ∀ k : Fin 32, t.dma.ch[k] = { s.dma.ch[k] with errCnt := 0, wdrCnt := 0 })
  ∧ ∀ (s : State) (c : Fin 32) (r : Fin 32) (pre ecc onRsp : Bool) (par : Option (DmaReq × Bool)) (q : Fin 10) (a : Word)
      (ms : BitVec 16), Runs s →
    let tags : Mesh := { s.mesh with peak := BitVec.ofNat 7 (max s.mesh.peak.toNat (dmaTags s + 1)) }
    let recorded : Mesh := { tags with
      par := satInc s.mesh.par, errAddr := a, errKind := if onRsp then 2 else 1, errReq := BitVec.ofNat 4 q.val
      evt := s.mesh.evt ||| 1 }
    let x := s.dma.ch[c]
    let paces := x.en = true ∧ x.reqsel.toNat = r.val
    let toRam := fun (d : DmaRun) (b : DmaBurst) => dDfix d.w = false ∧ reqTx x.reqsel.toNat = false ∧ b.late = false
      ∧ inSram b.dst b.data.length = true ∧ poisoned s b.dst b.data.length = false
    (periphReady s r.val = true → ∃ t, exec (.dmaRequestAssert r) s = .next t ∧ t.dma.req.getLsbD r.val = true
        ∧ t.dma.ch[c] = if paces ∧ x.st = .waitReq then { x with st := .running } else x)
      ∧ (periphReady s r.val = false → exec (.dmaRequestAssert r) s = .next s)
      ∧ (r ≠ 0 → ∃ t, exec (.dmaRequestWithdraw r) s = .next t ∧ t.dma.req.getLsbD r.val = false
        ∧ (¬ paces → t.dma.ch[c] = x)
        ∧ (paces → t.dma.ch[c] = { x with
            st := if x.st = .running then .waitReq else x.st
            run := x.run.map fun d => { d with flight := d.flight.map fun b => { b with late := true } } }))
      ∧ ((64 ≤ inFlight s ∨ ∀ k, dmaReady s k = false) → exec (.dmaBurstGrant pre ecc par) s = .next s)
      ∧ (dmaChoice s = some c → dmaReady s c = true ∧ ∀ k, dmaReady s k = true → (s.dma.ch[k]).level ≤ x.level)
      ∧ (∀ d, inFlight s < 64 → dmaChoice s = some c → x.run = some d → x.reqsel = 0 → dSafe d.w = true → dMode d.w = 0 →
        dSfix d.w = false → dDfix d.w = false →
        let n := nextBurst d.w d.granted
        let src := wrap32 (d.w[1].toNat + n.1)
        let dst := wrap32 (d.w[2].toNat + n.1)
        inSram src n.2 = true → poisoned s src n.2 = false → inDma dst = false → inDma (dst + n.2 - 1) = false →
        ∃ t, exec (.dmaBurstGrant pre false none) s = .next t ∧ t.sram = s.sram ∧ t.dma.last = c.val
          ∧ (∀ k : Fin 32, k ≠ c → (t.dma.ch[k]).run = (s.dma.ch[k]).run)
          ∧ (t.dma.ch[c]).run = some { d with
              granted := d.granted + n.2
              flight := d.flight ++ [{ off := n.1, data := swapBytes (dSwap d.w) (s.ramRead src n.2), dst := dst, late := false }] })
      ∧ (∀ d, inFlight s < 64 → dmaChoice s = some c → x.run = some d → d.flight = [] → reqRx x.reqsel.toNat = true →
        dMode d.w = 0 → dDfix d.w = false →
        let n := nextBurst d.w d.granted
        let dst := wrap32 (d.w[2].toNat + n.1)
        inDma dst = false → inDma (dst + n.2 - 1) = false →
        ∃ t, exec (.dmaBurstGrant pre ecc (some (.source, onRsp))) s = .next t ∧ (t.dma.ch[c]).st = .halted
          ∧ (t.dma.ch[c]).lastRes = 2 ∧ (t.dma.ch[c]).errCnt = satInc x.errCnt ∧ t.mesh.par = satInc s.mesh.par
          ∧ t.mesh.errAddr = Config.fifoAddr x.reqsel.toNat ∧ t.mesh.errKind = (if onRsp then 2 else 1) ∧ t.mesh.errReq = 4)
      ∧ ((x.run = none ∨ ∃ d, x.run = some d ∧ d.flight = []) → exec (.dmaBurstDone c par) s = .next s)
      ∧ (∀ d b more, x.run = some d → d.flight = b :: more → more ≠ [] → toRam d b →
        ∃ t, exec (.dmaBurstDone c none) s = .next t ∧ t.sram = (s.ramWrite b.dst b.data).sram
          ∧ t.dma.ch[c] = { x with run := some { d with flight := more, bytes := d.bytes + b.data.length } })
      ∧ (∀ d b, x.run = some d → d.flight = [b] → toRam d b → d.late = false → d.err = none → dTotal d.w ≤ d.granted →
        dStop d.w = true → x.st ≠ .aborting →
        ∃ t, exec (.dmaBurstDone c none) s = .next t ∧ (t.dma.ch[c]).en = false ∧ (t.dma.ch[c]).st = .idle
          ∧ (t.dma.ch[c]).run = none ∧ (t.dma.ch[c]).lastRes = 0 ∧ (t.dma.ch[c]).done = x.done + 1
          ∧ t.dma.evt.getLsbD c.val = (s.dma.evt.getLsbD c.val || dIrq d.w)
          ∧ (inSram d.addr.toNat 32 = true → poisoned s d.addr.toNat 32 = false →
            t.ramRead (d.addr.toNat + 28) 4
              = leBytes 4 (wd (at_ ((x.done.toNat + 1) % 16) 24 + (d.bytes + b.data.length))).toNat))
      ∧ (∀ d b, x.run = some d → d.flight = [b] → reqTx x.reqsel.toNat = false → d.err = none → x.st ≠ .aborting →
        (onRsp = true → toRam d b) → (onRsp = false → inSafe (wd b.dst).toNat = false) →
        ∃ t, exec (.dmaBurstDone c (some (.dest, onRsp))) s = .next t ∧ (t.dma.ch[c]).st = .halted ∧ (t.dma.ch[c]).en = x.en
          ∧ (t.dma.ch[c]).lastRes = 2 ∧ (t.dma.ch[c]).errCnt = satInc x.errCnt ∧ t.mesh.par = satInc s.mesh.par)
      ∧ (portMute s q.val = true → exec (.meshParityError q a onRsp) s = .next s)
      ∧ (portMute s q.val = false → (onRsp = true ∨ inSafe a.toNat = false) →
        exec (.meshParityError q a onRsp) s = .next { s with bus := { err := true, data := 0 }, mesh := recorded })
      ∧ (portMute s q.val = false → onRsp = false → inSafe a.toNat = true →
        (s.sys.mode = .commission ∨ s.sys.mode = .service ∨ s.sys.mode = .maintain ∨ s.sys.mode = .degraded) →
        ∃ t, exec (.meshParityError q a onRsp) s = .next t ∧ t.bus = { err := true, data := 0 } ∧ t.mesh = recorded
          ∧ t.sys.mode = .lockout ∧ t.safe.latch = true ∧ t.safe.causes.getLsbD 4 = true)
      ∧ exec .sramScrubCorrect s = .next { s with mesh.corr := satInc s.mesh.corr, mesh.evt := s.mesh.evt ||| 4 }
      ∧ exec (.sramScrubPass ms) s = .next { s with mesh.lastPass := ms }
      ∧ (blkUp s .mesh 0 = true → ∃ t, exec .meshClrcnt s = .next t
        ∧ t.mesh = { s.mesh with peak := BitVec.ofNat 7 (dmaTags s + 1), par := 0, uncorr := 0, corr := 0 })

/-- An update is begun, filled, verified, activated, confirmed or rejected only from the states that admit each command
(R367, R397, R398, R399, R400, R401, R402, R404, R406, R407, R411; the statuses of arguments that a row does not list are log
160's choice, the order of the checks of a BEGIN log 109's, and the byte order of CID and the lengths that BEGIN admits log
110's). -/
def Obligations.UpdatesMoveThroughTheirStates : Prop :=
  (∀ (s : State) (c : Call), CanCall .upd c s →
    let u := s.upd
    let a := callArgs .upd c s
    let man := s.ramRead a[0].toNat a[1].toNat
    let chk := beginCheck s a[1].toNat man
    let clean := fun i n : Nat => inSram i n = true ∧ poisoned s i n = false
    let busy := u.st = .downloading ∨ u.st = .complete
    let begins := clean a[0].toNat a[1].toNat ∧ 369 ≤ a[1].toNat ∧ a[1].toNat ≤ 12609
    let dirty := fun i n : Nat => inSram i n = true ∧ poisoned s i n = true
    let returned := fun (t : State) (i n : Nat) =>
      let hit := s.mesh.poison.filter fun w => decide (w < i + n) && decide (i < w + 8)
      t.mesh.uncorr = satAdd s.mesh.uncorr hit.length ∧ t.mesh.errAddr = wd (hit.foldl max i) ∧ t.mesh.errKind = 3
        ∧ t.mesh.errReq = 9 ∧ t.mesh.evt = s.mesh.evt ||| 2 ∧ t.mesh.poison = s.mesh.poison
    let rec_ := s.ramRead a[0].toNat 1044
    let k := leAt rec_ 0 4
    let good := ((stagedCek s).bind fun x => sporeOpen x (stagedMan s) k (slice rec_ 4 1024) (slice rec_ 1028 16)).isSome
    let loads := u.st = .downloading ∧ u.eraseDue = false
    let takes := hasStaged s = true ∧ clean a[0].toNat 1044
    let endsIn := fun (b : State) (i : Instr) (st : Status) (res : List Word) (v : Upd) => ∃ t, exec i s = .next t
      ∧ OnlyBox .upd { b with upd := v } t ∧ Returns .upd st res t
    let ends := endsIn s
    let reads := endsIn s.tagged
    ((a[1].toNat < 369 ∨ 12609 < a[1].toNat) → ends (.updBegin c) .badArg [] { u with result := 7 })
      ∧ (begins → chk.1 ≠ 0 → reads (.updBegin c) chk.2 [] { u with result := BitVec.ofNat 4 chk.1 })
      ∧ (begins → chk.1 = 0 → beginBarred s = true → reads (.updBegin c) .refused [] u)
      ∧ (begins → chk.1 = 0 → beginBarred s = false → busy → u.cid ≠ mfCid man → reads (.updBegin c) .busy [] u)
      ∧ (dirty a[0].toNat a[1].toNat → 369 ≤ a[1].toNat → a[1].toNat ≤ 12609 → ∃ t, exec (.updBegin c) s = .next t
        ∧ returned t a[0].toNat a[1].toNat)
      ∧ (dirty a[0].toNat 1044 → hasStaged s = true →
        ∃ t, exec (.updSpore c) s = .next t ∧ returned t a[0].toNat 1044)
      ∧ (begins → chk.1 = 0 → beginBarred s = false → busy → u.cid = mfCid man → reads (.updBegin c) .accepted []
          { u with result := 0, st := if u.eraseDue then .erasing else u.st })
      ∧ (begins → chk.1 = 0 → beginBarred s = false → ¬ busy → ∃ t, exec (.updBegin c) s = .next t
        ∧ Returns .upd .accepted [] t ∧ t.nor = ((s.norErase stgMan 0x10000).norWrite stgMan man).nor ∧ t.upd.st = .erasing
        ∧ t.upd.eraseDue = true ∧ t.upd.map = 0 ∧ t.upd.cid = mfCid man ∧ stagedCek t = envelope s)
      ∧ (hasStaged s = false → ends (.updSpore c) .refused [] u)
      ∧ (takes → stagedSpores s ≤ k → reads (.updSpore c) .badArg [] u)
      ∧ (takes → k < stagedSpores s → good = false → reads (.updSpore c) .badArg [] { u with tagerr := satInc u.tagerr })
      ∧ (takes → k < stagedSpores s → good = true → ¬ loads → reads (.updSpore c) .refused [] u)
      ∧ (takes → k < stagedSpores s → good = true → loads → sporeSet s k = true →
        reads (.updSpore c) .done [wd (missingCnt s)] u)
      ∧ (takes → k < stagedSpores s → k < 16384 → good = true → loads → sporeSet s k = false → ∃ t, exec (.updSpore c) s = .next t
        ∧ Returns .upd .done [wd (missingCnt t)] t ∧ t.upd.map = u.map ||| BitVec.ofNat 16384 (2 ^ k)
        ∧ t.upd.st = (if missingCnt t = 0 then .complete else .downloading)
        ∧ t.norRead (stgOfs + 1024 * k) 1024 = slice rec_ 4 1024 ∧ t.norRead (stgTags + 16 * k) 16 = slice rec_ 1028 16)
      ∧ ((a[1].toNat < 1 ∨ 64 < a[1].toNat ∨ 16384 ≤ a[0].toNat) → ends (.updMissing c) .refused [] u)
      ∧ (1 ≤ a[1].toNat → a[1].toNat ≤ 64 → a[0].toNat < 16384 →
        let rs := (runsOf ((missing s).filter fun j => decide (a[0].toNat ≤ j))).take a[1].toNat
        (u.st ≠ .downloading → ends (.updMissing c) .refused [] u)
          ∧ (u.st = .downloading → ends (.updMissing c) .done [wd rs.length]
              { u with missBuf := rs.flatMap fun r => leBytes 2 r.1 ++ leBytes 2 r.2 }))
      ∧ ((u.st = .complete ∨ u.st = .verified) → ends (.updVerify c) .accepted [] { u with st := .verifying })
      ∧ (¬ (u.st = .complete ∨ u.st = .verified) → ends (.updVerify c) .refused [] u)
      ∧ (let may := u.st = .verified ∧ (s.sys.mode = .commission ∨ s.sys.mode = .service ∨ s.sys.mode = .maintain)
        (may → ends (.updActivate c) .done [] { u with st := .pending_, resetAct := bitAt a[0] 0 })
          ∧ (¬ may → ends (.updActivate c) .refused [] u))
      ∧ (a[0] = 1 → (u.st = .downloading ∨ u.st = .complete ∨ u.st = .verified) → ends (.updCancel c) .done []
          { u with map := 0, cekStaged := none, st := .idle, cid := 0, eraseDue := false })
      ∧ (a[0] = 0 → u.st = .pending_ → ends (.updCancel c) .done [] { u with st := .complete, resetAct := false })
      ∧ (1 < a[0].toNat → ends (.updCancel c) .refused [] u)
      ∧ (a[0] = 1 → ¬ (u.st = .downloading ∨ u.st = .complete ∨ u.st = .verified) → ends (.updCancel c) .refused [] u)
      ∧ (u.st = .trial → ∃ t, exec (.updConfirm c) s = .next t ∧ Returns .upd .done [] t ∧ t.upd.st = .idle
        ∧ t.upd.minsvn = BitVec.ofNat 16 (max u.minsvn.toNat (mfSvn (manifestAt s actMan))) ∧ t.upd.setlock = false
        ∧ t.nor = s.nor)
      ∧ (u.st ≠ .trial → ends (.updConfirm c) .refused [] u)
      ∧ (a[0] ≠ 0x0C → a[0] ≠ 0x01 → ends (.updReport c) .refused [] u)
      ∧ ((a[0] = 0x0C ∨ a[0] = 0x01) → u.st ≠ .trial → ends (.updReport c) .refused [] u)
      ∧ ((a[0] = 0x0C ∨ a[0] = 0x01) → u.st = .trial → ∃ t, exec (.updReport c) s = .next t ∧ Returns .upd .done [] t
        ∧ t.upd.st = .rejected ∧ t.upd.swapBack = true ∧ t.upd.reason = (if a[0] = 0x0C then 3 else 4)
        ∧ t.upd.hostcode = BitVec.ofNat 8 a[1].toNat)
      ∧ ends (.updStatus c) .done [wd u.st.code, wd u.cid.toNat, wd (u.cid.toNat / 2 ^ 32), wd u.trials.toNat, wd (confLeft s),
          wd u.minsvn.toNat, wd (mfVersion (manifestAt s actMan)), wd (if hasStaged s then mfVersion (stagedMan s) else 0)] u)
  ∧ ∀ (s : State) (ok : Bool), Runs s →
    let u := s.upd
    let timed := u.st = .trial ∧ u.winFrom.isSome = true
    (isPending s .upd .updBegin = false → exec (.updBeginDone ok) s = .next s)
      ∧ (isPending s .upd .updBegin = true → ∃ t, exec (.updBeginDone ok) s = .next t ∧ (t.box .upd).pend = false
        ∧ (u.st = .erasing → ok = false → (t.box .upd).status = Status.refused.code ∧ t.nor = s.nor
          ∧ t.upd = { u with st := .downloading, result := 8 })
        ∧ (u.st = .erasing → ok = true → (t.box .upd).status = Status.done.code ∧ t.upd.eraseDue = false
          ∧ t.upd.st = (if missingCnt t = 0 then .complete else .downloading)
          ∧ t.nor = (((s.norErase stgOfs 0x1000000).norErase stgTags 0x40000).norErase swpOfs 0x20000).nor))
      ∧ (u.st ≠ .verifying → exec (.updVerifyDone ok) s = .next s)
      ∧ (u.st = .verifying → ∃ t, exec (.updVerifyDone ok) s = .next t ∧ t.nor = s.nor
        ∧ (t.upd.st = .verified ↔ ok = true ∧ missingCnt s = 0 ∧ badSpores s = [] ∧ verifyRest s = 0)
        ∧ (t.upd.st = .verified ↔ t.upd.result = 0)
        ∧ (ok = true → missingCnt s = 0 → badSpores s ≠ [] → t.upd.st = .downloading ∧ t.upd.result = 1
          ∧ ∀ k ∈ badSpores s, t.upd.map.getLsbD k = false)
        ∧ (ok = true → missingCnt s = 0 → badSpores s = [] → t.upd.result.toNat = verifyRest s)
        ∧ (isPending s .upd .updVerify = true →
          (t.box .upd).status = if t.upd.st = .verified then Status.done.code else Status.refused.code))
      ∧ exec .confWindowWarning s = .next (if timed then { s with upd.winwarn := true } else s)
      ∧ (¬ timed → exec .confWindowExpiry s = .next s)
      ∧ (timed → ∃ t, exec .confWindowExpiry s = .next t ∧ t.upd.st = .rejected ∧ t.upd.reason = 2 ∧ t.upd.hostcode = 0
        ∧ t.upd.swapBack = true ∧ t.upd.resetRej = true ∧ t.nor = s.nor)
      ∧ (blkUp s .upd 0 = true → ∃ t, exec .updClrcnt s = .next t ∧ t.upd = { u with tagerr := 0, repair := 0 })

/-- UPD_CANCEL abandons a download, whose staging area the next BEGIN erases, or withdraws an activation (R400). -/
def Obligations.UpdCancelAbandonsOrWithdraws : Prop :=
  (∀ (s : State) (c : Call), CanCall .upd c s →
    let u := s.upd
    let a := callArgs .upd c s
    let ends := fun v : Upd → Upd => ∃ t, exec (.updCancel c) s = .next t ∧ OnlyBox .upd { s with upd := t.upd } t
      ∧ Returns .upd .done [] t ∧ t.upd = v t.upd
    (a[0] = 1 → (u.st = .downloading ∨ u.st = .complete ∨ u.st = .verified) →
        ends fun v => { u with map := 0, cekStaged := none, st := .idle, cid := v.cid, eraseDue := v.eraseDue })
      ∧ (a[0] = 0 → u.st = .pending_ → ends fun _ => { u with st := .complete, resetAct := false })
      ∧ (u.st = .idle → ∃ t, exec (.updBegin c) s = .next t
        ∧ (((t.box .upd).pend = false ∧ t.upd.st = .idle ∧ t.nor = s.nor)
          ∨ ((t.box .upd).pend = true ∧ t.upd.st = .erasing ∧ t.upd.eraseDue = true ∧ t.upd.map = 0))))
  ∧ ∀ s : State, Runs s → isPending s .upd .updBegin = true → s.upd.st = .erasing →
    ∃ t, exec (.updBeginDone true) s = .next t ∧ t.upd.eraseDue = false
      ∧ t.nor = (((s.norErase stgOfs 0x1000000).norErase stgTags 0x40000).norErase swpOfs 0x20000).nor

/-- Settings copies are opened, written and committed in order; digest keys rotate by signed messages; SEC runs its
queue by shares, each operation with the output of its algorithm (R386, R387, R389, R391, R408, R409, R411, 19_security_and_field_update.md; that the reserved field at the end of a
settings header has 4 bytes, MAGIC, the first GEN and the base of SET_WRITE are log 112's choices, the status of SET_OPEN when the
erase fails log 201's, that of an out-of-range SET_COMMIT log 160's, that of a KEY_ROTATE with a wrong message or signature log
113's, and the share of a tag outside the table log 107's). -/
def Obligations.SettingsKeysAndOperationsKeepTheirRules : Prop :=
  (∀ (s : State) (c : Call), CanCall .upd c s →
    let u := s.upd
    let a := callArgs .upd c s
    let badWrite := a[2].toNat < 4 ∨ 4096 < a[2].toNat ∨ a[2].toNat % 4 ≠ 0 ∨ setSize - 32 < a[0].toNat + a[2].toNat
    let badCommit := 65535 < a[0].toNat ∨ setSize - 32 < a[1].toNat
    let m := s.ramRead a[1].toNat 250
    let key := slice m 57 97
    let cur := if a[0] = 0 then s.sec.fkd else s.sec.skd
    let mine := leAt m 0 1 = a[0].toNat ∧ slice m 1 8 = serialBytes s ∧ sigOk384 key (m.take 154) (m.drop 154) = true
    let may := (s.sys.mode = .commission ∨ s.sys.mode = .maintain) ∧ cur = some (sha384 key)
    let onlyIn := fun (b : State) (i : Instr) (st : Status) => ∃ t, exec i s = .next t ∧ OnlyBox .upd b t ∧ Returns .upd st [] t
    let only := onlyIn s
    (∃ t, exec (.setOpen c) s = .next t ∧ Returns .upd .accepted [] t ∧ t.upd = { u with opened := none } ∧ t.nor = s.nor)
      ∧ (badWrite → only (.setWrite c) .badArg)
      ∧ (¬ badWrite → u.opened = none → only (.setWrite c) .refused)
      ∧ (∀ b, ¬ badWrite → u.opened = some b → inSram a[1].toNat a[2].toNat = true → poisoned s a[1].toNat a[2].toNat = false →
        ∃ t, exec (.setWrite c) s = .next t
        ∧ Returns .upd .done [] t ∧ t.upd = u
        ∧ t.nor = (s.norWrite (setOfs b + 32 + a[0].toNat) (List.zipWith (· &&& ·)
            (s.norRead (setOfs b + 32 + a[0].toNat) a[2].toNat) (s.ramRead a[1].toNat a[2].toNat))).nor)
      ∧ (badCommit → only (.setCommit c) .refused)
      ∧ (¬ badCommit → u.opened = none → only (.setCommit c) .refused)
      ∧ (∀ b, ¬ badCommit → u.opened = some b →
        let gen := match currentCopy s with
          | some x => (copyGen s x + 1) % 2 ^ 32
          | none => 1
        let h := leBytes 4 Config.setMagic.toNat ++ leBytes 4 gen ++ leBytes 2 a[0].toNat ++ leBytes 2 0
          ++ leBytes 4 a[1].toNat ++ leBytes 4 (crc32c (s.norRead (setOfs b + 32) a[1].toNat))
          ++ leBytes 8 (mfCid (manifestAt s actMan)).toNat ++ leBytes 4 0
        ∃ t, exec (.setCommit c) s = .next t ∧ Returns .upd .done [wd gen] t ∧ t.upd = { u with opened := none }
          ∧ t.nor = (s.norProgram (setOfs b) h).nor)
      ∧ (1 < a[0].toNat → only (.keyRotate c) .badArg)
      ∧ (a[0].toNat ≤ 1 → inSram a[1].toNat 250 = true → poisoned s a[1].toNat 250 = false →
        (¬ mine → onlyIn s.tagged (.keyRotate c) .badArg)
        ∧ (mine → ¬ may → onlyIn s.tagged (.keyRotate c) .refused)
        ∧ (mine → may → ∃ t, exec (.keyRotate c) s = .next t ∧ Returns .upd .done [] t
          ∧ t.sec = if a[0] = 0 then { s.sec with fkd := some (slice m 9 48) } else { s.sec with skd := some (slice m 9 48) })))
  ∧ (∀ (s : State) (ok : Bool), Runs s →
    (isPending s .upd .setOpen = false → exec (.setOpenDone ok) s = .next s)
      ∧ (isPending s .upd .setOpen = true → ∃ t, exec (.setOpenDone ok) s = .next t ∧ (t.box .upd).pend = false
        ∧ (ok = true → (t.box .upd).status = Status.done.code ∧ t.upd = { s.upd with opened := some (spareCopy s) }
          ∧ t.nor = (s.norErase (setOfs (spareCopy s)) setSize).nor)
        ∧ (ok = false → (t.box .upd).status = Status.refused.code ∧ t.upd = s.upd)))
  ∧ (∀ (s : State) (p : BitVec 4) (k : BitVec 6) (len : BitVec 16), Answers .sec 0 s →
    let q := s.sec
    let ops : List (Instr × BitVec 6) := [(.secSha256 p k len, 1), (.secSha384 p k len, 2), (.secHmacSha256 p k len, 3),
      (.secGcmEncrypt p k len, 4), (.secGcmDecrypt p k len, 5), (.secCmac p k len, 6), (.secEcdsaSign p k len, 7),
      (.secEcdsaVerify p k len, 8), (.secEcdh p k len, 9), (.secGenkey p k len, 10), (.secImport p k len, 11),
      (.secRandom p k len, 12), (.secAttest p k len, 13)]
    let share := if p.toNat < 8 then 2 else if p = 0xF then 4 else 0
    let held := (q.queue.filter fun o => o.port == p).length
    ∀ x ∈ ops, exec x.1 s = .next (if held < share then
        { written .sec 0 s with sec.queue := q.queue ++
            [{ op := x.2, port := p, key := k, len := len, src := q.src, dst := q.dst, aux := q.aux }] }
      else { written .sec 0 s with sec.qfull := true }))
  ∧ (∀ (s : State), Runs s →
    (s.sec.queue = [] → exec .secOpComplete s = .next s)
      ∧ ∀ p o, nextTag s = some p → s.sec.queue.find? (fun o => o.port == p) = some o →
        let src := s.ramRead o.src.toNat o.len.toNat
        let keyed := o.op = 3 ∨ o.op = 4 ∨ o.op = 5 ∨ o.op = 6 ∨ o.op = 7 ∨ o.op = 9
        let clean := fun i n : Nat => inSram i n = true ∧ poisoned s i n = false
        let done := fun (t : State) (r : BitVec 4) (out : List Byte) => t.sec.result = r ∧ t.sec.olen = BitVec.ofNat 24 out.length
          ∧ (clean o.dst.toNat out.length → t.sram = (s.ramWrite o.dst.toNat out).sram)
        let fails := fun (t : State) (r : BitVec 4) => t.sec.result = r ∧ t.sram = s.sram ∧ t.sec.hk = s.sec.hk
        let slot : Fin 16 := Fin.ofNat 16 o.key.toNat
        let holds := fun (x : HostKey) => o.key.toNat < 16 ∧ s.sec.hk[slot] = some x
        let rnd := Config.random s.free
        let nonce := s.ramRead o.aux.toNat 12
        let aadLen := leAt (s.ramRead o.aux.toNat 16) 12 4
        let aad := s.ramRead (o.aux.toNat + 16) aadLen
        let body := src.take (src.length - 16)
        let genTyp : BitVec 3 := BitVec.ofNat 3 o.len.toNat
        let genKey := rnd % ((curveOf genTyp).n - 1) + 1
        let facts := wordsBytes [wd s.sys.mode.code.toNat, s.thl.imgId, wd (mfVersion (manifestAt s actMan)), wd s.upd.minsvn.toNat]
        ∃ t, exec .secOpComplete s = .next t ∧ t.sec.queue = s.sec.queue.erase o ∧ t.sec.last = p ∧ t.sec.port = p
          ∧ t.intc.raised.getLsbD 164 = true ∧ (t.sec.result ≠ 0 → t.intc.raised.getLsbD 165 = true)
          ∧ (clean o.src.toNat o.len.toNat → (o.op = 1 → done t 0 (sha256 src)) ∧ (o.op = 2 → done t 0 (sha384 src))
            ∧ (∀ x : HostKey, holds x → x.typ = 3 →
              (o.op = 3 → done t 0 (hmac256 (beBytes 32 x.secret) src))
                ∧ (o.op = 6 → done t 0 (cmac (beBytes 32 x.secret) src))
                ∧ (clean o.aux.toNat 16 → aadLen ≤ 65536 → clean (o.aux.toNat + 16) aadLen →
                  (o.op = 4 → done t 0 ((gcmEnc (beBytes 32 x.secret) nonce aad src).1 ++ (gcmEnc (beBytes 32 x.secret) nonce aad src).2))
                    ∧ (o.op = 5 → 16 ≤ o.len.toNat →
                      match gcmDec (beBytes 32 x.secret) nonce aad body (src.drop body.length) with
                      | some pt => done t 0 pt
                      | none => fails t 1))
                ∧ (o.op = 5 → o.len.toNat < 16 → fails t 3))
            ∧ (∀ x : HostKey, holds x → (x.typ = 1 ∨ x.typ = 2) →
              let k := (curveOf x.typ).len
              (o.op = 7 → o.len = 48 → done t 0 (ecdsaSign (curveOf x.typ) x.secret rnd src))
                ∧ (o.op = 7 → o.len ≠ 48 → fails t 3)
                ∧ (o.op = 9 → o.len.toNat ≠ 2 * k + 1 → fails t 3)
                ∧ (o.op = 9 → o.len.toNat = 2 * k + 1 →
                  match if leAt src 0 1 = 4 then ecdh (curveOf x.typ) x.secret (beNat (slice src 1 k)) (beNat (slice src (1 + k) k)) else none with
                  | some z => done t 0 z
                  | none => fails t 2))
            ∧ (o.op = 8 → (o.len = 32 ∨ o.len = 48) →
              let curve := if o.len = 48 then p384 else p256
              let y := s.ramRead o.aux.toNat (4 * curve.len + 1)
              clean o.aux.toNat (4 * curve.len + 1) → t.sec.olen = 4 ∧ (t.sec.result = 0 ∨ t.sec.result = 4)
                ∧ (t.sec.result = 0 ↔ leAt y 0 1 = 4 ∧ ecdsaVerify curve (beNat (slice y 1 curve.len))
                  (beNat (slice y (1 + curve.len) curve.len)) src (y.drop (2 * curve.len + 1)) = true))
            ∧ (o.op = 11 → o.key.toNat < 16 →
              match if s.sec.zeroised then none else blobOpen p384 (Config.utk s.sec.gen) 4 (serialBytes s) src with
              | none => fails t 1
              | some (k, b) => (k ≠ o.key.toNat → fails t 2) ∧ (k = o.key.toNat → b.length ≠ 32 → fails t 3)
                ∧ (k = o.key.toNat → b.length = 32 → done t 0 [] ∧ t.sec.hk = s.sec.hk.set slot (some (hostKey 3 (beNat b) true))))
            ∧ (o.op = 13 → (o.len ≠ 32 → fails t 3)
              ∧ (o.len = 32 → done t 0 (facts ++ ecdsaSign p256 Config.dik rnd (sha256 (src ++ facts))))))
          ∧ (o.op = 12 → done t 0 (leBytes o.len.toNat rnd))
          ∧ (o.op = 10 → o.key.toNat < 16 →
            (genTyp = 3 → done t 0 [] ∧ t.sec.hk = s.sec.hk.set slot (some (hostKey 3 (rnd % 2 ^ 256) false)))
              ∧ ((genTyp = 1 ∨ genTyp = 2) → done t 0 (pubBytes (curveOf genTyp) genKey)
                ∧ t.sec.hk = s.sec.hk.set slot (some (hostKey genTyp genKey false)))
              ∧ ((genTyp = 0 ∨ 3 < genTyp.toNat) → fails t 3))
          ∧ ((keyed ∨ o.op = 10 ∨ o.op = 11) → 16 ≤ o.key.toNat → fails t 2)
          ∧ (keyed → o.key.toNat < 16 → s.sec.hk[slot] = none → fails t 5)
          ∧ ((o.op = 7 ∨ o.op = 9) → ∀ x : HostKey, holds x → (x.typ ≠ 1 ∧ x.typ ≠ 2) → fails t 2)
          ∧ ((o.op = 3 ∨ o.op = 4 ∨ o.op = 5 ∨ o.op = 6) → ∀ x : HostKey, holds x → x.typ ≠ 3 → fails t 2))
  ∧ (∀ (typ : BitVec 3) (x : Nat) (b : Bool), x < 2 ^ 384 → (hostKey typ x b).secret = x)
  ∧ ∀ (s : State) (det : Word), ∃ t, exec (.tamper det) s = .next t ∧ t.sec.hk = Vector.replicate 16 none
      ∧ t.sec.zeroised = true ∧ t.sec.tamper = true ∧ t.sys = s.sys ∧ t.safe = s.safe
      ∧ (s.sys.power ≠ .running → t.sec.auditDue = s.sec.auditDue ++ [det] ∧ t.bill = s.bill)

/-- At most 64 entries of a TYPE are written in a second; the others count in EVL_DROP, and the second's end writes one
DROPPED entry. A VBAK reading below 2.4 V sets VBAK_LOW, raises source 5 and logs within that limit; one of 2.5 V or more clears
it (R418, R425, 20_time_counters_and_logs.md; that the DROPPED entries are written at the first entry of the next second or at
EVL_DROP_SECOND is log 121's reading, and that an entry of an earlier instant counts in the second in which it is made log
245's). -/
def Obligations.EventLogTakes64EntriesOfATypeASecond : Prop :=
  (∀ (s : State) (v : Byte), Runs s → ∃ t, exec (.vbakMeasure v) s = .next t ∧ t = { s with time := t.time } ∧ t.time.vbak = v
    ∧ (20 * v.toNat < 2400 → t.time.vbakLow = true ∧ srcLevel t 5 = true
      ∧ ((s.now / 1000000000 ≤ s.time.evlSec → ∀ x ∈ s.time.evlCounts, x.typ = 0x000D → x.written < 64) →
        ∃ e l, t.time.evl = e :: l ∧ e.typ = 0x000D ∧ e.d0 = wd (20 * v.toNat) ∧ e.d1 = 0 ∧ e.d2 = 0))
    ∧ (2400 ≤ 20 * v.toNat → t.time.evl = s.time.evl
      ∧ t.time.vbakLow = if 2500 ≤ 20 * v.toNat then false else s.time.vbakLow)) ∧
  (∀ (s : State) (typ src : Nat) (d0 d1 d2 : Word), typ < 65536 → s.time.evlSec < s.now / 1000000000 →
    let t := s.evlog typ src d0 d1 d2
    let lost := s.time.evlCounts.filter fun x => decide (0 < x.dropped)
    t = { s with time := t.time } ∧ t.time.evlSec = s.now / 1000000000 ∧ t.time.evlDrop = s.time.evlDrop
      ∧ t.time.evlCounts = [{ typ := typ, written := 1, dropped := 0 }]
      ∧ t.time.evlSeq = s.time.evlSeq + wd lost.length + 1
      ∧ (∃ e l, t.time.evl = e :: l ∧ e.typ = BitVec.ofNat 16 typ ∧ e.d0 = d0 ∧ e.d1 = d1 ∧ e.d2 = d2
        ∧ (lost.length < 16384 → (l.take lost.length).map (fun e => (e.typ, e.d0, e.d1))
          = lost.reverse.map fun x => ((0x000E : BitVec 16), wd x.typ, wd x.dropped))))
  ∧ (∀ (s : State) (typ src : Nat) (d0 d1 d2 : Word), typ < 65536 → s.now / 1000000000 ≤ s.time.evlSec →
    let t := s.evlog typ src d0 d1 d2
    let here := fun x : State => x.time.evlCounts.find? fun c => c.typ == typ
    (∀ c, here s = some c → 64 ≤ c.written → t.time.evl = s.time.evl ∧ t.time.evlSeq = s.time.evlSeq
        ∧ t.time.evlDrop = (if s.time.evlDrop = 65535 then 65535 else s.time.evlDrop + 1)
        ∧ here t = some { c with dropped := c.dropped + 1 })
      ∧ ((∀ c, here s = some c → c.written < 64) → t.time.evlSeq = s.time.evlSeq + 1 ∧ t.time.evlDrop = s.time.evlDrop
        ∧ (∃ e l, t.time.evl = e :: l ∧ e.typ = BitVec.ofNat 16 typ ∧ e.seq = s.time.evlSeq + 1)
        ∧ ∃ c, here t = some c ∧ c.written ≤ 64 ∧ c.written = (match here s with | some b => b.written | none => 0) + 1)
      ∧ (∀ k, k ≠ typ → t.time.evlCounts.find? (fun c => c.typ == k) = s.time.evlCounts.find? (fun c => c.typ == k)))
  ∧ (∀ s : State, s.time.evlDrop = 65535 → srcLevel s 5 = true ∧ (regView s .time 0 0x20010000 0x30).getLsbD 27 = true)
  ∧ ∀ s : State, Runs s →
    let lost := s.time.evlCounts.filter fun x => decide (0 < x.dropped)
    (lost = [] → exec .evlDropSecond s = .next s)
      ∧ (lost ≠ [] → ∃ t, exec .evlDropSecond s = .next t ∧ t = { s with time := t.time } ∧ t.time.evlCounts = []
        ∧ t.time.evlSeq = s.time.evlSeq + wd lost.length ∧ t.time.evlDrop = s.time.evlDrop
        ∧ (lost.length ≤ 16384 → (t.time.evl.take lost.length).map (fun e => (e.typ, e.d0, e.d1))
          = lost.reverse.map fun x => ((0x000E : BitVec 16), wd x.typ, wd x.dropped)))

/-- The clocks and their checks change what their rules name; a word of SRAM, a refused access and a latched read answer as
theirs say; and of each access code shown, a taken register write sets, clears, performs or leaves what its code says (R3, R5,
R6, R8, R358, R364, R367, R412, R416, R417, R422, R448; which words of the windows refuse a write is log 14's reading, when
COMPAT is settled log 15's, the records of an unaligned access and of a write to ROM, NOR or Sinter log 16's choice, and the
RTC's own cycles come with the reading, log 199). -/
def Obligations.ClocksAndRegisterAccessesAnswer : Prop :=
  (∀ (s : State) (dev : BitVec 16), Runs s →
    (exec .rtcLoad s = .next { s with
        time.rtcSec := wd (s.legalNs / 1000000000).toNat
        time.rtcFrac := 0 })
      ∧ (dev.toInt.natAbs ≤ 500 → exec (.refdevMeasure dev) s = .next { s with time.refdev := dev })
      ∧ (500 < dev.toInt.natAbs → ∃ t, exec (.refdevMeasure dev) s = .next t ∧ t = { s with time := t.time }
        ∧ t.time.refdev = dev ∧ t.time.refdevE = true ∧ t.time.sysNs = s.time.sysNs)
      ∧ (let full := s.now / 1000000000 ≤ s.time.evlSec
            ∧ ∃ x, s.time.evlCounts.find? (fun x => x.typ == 0x0005) = some x ∧ 64 ≤ x.written
        blkUp s .time 0 = true → ∃ t, exec .evlClrcnt s = .next t
          ∧ (¬ full → t.time.evlDrop = 0 ∧ ∃ e l, t.time.evl = e :: l ∧ e.typ = 0x0005 ∧ e.d0 = 0x544D)
          ∧ (full → t.time.evlDrop = 1 ∧ t.time.evl = s.time.evl)))
  ∧ (∀ (s : State) (r : BitVec 12) (n : Nat), ∃ t, exec (.rtcCompReading r n) s = .next t ∧ t = { s with time := t.time } ∧
      let acc := s.time.rtcAcc + rtcCorr s r.toInt * ((s.time.rtcGap + n : Nat) : Int)
      let clock := fun x : State => ((x.time.rtcSec.toNat * 32768 + x.time.rtcFrac.toNat : Nat) : Int)
      t.time.temp = r ∧ t.time.rtcAcc = acc - acc.tdiv rtcCycle * rtcCycle ∧ t.time.rtcAcc.natAbs < rtcCycle.natAbs
        ∧ clock t = (clock s + n + acc.tdiv rtcCycle) % 2 ^ 47 ∧ t.time.rtcGap = 0 ∧ t.time.sysNs = s.time.sysNs)
  ∧ ∀ (s : State) (q q' : Fin 10) (a v : Word) (size : AccSize), Runs s →
    let n := a.toNat
    let now := s.tagged
    let bare : State := { now with bus := { err := true, data := 0 } }
    let noted := fun (kind : BitVec 4) => (.next : State → Host.Outcome State Fault Refusal) { bare with
      mesh.errAddr := a
      mesh.errKind := kind
      mesh.errReq := BitVec.ofNat 4 q.val
      mesh.evt := s.mesh.evt ||| 8 }
    let mute := portMute s q.val = true
    let view := fun (u : State) (x : Nat) => match blkAt x with
      | some (_, b) => regView u b.kind b.n b.base (x - b.base)
      | none => 0
    let up := fun x : Nat => ∃ i b, blkAt x = some (i, b) ∧ blkUp s b.kind b.n = true
    let stores : List (Nat × Nat) := [(0x20060044, 0xFFFFFFFF), (0x20060048, 0x7FFFFF), (0x2006004C, 0x3FFFFF),
      (0x20060064, 0xFFFFFFFF), (0x20060068, 0x7FFFF), (0x20060200, 0xFFFFFFFF), (0x20040024, 0xFFFFFFFF),
      (0x20040028, 0xFFFFFFFF), (0x2004002C, 0xFFFFFFFF), (0x20100194, 0xFFFFFFFF), (0x20100198, 0xFFFFFFFF)]
    let flags : List (Nat × Nat) := [(0x20000014, 0x1FFF), (0x2002001C, 0xFFFFFFFF), (0x20060088, 0xFFFFFF03), (0x200B0024, 0xFF),
      (0x200C0024, 0xF)]
    let triggers : List (Nat × Instr) := [(0x20030028, .txnClrcnt), (0x2006008C, .thlClrcnt), (0x200A0018, .loadClrcnt)]
    let constants : List Nat := [0x20000010, 0x20020014, 0x20040030, 0x20060014, 0x200C0014]
    let write := fun x : Nat => exec (.registerWrite q (BitVec.ofNat 32 x) .word v) s
    let kept := fun x : Nat => ∃ t, write x = .next t ∧ t = { now with compat := t.compat, bus := { err := false, data := 0 } }
    (¬ mute →
      (∀ p ∈ stores, up p.1 → ∃ t, write p.1 = .next t ∧ t.bus = { err := false, data := 0 }
          ∧ view t p.1 = v &&& wd p.2 ∧ ∀ x, x % 4 = 0 → x ≠ p.1 → view t x = view now x)
        ∧ (∀ p ∈ flags, up p.1 → (p.1 = 0x200C0024 → v.getLsbD 31 = false) → ∃ t, write p.1 = .next t
          ∧ t.bus = { err := false, data := 0 } ∧ view t p.1 = view now p.1 &&& ~~~(v &&& wd p.2) ∧ t.params = s.params)
        ∧ (∀ p ∈ triggers, up p.1 → (v.getLsbD 31 = true → write p.1 = exec p.2 s) ∧ (v.getLsbD 31 = false → kept p.1))
        ∧ (∀ x ∈ constants, up x → kept x))
      ∧ (mute → exec (.rosLowRead q a size) s = .next s ∧ exec (.registerWrite q a size v) s = .next s)
      ∧ (¬ mute → portMute s q'.val = false → inSram n 4 = true → poisoned s n 4 = false →
        exec (.rosLowRead q a .word) s = .next { now with bus := { err := false, data := wd (leNat (s.ramRead n 4)) } }
          ∧ ∃ t, exec (.registerWrite q' a .word v) s = .next t
            ∧ exec (.rosLowRead q a .word) t = .next { t.tagged with bus := { err := false, data := v } }
            ∧ ∀ x, (x < n ∨ n + 4 ≤ x) → memGet sramBlank x t.sram = memGet sramBlank x s.sram)
      ∧ (¬ mute → blkAt n = none → s.appRead n size.bytes = none → exec (.rosLowRead q a size) s = noted 4)
      ∧ (¬ mute → (inside n size.bytes norBase norSize = true ∨ inside n size.bytes 0 0x20000 = true
          ∨ inside n size.bytes sinterBase 0x200000 = true) → exec (.registerWrite q a size v) s = .next bare)
      ∧ ∀ i b, blkAt n = some (i, b) → ¬ mute →
        let o := n - b.base
        (size ≠ .word → exec (.registerWrite q a size v) s = noted 5 ∧ exec (.rosLowRead q a size) s = noted 5)
          ∧ (n % 4 ≠ 0 → exec (.rosLowRead q a .word) s = noted 5 ∧ exec (.registerWrite q a .word v) s = noted 5)
          ∧ (n % 4 = 0 → hasWord b.kind o = false → exec (.rosLowRead q a .word) s = noted 4
            ∧ exec (.registerWrite q a .word v) s = noted 4)
          ∧ (n % 4 = 0 → hasWord b.kind o = true → (s.compat[i]).level = 0 →
            (o ≠ 0 → o ≠ 4 → exec (.rosLowRead q a .word) s = .next bare)
              ∧ (o ≠ 4 → (o ≠ 0 ∨ isWindow b.kind = true) → exec (.registerWrite q a .word v) s = .next bare))
          ∧ (n % 4 = 0 → hasWord b.kind o = true → o = 0 → isWindow b.kind = false → exec (.registerWrite q a .word v) s =
            .next { now with bus := { err := false, data := 0 }, compat := vmod s.compat i fun x => { x with locked := true } })
          ∧ (n % 4 = 0 → hasWord b.kind o = true → o ≠ 4 → isWindow b.kind = true →
            writeWindow b.kind b.base o v now = none → exec (.registerWrite q a .word v) s = .next bare)
          ∧ (n % 4 = 0 → hasWord b.kind o = true → hasWord b.kind (o + 4) = true → (s.compat[i]).level ≠ 0 →
            rosLow b.kind o = true → (b.kind = .met → shortOf o = none) → rosHigh b.kind o = false →
            ∃ t, exec (.rosLowRead q a .word) s = .next t
              ∧ t.bus = { err := false, data := regView now b.kind b.n b.base o }
              ∧ ∀ u : State, Runs u → portMute u q.val = false → u.ros = t.ros → (u.compat[i]).level ≠ 0 →
                exec (.rosLowRead q (a + 4) .word) u
                = .next { u.tagged with bus := { err := false, data := regView now b.kind b.n b.base (o + 4) } })

/-- A claim takes the pending, enabled source of highest priority above the threshold, which is claimed until its
completion (R434, R435, 21_host_interfaces_and_register_map.md; that the lowest number wins a tie and that a completion needs an
enabled source is log 18's, taken from the RISC-V PLIC). -/
def Obligations.InterruptsAreClaimedOnceByPriority : Prop :=
  ∀ (s : State) (x : Fin 8) (src : Word), Runs s →
    let i := bestSrc s x
    let able := fun j => pendingSrc s j = true ∧ (s.intc.enable[x]).getLsbD j = true ∧ (s.intc.thresh[x]).toNat < prioOf s j
    let bare : State := { s.tagged with bus := { err := true, data := 0 } }
    (i ≠ 0 → able i ∧ ∀ j, able j → prioOf s j ≤ prioOf s i ∧ (prioOf s j = prioOf s i → i ≤ j))
      ∧ (i = 0 ↔ ∀ j, ¬ able j)
      ∧ (blkUp s .intc 0 = false → exec (.plicClaim x) s = .next bare ∧ exec (.plicComplete x src) s = .next bare)
      ∧ (blkUp s .intc 0 = true →
        (i = 0 → exec (.plicClaim x) s = .next { s.tagged with bus := { err := false, data := 0 } })
          ∧ (i ≠ 0 → ∃ t, exec (.plicClaim x) s = .next t ∧ t = { s.tagged with intc := t.intc, bus := t.bus }
            ∧ t.bus = { err := false, data := wd i } ∧ t.intc.claimed = s.intc.claimed ||| BitVec.ofNat 256 (2 ^ i)
            ∧ pendingSrc t i = false ∧ ∀ j, j ≠ i → pendingSrc t j = pendingSrc s j)
          ∧ ((src.toNat < 256 ∧ (s.intc.enable[x]).getLsbD src.toNat = true) → exec (.plicComplete x src) s = .next
              { written .intc 0 s with intc.claimed := s.intc.claimed &&& ~~~(BitVec.ofNat 256 (2 ^ src.toNat)) })
          ∧ (¬ (src.toNat < 256 ∧ (s.intc.enable[x]).getLsbD src.toNat = true) →
            exec (.plicComplete x src) s = .next (written .intc 0 s)))

/-- The MACs, the CAN FD controllers and the pins take, store, send and count what their rules say (R39, R290, R436, R437,
R438, R439, R440, R441, R442, R443, R447; the edges of the MACs' frames are logs 115 and 116, the FCS and the padding log 223, the
corners of CAN log 117, and that host frames wait in DEGRADED log 162). -/
def Obligations.HostInterfacesCarryTheirFrames : Prop :=
  (∀ (s : State) (m : Fin 2) (f : List Byte) (good up full : Bool) (step : Byte) (speed : Fin 3), Runs s →
    let e := s.eth[m]
    let host := good = true ∧ 64 ≤ f.length ∧ f.length ≤ 1522 ∧ ethType f ≠ safeType s
    let takes := e.en = true ∧ ethAccepts e f = true ∧ s.sys.mode ≠ .degraded
    let rx := Instr.ethFrameReceive m f good step
    let leaves := fun (i : Instr) (y : Eth) => exec i s = .next { s with eth := s.eth.set m y }
    ((1522 < f.length ∨ good = false) → leaves rx { e with rxerr := satInc e.rxerr })
      ∧ (good = true → f.length < 64 → exec rx s = .next s)
      ∧ (host → ¬ takes → exec rx s = .next s)
      ∧ (host → takes → 4 ≤ e.rxFifo.length → leaves rx { e with rxdrop := satInc e.rxdrop })
      ∧ (host → takes → e.rxFifo.length < 4 → leaves rx { e with
          rxfrm := e.rxfrm + 1
          rxFifo := e.rxFifo ++ [fit 2048 (ethHeader f s.tshort (e.rxfrm + 1) ++ f)] })
      ∧ (good = true → 64 ≤ f.length → f.length ≤ 1522 → ethType f = safeType s → ∃ t, exec rx s = .next t
        ∧ ∀ k : Fin 2, (t.eth[k]).rxFifo = (s.eth[k]).rxFifo ∧ (t.eth[k]).rxfrm = (s.eth[k]).rxfrm)
      ∧ (∀ x r, e.safeTx = x :: r → leaves (.ethFrameTransmit m) { e with
          safeTx := r, txe := true, txfrm := if e.up then e.txfrm + 1 else e.txfrm
          line := if e.up then ethLine x else e.line })
      ∧ (e.safeTx = [] → (e.en = false ∨ e.txFifo.length < 2048 ∨ s.sys.mode = .degraded) → exec (.ethFrameTransmit m) s = .next s)
      ∧ (e.safeTx = [] → s.sys.mode ≠ .degraded → e.en = true → 2048 ≤ e.txFifo.length →
        ((e.up && ethTxOk s e.txFifo) = true → leaves (.ethFrameTransmit m)
            { e with txFifo := e.txFifo.drop 2048, txe := true, txfrm := e.txfrm + 1, line := ethLine (ethBody e.txFifo) })
          ∧ ((e.up && ethTxOk s e.txFifo) = false → leaves (.ethFrameTransmit m)
            { e with txFifo := e.txFifo.drop 2048, txe := true, txdrop := satInc e.txdrop }))
      ∧ leaves (.ethLinkChange m up speed full) { e with
          up := up && full, duplex := up && full, speed := BitVec.ofNat 2 speed.val,
          linkchg := e.linkchg || e.up != (up && full) }
      ∧ (blkUp s .eth m.val = true → ∃ t, exec (.ethClrcnt m) s = .next t
        ∧ t.eth = s.eth.set m { e with rxerr := 0, rxdrop := 0, txdrop := 0 })
      ∧ (ethLine f).length = max 60 f.length + 4 ∧ (ethLine f).take f.length = f)
  ∧ (∀ (s : State) (b : Fin 3) (e : Fin 16) (f : CanFrame) (sent : Bool) (tec rcc : Byte), Runs s →
    let c := s.can[b]
    let takes := c.en = true ∧ c.state ≠ .busOff ∧ ¬ (f.fdf = true ∧ c.fden = false)
    let leaves := fun (i : Instr) (y : Can) => exec i s = .next { s with can := s.can.set b y }
    let can := fun (i : Instr) (y : Can) => ∃ t, exec i s = .next t ∧ t.can = s.can.set b y
    let sends := fun r => c.en = true ∧ c.state ≠ .busOff ∧ ¬ (recFdf r = true ∧ c.fden = false)
    (¬ takes → exec (.canFrameReceive b f) s = .next s)
      ∧ (takes → 8 ≤ c.rxFifo.length → leaves (.canFrameReceive b f) { c with rxdrop := satInc c.rxdrop })
      ∧ (takes → c.rxFifo.length < 8 → (canRecord f s.tshort (c.rxfrm + 1)).length = 80 ∧ leaves (.canFrameReceive b f)
          { c with rxfrm := c.rxfrm + 1, rxFifo := c.rxFifo ++ [canRecord f s.tshort (c.rxfrm + 1)] })
      ∧ (nextStop c = none → c.txq = [] → exec (.canFrameTransmit b sent) s = .next s)
      ∧ (∀ x r, canNext c = some (x, r) → ¬ sends r → exec (.canFrameTransmit b sent) s = .next s)
      ∧ (∀ x r, canNext c = some (x, r) → sends r → can (.canFrameTransmit b false) c)
      ∧ (∀ k r, nextStop c = some k → c.store[k] = some r → sends r → can (.canFrameTransmit b true)
          { c with txfrm := c.txfrm + 1, line := some (canFrame c.state r)
                   released := c.released &&& ~~~(BitVec.ofNat 16 (2 ^ k.val)) })
      ∧ (∀ r more, nextStop c = none → c.txq = r :: more → sends r → can (.canFrameTransmit b true)
          (canFill { c with txfrm := c.txfrm + 1, line := some (canFrame c.state r), txq := more }))
      ∧ (∀ (st : CanState) (r : List Byte),
        let w0 := leAt r 0 4
        let w1 := leAt r 4 4
        let f := canFrame st r
        f.ide = w0.testBit 31 ∧ f.fdf = recFdf r ∧ f.brs = (recFdf r && w0.testBit 29)
          ∧ f.rtr = (w1.testBit 25 && !recFdf r) ∧ f.dlc = BitVec.ofNat 4 (w1 / 2 ^ 28)
          ∧ f.id = BitVec.ofNat 29 (w0 % 2 ^ (if f.ide then 29 else 11))
          ∧ f.data = if f.rtr then [] else (r.drop 16).take (dlcLen f.fdf (w1 / 2 ^ 28)))
      ∧ (c.txq = [] → exec (.canTxTimeout b) s = .next s)
      ∧ (∀ r more, c.txq = r :: more → can (.canTxTimeout b) (canFill { c with txq := more, txtmoCnt := satInc c.txtmoCnt }))
      ∧ (blkUp s .can b.val = true →
        (entryAlloc s b e = true → can (.canSfLoad b e) { c with sfEntry := BitVec.ofNat 4 e.val, sfref := true }
            ∧ can (.canSfClear b e) { c with sfEntry := BitVec.ofNat 4 e.val, sfref := true })
          ∧ (entryAlloc s b e = false →
            can (.canSfLoad b e) { c with sfEntry := BitVec.ofNat 4 e.val, store := c.store.set e (some c.sfbuf) }
              ∧ can (.canSfClear b e) { c with
                  sfEntry := BitVec.ofNat 4 e.val, store := c.store.set e none,
                  released := c.released &&& ~~~(BitVec.ofNat 16 (2 ^ e.val)) })
          ∧ can (.canRecov b) (if c.state = .busOff ∧ c.arecov = false then { c with recovering := true } else c)
          ∧ can (.canClrcnt b) { c with txtmoCnt := 0, busoffCnt := 0, rxdrop := 0 })
      ∧ (let back := c.state = .busOff ∧ (c.arecov = true ∨ c.recovering = true)
        (back → can (.canBusoffRecovered b) { c with recovering := false, tec := 0, rec_ := 0, state := .active })
          ∧ (¬ back → exec (.canBusoffRecovered b) s = .next s))
      ∧ ((c.en = false ∨ c.state = .busOff) → exec (.canErrorStateChange b tec rcc) s = .next s)
      ∧ (c.en = true → c.state ≠ .busOff → can (.canErrorStateChange b tec rcc) { c with
          tec := tec, rec_ := rcc, state := if 128 ≤ tec.toNat ∨ 128 ≤ rcc.toNat then .passive else .active }))
  ∧ ∀ (s : State) (n k : Fin 8) (v : Bool), Runs s →
    let g := s.gpio
    let edges := bitsOf g.irqcfg.toNat (2 * n.val + 1) (2 * n.val)
    let was := g.inp.getLsbD n.val
    ∃ t, exec (.gpioEdge n v) s = .next t ∧ t = { s with gpio := { g with inp := t.gpio.inp, evt := t.gpio.evt } }
      ∧ t.gpio.inp.getLsbD n.val = v ∧ (k ≠ n → t.gpio.inp.getLsbD k.val = g.inp.getLsbD k.val)
      ∧ (k ≠ n → t.gpio.evt.getLsbD k.val = g.evt.getLsbD k.val)
      ∧ (gpOwner s n = 0 → g.dir.getLsbD n.val = true → t.gpio.evt.getLsbD n.val = g.evt.getLsbD n.val)
      ∧ (¬ (gpOwner s n = 0 ∧ g.dir.getLsbD n.val = true) → t.gpio.evt.getLsbD n.val = (g.evt.getLsbD n.val
          || (!was && v && edges % 2 == 1) || (was && !v && decide (2 ≤ edges))))

end
end

