-- ==== Sys2Proof/Laws/Bounds.lean ====
section
/-! SUPPORT. What a boundary does, said once: it is made at once, or it waits for its samples (R101, R117). -/

namespace Sys2Proof.Machine

theorem quiet_no_bounds {s : State} (h : quiet s = true) : s.bill.core.bounds = [] := by
  simp only [quiet, Bool.and_eq_true, List.isEmpty_iff] at h
  exact h.1

theorem boundary_made {s : State} (k : BoundKind) (h : quiet s = true) : boundary k s = keepBound s (atBound k s) := by
  simp [boundary, h]

theorem boundary_waits {s : State} (k : BoundKind) (h : quiet s = false) :
    boundary k s = s.modCore fun c => { c with bounds := insertBound (newBound k s) c.bounds } := by
  simp [boundary, h]

/-- With no boundary waiting there is nothing to settle. -/
theorem settleBounds_none {s : State} (h : s.bill.core.bounds = []) : settleBounds s = s := by
  simp [settleBounds, h, runBounds]

/-- The oldest waiting boundary is settled first, and while it waits for a sample none is. -/
theorem settleBounds_waits {s : State} {b : Bound} {r : List Bound} (h : s.bill.core.bounds = b :: r)
    (hw : allPast s b.ns.toNat = false) : settleBounds s = s := by
  simp [settleBounds, h, runBounds, hw]

end Sys2Proof.Machine
end

