-- ==== Sys2Proof/Laws/State.lean ====
section
/-! SUPPORT. What each update of the state leaves as it is, one lemma a part, and what an indexed family holds after an update
of one member. -/

namespace Sys2Proof.Machine

/-! ### Indexed families -/

@[simp] theorem vmod_val {α : Type} {n : Nat} (v : Vector α n) (i : Fin n) (f : α → α) :
    (vmod v i f)[i.val] = f v[i.val] := by
  simp [vmod]

theorem vmod_self {α : Type} {n : Nat} (v : Vector α n) (i : Fin n) (f : α → α) : (vmod v i f)[i] = f v[i] :=
  vmod_val v i f

theorem vmod_other {α : Type} {n : Nat} (v : Vector α n) (i j : Fin n) (f : α → α) (h : j ≠ i) :
    (vmod v i f)[j] = v[j] := by
  have : i.val ≠ j.val := fun e => h (Fin.ext e.symm)
  simp [vmod, this]

theorem vmod_get {α : Type} {n : Nat} (v : Vector α n) (i j : Fin n) (f : α → α) :
    (vmod v i f)[j] = if j = i then f v[i] else v[j] := by
  by_cases h : j = i
  · subst h; simp
  · simp only [vmod_other v i j f h, h, if_false]

/-! ### Mailboxes -/

@[simp] theorem box_setBox_self (s : State) (i : MbxId) (x : Mailbox) : (s.setBox i x).box i = x := by cases i <;> rfl

theorem box_setBox_other (s : State) (i j : MbxId) (x : Mailbox) (h : j ≠ i) : (s.setBox i x).box j = s.box j := by
  cases i <;> cases j <;> first | rfl | exact absurd rfl h

theorem setBox_mbx (s : State) (i : MbxId) (x : Mailbox) : (s.setBox i x).mbx = s.mbx.put x i := rfl

/-! ### State.modVp -/

@[simp] theorem State.modVp_keeps_sys (s : State) (n : Port) (f : Vp → Vp) : (s.modVp n f).sys = s.sys := rfl
@[simp] theorem State.modVp_keeps_time (s : State) (n : Port) (f : Vp → Vp) : (s.modVp n f).time = s.time := rfl
@[simp] theorem State.modVp_keeps_bus (s : State) (n : Port) (f : Vp → Vp) : (s.modVp n f).bus = s.bus := rfl
@[simp] theorem State.modVp_keeps_mbx (s : State) (n : Port) (f : Vp → Vp) : (s.modVp n f).mbx = s.mbx := rfl
@[simp] theorem State.modVp_keeps_intc (s : State) (n : Port) (f : Vp → Vp) : (s.modVp n f).intc = s.intc := rfl
@[simp] theorem State.modVp_keeps_eth (s : State) (n : Port) (f : Vp → Vp) : (s.modVp n f).eth = s.eth := rfl
@[simp] theorem State.modVp_keeps_can (s : State) (n : Port) (f : Vp → Vp) : (s.modVp n f).can = s.can := rfl
@[simp] theorem State.modVp_keeps_gpio (s : State) (n : Port) (f : Vp → Vp) : (s.modVp n f).gpio = s.gpio := rfl
@[simp] theorem State.modVp_keeps_met (s : State) (n : Port) (f : Vp → Vp) : (s.modVp n f).met = s.met := rfl
@[simp] theorem State.modVp_keeps_bill (s : State) (n : Port) (f : Vp → Vp) : (s.modVp n f).bill = s.bill := rfl
@[simp] theorem State.modVp_keeps_disp (s : State) (n : Port) (f : Vp → Vp) : (s.modVp n f).disp = s.disp := rfl
@[simp] theorem State.modVp_keeps_slac (s : State) (n : Port) (f : Vp → Vp) : (s.modVp n f).slac = s.slac := rfl
@[simp] theorem State.modVp_keeps_safe (s : State) (n : Port) (f : Vp → Vp) : (s.modVp n f).safe = s.safe := rfl
@[simp] theorem State.modVp_keeps_load (s : State) (n : Port) (f : Vp → Vp) : (s.modVp n f).load = s.load := rfl
@[simp] theorem State.modVp_keeps_txn (s : State) (n : Port) (f : Vp → Vp) : (s.modVp n f).txn = s.txn := rfl
@[simp] theorem State.modVp_keeps_thl (s : State) (n : Port) (f : Vp → Vp) : (s.modVp n f).thl = s.thl := rfl
@[simp] theorem State.modVp_keeps_mesh (s : State) (n : Port) (f : Vp → Vp) : (s.modVp n f).mesh = s.mesh := rfl
@[simp] theorem State.modVp_keeps_dma (s : State) (n : Port) (f : Vp → Vp) : (s.modVp n f).dma = s.dma := rfl
@[simp] theorem State.modVp_keeps_sec (s : State) (n : Port) (f : Vp → Vp) : (s.modVp n f).sec = s.sec := rfl
@[simp] theorem State.modVp_keeps_upd (s : State) (n : Port) (f : Vp → Vp) : (s.modVp n f).upd = s.upd := rfl
@[simp] theorem State.modVp_keeps_compat (s : State) (n : Port) (f : Vp → Vp) : (s.modVp n f).compat = s.compat := rfl
@[simp] theorem State.modVp_keeps_params (s : State) (n : Port) (f : Vp → Vp) : (s.modVp n f).params = s.params := rfl
@[simp] theorem State.modVp_keeps_ros (s : State) (n : Port) (f : Vp → Vp) : (s.modVp n f).ros = s.ros := rfl
@[simp] theorem State.modVp_keeps_wraps (s : State) (n : Port) (f : Vp → Vp) : (s.modVp n f).wraps = s.wraps := rfl
@[simp] theorem State.modVp_keeps_jrn (s : State) (n : Port) (f : Vp → Vp) : (s.modVp n f).jrn = s.jrn := rfl
@[simp] theorem State.modVp_keeps_jrnOld (s : State) (n : Port) (f : Vp → Vp) : (s.modVp n f).jrnOld = s.jrnOld := rfl
@[simp] theorem State.modVp_keeps_sram (s : State) (n : Port) (f : Vp → Vp) : (s.modVp n f).sram = s.sram := rfl
@[simp] theorem State.modVp_keeps_nor (s : State) (n : Port) (f : Vp → Vp) : (s.modVp n f).nor = s.nor := rfl
@[simp] theorem State.modVp_keeps_free (s : State) (n : Port) (f : Vp → Vp) : (s.modVp n f).free = s.free := rfl
@[simp] theorem State.modVp_keeps_pending (s : State) (n : Port) (f : Vp → Vp) : (s.modVp n f).pending = s.pending := rfl

/-! ### State.modPilot -/

@[simp] theorem State.modPilot_keeps_sys (s : State) (n : Port) (f : Pilot → Pilot) : (s.modPilot n f).sys = s.sys := rfl
@[simp] theorem State.modPilot_keeps_time (s : State) (n : Port) (f : Pilot → Pilot) : (s.modPilot n f).time = s.time := rfl
@[simp] theorem State.modPilot_keeps_bus (s : State) (n : Port) (f : Pilot → Pilot) : (s.modPilot n f).bus = s.bus := rfl
@[simp] theorem State.modPilot_keeps_mbx (s : State) (n : Port) (f : Pilot → Pilot) : (s.modPilot n f).mbx = s.mbx := rfl
@[simp] theorem State.modPilot_keeps_intc (s : State) (n : Port) (f : Pilot → Pilot) : (s.modPilot n f).intc = s.intc := rfl
@[simp] theorem State.modPilot_keeps_eth (s : State) (n : Port) (f : Pilot → Pilot) : (s.modPilot n f).eth = s.eth := rfl
@[simp] theorem State.modPilot_keeps_can (s : State) (n : Port) (f : Pilot → Pilot) : (s.modPilot n f).can = s.can := rfl
@[simp] theorem State.modPilot_keeps_gpio (s : State) (n : Port) (f : Pilot → Pilot) : (s.modPilot n f).gpio = s.gpio := rfl
@[simp] theorem State.modPilot_keeps_met (s : State) (n : Port) (f : Pilot → Pilot) : (s.modPilot n f).met = s.met := rfl
@[simp] theorem State.modPilot_keeps_bill (s : State) (n : Port) (f : Pilot → Pilot) : (s.modPilot n f).bill = s.bill := rfl
@[simp] theorem State.modPilot_keeps_disp (s : State) (n : Port) (f : Pilot → Pilot) : (s.modPilot n f).disp = s.disp := rfl
@[simp] theorem State.modPilot_keeps_slac (s : State) (n : Port) (f : Pilot → Pilot) : (s.modPilot n f).slac = s.slac := rfl
@[simp] theorem State.modPilot_keeps_safe (s : State) (n : Port) (f : Pilot → Pilot) : (s.modPilot n f).safe = s.safe := rfl
@[simp] theorem State.modPilot_keeps_load (s : State) (n : Port) (f : Pilot → Pilot) : (s.modPilot n f).load = s.load := rfl
@[simp] theorem State.modPilot_keeps_txn (s : State) (n : Port) (f : Pilot → Pilot) : (s.modPilot n f).txn = s.txn := rfl
@[simp] theorem State.modPilot_keeps_thl (s : State) (n : Port) (f : Pilot → Pilot) : (s.modPilot n f).thl = s.thl := rfl
@[simp] theorem State.modPilot_keeps_mesh (s : State) (n : Port) (f : Pilot → Pilot) : (s.modPilot n f).mesh = s.mesh := rfl
@[simp] theorem State.modPilot_keeps_dma (s : State) (n : Port) (f : Pilot → Pilot) : (s.modPilot n f).dma = s.dma := rfl
@[simp] theorem State.modPilot_keeps_sec (s : State) (n : Port) (f : Pilot → Pilot) : (s.modPilot n f).sec = s.sec := rfl
@[simp] theorem State.modPilot_keeps_upd (s : State) (n : Port) (f : Pilot → Pilot) : (s.modPilot n f).upd = s.upd := rfl
@[simp] theorem State.modPilot_keeps_compat (s : State) (n : Port) (f : Pilot → Pilot) : (s.modPilot n f).compat = s.compat := rfl
@[simp] theorem State.modPilot_keeps_params (s : State) (n : Port) (f : Pilot → Pilot) : (s.modPilot n f).params = s.params := rfl
@[simp] theorem State.modPilot_keeps_ros (s : State) (n : Port) (f : Pilot → Pilot) : (s.modPilot n f).ros = s.ros := rfl
@[simp] theorem State.modPilot_keeps_wraps (s : State) (n : Port) (f : Pilot → Pilot) : (s.modPilot n f).wraps = s.wraps := rfl
@[simp] theorem State.modPilot_keeps_jrn (s : State) (n : Port) (f : Pilot → Pilot) : (s.modPilot n f).jrn = s.jrn := rfl
@[simp] theorem State.modPilot_keeps_jrnOld (s : State) (n : Port) (f : Pilot → Pilot) : (s.modPilot n f).jrnOld = s.jrnOld := rfl
@[simp] theorem State.modPilot_keeps_sram (s : State) (n : Port) (f : Pilot → Pilot) : (s.modPilot n f).sram = s.sram := rfl
@[simp] theorem State.modPilot_keeps_nor (s : State) (n : Port) (f : Pilot → Pilot) : (s.modPilot n f).nor = s.nor := rfl
@[simp] theorem State.modPilot_keeps_free (s : State) (n : Port) (f : Pilot → Pilot) : (s.modPilot n f).free = s.free := rfl
@[simp] theorem State.modPilot_keeps_pending (s : State) (n : Port) (f : Pilot → Pilot) : (s.modPilot n f).pending = s.pending := rfl

/-! ### State.modLink -/

@[simp] theorem State.modLink_keeps_sys (s : State) (n : Port) (f : Link → Link) : (s.modLink n f).sys = s.sys := rfl
@[simp] theorem State.modLink_keeps_time (s : State) (n : Port) (f : Link → Link) : (s.modLink n f).time = s.time := rfl
@[simp] theorem State.modLink_keeps_bus (s : State) (n : Port) (f : Link → Link) : (s.modLink n f).bus = s.bus := rfl
@[simp] theorem State.modLink_keeps_mbx (s : State) (n : Port) (f : Link → Link) : (s.modLink n f).mbx = s.mbx := rfl
@[simp] theorem State.modLink_keeps_intc (s : State) (n : Port) (f : Link → Link) : (s.modLink n f).intc = s.intc := rfl
@[simp] theorem State.modLink_keeps_eth (s : State) (n : Port) (f : Link → Link) : (s.modLink n f).eth = s.eth := rfl
@[simp] theorem State.modLink_keeps_can (s : State) (n : Port) (f : Link → Link) : (s.modLink n f).can = s.can := rfl
@[simp] theorem State.modLink_keeps_gpio (s : State) (n : Port) (f : Link → Link) : (s.modLink n f).gpio = s.gpio := rfl
@[simp] theorem State.modLink_keeps_met (s : State) (n : Port) (f : Link → Link) : (s.modLink n f).met = s.met := rfl
@[simp] theorem State.modLink_keeps_bill (s : State) (n : Port) (f : Link → Link) : (s.modLink n f).bill = s.bill := rfl
@[simp] theorem State.modLink_keeps_disp (s : State) (n : Port) (f : Link → Link) : (s.modLink n f).disp = s.disp := rfl
@[simp] theorem State.modLink_keeps_slac (s : State) (n : Port) (f : Link → Link) : (s.modLink n f).slac = s.slac := rfl
@[simp] theorem State.modLink_keeps_safe (s : State) (n : Port) (f : Link → Link) : (s.modLink n f).safe = s.safe := rfl
@[simp] theorem State.modLink_keeps_load (s : State) (n : Port) (f : Link → Link) : (s.modLink n f).load = s.load := rfl
@[simp] theorem State.modLink_keeps_txn (s : State) (n : Port) (f : Link → Link) : (s.modLink n f).txn = s.txn := rfl
@[simp] theorem State.modLink_keeps_thl (s : State) (n : Port) (f : Link → Link) : (s.modLink n f).thl = s.thl := rfl
@[simp] theorem State.modLink_keeps_mesh (s : State) (n : Port) (f : Link → Link) : (s.modLink n f).mesh = s.mesh := rfl
@[simp] theorem State.modLink_keeps_dma (s : State) (n : Port) (f : Link → Link) : (s.modLink n f).dma = s.dma := rfl
@[simp] theorem State.modLink_keeps_sec (s : State) (n : Port) (f : Link → Link) : (s.modLink n f).sec = s.sec := rfl
@[simp] theorem State.modLink_keeps_upd (s : State) (n : Port) (f : Link → Link) : (s.modLink n f).upd = s.upd := rfl
@[simp] theorem State.modLink_keeps_compat (s : State) (n : Port) (f : Link → Link) : (s.modLink n f).compat = s.compat := rfl
@[simp] theorem State.modLink_keeps_params (s : State) (n : Port) (f : Link → Link) : (s.modLink n f).params = s.params := rfl
@[simp] theorem State.modLink_keeps_ros (s : State) (n : Port) (f : Link → Link) : (s.modLink n f).ros = s.ros := rfl
@[simp] theorem State.modLink_keeps_wraps (s : State) (n : Port) (f : Link → Link) : (s.modLink n f).wraps = s.wraps := rfl
@[simp] theorem State.modLink_keeps_jrn (s : State) (n : Port) (f : Link → Link) : (s.modLink n f).jrn = s.jrn := rfl
@[simp] theorem State.modLink_keeps_jrnOld (s : State) (n : Port) (f : Link → Link) : (s.modLink n f).jrnOld = s.jrnOld := rfl
@[simp] theorem State.modLink_keeps_sram (s : State) (n : Port) (f : Link → Link) : (s.modLink n f).sram = s.sram := rfl
@[simp] theorem State.modLink_keeps_nor (s : State) (n : Port) (f : Link → Link) : (s.modLink n f).nor = s.nor := rfl
@[simp] theorem State.modLink_keeps_free (s : State) (n : Port) (f : Link → Link) : (s.modLink n f).free = s.free := rfl
@[simp] theorem State.modLink_keeps_pending (s : State) (n : Port) (f : Link → Link) : (s.modLink n f).pending = s.pending := rfl

/-! ### State.modTls -/

@[simp] theorem State.modTls_keeps_sys (s : State) (n : Port) (f : Tls → Tls) : (s.modTls n f).sys = s.sys := rfl
@[simp] theorem State.modTls_keeps_time (s : State) (n : Port) (f : Tls → Tls) : (s.modTls n f).time = s.time := rfl
@[simp] theorem State.modTls_keeps_bus (s : State) (n : Port) (f : Tls → Tls) : (s.modTls n f).bus = s.bus := rfl
@[simp] theorem State.modTls_keeps_mbx (s : State) (n : Port) (f : Tls → Tls) : (s.modTls n f).mbx = s.mbx := rfl
@[simp] theorem State.modTls_keeps_intc (s : State) (n : Port) (f : Tls → Tls) : (s.modTls n f).intc = s.intc := rfl
@[simp] theorem State.modTls_keeps_eth (s : State) (n : Port) (f : Tls → Tls) : (s.modTls n f).eth = s.eth := rfl
@[simp] theorem State.modTls_keeps_can (s : State) (n : Port) (f : Tls → Tls) : (s.modTls n f).can = s.can := rfl
@[simp] theorem State.modTls_keeps_gpio (s : State) (n : Port) (f : Tls → Tls) : (s.modTls n f).gpio = s.gpio := rfl
@[simp] theorem State.modTls_keeps_met (s : State) (n : Port) (f : Tls → Tls) : (s.modTls n f).met = s.met := rfl
@[simp] theorem State.modTls_keeps_bill (s : State) (n : Port) (f : Tls → Tls) : (s.modTls n f).bill = s.bill := rfl
@[simp] theorem State.modTls_keeps_disp (s : State) (n : Port) (f : Tls → Tls) : (s.modTls n f).disp = s.disp := rfl
@[simp] theorem State.modTls_keeps_slac (s : State) (n : Port) (f : Tls → Tls) : (s.modTls n f).slac = s.slac := rfl
@[simp] theorem State.modTls_keeps_safe (s : State) (n : Port) (f : Tls → Tls) : (s.modTls n f).safe = s.safe := rfl
@[simp] theorem State.modTls_keeps_load (s : State) (n : Port) (f : Tls → Tls) : (s.modTls n f).load = s.load := rfl
@[simp] theorem State.modTls_keeps_txn (s : State) (n : Port) (f : Tls → Tls) : (s.modTls n f).txn = s.txn := rfl
@[simp] theorem State.modTls_keeps_thl (s : State) (n : Port) (f : Tls → Tls) : (s.modTls n f).thl = s.thl := rfl
@[simp] theorem State.modTls_keeps_mesh (s : State) (n : Port) (f : Tls → Tls) : (s.modTls n f).mesh = s.mesh := rfl
@[simp] theorem State.modTls_keeps_dma (s : State) (n : Port) (f : Tls → Tls) : (s.modTls n f).dma = s.dma := rfl
@[simp] theorem State.modTls_keeps_sec (s : State) (n : Port) (f : Tls → Tls) : (s.modTls n f).sec = s.sec := rfl
@[simp] theorem State.modTls_keeps_upd (s : State) (n : Port) (f : Tls → Tls) : (s.modTls n f).upd = s.upd := rfl
@[simp] theorem State.modTls_keeps_compat (s : State) (n : Port) (f : Tls → Tls) : (s.modTls n f).compat = s.compat := rfl
@[simp] theorem State.modTls_keeps_params (s : State) (n : Port) (f : Tls → Tls) : (s.modTls n f).params = s.params := rfl
@[simp] theorem State.modTls_keeps_ros (s : State) (n : Port) (f : Tls → Tls) : (s.modTls n f).ros = s.ros := rfl
@[simp] theorem State.modTls_keeps_wraps (s : State) (n : Port) (f : Tls → Tls) : (s.modTls n f).wraps = s.wraps := rfl
@[simp] theorem State.modTls_keeps_jrn (s : State) (n : Port) (f : Tls → Tls) : (s.modTls n f).jrn = s.jrn := rfl
@[simp] theorem State.modTls_keeps_jrnOld (s : State) (n : Port) (f : Tls → Tls) : (s.modTls n f).jrnOld = s.jrnOld := rfl
@[simp] theorem State.modTls_keeps_sram (s : State) (n : Port) (f : Tls → Tls) : (s.modTls n f).sram = s.sram := rfl
@[simp] theorem State.modTls_keeps_nor (s : State) (n : Port) (f : Tls → Tls) : (s.modTls n f).nor = s.nor := rfl
@[simp] theorem State.modTls_keeps_free (s : State) (n : Port) (f : Tls → Tls) : (s.modTls n f).free = s.free := rfl
@[simp] theorem State.modTls_keeps_pending (s : State) (n : Port) (f : Tls → Tls) : (s.modTls n f).pending = s.pending := rfl

/-! ### State.modRgn -/

@[simp] theorem State.modRgn_keeps_sys (s : State) (r : Fin 16) (f : Region → Region) : (s.modRgn r f).sys = s.sys := rfl
@[simp] theorem State.modRgn_keeps_time (s : State) (r : Fin 16) (f : Region → Region) : (s.modRgn r f).time = s.time := rfl
@[simp] theorem State.modRgn_keeps_bus (s : State) (r : Fin 16) (f : Region → Region) : (s.modRgn r f).bus = s.bus := rfl
@[simp] theorem State.modRgn_keeps_mbx (s : State) (r : Fin 16) (f : Region → Region) : (s.modRgn r f).mbx = s.mbx := rfl
@[simp] theorem State.modRgn_keeps_intc (s : State) (r : Fin 16) (f : Region → Region) : (s.modRgn r f).intc = s.intc := rfl
@[simp] theorem State.modRgn_keeps_eth (s : State) (r : Fin 16) (f : Region → Region) : (s.modRgn r f).eth = s.eth := rfl
@[simp] theorem State.modRgn_keeps_can (s : State) (r : Fin 16) (f : Region → Region) : (s.modRgn r f).can = s.can := rfl
@[simp] theorem State.modRgn_keeps_gpio (s : State) (r : Fin 16) (f : Region → Region) : (s.modRgn r f).gpio = s.gpio := rfl
@[simp] theorem State.modRgn_keeps_met (s : State) (r : Fin 16) (f : Region → Region) : (s.modRgn r f).met = s.met := rfl
@[simp] theorem State.modRgn_keeps_bill (s : State) (r : Fin 16) (f : Region → Region) : (s.modRgn r f).bill = s.bill := rfl
@[simp] theorem State.modRgn_keeps_vp (s : State) (r : Fin 16) (f : Region → Region) : (s.modRgn r f).vp = s.vp := rfl
@[simp] theorem State.modRgn_keeps_slac (s : State) (r : Fin 16) (f : Region → Region) : (s.modRgn r f).slac = s.slac := rfl
@[simp] theorem State.modRgn_keeps_safe (s : State) (r : Fin 16) (f : Region → Region) : (s.modRgn r f).safe = s.safe := rfl
@[simp] theorem State.modRgn_keeps_load (s : State) (r : Fin 16) (f : Region → Region) : (s.modRgn r f).load = s.load := rfl
@[simp] theorem State.modRgn_keeps_txn (s : State) (r : Fin 16) (f : Region → Region) : (s.modRgn r f).txn = s.txn := rfl
@[simp] theorem State.modRgn_keeps_thl (s : State) (r : Fin 16) (f : Region → Region) : (s.modRgn r f).thl = s.thl := rfl
@[simp] theorem State.modRgn_keeps_mesh (s : State) (r : Fin 16) (f : Region → Region) : (s.modRgn r f).mesh = s.mesh := rfl
@[simp] theorem State.modRgn_keeps_dma (s : State) (r : Fin 16) (f : Region → Region) : (s.modRgn r f).dma = s.dma := rfl
@[simp] theorem State.modRgn_keeps_sec (s : State) (r : Fin 16) (f : Region → Region) : (s.modRgn r f).sec = s.sec := rfl
@[simp] theorem State.modRgn_keeps_upd (s : State) (r : Fin 16) (f : Region → Region) : (s.modRgn r f).upd = s.upd := rfl
@[simp] theorem State.modRgn_keeps_compat (s : State) (r : Fin 16) (f : Region → Region) : (s.modRgn r f).compat = s.compat := rfl
@[simp] theorem State.modRgn_keeps_params (s : State) (r : Fin 16) (f : Region → Region) : (s.modRgn r f).params = s.params := rfl
@[simp] theorem State.modRgn_keeps_ros (s : State) (r : Fin 16) (f : Region → Region) : (s.modRgn r f).ros = s.ros := rfl
@[simp] theorem State.modRgn_keeps_wraps (s : State) (r : Fin 16) (f : Region → Region) : (s.modRgn r f).wraps = s.wraps := rfl
@[simp] theorem State.modRgn_keeps_jrn (s : State) (r : Fin 16) (f : Region → Region) : (s.modRgn r f).jrn = s.jrn := rfl
@[simp] theorem State.modRgn_keeps_jrnOld (s : State) (r : Fin 16) (f : Region → Region) : (s.modRgn r f).jrnOld = s.jrnOld := rfl
@[simp] theorem State.modRgn_keeps_sram (s : State) (r : Fin 16) (f : Region → Region) : (s.modRgn r f).sram = s.sram := rfl
@[simp] theorem State.modRgn_keeps_nor (s : State) (r : Fin 16) (f : Region → Region) : (s.modRgn r f).nor = s.nor := rfl
@[simp] theorem State.modRgn_keeps_free (s : State) (r : Fin 16) (f : Region → Region) : (s.modRgn r f).free = s.free := rfl
@[simp] theorem State.modRgn_keeps_pending (s : State) (r : Fin 16) (f : Region → Region) : (s.modRgn r f).pending = s.pending := rfl

/-! ### State.modCh -/

@[simp] theorem State.modCh_keeps_sys (s : State) (n : ChanId) (f : Chan → Chan) : (s.modCh n f).sys = s.sys := rfl
@[simp] theorem State.modCh_keeps_time (s : State) (n : ChanId) (f : Chan → Chan) : (s.modCh n f).time = s.time := rfl
@[simp] theorem State.modCh_keeps_bus (s : State) (n : ChanId) (f : Chan → Chan) : (s.modCh n f).bus = s.bus := rfl
@[simp] theorem State.modCh_keeps_mbx (s : State) (n : ChanId) (f : Chan → Chan) : (s.modCh n f).mbx = s.mbx := rfl
@[simp] theorem State.modCh_keeps_intc (s : State) (n : ChanId) (f : Chan → Chan) : (s.modCh n f).intc = s.intc := rfl
@[simp] theorem State.modCh_keeps_eth (s : State) (n : ChanId) (f : Chan → Chan) : (s.modCh n f).eth = s.eth := rfl
@[simp] theorem State.modCh_keeps_can (s : State) (n : ChanId) (f : Chan → Chan) : (s.modCh n f).can = s.can := rfl
@[simp] theorem State.modCh_keeps_gpio (s : State) (n : ChanId) (f : Chan → Chan) : (s.modCh n f).gpio = s.gpio := rfl
@[simp] theorem State.modCh_keeps_bill (s : State) (n : ChanId) (f : Chan → Chan) : (s.modCh n f).bill = s.bill := rfl
@[simp] theorem State.modCh_keeps_disp (s : State) (n : ChanId) (f : Chan → Chan) : (s.modCh n f).disp = s.disp := rfl
@[simp] theorem State.modCh_keeps_vp (s : State) (n : ChanId) (f : Chan → Chan) : (s.modCh n f).vp = s.vp := rfl
@[simp] theorem State.modCh_keeps_slac (s : State) (n : ChanId) (f : Chan → Chan) : (s.modCh n f).slac = s.slac := rfl
@[simp] theorem State.modCh_keeps_safe (s : State) (n : ChanId) (f : Chan → Chan) : (s.modCh n f).safe = s.safe := rfl
@[simp] theorem State.modCh_keeps_load (s : State) (n : ChanId) (f : Chan → Chan) : (s.modCh n f).load = s.load := rfl
@[simp] theorem State.modCh_keeps_txn (s : State) (n : ChanId) (f : Chan → Chan) : (s.modCh n f).txn = s.txn := rfl
@[simp] theorem State.modCh_keeps_thl (s : State) (n : ChanId) (f : Chan → Chan) : (s.modCh n f).thl = s.thl := rfl
@[simp] theorem State.modCh_keeps_mesh (s : State) (n : ChanId) (f : Chan → Chan) : (s.modCh n f).mesh = s.mesh := rfl
@[simp] theorem State.modCh_keeps_dma (s : State) (n : ChanId) (f : Chan → Chan) : (s.modCh n f).dma = s.dma := rfl
@[simp] theorem State.modCh_keeps_sec (s : State) (n : ChanId) (f : Chan → Chan) : (s.modCh n f).sec = s.sec := rfl
@[simp] theorem State.modCh_keeps_upd (s : State) (n : ChanId) (f : Chan → Chan) : (s.modCh n f).upd = s.upd := rfl
@[simp] theorem State.modCh_keeps_compat (s : State) (n : ChanId) (f : Chan → Chan) : (s.modCh n f).compat = s.compat := rfl
@[simp] theorem State.modCh_keeps_params (s : State) (n : ChanId) (f : Chan → Chan) : (s.modCh n f).params = s.params := rfl
@[simp] theorem State.modCh_keeps_ros (s : State) (n : ChanId) (f : Chan → Chan) : (s.modCh n f).ros = s.ros := rfl
@[simp] theorem State.modCh_keeps_wraps (s : State) (n : ChanId) (f : Chan → Chan) : (s.modCh n f).wraps = s.wraps := rfl
@[simp] theorem State.modCh_keeps_jrn (s : State) (n : ChanId) (f : Chan → Chan) : (s.modCh n f).jrn = s.jrn := rfl
@[simp] theorem State.modCh_keeps_jrnOld (s : State) (n : ChanId) (f : Chan → Chan) : (s.modCh n f).jrnOld = s.jrnOld := rfl
@[simp] theorem State.modCh_keeps_sram (s : State) (n : ChanId) (f : Chan → Chan) : (s.modCh n f).sram = s.sram := rfl
@[simp] theorem State.modCh_keeps_nor (s : State) (n : ChanId) (f : Chan → Chan) : (s.modCh n f).nor = s.nor := rfl
@[simp] theorem State.modCh_keeps_free (s : State) (n : ChanId) (f : Chan → Chan) : (s.modCh n f).free = s.free := rfl
@[simp] theorem State.modCh_keeps_pending (s : State) (n : ChanId) (f : Chan → Chan) : (s.modCh n f).pending = s.pending := rfl

/-! ### State.modM -/

@[simp] theorem State.modM_keeps_sys (s : State) (m : MeterId) (f : Meter → Meter) : (s.modM m f).sys = s.sys := rfl
@[simp] theorem State.modM_keeps_time (s : State) (m : MeterId) (f : Meter → Meter) : (s.modM m f).time = s.time := rfl
@[simp] theorem State.modM_keeps_bus (s : State) (m : MeterId) (f : Meter → Meter) : (s.modM m f).bus = s.bus := rfl
@[simp] theorem State.modM_keeps_mbx (s : State) (m : MeterId) (f : Meter → Meter) : (s.modM m f).mbx = s.mbx := rfl
@[simp] theorem State.modM_keeps_intc (s : State) (m : MeterId) (f : Meter → Meter) : (s.modM m f).intc = s.intc := rfl
@[simp] theorem State.modM_keeps_eth (s : State) (m : MeterId) (f : Meter → Meter) : (s.modM m f).eth = s.eth := rfl
@[simp] theorem State.modM_keeps_can (s : State) (m : MeterId) (f : Meter → Meter) : (s.modM m f).can = s.can := rfl
@[simp] theorem State.modM_keeps_gpio (s : State) (m : MeterId) (f : Meter → Meter) : (s.modM m f).gpio = s.gpio := rfl
@[simp] theorem State.modM_keeps_bill (s : State) (m : MeterId) (f : Meter → Meter) : (s.modM m f).bill = s.bill := rfl
@[simp] theorem State.modM_keeps_disp (s : State) (m : MeterId) (f : Meter → Meter) : (s.modM m f).disp = s.disp := rfl
@[simp] theorem State.modM_keeps_vp (s : State) (m : MeterId) (f : Meter → Meter) : (s.modM m f).vp = s.vp := rfl
@[simp] theorem State.modM_keeps_slac (s : State) (m : MeterId) (f : Meter → Meter) : (s.modM m f).slac = s.slac := rfl
@[simp] theorem State.modM_keeps_safe (s : State) (m : MeterId) (f : Meter → Meter) : (s.modM m f).safe = s.safe := rfl
@[simp] theorem State.modM_keeps_load (s : State) (m : MeterId) (f : Meter → Meter) : (s.modM m f).load = s.load := rfl
@[simp] theorem State.modM_keeps_txn (s : State) (m : MeterId) (f : Meter → Meter) : (s.modM m f).txn = s.txn := rfl
@[simp] theorem State.modM_keeps_thl (s : State) (m : MeterId) (f : Meter → Meter) : (s.modM m f).thl = s.thl := rfl
@[simp] theorem State.modM_keeps_mesh (s : State) (m : MeterId) (f : Meter → Meter) : (s.modM m f).mesh = s.mesh := rfl
@[simp] theorem State.modM_keeps_dma (s : State) (m : MeterId) (f : Meter → Meter) : (s.modM m f).dma = s.dma := rfl
@[simp] theorem State.modM_keeps_sec (s : State) (m : MeterId) (f : Meter → Meter) : (s.modM m f).sec = s.sec := rfl
@[simp] theorem State.modM_keeps_upd (s : State) (m : MeterId) (f : Meter → Meter) : (s.modM m f).upd = s.upd := rfl
@[simp] theorem State.modM_keeps_compat (s : State) (m : MeterId) (f : Meter → Meter) : (s.modM m f).compat = s.compat := rfl
@[simp] theorem State.modM_keeps_params (s : State) (m : MeterId) (f : Meter → Meter) : (s.modM m f).params = s.params := rfl
@[simp] theorem State.modM_keeps_ros (s : State) (m : MeterId) (f : Meter → Meter) : (s.modM m f).ros = s.ros := rfl
@[simp] theorem State.modM_keeps_wraps (s : State) (m : MeterId) (f : Meter → Meter) : (s.modM m f).wraps = s.wraps := rfl
@[simp] theorem State.modM_keeps_jrn (s : State) (m : MeterId) (f : Meter → Meter) : (s.modM m f).jrn = s.jrn := rfl
@[simp] theorem State.modM_keeps_jrnOld (s : State) (m : MeterId) (f : Meter → Meter) : (s.modM m f).jrnOld = s.jrnOld := rfl
@[simp] theorem State.modM_keeps_sram (s : State) (m : MeterId) (f : Meter → Meter) : (s.modM m f).sram = s.sram := rfl
@[simp] theorem State.modM_keeps_nor (s : State) (m : MeterId) (f : Meter → Meter) : (s.modM m f).nor = s.nor := rfl
@[simp] theorem State.modM_keeps_free (s : State) (m : MeterId) (f : Meter → Meter) : (s.modM m f).free = s.free := rfl
@[simp] theorem State.modM_keeps_pending (s : State) (m : MeterId) (f : Meter → Meter) : (s.modM m f).pending = s.pending := rfl

/-! ### State.modEth -/

@[simp] theorem State.modEth_keeps_sys (s : State) (n : Fin 2) (f : Eth → Eth) : (s.modEth n f).sys = s.sys := rfl
@[simp] theorem State.modEth_keeps_time (s : State) (n : Fin 2) (f : Eth → Eth) : (s.modEth n f).time = s.time := rfl
@[simp] theorem State.modEth_keeps_bus (s : State) (n : Fin 2) (f : Eth → Eth) : (s.modEth n f).bus = s.bus := rfl
@[simp] theorem State.modEth_keeps_mbx (s : State) (n : Fin 2) (f : Eth → Eth) : (s.modEth n f).mbx = s.mbx := rfl
@[simp] theorem State.modEth_keeps_intc (s : State) (n : Fin 2) (f : Eth → Eth) : (s.modEth n f).intc = s.intc := rfl
@[simp] theorem State.modEth_keeps_can (s : State) (n : Fin 2) (f : Eth → Eth) : (s.modEth n f).can = s.can := rfl
@[simp] theorem State.modEth_keeps_gpio (s : State) (n : Fin 2) (f : Eth → Eth) : (s.modEth n f).gpio = s.gpio := rfl
@[simp] theorem State.modEth_keeps_met (s : State) (n : Fin 2) (f : Eth → Eth) : (s.modEth n f).met = s.met := rfl
@[simp] theorem State.modEth_keeps_bill (s : State) (n : Fin 2) (f : Eth → Eth) : (s.modEth n f).bill = s.bill := rfl
@[simp] theorem State.modEth_keeps_disp (s : State) (n : Fin 2) (f : Eth → Eth) : (s.modEth n f).disp = s.disp := rfl
@[simp] theorem State.modEth_keeps_vp (s : State) (n : Fin 2) (f : Eth → Eth) : (s.modEth n f).vp = s.vp := rfl
@[simp] theorem State.modEth_keeps_slac (s : State) (n : Fin 2) (f : Eth → Eth) : (s.modEth n f).slac = s.slac := rfl
@[simp] theorem State.modEth_keeps_safe (s : State) (n : Fin 2) (f : Eth → Eth) : (s.modEth n f).safe = s.safe := rfl
@[simp] theorem State.modEth_keeps_load (s : State) (n : Fin 2) (f : Eth → Eth) : (s.modEth n f).load = s.load := rfl
@[simp] theorem State.modEth_keeps_txn (s : State) (n : Fin 2) (f : Eth → Eth) : (s.modEth n f).txn = s.txn := rfl
@[simp] theorem State.modEth_keeps_thl (s : State) (n : Fin 2) (f : Eth → Eth) : (s.modEth n f).thl = s.thl := rfl
@[simp] theorem State.modEth_keeps_mesh (s : State) (n : Fin 2) (f : Eth → Eth) : (s.modEth n f).mesh = s.mesh := rfl
@[simp] theorem State.modEth_keeps_dma (s : State) (n : Fin 2) (f : Eth → Eth) : (s.modEth n f).dma = s.dma := rfl
@[simp] theorem State.modEth_keeps_sec (s : State) (n : Fin 2) (f : Eth → Eth) : (s.modEth n f).sec = s.sec := rfl
@[simp] theorem State.modEth_keeps_upd (s : State) (n : Fin 2) (f : Eth → Eth) : (s.modEth n f).upd = s.upd := rfl
@[simp] theorem State.modEth_keeps_compat (s : State) (n : Fin 2) (f : Eth → Eth) : (s.modEth n f).compat = s.compat := rfl
@[simp] theorem State.modEth_keeps_params (s : State) (n : Fin 2) (f : Eth → Eth) : (s.modEth n f).params = s.params := rfl
@[simp] theorem State.modEth_keeps_ros (s : State) (n : Fin 2) (f : Eth → Eth) : (s.modEth n f).ros = s.ros := rfl
@[simp] theorem State.modEth_keeps_wraps (s : State) (n : Fin 2) (f : Eth → Eth) : (s.modEth n f).wraps = s.wraps := rfl
@[simp] theorem State.modEth_keeps_jrn (s : State) (n : Fin 2) (f : Eth → Eth) : (s.modEth n f).jrn = s.jrn := rfl
@[simp] theorem State.modEth_keeps_jrnOld (s : State) (n : Fin 2) (f : Eth → Eth) : (s.modEth n f).jrnOld = s.jrnOld := rfl
@[simp] theorem State.modEth_keeps_sram (s : State) (n : Fin 2) (f : Eth → Eth) : (s.modEth n f).sram = s.sram := rfl
@[simp] theorem State.modEth_keeps_nor (s : State) (n : Fin 2) (f : Eth → Eth) : (s.modEth n f).nor = s.nor := rfl
@[simp] theorem State.modEth_keeps_free (s : State) (n : Fin 2) (f : Eth → Eth) : (s.modEth n f).free = s.free := rfl
@[simp] theorem State.modEth_keeps_pending (s : State) (n : Fin 2) (f : Eth → Eth) : (s.modEth n f).pending = s.pending := rfl

/-! ### State.modCan -/

@[simp] theorem State.modCan_keeps_sys (s : State) (n : Fin 3) (f : Can → Can) : (s.modCan n f).sys = s.sys := rfl
@[simp] theorem State.modCan_keeps_time (s : State) (n : Fin 3) (f : Can → Can) : (s.modCan n f).time = s.time := rfl
@[simp] theorem State.modCan_keeps_bus (s : State) (n : Fin 3) (f : Can → Can) : (s.modCan n f).bus = s.bus := rfl
@[simp] theorem State.modCan_keeps_mbx (s : State) (n : Fin 3) (f : Can → Can) : (s.modCan n f).mbx = s.mbx := rfl
@[simp] theorem State.modCan_keeps_intc (s : State) (n : Fin 3) (f : Can → Can) : (s.modCan n f).intc = s.intc := rfl
@[simp] theorem State.modCan_keeps_eth (s : State) (n : Fin 3) (f : Can → Can) : (s.modCan n f).eth = s.eth := rfl
@[simp] theorem State.modCan_keeps_gpio (s : State) (n : Fin 3) (f : Can → Can) : (s.modCan n f).gpio = s.gpio := rfl
@[simp] theorem State.modCan_keeps_met (s : State) (n : Fin 3) (f : Can → Can) : (s.modCan n f).met = s.met := rfl
@[simp] theorem State.modCan_keeps_bill (s : State) (n : Fin 3) (f : Can → Can) : (s.modCan n f).bill = s.bill := rfl
@[simp] theorem State.modCan_keeps_disp (s : State) (n : Fin 3) (f : Can → Can) : (s.modCan n f).disp = s.disp := rfl
@[simp] theorem State.modCan_keeps_vp (s : State) (n : Fin 3) (f : Can → Can) : (s.modCan n f).vp = s.vp := rfl
@[simp] theorem State.modCan_keeps_slac (s : State) (n : Fin 3) (f : Can → Can) : (s.modCan n f).slac = s.slac := rfl
@[simp] theorem State.modCan_keeps_safe (s : State) (n : Fin 3) (f : Can → Can) : (s.modCan n f).safe = s.safe := rfl
@[simp] theorem State.modCan_keeps_load (s : State) (n : Fin 3) (f : Can → Can) : (s.modCan n f).load = s.load := rfl
@[simp] theorem State.modCan_keeps_txn (s : State) (n : Fin 3) (f : Can → Can) : (s.modCan n f).txn = s.txn := rfl
@[simp] theorem State.modCan_keeps_thl (s : State) (n : Fin 3) (f : Can → Can) : (s.modCan n f).thl = s.thl := rfl
@[simp] theorem State.modCan_keeps_mesh (s : State) (n : Fin 3) (f : Can → Can) : (s.modCan n f).mesh = s.mesh := rfl
@[simp] theorem State.modCan_keeps_dma (s : State) (n : Fin 3) (f : Can → Can) : (s.modCan n f).dma = s.dma := rfl
@[simp] theorem State.modCan_keeps_sec (s : State) (n : Fin 3) (f : Can → Can) : (s.modCan n f).sec = s.sec := rfl
@[simp] theorem State.modCan_keeps_upd (s : State) (n : Fin 3) (f : Can → Can) : (s.modCan n f).upd = s.upd := rfl
@[simp] theorem State.modCan_keeps_compat (s : State) (n : Fin 3) (f : Can → Can) : (s.modCan n f).compat = s.compat := rfl
@[simp] theorem State.modCan_keeps_params (s : State) (n : Fin 3) (f : Can → Can) : (s.modCan n f).params = s.params := rfl
@[simp] theorem State.modCan_keeps_ros (s : State) (n : Fin 3) (f : Can → Can) : (s.modCan n f).ros = s.ros := rfl
@[simp] theorem State.modCan_keeps_wraps (s : State) (n : Fin 3) (f : Can → Can) : (s.modCan n f).wraps = s.wraps := rfl
@[simp] theorem State.modCan_keeps_jrn (s : State) (n : Fin 3) (f : Can → Can) : (s.modCan n f).jrn = s.jrn := rfl
@[simp] theorem State.modCan_keeps_jrnOld (s : State) (n : Fin 3) (f : Can → Can) : (s.modCan n f).jrnOld = s.jrnOld := rfl
@[simp] theorem State.modCan_keeps_sram (s : State) (n : Fin 3) (f : Can → Can) : (s.modCan n f).sram = s.sram := rfl
@[simp] theorem State.modCan_keeps_nor (s : State) (n : Fin 3) (f : Can → Can) : (s.modCan n f).nor = s.nor := rfl
@[simp] theorem State.modCan_keeps_free (s : State) (n : Fin 3) (f : Can → Can) : (s.modCan n f).free = s.free := rfl
@[simp] theorem State.modCan_keeps_pending (s : State) (n : Fin 3) (f : Can → Can) : (s.modCan n f).pending = s.pending := rfl

/-! ### State.modLoad -/

@[simp] theorem State.modLoad_keeps_sys (s : State) (n : Fin 10) (f : LoadCh → LoadCh) : (s.modLoad n f).sys = s.sys := rfl
@[simp] theorem State.modLoad_keeps_time (s : State) (n : Fin 10) (f : LoadCh → LoadCh) : (s.modLoad n f).time = s.time := rfl
@[simp] theorem State.modLoad_keeps_bus (s : State) (n : Fin 10) (f : LoadCh → LoadCh) : (s.modLoad n f).bus = s.bus := rfl
@[simp] theorem State.modLoad_keeps_mbx (s : State) (n : Fin 10) (f : LoadCh → LoadCh) : (s.modLoad n f).mbx = s.mbx := rfl
@[simp] theorem State.modLoad_keeps_intc (s : State) (n : Fin 10) (f : LoadCh → LoadCh) : (s.modLoad n f).intc = s.intc := rfl
@[simp] theorem State.modLoad_keeps_eth (s : State) (n : Fin 10) (f : LoadCh → LoadCh) : (s.modLoad n f).eth = s.eth := rfl
@[simp] theorem State.modLoad_keeps_can (s : State) (n : Fin 10) (f : LoadCh → LoadCh) : (s.modLoad n f).can = s.can := rfl
@[simp] theorem State.modLoad_keeps_gpio (s : State) (n : Fin 10) (f : LoadCh → LoadCh) : (s.modLoad n f).gpio = s.gpio := rfl
@[simp] theorem State.modLoad_keeps_met (s : State) (n : Fin 10) (f : LoadCh → LoadCh) : (s.modLoad n f).met = s.met := rfl
@[simp] theorem State.modLoad_keeps_bill (s : State) (n : Fin 10) (f : LoadCh → LoadCh) : (s.modLoad n f).bill = s.bill := rfl
@[simp] theorem State.modLoad_keeps_disp (s : State) (n : Fin 10) (f : LoadCh → LoadCh) : (s.modLoad n f).disp = s.disp := rfl
@[simp] theorem State.modLoad_keeps_vp (s : State) (n : Fin 10) (f : LoadCh → LoadCh) : (s.modLoad n f).vp = s.vp := rfl
@[simp] theorem State.modLoad_keeps_slac (s : State) (n : Fin 10) (f : LoadCh → LoadCh) : (s.modLoad n f).slac = s.slac := rfl
@[simp] theorem State.modLoad_keeps_safe (s : State) (n : Fin 10) (f : LoadCh → LoadCh) : (s.modLoad n f).safe = s.safe := rfl
@[simp] theorem State.modLoad_keeps_txn (s : State) (n : Fin 10) (f : LoadCh → LoadCh) : (s.modLoad n f).txn = s.txn := rfl
@[simp] theorem State.modLoad_keeps_thl (s : State) (n : Fin 10) (f : LoadCh → LoadCh) : (s.modLoad n f).thl = s.thl := rfl
@[simp] theorem State.modLoad_keeps_mesh (s : State) (n : Fin 10) (f : LoadCh → LoadCh) : (s.modLoad n f).mesh = s.mesh := rfl
@[simp] theorem State.modLoad_keeps_dma (s : State) (n : Fin 10) (f : LoadCh → LoadCh) : (s.modLoad n f).dma = s.dma := rfl
@[simp] theorem State.modLoad_keeps_sec (s : State) (n : Fin 10) (f : LoadCh → LoadCh) : (s.modLoad n f).sec = s.sec := rfl
@[simp] theorem State.modLoad_keeps_upd (s : State) (n : Fin 10) (f : LoadCh → LoadCh) : (s.modLoad n f).upd = s.upd := rfl
@[simp] theorem State.modLoad_keeps_compat (s : State) (n : Fin 10) (f : LoadCh → LoadCh) : (s.modLoad n f).compat = s.compat := rfl
@[simp] theorem State.modLoad_keeps_params (s : State) (n : Fin 10) (f : LoadCh → LoadCh) : (s.modLoad n f).params = s.params := rfl
@[simp] theorem State.modLoad_keeps_ros (s : State) (n : Fin 10) (f : LoadCh → LoadCh) : (s.modLoad n f).ros = s.ros := rfl
@[simp] theorem State.modLoad_keeps_wraps (s : State) (n : Fin 10) (f : LoadCh → LoadCh) : (s.modLoad n f).wraps = s.wraps := rfl
@[simp] theorem State.modLoad_keeps_jrn (s : State) (n : Fin 10) (f : LoadCh → LoadCh) : (s.modLoad n f).jrn = s.jrn := rfl
@[simp] theorem State.modLoad_keeps_jrnOld (s : State) (n : Fin 10) (f : LoadCh → LoadCh) : (s.modLoad n f).jrnOld = s.jrnOld := rfl
@[simp] theorem State.modLoad_keeps_sram (s : State) (n : Fin 10) (f : LoadCh → LoadCh) : (s.modLoad n f).sram = s.sram := rfl
@[simp] theorem State.modLoad_keeps_nor (s : State) (n : Fin 10) (f : LoadCh → LoadCh) : (s.modLoad n f).nor = s.nor := rfl
@[simp] theorem State.modLoad_keeps_free (s : State) (n : Fin 10) (f : LoadCh → LoadCh) : (s.modLoad n f).free = s.free := rfl
@[simp] theorem State.modLoad_keeps_pending (s : State) (n : Fin 10) (f : LoadCh → LoadCh) : (s.modLoad n f).pending = s.pending := rfl

/-! ### State.modCoil -/

@[simp] theorem State.modCoil_keeps_sys (s : State) (c : Fin 12) (f : Coil → Coil) : (s.modCoil c f).sys = s.sys := rfl
@[simp] theorem State.modCoil_keeps_time (s : State) (c : Fin 12) (f : Coil → Coil) : (s.modCoil c f).time = s.time := rfl
@[simp] theorem State.modCoil_keeps_bus (s : State) (c : Fin 12) (f : Coil → Coil) : (s.modCoil c f).bus = s.bus := rfl
@[simp] theorem State.modCoil_keeps_mbx (s : State) (c : Fin 12) (f : Coil → Coil) : (s.modCoil c f).mbx = s.mbx := rfl
@[simp] theorem State.modCoil_keeps_intc (s : State) (c : Fin 12) (f : Coil → Coil) : (s.modCoil c f).intc = s.intc := rfl
@[simp] theorem State.modCoil_keeps_eth (s : State) (c : Fin 12) (f : Coil → Coil) : (s.modCoil c f).eth = s.eth := rfl
@[simp] theorem State.modCoil_keeps_can (s : State) (c : Fin 12) (f : Coil → Coil) : (s.modCoil c f).can = s.can := rfl
@[simp] theorem State.modCoil_keeps_gpio (s : State) (c : Fin 12) (f : Coil → Coil) : (s.modCoil c f).gpio = s.gpio := rfl
@[simp] theorem State.modCoil_keeps_met (s : State) (c : Fin 12) (f : Coil → Coil) : (s.modCoil c f).met = s.met := rfl
@[simp] theorem State.modCoil_keeps_bill (s : State) (c : Fin 12) (f : Coil → Coil) : (s.modCoil c f).bill = s.bill := rfl
@[simp] theorem State.modCoil_keeps_disp (s : State) (c : Fin 12) (f : Coil → Coil) : (s.modCoil c f).disp = s.disp := rfl
@[simp] theorem State.modCoil_keeps_vp (s : State) (c : Fin 12) (f : Coil → Coil) : (s.modCoil c f).vp = s.vp := rfl
@[simp] theorem State.modCoil_keeps_slac (s : State) (c : Fin 12) (f : Coil → Coil) : (s.modCoil c f).slac = s.slac := rfl
@[simp] theorem State.modCoil_keeps_load (s : State) (c : Fin 12) (f : Coil → Coil) : (s.modCoil c f).load = s.load := rfl
@[simp] theorem State.modCoil_keeps_txn (s : State) (c : Fin 12) (f : Coil → Coil) : (s.modCoil c f).txn = s.txn := rfl
@[simp] theorem State.modCoil_keeps_thl (s : State) (c : Fin 12) (f : Coil → Coil) : (s.modCoil c f).thl = s.thl := rfl
@[simp] theorem State.modCoil_keeps_mesh (s : State) (c : Fin 12) (f : Coil → Coil) : (s.modCoil c f).mesh = s.mesh := rfl
@[simp] theorem State.modCoil_keeps_dma (s : State) (c : Fin 12) (f : Coil → Coil) : (s.modCoil c f).dma = s.dma := rfl
@[simp] theorem State.modCoil_keeps_sec (s : State) (c : Fin 12) (f : Coil → Coil) : (s.modCoil c f).sec = s.sec := rfl
@[simp] theorem State.modCoil_keeps_upd (s : State) (c : Fin 12) (f : Coil → Coil) : (s.modCoil c f).upd = s.upd := rfl
@[simp] theorem State.modCoil_keeps_compat (s : State) (c : Fin 12) (f : Coil → Coil) : (s.modCoil c f).compat = s.compat := rfl
@[simp] theorem State.modCoil_keeps_params (s : State) (c : Fin 12) (f : Coil → Coil) : (s.modCoil c f).params = s.params := rfl
@[simp] theorem State.modCoil_keeps_ros (s : State) (c : Fin 12) (f : Coil → Coil) : (s.modCoil c f).ros = s.ros := rfl
@[simp] theorem State.modCoil_keeps_wraps (s : State) (c : Fin 12) (f : Coil → Coil) : (s.modCoil c f).wraps = s.wraps := rfl
@[simp] theorem State.modCoil_keeps_jrn (s : State) (c : Fin 12) (f : Coil → Coil) : (s.modCoil c f).jrn = s.jrn := rfl
@[simp] theorem State.modCoil_keeps_jrnOld (s : State) (c : Fin 12) (f : Coil → Coil) : (s.modCoil c f).jrnOld = s.jrnOld := rfl
@[simp] theorem State.modCoil_keeps_sram (s : State) (c : Fin 12) (f : Coil → Coil) : (s.modCoil c f).sram = s.sram := rfl
@[simp] theorem State.modCoil_keeps_nor (s : State) (c : Fin 12) (f : Coil → Coil) : (s.modCoil c f).nor = s.nor := rfl
@[simp] theorem State.modCoil_keeps_free (s : State) (c : Fin 12) (f : Coil → Coil) : (s.modCoil c f).free = s.free := rfl
@[simp] theorem State.modCoil_keeps_pending (s : State) (c : Fin 12) (f : Coil → Coil) : (s.modCoil c f).pending = s.pending := rfl

/-! ### State.modOut -/

@[simp] theorem State.modOut_keeps_sys (s : State) (n : Port) (f : Outlet → Outlet) : (s.modOut n f).sys = s.sys := rfl
@[simp] theorem State.modOut_keeps_time (s : State) (n : Port) (f : Outlet → Outlet) : (s.modOut n f).time = s.time := rfl
@[simp] theorem State.modOut_keeps_bus (s : State) (n : Port) (f : Outlet → Outlet) : (s.modOut n f).bus = s.bus := rfl
@[simp] theorem State.modOut_keeps_mbx (s : State) (n : Port) (f : Outlet → Outlet) : (s.modOut n f).mbx = s.mbx := rfl
@[simp] theorem State.modOut_keeps_intc (s : State) (n : Port) (f : Outlet → Outlet) : (s.modOut n f).intc = s.intc := rfl
@[simp] theorem State.modOut_keeps_eth (s : State) (n : Port) (f : Outlet → Outlet) : (s.modOut n f).eth = s.eth := rfl
@[simp] theorem State.modOut_keeps_can (s : State) (n : Port) (f : Outlet → Outlet) : (s.modOut n f).can = s.can := rfl
@[simp] theorem State.modOut_keeps_gpio (s : State) (n : Port) (f : Outlet → Outlet) : (s.modOut n f).gpio = s.gpio := rfl
@[simp] theorem State.modOut_keeps_met (s : State) (n : Port) (f : Outlet → Outlet) : (s.modOut n f).met = s.met := rfl
@[simp] theorem State.modOut_keeps_bill (s : State) (n : Port) (f : Outlet → Outlet) : (s.modOut n f).bill = s.bill := rfl
@[simp] theorem State.modOut_keeps_disp (s : State) (n : Port) (f : Outlet → Outlet) : (s.modOut n f).disp = s.disp := rfl
@[simp] theorem State.modOut_keeps_vp (s : State) (n : Port) (f : Outlet → Outlet) : (s.modOut n f).vp = s.vp := rfl
@[simp] theorem State.modOut_keeps_slac (s : State) (n : Port) (f : Outlet → Outlet) : (s.modOut n f).slac = s.slac := rfl
@[simp] theorem State.modOut_keeps_load (s : State) (n : Port) (f : Outlet → Outlet) : (s.modOut n f).load = s.load := rfl
@[simp] theorem State.modOut_keeps_txn (s : State) (n : Port) (f : Outlet → Outlet) : (s.modOut n f).txn = s.txn := rfl
@[simp] theorem State.modOut_keeps_thl (s : State) (n : Port) (f : Outlet → Outlet) : (s.modOut n f).thl = s.thl := rfl
@[simp] theorem State.modOut_keeps_mesh (s : State) (n : Port) (f : Outlet → Outlet) : (s.modOut n f).mesh = s.mesh := rfl
@[simp] theorem State.modOut_keeps_dma (s : State) (n : Port) (f : Outlet → Outlet) : (s.modOut n f).dma = s.dma := rfl
@[simp] theorem State.modOut_keeps_sec (s : State) (n : Port) (f : Outlet → Outlet) : (s.modOut n f).sec = s.sec := rfl
@[simp] theorem State.modOut_keeps_upd (s : State) (n : Port) (f : Outlet → Outlet) : (s.modOut n f).upd = s.upd := rfl
@[simp] theorem State.modOut_keeps_compat (s : State) (n : Port) (f : Outlet → Outlet) : (s.modOut n f).compat = s.compat := rfl
@[simp] theorem State.modOut_keeps_params (s : State) (n : Port) (f : Outlet → Outlet) : (s.modOut n f).params = s.params := rfl
@[simp] theorem State.modOut_keeps_ros (s : State) (n : Port) (f : Outlet → Outlet) : (s.modOut n f).ros = s.ros := rfl
@[simp] theorem State.modOut_keeps_wraps (s : State) (n : Port) (f : Outlet → Outlet) : (s.modOut n f).wraps = s.wraps := rfl
@[simp] theorem State.modOut_keeps_jrn (s : State) (n : Port) (f : Outlet → Outlet) : (s.modOut n f).jrn = s.jrn := rfl
@[simp] theorem State.modOut_keeps_jrnOld (s : State) (n : Port) (f : Outlet → Outlet) : (s.modOut n f).jrnOld = s.jrnOld := rfl
@[simp] theorem State.modOut_keeps_sram (s : State) (n : Port) (f : Outlet → Outlet) : (s.modOut n f).sram = s.sram := rfl
@[simp] theorem State.modOut_keeps_nor (s : State) (n : Port) (f : Outlet → Outlet) : (s.modOut n f).nor = s.nor := rfl
@[simp] theorem State.modOut_keeps_free (s : State) (n : Port) (f : Outlet → Outlet) : (s.modOut n f).free = s.free := rfl
@[simp] theorem State.modOut_keeps_pending (s : State) (n : Port) (f : Outlet → Outlet) : (s.modOut n f).pending = s.pending := rfl

/-! ### State.modImd -/

@[simp] theorem State.modImd_keeps_sys (s : State) (g : Fin 6) (f : Imd → Imd) : (s.modImd g f).sys = s.sys := rfl
@[simp] theorem State.modImd_keeps_time (s : State) (g : Fin 6) (f : Imd → Imd) : (s.modImd g f).time = s.time := rfl
@[simp] theorem State.modImd_keeps_bus (s : State) (g : Fin 6) (f : Imd → Imd) : (s.modImd g f).bus = s.bus := rfl
@[simp] theorem State.modImd_keeps_mbx (s : State) (g : Fin 6) (f : Imd → Imd) : (s.modImd g f).mbx = s.mbx := rfl
@[simp] theorem State.modImd_keeps_intc (s : State) (g : Fin 6) (f : Imd → Imd) : (s.modImd g f).intc = s.intc := rfl
@[simp] theorem State.modImd_keeps_eth (s : State) (g : Fin 6) (f : Imd → Imd) : (s.modImd g f).eth = s.eth := rfl
@[simp] theorem State.modImd_keeps_can (s : State) (g : Fin 6) (f : Imd → Imd) : (s.modImd g f).can = s.can := rfl
@[simp] theorem State.modImd_keeps_gpio (s : State) (g : Fin 6) (f : Imd → Imd) : (s.modImd g f).gpio = s.gpio := rfl
@[simp] theorem State.modImd_keeps_met (s : State) (g : Fin 6) (f : Imd → Imd) : (s.modImd g f).met = s.met := rfl
@[simp] theorem State.modImd_keeps_bill (s : State) (g : Fin 6) (f : Imd → Imd) : (s.modImd g f).bill = s.bill := rfl
@[simp] theorem State.modImd_keeps_disp (s : State) (g : Fin 6) (f : Imd → Imd) : (s.modImd g f).disp = s.disp := rfl
@[simp] theorem State.modImd_keeps_vp (s : State) (g : Fin 6) (f : Imd → Imd) : (s.modImd g f).vp = s.vp := rfl
@[simp] theorem State.modImd_keeps_slac (s : State) (g : Fin 6) (f : Imd → Imd) : (s.modImd g f).slac = s.slac := rfl
@[simp] theorem State.modImd_keeps_load (s : State) (g : Fin 6) (f : Imd → Imd) : (s.modImd g f).load = s.load := rfl
@[simp] theorem State.modImd_keeps_txn (s : State) (g : Fin 6) (f : Imd → Imd) : (s.modImd g f).txn = s.txn := rfl
@[simp] theorem State.modImd_keeps_thl (s : State) (g : Fin 6) (f : Imd → Imd) : (s.modImd g f).thl = s.thl := rfl
@[simp] theorem State.modImd_keeps_mesh (s : State) (g : Fin 6) (f : Imd → Imd) : (s.modImd g f).mesh = s.mesh := rfl
@[simp] theorem State.modImd_keeps_dma (s : State) (g : Fin 6) (f : Imd → Imd) : (s.modImd g f).dma = s.dma := rfl
@[simp] theorem State.modImd_keeps_sec (s : State) (g : Fin 6) (f : Imd → Imd) : (s.modImd g f).sec = s.sec := rfl
@[simp] theorem State.modImd_keeps_upd (s : State) (g : Fin 6) (f : Imd → Imd) : (s.modImd g f).upd = s.upd := rfl
@[simp] theorem State.modImd_keeps_compat (s : State) (g : Fin 6) (f : Imd → Imd) : (s.modImd g f).compat = s.compat := rfl
@[simp] theorem State.modImd_keeps_params (s : State) (g : Fin 6) (f : Imd → Imd) : (s.modImd g f).params = s.params := rfl
@[simp] theorem State.modImd_keeps_ros (s : State) (g : Fin 6) (f : Imd → Imd) : (s.modImd g f).ros = s.ros := rfl
@[simp] theorem State.modImd_keeps_wraps (s : State) (g : Fin 6) (f : Imd → Imd) : (s.modImd g f).wraps = s.wraps := rfl
@[simp] theorem State.modImd_keeps_jrn (s : State) (g : Fin 6) (f : Imd → Imd) : (s.modImd g f).jrn = s.jrn := rfl
@[simp] theorem State.modImd_keeps_jrnOld (s : State) (g : Fin 6) (f : Imd → Imd) : (s.modImd g f).jrnOld = s.jrnOld := rfl
@[simp] theorem State.modImd_keeps_sram (s : State) (g : Fin 6) (f : Imd → Imd) : (s.modImd g f).sram = s.sram := rfl
@[simp] theorem State.modImd_keeps_nor (s : State) (g : Fin 6) (f : Imd → Imd) : (s.modImd g f).nor = s.nor := rfl
@[simp] theorem State.modImd_keeps_free (s : State) (g : Fin 6) (f : Imd → Imd) : (s.modImd g f).free = s.free := rfl
@[simp] theorem State.modImd_keeps_pending (s : State) (g : Fin 6) (f : Imd → Imd) : (s.modImd g f).pending = s.pending := rfl

/-! ### State.modConn -/

@[simp] theorem State.modConn_keeps_sys (s : State) (k : Fin 16) (f : Conn → Conn) : (s.modConn k f).sys = s.sys := rfl
@[simp] theorem State.modConn_keeps_time (s : State) (k : Fin 16) (f : Conn → Conn) : (s.modConn k f).time = s.time := rfl
@[simp] theorem State.modConn_keeps_bus (s : State) (k : Fin 16) (f : Conn → Conn) : (s.modConn k f).bus = s.bus := rfl
@[simp] theorem State.modConn_keeps_mbx (s : State) (k : Fin 16) (f : Conn → Conn) : (s.modConn k f).mbx = s.mbx := rfl
@[simp] theorem State.modConn_keeps_intc (s : State) (k : Fin 16) (f : Conn → Conn) : (s.modConn k f).intc = s.intc := rfl
@[simp] theorem State.modConn_keeps_eth (s : State) (k : Fin 16) (f : Conn → Conn) : (s.modConn k f).eth = s.eth := rfl
@[simp] theorem State.modConn_keeps_can (s : State) (k : Fin 16) (f : Conn → Conn) : (s.modConn k f).can = s.can := rfl
@[simp] theorem State.modConn_keeps_gpio (s : State) (k : Fin 16) (f : Conn → Conn) : (s.modConn k f).gpio = s.gpio := rfl
@[simp] theorem State.modConn_keeps_met (s : State) (k : Fin 16) (f : Conn → Conn) : (s.modConn k f).met = s.met := rfl
@[simp] theorem State.modConn_keeps_bill (s : State) (k : Fin 16) (f : Conn → Conn) : (s.modConn k f).bill = s.bill := rfl
@[simp] theorem State.modConn_keeps_disp (s : State) (k : Fin 16) (f : Conn → Conn) : (s.modConn k f).disp = s.disp := rfl
@[simp] theorem State.modConn_keeps_vp (s : State) (k : Fin 16) (f : Conn → Conn) : (s.modConn k f).vp = s.vp := rfl
@[simp] theorem State.modConn_keeps_slac (s : State) (k : Fin 16) (f : Conn → Conn) : (s.modConn k f).slac = s.slac := rfl
@[simp] theorem State.modConn_keeps_load (s : State) (k : Fin 16) (f : Conn → Conn) : (s.modConn k f).load = s.load := rfl
@[simp] theorem State.modConn_keeps_txn (s : State) (k : Fin 16) (f : Conn → Conn) : (s.modConn k f).txn = s.txn := rfl
@[simp] theorem State.modConn_keeps_thl (s : State) (k : Fin 16) (f : Conn → Conn) : (s.modConn k f).thl = s.thl := rfl
@[simp] theorem State.modConn_keeps_mesh (s : State) (k : Fin 16) (f : Conn → Conn) : (s.modConn k f).mesh = s.mesh := rfl
@[simp] theorem State.modConn_keeps_dma (s : State) (k : Fin 16) (f : Conn → Conn) : (s.modConn k f).dma = s.dma := rfl
@[simp] theorem State.modConn_keeps_sec (s : State) (k : Fin 16) (f : Conn → Conn) : (s.modConn k f).sec = s.sec := rfl
@[simp] theorem State.modConn_keeps_upd (s : State) (k : Fin 16) (f : Conn → Conn) : (s.modConn k f).upd = s.upd := rfl
@[simp] theorem State.modConn_keeps_compat (s : State) (k : Fin 16) (f : Conn → Conn) : (s.modConn k f).compat = s.compat := rfl
@[simp] theorem State.modConn_keeps_params (s : State) (k : Fin 16) (f : Conn → Conn) : (s.modConn k f).params = s.params := rfl
@[simp] theorem State.modConn_keeps_ros (s : State) (k : Fin 16) (f : Conn → Conn) : (s.modConn k f).ros = s.ros := rfl
@[simp] theorem State.modConn_keeps_wraps (s : State) (k : Fin 16) (f : Conn → Conn) : (s.modConn k f).wraps = s.wraps := rfl
@[simp] theorem State.modConn_keeps_jrn (s : State) (k : Fin 16) (f : Conn → Conn) : (s.modConn k f).jrn = s.jrn := rfl
@[simp] theorem State.modConn_keeps_jrnOld (s : State) (k : Fin 16) (f : Conn → Conn) : (s.modConn k f).jrnOld = s.jrnOld := rfl
@[simp] theorem State.modConn_keeps_sram (s : State) (k : Fin 16) (f : Conn → Conn) : (s.modConn k f).sram = s.sram := rfl
@[simp] theorem State.modConn_keeps_nor (s : State) (k : Fin 16) (f : Conn → Conn) : (s.modConn k f).nor = s.nor := rfl
@[simp] theorem State.modConn_keeps_free (s : State) (k : Fin 16) (f : Conn → Conn) : (s.modConn k f).free = s.free := rfl
@[simp] theorem State.modConn_keeps_pending (s : State) (k : Fin 16) (f : Conn → Conn) : (s.modConn k f).pending = s.pending := rfl

/-! ### State.modPair -/

@[simp] theorem State.modPair_keeps_sys (s : State) (j : Fin 8) (f : StopPair → StopPair) : (s.modPair j f).sys = s.sys := rfl
@[simp] theorem State.modPair_keeps_time (s : State) (j : Fin 8) (f : StopPair → StopPair) : (s.modPair j f).time = s.time := rfl
@[simp] theorem State.modPair_keeps_bus (s : State) (j : Fin 8) (f : StopPair → StopPair) : (s.modPair j f).bus = s.bus := rfl
@[simp] theorem State.modPair_keeps_mbx (s : State) (j : Fin 8) (f : StopPair → StopPair) : (s.modPair j f).mbx = s.mbx := rfl
@[simp] theorem State.modPair_keeps_intc (s : State) (j : Fin 8) (f : StopPair → StopPair) : (s.modPair j f).intc = s.intc := rfl
@[simp] theorem State.modPair_keeps_eth (s : State) (j : Fin 8) (f : StopPair → StopPair) : (s.modPair j f).eth = s.eth := rfl
@[simp] theorem State.modPair_keeps_can (s : State) (j : Fin 8) (f : StopPair → StopPair) : (s.modPair j f).can = s.can := rfl
@[simp] theorem State.modPair_keeps_gpio (s : State) (j : Fin 8) (f : StopPair → StopPair) : (s.modPair j f).gpio = s.gpio := rfl
@[simp] theorem State.modPair_keeps_met (s : State) (j : Fin 8) (f : StopPair → StopPair) : (s.modPair j f).met = s.met := rfl
@[simp] theorem State.modPair_keeps_bill (s : State) (j : Fin 8) (f : StopPair → StopPair) : (s.modPair j f).bill = s.bill := rfl
@[simp] theorem State.modPair_keeps_disp (s : State) (j : Fin 8) (f : StopPair → StopPair) : (s.modPair j f).disp = s.disp := rfl
@[simp] theorem State.modPair_keeps_vp (s : State) (j : Fin 8) (f : StopPair → StopPair) : (s.modPair j f).vp = s.vp := rfl
@[simp] theorem State.modPair_keeps_slac (s : State) (j : Fin 8) (f : StopPair → StopPair) : (s.modPair j f).slac = s.slac := rfl
@[simp] theorem State.modPair_keeps_load (s : State) (j : Fin 8) (f : StopPair → StopPair) : (s.modPair j f).load = s.load := rfl
@[simp] theorem State.modPair_keeps_txn (s : State) (j : Fin 8) (f : StopPair → StopPair) : (s.modPair j f).txn = s.txn := rfl
@[simp] theorem State.modPair_keeps_thl (s : State) (j : Fin 8) (f : StopPair → StopPair) : (s.modPair j f).thl = s.thl := rfl
@[simp] theorem State.modPair_keeps_mesh (s : State) (j : Fin 8) (f : StopPair → StopPair) : (s.modPair j f).mesh = s.mesh := rfl
@[simp] theorem State.modPair_keeps_dma (s : State) (j : Fin 8) (f : StopPair → StopPair) : (s.modPair j f).dma = s.dma := rfl
@[simp] theorem State.modPair_keeps_sec (s : State) (j : Fin 8) (f : StopPair → StopPair) : (s.modPair j f).sec = s.sec := rfl
@[simp] theorem State.modPair_keeps_upd (s : State) (j : Fin 8) (f : StopPair → StopPair) : (s.modPair j f).upd = s.upd := rfl
@[simp] theorem State.modPair_keeps_compat (s : State) (j : Fin 8) (f : StopPair → StopPair) : (s.modPair j f).compat = s.compat := rfl
@[simp] theorem State.modPair_keeps_params (s : State) (j : Fin 8) (f : StopPair → StopPair) : (s.modPair j f).params = s.params := rfl
@[simp] theorem State.modPair_keeps_ros (s : State) (j : Fin 8) (f : StopPair → StopPair) : (s.modPair j f).ros = s.ros := rfl
@[simp] theorem State.modPair_keeps_wraps (s : State) (j : Fin 8) (f : StopPair → StopPair) : (s.modPair j f).wraps = s.wraps := rfl
@[simp] theorem State.modPair_keeps_jrn (s : State) (j : Fin 8) (f : StopPair → StopPair) : (s.modPair j f).jrn = s.jrn := rfl
@[simp] theorem State.modPair_keeps_jrnOld (s : State) (j : Fin 8) (f : StopPair → StopPair) : (s.modPair j f).jrnOld = s.jrnOld := rfl
@[simp] theorem State.modPair_keeps_sram (s : State) (j : Fin 8) (f : StopPair → StopPair) : (s.modPair j f).sram = s.sram := rfl
@[simp] theorem State.modPair_keeps_nor (s : State) (j : Fin 8) (f : StopPair → StopPair) : (s.modPair j f).nor = s.nor := rfl
@[simp] theorem State.modPair_keeps_free (s : State) (j : Fin 8) (f : StopPair → StopPair) : (s.modPair j f).free = s.free := rfl
@[simp] theorem State.modPair_keeps_pending (s : State) (j : Fin 8) (f : StopPair → StopPair) : (s.modPair j f).pending = s.pending := rfl

/-! ### State.modTxn -/

@[simp] theorem State.modTxn_keeps_sys (s : State) (d : Fin 6) (f : TxnDom → TxnDom) : (s.modTxn d f).sys = s.sys := rfl
@[simp] theorem State.modTxn_keeps_time (s : State) (d : Fin 6) (f : TxnDom → TxnDom) : (s.modTxn d f).time = s.time := rfl
@[simp] theorem State.modTxn_keeps_bus (s : State) (d : Fin 6) (f : TxnDom → TxnDom) : (s.modTxn d f).bus = s.bus := rfl
@[simp] theorem State.modTxn_keeps_mbx (s : State) (d : Fin 6) (f : TxnDom → TxnDom) : (s.modTxn d f).mbx = s.mbx := rfl
@[simp] theorem State.modTxn_keeps_intc (s : State) (d : Fin 6) (f : TxnDom → TxnDom) : (s.modTxn d f).intc = s.intc := rfl
@[simp] theorem State.modTxn_keeps_eth (s : State) (d : Fin 6) (f : TxnDom → TxnDom) : (s.modTxn d f).eth = s.eth := rfl
@[simp] theorem State.modTxn_keeps_can (s : State) (d : Fin 6) (f : TxnDom → TxnDom) : (s.modTxn d f).can = s.can := rfl
@[simp] theorem State.modTxn_keeps_gpio (s : State) (d : Fin 6) (f : TxnDom → TxnDom) : (s.modTxn d f).gpio = s.gpio := rfl
@[simp] theorem State.modTxn_keeps_met (s : State) (d : Fin 6) (f : TxnDom → TxnDom) : (s.modTxn d f).met = s.met := rfl
@[simp] theorem State.modTxn_keeps_bill (s : State) (d : Fin 6) (f : TxnDom → TxnDom) : (s.modTxn d f).bill = s.bill := rfl
@[simp] theorem State.modTxn_keeps_disp (s : State) (d : Fin 6) (f : TxnDom → TxnDom) : (s.modTxn d f).disp = s.disp := rfl
@[simp] theorem State.modTxn_keeps_vp (s : State) (d : Fin 6) (f : TxnDom → TxnDom) : (s.modTxn d f).vp = s.vp := rfl
@[simp] theorem State.modTxn_keeps_slac (s : State) (d : Fin 6) (f : TxnDom → TxnDom) : (s.modTxn d f).slac = s.slac := rfl
@[simp] theorem State.modTxn_keeps_safe (s : State) (d : Fin 6) (f : TxnDom → TxnDom) : (s.modTxn d f).safe = s.safe := rfl
@[simp] theorem State.modTxn_keeps_load (s : State) (d : Fin 6) (f : TxnDom → TxnDom) : (s.modTxn d f).load = s.load := rfl
@[simp] theorem State.modTxn_keeps_thl (s : State) (d : Fin 6) (f : TxnDom → TxnDom) : (s.modTxn d f).thl = s.thl := rfl
@[simp] theorem State.modTxn_keeps_mesh (s : State) (d : Fin 6) (f : TxnDom → TxnDom) : (s.modTxn d f).mesh = s.mesh := rfl
@[simp] theorem State.modTxn_keeps_dma (s : State) (d : Fin 6) (f : TxnDom → TxnDom) : (s.modTxn d f).dma = s.dma := rfl
@[simp] theorem State.modTxn_keeps_sec (s : State) (d : Fin 6) (f : TxnDom → TxnDom) : (s.modTxn d f).sec = s.sec := rfl
@[simp] theorem State.modTxn_keeps_upd (s : State) (d : Fin 6) (f : TxnDom → TxnDom) : (s.modTxn d f).upd = s.upd := rfl
@[simp] theorem State.modTxn_keeps_compat (s : State) (d : Fin 6) (f : TxnDom → TxnDom) : (s.modTxn d f).compat = s.compat := rfl
@[simp] theorem State.modTxn_keeps_params (s : State) (d : Fin 6) (f : TxnDom → TxnDom) : (s.modTxn d f).params = s.params := rfl
@[simp] theorem State.modTxn_keeps_ros (s : State) (d : Fin 6) (f : TxnDom → TxnDom) : (s.modTxn d f).ros = s.ros := rfl
@[simp] theorem State.modTxn_keeps_wraps (s : State) (d : Fin 6) (f : TxnDom → TxnDom) : (s.modTxn d f).wraps = s.wraps := rfl
@[simp] theorem State.modTxn_keeps_jrn (s : State) (d : Fin 6) (f : TxnDom → TxnDom) : (s.modTxn d f).jrn = s.jrn := rfl
@[simp] theorem State.modTxn_keeps_jrnOld (s : State) (d : Fin 6) (f : TxnDom → TxnDom) : (s.modTxn d f).jrnOld = s.jrnOld := rfl
@[simp] theorem State.modTxn_keeps_sram (s : State) (d : Fin 6) (f : TxnDom → TxnDom) : (s.modTxn d f).sram = s.sram := rfl
@[simp] theorem State.modTxn_keeps_nor (s : State) (d : Fin 6) (f : TxnDom → TxnDom) : (s.modTxn d f).nor = s.nor := rfl
@[simp] theorem State.modTxn_keeps_free (s : State) (d : Fin 6) (f : TxnDom → TxnDom) : (s.modTxn d f).free = s.free := rfl
@[simp] theorem State.modTxn_keeps_pending (s : State) (d : Fin 6) (f : TxnDom → TxnDom) : (s.modTxn d f).pending = s.pending := rfl

/-! ### State.modCore -/

@[simp] theorem State.modCore_keeps_sys (s : State) (f : BillCore → BillCore) : (s.modCore f).sys = s.sys := rfl
@[simp] theorem State.modCore_keeps_time (s : State) (f : BillCore → BillCore) : (s.modCore f).time = s.time := rfl
@[simp] theorem State.modCore_keeps_bus (s : State) (f : BillCore → BillCore) : (s.modCore f).bus = s.bus := rfl
@[simp] theorem State.modCore_keeps_mbx (s : State) (f : BillCore → BillCore) : (s.modCore f).mbx = s.mbx := rfl
@[simp] theorem State.modCore_keeps_intc (s : State) (f : BillCore → BillCore) : (s.modCore f).intc = s.intc := rfl
@[simp] theorem State.modCore_keeps_eth (s : State) (f : BillCore → BillCore) : (s.modCore f).eth = s.eth := rfl
@[simp] theorem State.modCore_keeps_can (s : State) (f : BillCore → BillCore) : (s.modCore f).can = s.can := rfl
@[simp] theorem State.modCore_keeps_gpio (s : State) (f : BillCore → BillCore) : (s.modCore f).gpio = s.gpio := rfl
@[simp] theorem State.modCore_keeps_met (s : State) (f : BillCore → BillCore) : (s.modCore f).met = s.met := rfl
@[simp] theorem State.modCore_keeps_disp (s : State) (f : BillCore → BillCore) : (s.modCore f).disp = s.disp := rfl
@[simp] theorem State.modCore_keeps_vp (s : State) (f : BillCore → BillCore) : (s.modCore f).vp = s.vp := rfl
@[simp] theorem State.modCore_keeps_slac (s : State) (f : BillCore → BillCore) : (s.modCore f).slac = s.slac := rfl
@[simp] theorem State.modCore_keeps_safe (s : State) (f : BillCore → BillCore) : (s.modCore f).safe = s.safe := rfl
@[simp] theorem State.modCore_keeps_load (s : State) (f : BillCore → BillCore) : (s.modCore f).load = s.load := rfl
@[simp] theorem State.modCore_keeps_txn (s : State) (f : BillCore → BillCore) : (s.modCore f).txn = s.txn := rfl
@[simp] theorem State.modCore_keeps_thl (s : State) (f : BillCore → BillCore) : (s.modCore f).thl = s.thl := rfl
@[simp] theorem State.modCore_keeps_mesh (s : State) (f : BillCore → BillCore) : (s.modCore f).mesh = s.mesh := rfl
@[simp] theorem State.modCore_keeps_dma (s : State) (f : BillCore → BillCore) : (s.modCore f).dma = s.dma := rfl
@[simp] theorem State.modCore_keeps_sec (s : State) (f : BillCore → BillCore) : (s.modCore f).sec = s.sec := rfl
@[simp] theorem State.modCore_keeps_upd (s : State) (f : BillCore → BillCore) : (s.modCore f).upd = s.upd := rfl
@[simp] theorem State.modCore_keeps_compat (s : State) (f : BillCore → BillCore) : (s.modCore f).compat = s.compat := rfl
@[simp] theorem State.modCore_keeps_params (s : State) (f : BillCore → BillCore) : (s.modCore f).params = s.params := rfl
@[simp] theorem State.modCore_keeps_ros (s : State) (f : BillCore → BillCore) : (s.modCore f).ros = s.ros := rfl
@[simp] theorem State.modCore_keeps_wraps (s : State) (f : BillCore → BillCore) : (s.modCore f).wraps = s.wraps := rfl
@[simp] theorem State.modCore_keeps_jrn (s : State) (f : BillCore → BillCore) : (s.modCore f).jrn = s.jrn := rfl
@[simp] theorem State.modCore_keeps_jrnOld (s : State) (f : BillCore → BillCore) : (s.modCore f).jrnOld = s.jrnOld := rfl
@[simp] theorem State.modCore_keeps_sram (s : State) (f : BillCore → BillCore) : (s.modCore f).sram = s.sram := rfl
@[simp] theorem State.modCore_keeps_nor (s : State) (f : BillCore → BillCore) : (s.modCore f).nor = s.nor := rfl
@[simp] theorem State.modCore_keeps_free (s : State) (f : BillCore → BillCore) : (s.modCore f).free = s.free := rfl
@[simp] theorem State.modCore_keeps_pending (s : State) (f : BillCore → BillCore) : (s.modCore f).pending = s.pending := rfl

/-! ### State.setSess -/

@[simp] theorem State.setSess_keeps_sys (s : State) (n : Port) (x : Option Session) : (s.setSess n x).sys = s.sys := rfl
@[simp] theorem State.setSess_keeps_time (s : State) (n : Port) (x : Option Session) : (s.setSess n x).time = s.time := rfl
@[simp] theorem State.setSess_keeps_bus (s : State) (n : Port) (x : Option Session) : (s.setSess n x).bus = s.bus := rfl
@[simp] theorem State.setSess_keeps_mbx (s : State) (n : Port) (x : Option Session) : (s.setSess n x).mbx = s.mbx := rfl
@[simp] theorem State.setSess_keeps_intc (s : State) (n : Port) (x : Option Session) : (s.setSess n x).intc = s.intc := rfl
@[simp] theorem State.setSess_keeps_eth (s : State) (n : Port) (x : Option Session) : (s.setSess n x).eth = s.eth := rfl
@[simp] theorem State.setSess_keeps_can (s : State) (n : Port) (x : Option Session) : (s.setSess n x).can = s.can := rfl
@[simp] theorem State.setSess_keeps_gpio (s : State) (n : Port) (x : Option Session) : (s.setSess n x).gpio = s.gpio := rfl
@[simp] theorem State.setSess_keeps_met (s : State) (n : Port) (x : Option Session) : (s.setSess n x).met = s.met := rfl
@[simp] theorem State.setSess_keeps_disp (s : State) (n : Port) (x : Option Session) : (s.setSess n x).disp = s.disp := rfl
@[simp] theorem State.setSess_keeps_vp (s : State) (n : Port) (x : Option Session) : (s.setSess n x).vp = s.vp := rfl
@[simp] theorem State.setSess_keeps_slac (s : State) (n : Port) (x : Option Session) : (s.setSess n x).slac = s.slac := rfl
@[simp] theorem State.setSess_keeps_safe (s : State) (n : Port) (x : Option Session) : (s.setSess n x).safe = s.safe := rfl
@[simp] theorem State.setSess_keeps_load (s : State) (n : Port) (x : Option Session) : (s.setSess n x).load = s.load := rfl
@[simp] theorem State.setSess_keeps_txn (s : State) (n : Port) (x : Option Session) : (s.setSess n x).txn = s.txn := rfl
@[simp] theorem State.setSess_keeps_thl (s : State) (n : Port) (x : Option Session) : (s.setSess n x).thl = s.thl := rfl
@[simp] theorem State.setSess_keeps_mesh (s : State) (n : Port) (x : Option Session) : (s.setSess n x).mesh = s.mesh := rfl
@[simp] theorem State.setSess_keeps_dma (s : State) (n : Port) (x : Option Session) : (s.setSess n x).dma = s.dma := rfl
@[simp] theorem State.setSess_keeps_sec (s : State) (n : Port) (x : Option Session) : (s.setSess n x).sec = s.sec := rfl
@[simp] theorem State.setSess_keeps_upd (s : State) (n : Port) (x : Option Session) : (s.setSess n x).upd = s.upd := rfl
@[simp] theorem State.setSess_keeps_compat (s : State) (n : Port) (x : Option Session) : (s.setSess n x).compat = s.compat := rfl
@[simp] theorem State.setSess_keeps_params (s : State) (n : Port) (x : Option Session) : (s.setSess n x).params = s.params := rfl
@[simp] theorem State.setSess_keeps_ros (s : State) (n : Port) (x : Option Session) : (s.setSess n x).ros = s.ros := rfl
@[simp] theorem State.setSess_keeps_wraps (s : State) (n : Port) (x : Option Session) : (s.setSess n x).wraps = s.wraps := rfl
@[simp] theorem State.setSess_keeps_jrn (s : State) (n : Port) (x : Option Session) : (s.setSess n x).jrn = s.jrn := rfl
@[simp] theorem State.setSess_keeps_jrnOld (s : State) (n : Port) (x : Option Session) : (s.setSess n x).jrnOld = s.jrnOld := rfl
@[simp] theorem State.setSess_keeps_sram (s : State) (n : Port) (x : Option Session) : (s.setSess n x).sram = s.sram := rfl
@[simp] theorem State.setSess_keeps_nor (s : State) (n : Port) (x : Option Session) : (s.setSess n x).nor = s.nor := rfl
@[simp] theorem State.setSess_keeps_free (s : State) (n : Port) (x : Option Session) : (s.setSess n x).free = s.free := rfl
@[simp] theorem State.setSess_keeps_pending (s : State) (n : Port) (x : Option Session) : (s.setSess n x).pending = s.pending := rfl

/-! ### State.modSess -/

@[simp] theorem State.modSess_keeps_sys (s : State) (n : Port) (f : Session → Session) : (s.modSess n f).sys = s.sys := rfl
@[simp] theorem State.modSess_keeps_time (s : State) (n : Port) (f : Session → Session) : (s.modSess n f).time = s.time := rfl
@[simp] theorem State.modSess_keeps_bus (s : State) (n : Port) (f : Session → Session) : (s.modSess n f).bus = s.bus := rfl
@[simp] theorem State.modSess_keeps_mbx (s : State) (n : Port) (f : Session → Session) : (s.modSess n f).mbx = s.mbx := rfl
@[simp] theorem State.modSess_keeps_intc (s : State) (n : Port) (f : Session → Session) : (s.modSess n f).intc = s.intc := rfl
@[simp] theorem State.modSess_keeps_eth (s : State) (n : Port) (f : Session → Session) : (s.modSess n f).eth = s.eth := rfl
@[simp] theorem State.modSess_keeps_can (s : State) (n : Port) (f : Session → Session) : (s.modSess n f).can = s.can := rfl
@[simp] theorem State.modSess_keeps_gpio (s : State) (n : Port) (f : Session → Session) : (s.modSess n f).gpio = s.gpio := rfl
@[simp] theorem State.modSess_keeps_met (s : State) (n : Port) (f : Session → Session) : (s.modSess n f).met = s.met := rfl
@[simp] theorem State.modSess_keeps_disp (s : State) (n : Port) (f : Session → Session) : (s.modSess n f).disp = s.disp := rfl
@[simp] theorem State.modSess_keeps_vp (s : State) (n : Port) (f : Session → Session) : (s.modSess n f).vp = s.vp := rfl
@[simp] theorem State.modSess_keeps_slac (s : State) (n : Port) (f : Session → Session) : (s.modSess n f).slac = s.slac := rfl
@[simp] theorem State.modSess_keeps_safe (s : State) (n : Port) (f : Session → Session) : (s.modSess n f).safe = s.safe := rfl
@[simp] theorem State.modSess_keeps_load (s : State) (n : Port) (f : Session → Session) : (s.modSess n f).load = s.load := rfl
@[simp] theorem State.modSess_keeps_txn (s : State) (n : Port) (f : Session → Session) : (s.modSess n f).txn = s.txn := rfl
@[simp] theorem State.modSess_keeps_thl (s : State) (n : Port) (f : Session → Session) : (s.modSess n f).thl = s.thl := rfl
@[simp] theorem State.modSess_keeps_mesh (s : State) (n : Port) (f : Session → Session) : (s.modSess n f).mesh = s.mesh := rfl
@[simp] theorem State.modSess_keeps_dma (s : State) (n : Port) (f : Session → Session) : (s.modSess n f).dma = s.dma := rfl
@[simp] theorem State.modSess_keeps_sec (s : State) (n : Port) (f : Session → Session) : (s.modSess n f).sec = s.sec := rfl
@[simp] theorem State.modSess_keeps_upd (s : State) (n : Port) (f : Session → Session) : (s.modSess n f).upd = s.upd := rfl
@[simp] theorem State.modSess_keeps_compat (s : State) (n : Port) (f : Session → Session) : (s.modSess n f).compat = s.compat := rfl
@[simp] theorem State.modSess_keeps_params (s : State) (n : Port) (f : Session → Session) : (s.modSess n f).params = s.params := rfl
@[simp] theorem State.modSess_keeps_ros (s : State) (n : Port) (f : Session → Session) : (s.modSess n f).ros = s.ros := rfl
@[simp] theorem State.modSess_keeps_wraps (s : State) (n : Port) (f : Session → Session) : (s.modSess n f).wraps = s.wraps := rfl
@[simp] theorem State.modSess_keeps_jrn (s : State) (n : Port) (f : Session → Session) : (s.modSess n f).jrn = s.jrn := rfl
@[simp] theorem State.modSess_keeps_jrnOld (s : State) (n : Port) (f : Session → Session) : (s.modSess n f).jrnOld = s.jrnOld := rfl
@[simp] theorem State.modSess_keeps_sram (s : State) (n : Port) (f : Session → Session) : (s.modSess n f).sram = s.sram := rfl
@[simp] theorem State.modSess_keeps_nor (s : State) (n : Port) (f : Session → Session) : (s.modSess n f).nor = s.nor := rfl
@[simp] theorem State.modSess_keeps_free (s : State) (n : Port) (f : Session → Session) : (s.modSess n f).free = s.free := rfl
@[simp] theorem State.modSess_keeps_pending (s : State) (n : Port) (f : Session → Session) : (s.modSess n f).pending = s.pending := rfl

/-! ### State.raise -/

@[simp] theorem State.raise_keeps_sys (s : State) (n : Nat) : (s.raise n).sys = s.sys := rfl
@[simp] theorem State.raise_keeps_time (s : State) (n : Nat) : (s.raise n).time = s.time := rfl
@[simp] theorem State.raise_keeps_bus (s : State) (n : Nat) : (s.raise n).bus = s.bus := rfl
@[simp] theorem State.raise_keeps_mbx (s : State) (n : Nat) : (s.raise n).mbx = s.mbx := rfl
@[simp] theorem State.raise_keeps_eth (s : State) (n : Nat) : (s.raise n).eth = s.eth := rfl
@[simp] theorem State.raise_keeps_can (s : State) (n : Nat) : (s.raise n).can = s.can := rfl
@[simp] theorem State.raise_keeps_gpio (s : State) (n : Nat) : (s.raise n).gpio = s.gpio := rfl
@[simp] theorem State.raise_keeps_met (s : State) (n : Nat) : (s.raise n).met = s.met := rfl
@[simp] theorem State.raise_keeps_bill (s : State) (n : Nat) : (s.raise n).bill = s.bill := rfl
@[simp] theorem State.raise_keeps_disp (s : State) (n : Nat) : (s.raise n).disp = s.disp := rfl
@[simp] theorem State.raise_keeps_vp (s : State) (n : Nat) : (s.raise n).vp = s.vp := rfl
@[simp] theorem State.raise_keeps_slac (s : State) (n : Nat) : (s.raise n).slac = s.slac := rfl
@[simp] theorem State.raise_keeps_safe (s : State) (n : Nat) : (s.raise n).safe = s.safe := rfl
@[simp] theorem State.raise_keeps_load (s : State) (n : Nat) : (s.raise n).load = s.load := rfl
@[simp] theorem State.raise_keeps_txn (s : State) (n : Nat) : (s.raise n).txn = s.txn := rfl
@[simp] theorem State.raise_keeps_thl (s : State) (n : Nat) : (s.raise n).thl = s.thl := rfl
@[simp] theorem State.raise_keeps_mesh (s : State) (n : Nat) : (s.raise n).mesh = s.mesh := rfl
@[simp] theorem State.raise_keeps_dma (s : State) (n : Nat) : (s.raise n).dma = s.dma := rfl
@[simp] theorem State.raise_keeps_sec (s : State) (n : Nat) : (s.raise n).sec = s.sec := rfl
@[simp] theorem State.raise_keeps_upd (s : State) (n : Nat) : (s.raise n).upd = s.upd := rfl
@[simp] theorem State.raise_keeps_compat (s : State) (n : Nat) : (s.raise n).compat = s.compat := rfl
@[simp] theorem State.raise_keeps_params (s : State) (n : Nat) : (s.raise n).params = s.params := rfl
@[simp] theorem State.raise_keeps_ros (s : State) (n : Nat) : (s.raise n).ros = s.ros := rfl
@[simp] theorem State.raise_keeps_wraps (s : State) (n : Nat) : (s.raise n).wraps = s.wraps := rfl
@[simp] theorem State.raise_keeps_jrn (s : State) (n : Nat) : (s.raise n).jrn = s.jrn := rfl
@[simp] theorem State.raise_keeps_jrnOld (s : State) (n : Nat) : (s.raise n).jrnOld = s.jrnOld := rfl
@[simp] theorem State.raise_keeps_sram (s : State) (n : Nat) : (s.raise n).sram = s.sram := rfl
@[simp] theorem State.raise_keeps_nor (s : State) (n : Nat) : (s.raise n).nor = s.nor := rfl
@[simp] theorem State.raise_keeps_free (s : State) (n : Nat) : (s.raise n).free = s.free := rfl
@[simp] theorem State.raise_keeps_pending (s : State) (n : Nat) : (s.raise n).pending = s.pending := rfl

/-! ### State.setBox -/

@[simp] theorem State.setBox_keeps_sys (s : State) (i : MbxId) (x : Mailbox) : (s.setBox i x).sys = s.sys := rfl
@[simp] theorem State.setBox_keeps_time (s : State) (i : MbxId) (x : Mailbox) : (s.setBox i x).time = s.time := rfl
@[simp] theorem State.setBox_keeps_bus (s : State) (i : MbxId) (x : Mailbox) : (s.setBox i x).bus = s.bus := rfl
@[simp] theorem State.setBox_keeps_intc (s : State) (i : MbxId) (x : Mailbox) : (s.setBox i x).intc = s.intc := rfl
@[simp] theorem State.setBox_keeps_eth (s : State) (i : MbxId) (x : Mailbox) : (s.setBox i x).eth = s.eth := rfl
@[simp] theorem State.setBox_keeps_can (s : State) (i : MbxId) (x : Mailbox) : (s.setBox i x).can = s.can := rfl
@[simp] theorem State.setBox_keeps_gpio (s : State) (i : MbxId) (x : Mailbox) : (s.setBox i x).gpio = s.gpio := rfl
@[simp] theorem State.setBox_keeps_met (s : State) (i : MbxId) (x : Mailbox) : (s.setBox i x).met = s.met := rfl
@[simp] theorem State.setBox_keeps_bill (s : State) (i : MbxId) (x : Mailbox) : (s.setBox i x).bill = s.bill := rfl
@[simp] theorem State.setBox_keeps_disp (s : State) (i : MbxId) (x : Mailbox) : (s.setBox i x).disp = s.disp := rfl
@[simp] theorem State.setBox_keeps_vp (s : State) (i : MbxId) (x : Mailbox) : (s.setBox i x).vp = s.vp := rfl
@[simp] theorem State.setBox_keeps_slac (s : State) (i : MbxId) (x : Mailbox) : (s.setBox i x).slac = s.slac := rfl
@[simp] theorem State.setBox_keeps_safe (s : State) (i : MbxId) (x : Mailbox) : (s.setBox i x).safe = s.safe := rfl
@[simp] theorem State.setBox_keeps_load (s : State) (i : MbxId) (x : Mailbox) : (s.setBox i x).load = s.load := rfl
@[simp] theorem State.setBox_keeps_txn (s : State) (i : MbxId) (x : Mailbox) : (s.setBox i x).txn = s.txn := rfl
@[simp] theorem State.setBox_keeps_thl (s : State) (i : MbxId) (x : Mailbox) : (s.setBox i x).thl = s.thl := rfl
@[simp] theorem State.setBox_keeps_mesh (s : State) (i : MbxId) (x : Mailbox) : (s.setBox i x).mesh = s.mesh := rfl
@[simp] theorem State.setBox_keeps_dma (s : State) (i : MbxId) (x : Mailbox) : (s.setBox i x).dma = s.dma := rfl
@[simp] theorem State.setBox_keeps_sec (s : State) (i : MbxId) (x : Mailbox) : (s.setBox i x).sec = s.sec := rfl
@[simp] theorem State.setBox_keeps_upd (s : State) (i : MbxId) (x : Mailbox) : (s.setBox i x).upd = s.upd := rfl
@[simp] theorem State.setBox_keeps_compat (s : State) (i : MbxId) (x : Mailbox) : (s.setBox i x).compat = s.compat := rfl
@[simp] theorem State.setBox_keeps_params (s : State) (i : MbxId) (x : Mailbox) : (s.setBox i x).params = s.params := rfl
@[simp] theorem State.setBox_keeps_ros (s : State) (i : MbxId) (x : Mailbox) : (s.setBox i x).ros = s.ros := rfl
@[simp] theorem State.setBox_keeps_wraps (s : State) (i : MbxId) (x : Mailbox) : (s.setBox i x).wraps = s.wraps := rfl
@[simp] theorem State.setBox_keeps_jrn (s : State) (i : MbxId) (x : Mailbox) : (s.setBox i x).jrn = s.jrn := rfl
@[simp] theorem State.setBox_keeps_jrnOld (s : State) (i : MbxId) (x : Mailbox) : (s.setBox i x).jrnOld = s.jrnOld := rfl
@[simp] theorem State.setBox_keeps_sram (s : State) (i : MbxId) (x : Mailbox) : (s.setBox i x).sram = s.sram := rfl
@[simp] theorem State.setBox_keeps_nor (s : State) (i : MbxId) (x : Mailbox) : (s.setBox i x).nor = s.nor := rfl
@[simp] theorem State.setBox_keeps_free (s : State) (i : MbxId) (x : Mailbox) : (s.setBox i x).free = s.free := rfl
@[simp] theorem State.setBox_keeps_pending (s : State) (i : MbxId) (x : Mailbox) : (s.setBox i x).pending = s.pending := rfl

/-! ### State.busOk -/

@[simp] theorem State.busOk_keeps_sys (s : State) (v : Word) : (s.busOk v).sys = s.sys := rfl
@[simp] theorem State.busOk_keeps_time (s : State) (v : Word) : (s.busOk v).time = s.time := rfl
@[simp] theorem State.busOk_keeps_mbx (s : State) (v : Word) : (s.busOk v).mbx = s.mbx := rfl
@[simp] theorem State.busOk_keeps_intc (s : State) (v : Word) : (s.busOk v).intc = s.intc := rfl
@[simp] theorem State.busOk_keeps_eth (s : State) (v : Word) : (s.busOk v).eth = s.eth := rfl
@[simp] theorem State.busOk_keeps_can (s : State) (v : Word) : (s.busOk v).can = s.can := rfl
@[simp] theorem State.busOk_keeps_gpio (s : State) (v : Word) : (s.busOk v).gpio = s.gpio := rfl
@[simp] theorem State.busOk_keeps_met (s : State) (v : Word) : (s.busOk v).met = s.met := rfl
@[simp] theorem State.busOk_keeps_bill (s : State) (v : Word) : (s.busOk v).bill = s.bill := rfl
@[simp] theorem State.busOk_keeps_disp (s : State) (v : Word) : (s.busOk v).disp = s.disp := rfl
@[simp] theorem State.busOk_keeps_vp (s : State) (v : Word) : (s.busOk v).vp = s.vp := rfl
@[simp] theorem State.busOk_keeps_slac (s : State) (v : Word) : (s.busOk v).slac = s.slac := rfl
@[simp] theorem State.busOk_keeps_safe (s : State) (v : Word) : (s.busOk v).safe = s.safe := rfl
@[simp] theorem State.busOk_keeps_load (s : State) (v : Word) : (s.busOk v).load = s.load := rfl
@[simp] theorem State.busOk_keeps_txn (s : State) (v : Word) : (s.busOk v).txn = s.txn := rfl
@[simp] theorem State.busOk_keeps_thl (s : State) (v : Word) : (s.busOk v).thl = s.thl := rfl
@[simp] theorem State.busOk_keeps_mesh (s : State) (v : Word) : (s.busOk v).mesh = s.mesh := rfl
@[simp] theorem State.busOk_keeps_dma (s : State) (v : Word) : (s.busOk v).dma = s.dma := rfl
@[simp] theorem State.busOk_keeps_sec (s : State) (v : Word) : (s.busOk v).sec = s.sec := rfl
@[simp] theorem State.busOk_keeps_upd (s : State) (v : Word) : (s.busOk v).upd = s.upd := rfl
@[simp] theorem State.busOk_keeps_compat (s : State) (v : Word) : (s.busOk v).compat = s.compat := rfl
@[simp] theorem State.busOk_keeps_params (s : State) (v : Word) : (s.busOk v).params = s.params := rfl
@[simp] theorem State.busOk_keeps_ros (s : State) (v : Word) : (s.busOk v).ros = s.ros := rfl
@[simp] theorem State.busOk_keeps_wraps (s : State) (v : Word) : (s.busOk v).wraps = s.wraps := rfl
@[simp] theorem State.busOk_keeps_jrn (s : State) (v : Word) : (s.busOk v).jrn = s.jrn := rfl
@[simp] theorem State.busOk_keeps_jrnOld (s : State) (v : Word) : (s.busOk v).jrnOld = s.jrnOld := rfl
@[simp] theorem State.busOk_keeps_sram (s : State) (v : Word) : (s.busOk v).sram = s.sram := rfl
@[simp] theorem State.busOk_keeps_nor (s : State) (v : Word) : (s.busOk v).nor = s.nor := rfl
@[simp] theorem State.busOk_keeps_free (s : State) (v : Word) : (s.busOk v).free = s.free := rfl
@[simp] theorem State.busOk_keeps_pending (s : State) (v : Word) : (s.busOk v).pending = s.pending := rfl

/-! ### State.busErr -/

@[simp] theorem State.busErr_keeps_sys (s : State) : (s.busErr).sys = s.sys := rfl
@[simp] theorem State.busErr_keeps_time (s : State) : (s.busErr).time = s.time := rfl
@[simp] theorem State.busErr_keeps_mbx (s : State) : (s.busErr).mbx = s.mbx := rfl
@[simp] theorem State.busErr_keeps_intc (s : State) : (s.busErr).intc = s.intc := rfl
@[simp] theorem State.busErr_keeps_eth (s : State) : (s.busErr).eth = s.eth := rfl
@[simp] theorem State.busErr_keeps_can (s : State) : (s.busErr).can = s.can := rfl
@[simp] theorem State.busErr_keeps_gpio (s : State) : (s.busErr).gpio = s.gpio := rfl
@[simp] theorem State.busErr_keeps_met (s : State) : (s.busErr).met = s.met := rfl
@[simp] theorem State.busErr_keeps_bill (s : State) : (s.busErr).bill = s.bill := rfl
@[simp] theorem State.busErr_keeps_disp (s : State) : (s.busErr).disp = s.disp := rfl
@[simp] theorem State.busErr_keeps_vp (s : State) : (s.busErr).vp = s.vp := rfl
@[simp] theorem State.busErr_keeps_slac (s : State) : (s.busErr).slac = s.slac := rfl
@[simp] theorem State.busErr_keeps_safe (s : State) : (s.busErr).safe = s.safe := rfl
@[simp] theorem State.busErr_keeps_load (s : State) : (s.busErr).load = s.load := rfl
@[simp] theorem State.busErr_keeps_txn (s : State) : (s.busErr).txn = s.txn := rfl
@[simp] theorem State.busErr_keeps_thl (s : State) : (s.busErr).thl = s.thl := rfl
@[simp] theorem State.busErr_keeps_mesh (s : State) : (s.busErr).mesh = s.mesh := rfl
@[simp] theorem State.busErr_keeps_dma (s : State) : (s.busErr).dma = s.dma := rfl
@[simp] theorem State.busErr_keeps_sec (s : State) : (s.busErr).sec = s.sec := rfl
@[simp] theorem State.busErr_keeps_upd (s : State) : (s.busErr).upd = s.upd := rfl
@[simp] theorem State.busErr_keeps_compat (s : State) : (s.busErr).compat = s.compat := rfl
@[simp] theorem State.busErr_keeps_params (s : State) : (s.busErr).params = s.params := rfl
@[simp] theorem State.busErr_keeps_ros (s : State) : (s.busErr).ros = s.ros := rfl
@[simp] theorem State.busErr_keeps_wraps (s : State) : (s.busErr).wraps = s.wraps := rfl
@[simp] theorem State.busErr_keeps_jrn (s : State) : (s.busErr).jrn = s.jrn := rfl
@[simp] theorem State.busErr_keeps_jrnOld (s : State) : (s.busErr).jrnOld = s.jrnOld := rfl
@[simp] theorem State.busErr_keeps_sram (s : State) : (s.busErr).sram = s.sram := rfl
@[simp] theorem State.busErr_keeps_nor (s : State) : (s.busErr).nor = s.nor := rfl
@[simp] theorem State.busErr_keeps_free (s : State) : (s.busErr).free = s.free := rfl
@[simp] theorem State.busErr_keeps_pending (s : State) : (s.busErr).pending = s.pending := rfl

end Sys2Proof.Machine
end

