-- ==== Sys2Proof/Laws/Calls.lean ====
section
/-! SUPPORT. What a register write and a mailbox call come to when the device takes them: the state that a call's body meets, and
the state after its answer. -/

namespace Sys2Proof.Machine

/-! ### Register writes -/

theorem live_running {s : State} (h : Runs s) (f : State → State) : live s f = .next (f s) := by
  unfold Runs at h
  simp [live, h]

theorem live_stopped {s : State} (h : s.sys.power ≠ .running) (f : State → State) : live s f = .next s := by
  simp [live, h]

theorem kernel_running {s : State} (h : Runs s) (hk : kernelUp s = true) (f : State → State) :
    kernel s f = .next (f s) := by
  rw [kernel, live_running h, if_pos hk]

@[simp] theorem blkUp_tagged (s : State) (k : BlkKind) (n : Nat) : blkUp s.tagged k n = blkUp s k n := rfl

/-- A request that meets the tags of another of the same access adds none. -/
theorem State.tagged_tagged (s : State) : s.tagged.tagged = s.tagged := by
  have h : dmaTags s ≤ 46 := Nat.le_trans (Nat.min_le_left _ _) (by decide)
  have hp := s.mesh.peak.isLt
  have hm : max s.mesh.peak.toNat (dmaTags s + 1) % 2 ^ 7 = max s.mesh.peak.toNat (dmaTags s + 1) :=
    Nat.mod_eq_of_lt (by omega)
  show ({ s with mesh.peak := BitVec.ofNat 7 (max (max s.mesh.peak.toNat (dmaTags s + 1) % 2 ^ 7) (dmaTags s + 1)) } : State) = _
  rw [hm, Nat.max_eq_left (Nat.le_max_right _ _)]
  rfl

/-- A write that its block takes: its tag, the effect on the state with the block's COMPAT settled, then the bus response. -/
theorem onBlock_up {k : BlkKind} {n : Nat} {s : State} (h : blkUp s k n = true) (f : State → State) :
    onBlock k n s f =
      { f { s.tagged with compat := vmod s.compat (blkIdx k n) fun v => { v with locked := true } } with
        bus := { err := false, data := 0 } } := by
  show (if blkUp s k n = true then _ else _) = _
  rw [if_pos h]
  rfl

theorem access_taken {k : BlkKind} {n : Nat} {s : State} (h : Answers k n s) (f : State → State) :
    access k n s f = .next
      { f { s.tagged with compat := vmod s.compat (blkIdx k n) fun v => { v with locked := true } } with
        bus := { err := false, data := 0 } } := by
  rw [access, live_running h.1, onBlock_up h.2]

/-- A write to a block whose COMPAT is 0x0000 changes nothing but the bus response (R358). -/
theorem access_refused {k : BlkKind} {n : Nat} {s : State} (h : Runs s) (hb : blkUp s k n = false) (f : State → State) :
    access k n s f = .next s.tagged.busErr := by
  rw [access, live_running h]
  simp [onBlock, hb]

/-! ### Mailbox calls -/

/-- The state that the body of a call meets: arguments, command word and CALL_NO are in the mailbox. -/
def called (i : MbxId) (cmd : Nat) (c : Call) (s : State) : State :=
  ({ s.tagged with compat := vmod s.compat (blkIdx (mbxBlk i) 0) fun v => { v with locked := true } }).setBox i
    { s.box i with
      arg := callArgs i c s
      cmd := wd (at_ (svcCode i) 24 + at_ c.sver.toNat 16 + cmd)
      callNo := (s.box i).callNo + 1 }

/-- The state after a call whose body gave an answer: the answer is in the mailbox, and the bus has responded. -/
def afterCall (i : MbxId) (r : Reply) : State := { answered i r with bus := { err := false, data := 0 } }

theorem cmd_fields (i : MbxId) (b cmd : Nat) (hb : b < 256) (hc : cmd < 65536) :
    field (wd (at_ (svcCode i) 24 + at_ b 16 + cmd)) 31 24 = svcCode i
      ∧ field (wd (at_ (svcCode i) 24 + at_ b 16 + cmd)) 23 16 = b
      ∧ field (wd (at_ (svcCode i) 24 + at_ b 16 + cmd)) 15 0 = cmd := by
  have hs : svcCode i < 256 := by cases i <;> decide
  have hlt : at_ (svcCode i) 24 + at_ b 16 + cmd < 2 ^ 32 := by simp only [at_]; omega
  simp only [field, bitsOf, wd, BitVec.toNat_ofNat, Nat.mod_eq_of_lt hlt, Nat.shiftRight_eq_div_pow]
  simp only [at_]
  refine ⟨?_, ?_, ?_⟩ <;> omega

/-- A call that its service takes runs its body once and answers. -/
theorem mbxCall_taken {i : MbxId} {cmd : Nat} {c : Call} {s : State} (body : Vector Word 16 → State → Reply)
    (h : CanCall i c s) (h0 : 0 < cmd) (h1 : cmd < 65536) :
    mbxCall i cmd c body s = afterCall i (body (callArgs i c s) (called i cmd c s)) := by
  obtain ⟨⟨_, hu⟩, hbusy, hpend, hv, hw⟩ := h
  obtain ⟨f1, f2, f3⟩ := cmd_fields i c.sver.toNat cmd c.sver.isLt h1
  have fc : cmdOf i (wd (at_ (svcCode i) 24 + at_ c.sver.toNat 16 + cmd)) = cmd := by
    unfold cmdOf
    rw [f1, f3, if_pos rfl]
  have hbox : ∀ x y, (({ s.tagged with compat := y }).setBox i x).box i = x := fun x y => box_setBox_self _ i x
  have hsame : ∀ x y z, (({ s.tagged with compat := y }).setBox i x).setBox i z = ({ s.tagged with compat := y }).setBox i z := by
    intro x y z; cases i <;> rfl
  have hb0 : ∀ y, ({ s.tagged with compat := y } : State).box i = s.box i := by intro y; cases i <;> rfl
  have hw' : ∀ x y, wholeRefused (({ s.tagged with compat := y }).setBox i x) i = false := by
    intro x y; cases i <;> exact hw
  unfold mbxCall
  rw [onBlock_up hu]
  dsimp only [ring]
  rw [hbox, hb0, if_neg (by simp [hbusy, hpend]), hsame]
  simp only [fc, f2, ne_eq, not_true_eq_false, if_false, Nat.ne_of_gt h0, hw', Bool.false_eq_true]
  rw [if_neg (by simp [hv])]
  rfl

/-- A call as a command, when its service takes it. -/
theorem exec_call {i : MbxId} {cmd : Nat} {c : Call} {s : State} (body : Vector Word 16 → State → Reply)
    (h : CanCall i c s) (h0 : 0 < cmd) (h1 : cmd < 65536) :
    live s (mbxCall i cmd c body) = .next (afterCall i (body (callArgs i c s) (called i cmd c s))) := by
  rw [live_running h.1.1, mbxCall_taken body h h0 h1]

/-! ### What a call leaves beside its effect -/

@[simp] theorem called_sys (i : MbxId) (cmd : Nat) (c : Call) (s : State) : (called i cmd c s).sys = s.sys := rfl
@[simp] theorem called_time (i : MbxId) (cmd : Nat) (c : Call) (s : State) : (called i cmd c s).time = s.time := rfl
@[simp] theorem called_bus (i : MbxId) (cmd : Nat) (c : Call) (s : State) : (called i cmd c s).bus = s.bus := rfl
@[simp] theorem called_intc (i : MbxId) (cmd : Nat) (c : Call) (s : State) : (called i cmd c s).intc = s.intc := rfl
@[simp] theorem called_eth (i : MbxId) (cmd : Nat) (c : Call) (s : State) : (called i cmd c s).eth = s.eth := rfl
@[simp] theorem called_can (i : MbxId) (cmd : Nat) (c : Call) (s : State) : (called i cmd c s).can = s.can := rfl
@[simp] theorem called_gpio (i : MbxId) (cmd : Nat) (c : Call) (s : State) : (called i cmd c s).gpio = s.gpio := rfl
@[simp] theorem called_met (i : MbxId) (cmd : Nat) (c : Call) (s : State) : (called i cmd c s).met = s.met := rfl
@[simp] theorem called_bill (i : MbxId) (cmd : Nat) (c : Call) (s : State) : (called i cmd c s).bill = s.bill := rfl
@[simp] theorem called_disp (i : MbxId) (cmd : Nat) (c : Call) (s : State) : (called i cmd c s).disp = s.disp := rfl
@[simp] theorem called_vp (i : MbxId) (cmd : Nat) (c : Call) (s : State) : (called i cmd c s).vp = s.vp := rfl
@[simp] theorem called_slac (i : MbxId) (cmd : Nat) (c : Call) (s : State) : (called i cmd c s).slac = s.slac := rfl
@[simp] theorem called_safe (i : MbxId) (cmd : Nat) (c : Call) (s : State) : (called i cmd c s).safe = s.safe := rfl
@[simp] theorem called_load (i : MbxId) (cmd : Nat) (c : Call) (s : State) : (called i cmd c s).load = s.load := rfl
@[simp] theorem called_txn (i : MbxId) (cmd : Nat) (c : Call) (s : State) : (called i cmd c s).txn = s.txn := rfl
@[simp] theorem called_thl (i : MbxId) (cmd : Nat) (c : Call) (s : State) : (called i cmd c s).thl = s.thl := rfl
@[simp] theorem called_mesh (i : MbxId) (cmd : Nat) (c : Call) (s : State) : (called i cmd c s).mesh = s.tagged.mesh := rfl
@[simp] theorem called_dma (i : MbxId) (cmd : Nat) (c : Call) (s : State) : (called i cmd c s).dma = s.dma := rfl
@[simp] theorem called_sec (i : MbxId) (cmd : Nat) (c : Call) (s : State) : (called i cmd c s).sec = s.sec := rfl
@[simp] theorem called_upd (i : MbxId) (cmd : Nat) (c : Call) (s : State) : (called i cmd c s).upd = s.upd := rfl
@[simp] theorem called_params (i : MbxId) (cmd : Nat) (c : Call) (s : State) : (called i cmd c s).params = s.params := rfl
@[simp] theorem called_ros (i : MbxId) (cmd : Nat) (c : Call) (s : State) : (called i cmd c s).ros = s.ros := rfl
@[simp] theorem called_wraps (i : MbxId) (cmd : Nat) (c : Call) (s : State) : (called i cmd c s).wraps = s.wraps := rfl
@[simp] theorem called_jrn (i : MbxId) (cmd : Nat) (c : Call) (s : State) : (called i cmd c s).jrn = s.jrn := rfl
@[simp] theorem called_sram (i : MbxId) (cmd : Nat) (c : Call) (s : State) : (called i cmd c s).sram = s.sram := rfl
@[simp] theorem called_nor (i : MbxId) (cmd : Nat) (c : Call) (s : State) : (called i cmd c s).nor = s.nor := rfl
@[simp] theorem called_free (i : MbxId) (cmd : Nat) (c : Call) (s : State) : (called i cmd c s).free = s.free := rfl
@[simp] theorem called_pending (i : MbxId) (cmd : Nat) (c : Call) (s : State) : (called i cmd c s).pending = s.pending := rfl

/-- An answer changes the mailboxes and the bus response only. -/
theorem afterCall_eq (i : MbxId) (r : Reply) :
    afterCall i r = { r.s with mbx := (answered i r).mbx, bus := { err := false, data := 0 } } := by
  unfold afterCall answered
  split <;> rfl

@[simp] theorem afterCall_sys (i : MbxId) (r : Reply) : (afterCall i r).sys = r.s.sys := by
  rw [afterCall_eq]
@[simp] theorem afterCall_time (i : MbxId) (r : Reply) : (afterCall i r).time = r.s.time := by
  rw [afterCall_eq]
@[simp] theorem afterCall_intc (i : MbxId) (r : Reply) : (afterCall i r).intc = r.s.intc := by
  rw [afterCall_eq]
@[simp] theorem afterCall_eth (i : MbxId) (r : Reply) : (afterCall i r).eth = r.s.eth := by
  rw [afterCall_eq]
@[simp] theorem afterCall_can (i : MbxId) (r : Reply) : (afterCall i r).can = r.s.can := by
  rw [afterCall_eq]
@[simp] theorem afterCall_gpio (i : MbxId) (r : Reply) : (afterCall i r).gpio = r.s.gpio := by
  rw [afterCall_eq]
@[simp] theorem afterCall_met (i : MbxId) (r : Reply) : (afterCall i r).met = r.s.met := by
  rw [afterCall_eq]
@[simp] theorem afterCall_bill (i : MbxId) (r : Reply) : (afterCall i r).bill = r.s.bill := by
  rw [afterCall_eq]
@[simp] theorem afterCall_disp (i : MbxId) (r : Reply) : (afterCall i r).disp = r.s.disp := by
  rw [afterCall_eq]
@[simp] theorem afterCall_vp (i : MbxId) (r : Reply) : (afterCall i r).vp = r.s.vp := by
  rw [afterCall_eq]
@[simp] theorem afterCall_slac (i : MbxId) (r : Reply) : (afterCall i r).slac = r.s.slac := by
  rw [afterCall_eq]
@[simp] theorem afterCall_safe (i : MbxId) (r : Reply) : (afterCall i r).safe = r.s.safe := by
  rw [afterCall_eq]
@[simp] theorem afterCall_load (i : MbxId) (r : Reply) : (afterCall i r).load = r.s.load := by
  rw [afterCall_eq]
@[simp] theorem afterCall_txn (i : MbxId) (r : Reply) : (afterCall i r).txn = r.s.txn := by
  rw [afterCall_eq]
@[simp] theorem afterCall_thl (i : MbxId) (r : Reply) : (afterCall i r).thl = r.s.thl := by
  rw [afterCall_eq]
@[simp] theorem afterCall_mesh (i : MbxId) (r : Reply) : (afterCall i r).mesh = r.s.mesh := by
  rw [afterCall_eq]
@[simp] theorem afterCall_dma (i : MbxId) (r : Reply) : (afterCall i r).dma = r.s.dma := by
  rw [afterCall_eq]
@[simp] theorem afterCall_sec (i : MbxId) (r : Reply) : (afterCall i r).sec = r.s.sec := by
  rw [afterCall_eq]
@[simp] theorem afterCall_upd (i : MbxId) (r : Reply) : (afterCall i r).upd = r.s.upd := by
  rw [afterCall_eq]
@[simp] theorem afterCall_params (i : MbxId) (r : Reply) : (afterCall i r).params = r.s.params := by
  rw [afterCall_eq]
@[simp] theorem afterCall_ros (i : MbxId) (r : Reply) : (afterCall i r).ros = r.s.ros := by
  rw [afterCall_eq]
@[simp] theorem afterCall_wraps (i : MbxId) (r : Reply) : (afterCall i r).wraps = r.s.wraps := by
  rw [afterCall_eq]
@[simp] theorem afterCall_jrn (i : MbxId) (r : Reply) : (afterCall i r).jrn = r.s.jrn := by
  rw [afterCall_eq]
@[simp] theorem afterCall_sram (i : MbxId) (r : Reply) : (afterCall i r).sram = r.s.sram := by
  rw [afterCall_eq]
@[simp] theorem afterCall_nor (i : MbxId) (r : Reply) : (afterCall i r).nor = r.s.nor := by
  rw [afterCall_eq]
@[simp] theorem afterCall_free (i : MbxId) (r : Reply) : (afterCall i r).free = r.s.free := by
  rw [afterCall_eq]
@[simp] theorem afterCall_pending (i : MbxId) (r : Reply) : (afterCall i r).pending = r.s.pending := by
  rw [afterCall_eq]
@[simp] theorem afterCall_compat (i : MbxId) (r : Reply) : (afterCall i r).compat = r.s.compat := by
  rw [afterCall_eq]
@[simp] theorem afterCall_bus (i : MbxId) (r : Reply) : (afterCall i r).bus = { err := false, data := 0 } := rfl

theorem called_box_other {i j : MbxId} {cmd : Nat} {c : Call} {s : State} (h : j ≠ i) : (called i cmd c s).box j = s.box j :=
  box_setBox_other _ i j _ h

theorem afterCall_box (i : MbxId) (r : Reply) (h : r.what ≠ some .snapshot) :
    (afterCall i r).box i = { r.s.box i with
      status := r.st.code, res := setFrom (r.s.box i).res 0 r.res, pend := r.st == .accepted, what := r.what } := by
  unfold afterCall answered
  rw [if_neg h]
  exact box_setBox_self r.s i _

/-- SNAPSHOT holds its mailbox BUSY, with no status, until its buffer is written (R115). -/
theorem afterCall_box_snapshot (i : MbxId) (r : Reply) (h : r.what = some .snapshot) :
    (afterCall i r).box i = { r.s.box i with busy := true, what := some .snapshot } := by
  unfold afterCall answered
  rw [if_pos h, h]
  exact box_setBox_self r.s i _

theorem afterCall_box_other {i j : MbxId} {r : Reply} (h : j ≠ i) : (afterCall i r).box j = r.s.box j := by
  unfold afterCall answered
  split
  · exact box_setBox_other r.s i j _ h
  · exact box_setBox_other r.s i j _ h

/-! ### Results -/

theorem setFrom_before {l : List Word} : ∀ {v : Vector Word 16} {i : Nat} {k : Fin 16}, k.val < i → (setFrom v i l)[k] = v[k] := by
  induction l with
  | nil => intro v i k _; rfl
  | cons w r ih =>
    intro v i k hk
    unfold setFrom
    split
    · rename_i h
      rw [ih (by omega)]
      simp [show ¬ i = k.val by omega]
    · rfl

theorem setFrom_get {l : List Word} : ∀ {v : Vector Word 16} {i : Nat} {k : Fin 16} {w : Word},
    i ≤ k.val → l[k.val - i]? = some w → (setFrom v i l)[k] = w := by
  induction l with
  | nil => intro v i k w _ h; simp at h
  | cons x r ih =>
    intro v i k w hk h
    have hi : i < 16 := by omega
    unfold setFrom
    simp only [hi, dif_pos]
    by_cases he : i = k.val
    · subst he
      rw [setFrom_before (by omega)]
      simp only [Nat.sub_self, List.getElem?_cons_zero, Option.some.injEq] at h
      simp [h]
    · refine ih (by omega) ?_
      rw [show k.val - i = (k.val - (i + 1)) + 1 by omega] at h
      simpa using h

/-- What a body answers is what the mailbox then holds. -/
theorem afterCall_returns (i : MbxId) (r : Reply) (hr : r.what ≠ some .snapshot) : Returns i r.st r.res (afterCall i r) := by
  refine ⟨?_, ?_, ?_⟩
  · rw [afterCall_box _ _ hr]
  · rw [afterCall_box _ _ hr]
  · intro k w h
    rw [afterCall_box _ _ hr]
    exact setFrom_get (Nat.zero_le _) (by simpa using h)

/-- A call whose body changes no part of the state changes its mailbox only. -/
theorem afterCall_onlyBox (i : MbxId) (cmd : Nat) (c : Call) (s : State) (st : Status) (res : List Word) (p : Option Pending) :
    OnlyBox i s (afterCall i { s := called i cmd c s, st := st, res := res, what := p }) := by
  refine ⟨?_, fun j h => ?_⟩
  · rw [afterCall_eq]
    rfl
  rw [afterCall_box_other h]
  exact called_box_other h

end Sys2Proof.Machine
end

