-- ==== Sys2Proof/Laws/Crypto.lean ====
section
/-! SUPPORT. The lengths of what the algorithms of the security engine return. -/

namespace Sys2Proof.Machine

theorem leBytes_length (n v : Nat) : (leBytes n v).length = n := by
  induction n generalizing v with
  | zero => rfl
  | succ n ih => simp [leBytes, ih]

theorem beBytes_length (n v : Nat) : (beBytes n v).length = n := by simp [beBytes, leBytes_length]

theorem blocksGo_length {α : Type} {n : Nat} (hn : 0 < n) :
    ∀ {f : Nat} {l : List α} {k : Nat}, l.length = n * k → k ≤ f →
      (blocksGo n f l).length = k ∧ ∀ b ∈ blocksGo n f l, b.length = n := by
  intro f
  induction f with
  | zero => intro l k h hk; obtain rfl : k = 0 := by omega
            simp [blocksGo]
  | succ f ih =>
    intro l k h hk
    rcases k with _ | k
    · obtain rfl : l = [] := List.length_eq_zero_iff.mp h
      simp [blocksGo]
    · have hl : n ≤ l.length := by rw [h]; exact Nat.le_mul_of_pos_right n (by omega)
      have hd : (l.drop n).length = n * k := by rw [List.length_drop, h, Nat.mul_succ]; omega
      obtain ⟨h1, h2⟩ := ih hd (by omega)
      have he : l.isEmpty = false := by
        cases l with
        | nil => exact absurd hl (Nat.not_le.mpr hn)
        | cons => rfl
      simp only [blocksGo, he, Bool.false_eq_true, if_false, List.length_cons, h1, List.mem_cons, forall_eq_or_imp,
        List.length_take, true_and]
      exact ⟨Nat.min_eq_left hl, h2⟩

theorem blocks_length {α : Type} {n k : Nat} {l : List α} (hn : 0 < n) (h : l.length = n * k) :
    (blocks n l).length = k ∧ ∀ b ∈ blocks n l, b.length = n :=
  blocksGo_length hn h (by rw [h]; exact Nat.le_mul_of_pos_left k hn)

theorem mem_blocksGo {α : Type} {n : Nat} : ∀ {f : Nat} {l b : List α}, b ∈ blocksGo n f l → ∀ x ∈ b, x ∈ l := by
  intro f
  induction f with
  | zero => intro l b h; simp [blocksGo] at h
  | succ f ih =>
    intro l b h x hx
    rw [blocksGo] at h
    split at h
    · simp at h
    · rcases List.mem_cons.mp h with rfl | h
      · exact List.mem_of_mem_take hx
      · exact List.mem_of_mem_drop (ih h x hx)

/-! ### SHA-256 and HKDF -/

theorem foldl_length {α β : Type} {k : Nat} {g : List β → α → List β} (hg : ∀ v x, v.length = k → (g v x).length = k) :
    ∀ (l : List α) (v : List β), v.length = k → (l.foldl g v).length = k := by
  intro l
  induction l with
  | nil => exact fun _ h => h
  | cons x l ih => exact fun v hv => ih _ (hg v x hv)

theorem shaBlock_length (w : Nat) (ks : List Nat) (b0 b1 s0 s1 : Nat → Nat) (h : List Nat) (blk : List Byte)
    (hh : h.length = 8) : (shaBlock w ks b0 b1 s0 s1 h blk).length = 8 := by
  simp only [shaBlock, List.length_zipWith, hh]
  refine (congrArg (min 8) (foldl_length ?_ _ _ hh)).trans rfl
  rintro v x hv
  rcases v with _ | ⟨a, _ | ⟨b, _ | ⟨c, _ | ⟨d, _ | ⟨e, _ | ⟨f, _ | ⟨g, _ | ⟨i, _ | ⟨j, v⟩⟩⟩⟩⟩⟩⟩⟩⟩ <;> simp_all

theorem sha256_length (m : List Byte) : (sha256 m).length = 32 := by
  have h0 : (shaInit 32 0).length = 8 := by decide +kernel
  have h := foldl_length (fun v x hv => shaBlock_length 32 k256 (sig3 32 2 13 22 false) (sig3 32 6 11 25 false)
    (sig3 32 7 18 3 true) (sig3 32 17 19 10 true) v x hv) (blocks 64 (shaPad 32 m)) _ h0
  rw [sha256, List.length_flatten, List.map_map, show List.length ∘ beBytes 4 = fun _ => 4 from
    funext fun v => beBytes_length 4 v, List.map_const', List.sum_replicate_nat]
  exact congrArg (· * 4) h

theorem hkdf256_length (salt ikm info : List Byte) (n : Nat) (hn : n ≤ 64) : (hkdf256 salt ikm info n).length = n := by
  simp only [hkdf256, List.length_take, List.length_append, hmac256, sha256_length]
  omega

/-! ### AES and GCM under a 32-byte key -/

theorem expandGo_length (nk : Nat) (hk : 0 < nk) : ∀ f i r w, nk ≤ w.length → (∀ x ∈ w, x.length = 4) →
    (expandGo nk f i r w).length = f + w.length ∧ ∀ x ∈ expandGo nk f i r w, x.length = 4 := by
  intro f
  induction f with
  | zero => intro i r w h1 h2; exact ⟨by simp [expandGo], h2⟩
  | succ f ih =>
    intro i r w h1 h2
    rw [expandGo]
    have hw : ∀ j, j < w.length → (w.getD j []).length = 4 := fun j h => by
      simpa [List.getD, List.getElem?_eq_getElem h] using h2 _ (List.getElem_mem h)
    have hp : (w.headD []).length = 4 := by
      rcases w with _ | ⟨x, w⟩
      · simp at h1; omega
      · exact h2 x (by simp)
    refine (fun z => ⟨by rw [z.1]; simp; omega, z.2⟩) (ih _ _ _ (by simp; omega) ?_)
    intro x hx
    rcases List.mem_cons.mp hx with rfl | hx
    · simp only [xorNat, List.length_zipWith, hw (nk - 1) (by omega)]
      have hr : (((w.headD []).drop 1 ++ (w.headD []).take 1).map sbox).length = 4 := by
        simp only [List.length_map, List.length_append, List.length_drop, List.length_take, hp]; rfl
      have ht : ∀ t : List Nat, t.length = 4 → min 4 t.length = 4 := fun t h => by rw [h]; rfl
      apply ht
      split
      · split
        · rename_i a l he; rw [he] at hr; simpa using hr
        · rename_i he; rw [he] at hr; simp at hr
      · split
        · rw [List.length_map]; exact hp
        · exact hp
    · exact h2 x hx

theorem roundKeys_length {key : List Byte} (hk : key.length = 32) :
    (roundKeys key).length = 15 ∧ ∀ k ∈ roundKeys key, k.length = 16 := by
  have hb := blocks_length (n := 4) (k := 8) (l := key.map BitVec.toNat) (by decide) (by simp [hk])
  have he := expandGo_length 8 (by decide) 52 8 1 (blocks 4 (key.map BitVec.toNat)).reverse (by simp [hb.1])
    (by simpa using hb.2)
  have hw := blocks_length (n := 4) (k := 15) (l := (expandGo 8 52 8 1 (blocks 4 (key.map BitVec.toNat)).reverse).reverse)
    (by decide) (by simp [he.1, hb.1])
  have hr : roundKeys key
      = (blocks 4 (expandGo 8 52 8 1 (blocks 4 (key.map BitVec.toNat)).reverse).reverse).map List.flatten := by
    simp only [roundKeys, hk]
  rw [hr]
  refine ⟨by simp [hw.1], fun k h => ?_⟩
  obtain ⟨b, hb', rfl⟩ := List.mem_map.mp h
  have hl := hw.2 b hb'
  have hm : ∀ x ∈ b, x.length = 4 := fun x hx => he.2 x (List.mem_reverse.mp (mem_blocksGo hb' x hx))
  clear hw he hb hr h hb'
  rcases b with _ | ⟨p, _ | ⟨q, _ | ⟨r, _ | ⟨t, _ | ⟨u, v⟩⟩⟩⟩⟩ <;> simp_all

theorem aesRounds_length : ∀ {r : List (List Nat)} (s : List Nat), r ≠ [] → (∀ k ∈ r, k.length = 16) →
    (aesRounds r s).length = 16
  | [k], s, _, h => by simp [aesRounds, xorNat, shiftRows, h k]
  | k :: q :: r, s, _, h => by
    exact aesRounds_length (r := q :: r) _ (by simp) fun x hx => h x (List.mem_cons_of_mem _ hx)

theorem aesEnc_length {key : List Byte} (hk : key.length = 32) (b : List Byte) : (aesEnc key b).length = 16 := by
  obtain ⟨h1, h2⟩ := roundKeys_length hk
  rw [aesEnc]
  split
  · rename_i h; rw [h] at h1; simp at h1
  · rename_i k r h
    rw [List.length_map]
    refine aesRounds_length _ ?_ fun x hx => h2 x (by rw [h]; exact List.mem_cons_of_mem _ hx)
    rintro rfl; rw [h] at h1; simp at h1

/-- The tag has 16 bytes, and one block encrypts to 16 bytes. -/
theorem gcmTag_length {key : List Byte} (hk : key.length = 32) (iv aad ct : List Byte) : (gcmTag key iv aad ct).length = 16 := by
  simp [gcmTag, xorBytes, beBytes_length, aesEnc_length hk]

theorem gcmCrypt_block_length {key b : List Byte} (hk : key.length = 32) (hb : b.length = 16) (iv : List Byte) :
    (gcmCrypt key iv b).length = 16 := by
  rw [gcmCrypt, show blocks 16 b = [b] by
    rcases b with _ | ⟨x, b⟩
    · simp at hb
    · simp only [blocks, hb]
      simp [blocksGo, ← hb]]
  simp [ctrGo, xorBytes, hb, aesEnc_length hk]

end Sys2Proof.Machine
end

