-- ==== Sys2Proof/Laws/Mem.lean ====
section
/-! SUPPORT. What the operations on the two memories keep: the canonical form, the address ranges, and what a byte reads as
after a write. -/

namespace Sys2Proof.Machine

theorem cellsFrom_mem {d : Byte} {x : Host.Cell} : ∀ {bs : List Byte} {a : Nat},
    x ∈ cellsFrom d a bs → (a ≤ x.1 ∧ x.1 < a + bs.length) ∧ x.2 ≠ d := by
  intro bs
  induction bs with
  | nil => intro a h; simp [cellsFrom] at h
  | cons b r ih =>
    intro a h
    unfold cellsFrom at h
    simp only [List.length_cons]
    split at h
    · have := ih h; exact ⟨by omega, this.2⟩
    · rename_i hb
      rcases List.mem_cons.mp h with rfl | h
      · exact ⟨by simp, hb⟩
      · have := ih h; exact ⟨by omega, this.2⟩

theorem cellsFrom_rising (d : Byte) : ∀ (bs : List Byte) (a : Nat),
    (cellsFrom d a bs).Pairwise (fun x y => x.1 < y.1) := by
  intro bs
  induction bs with
  | nil => intro a; exact List.Pairwise.nil
  | cons b r ih =>
    intro a
    unfold cellsFrom
    split
    · exact ih _
    · refine List.Pairwise.cons (fun x hx => ?_) (ih _)
      have := (cellsFrom_mem hx).1.1
      simp only at this ⊢
      omega

theorem memPut_wf {d : Byte} {a : Nat} {bs : List Byte} {l : List Host.Cell} (h : Memory.wf d l) :
    Memory.wf d (memPut d a bs l) := by
  obtain ⟨hr, hd⟩ := h
  refine ⟨?_, ?_⟩
  · unfold memPut
    rw [List.pairwise_append, List.pairwise_append]
    refine ⟨⟨hr.filter _, cellsFrom_rising d bs a, ?_⟩, hr.filter _, ?_⟩
    · intro x hx y hy
      have h1 := (List.mem_filter.mp hx).2
      have h2 := (cellsFrom_mem hy).1.1
      simp only [decide_eq_true_eq] at h1
      omega
    · intro x hx y hy
      have h2 := (List.mem_filter.mp hy).2
      simp only [decide_eq_true_eq] at h2
      rcases List.mem_append.mp hx with hx | hx
      · have h1 := (List.mem_filter.mp hx).2
        simp only [decide_eq_true_eq] at h1
        omega
      · have h1 := (cellsFrom_mem hx).1.2
        omega
  · intro x hx
    unfold memPut at hx
    simp only [List.mem_append, List.mem_filter] at hx
    rcases hx with (hx | hx) | hx
    · exact hd x hx.1
    · exact (cellsFrom_mem hx).2
    · exact hd x hx.1

theorem memPut_within {d : Byte} {a b n : Nat} {bs : List Byte} {l : List Host.Cell} (h : Memory.within b n l)
    (hi : inside a bs.length b n = true) : Memory.within b n (memPut d a bs l) := by
  simp only [inside, Bool.and_eq_true, decide_eq_true_eq] at hi
  intro x hx
  unfold memPut at hx
  simp only [List.mem_append, List.mem_filter] at hx
  rcases hx with (hx | hx) | hx
  · exact h x hx.1
  · have := (cellsFrom_mem hx).1; omega
  · exact h x hx.1

theorem memErase_wf {d : Byte} {a n : Nat} {l : List Host.Cell} (h : Memory.wf d l) : Memory.wf d (memErase a n l) :=
  ⟨h.1.filter _, fun x hx => h.2 x (List.mem_filter.mp hx).1⟩

theorem memErase_within {a n b m : Nat} {l : List Host.Cell} (h : Memory.within b m l) :
    Memory.within b m (memErase a n l) := fun x hx => h x (List.mem_filter.mp hx).1

/-- Two disjoint ranges of equal length exchange their cells: a lies below b. -/
theorem memSwap_wf {d : Byte} {a b n : Nat} {l : List Host.Cell} (h : Memory.wf d l) (hn : a + n ≤ b) :
    Memory.wf d (memSwap a b n l) := by
  obtain ⟨hr, hd⟩ := h
  have hm : ∀ (p : Host.Cell → Bool) (f : Nat → Nat), (∀ x y : Host.Cell, p x = true → p y = true → x.1 < y.1 → f x.1 < f y.1) →
      ((l.filter p).map fun x => (f x.1, x.2)).Pairwise (fun x y => x.1 < y.1) := by
    intro p f hf
    rw [List.pairwise_map]
    refine (hr.filter p).imp_of_mem fun {x y} hx hy hxy => ?_
    exact hf x y (List.mem_filter.mp hx).2 (List.mem_filter.mp hy).2 hxy
  refine ⟨?_, ?_⟩
  · unfold memSwap
    dsimp only
    simp only [List.pairwise_append]
    refine ⟨⟨⟨⟨hr.filter _, hm _ (fun k => k - (b - a)) ?_, ?_⟩, hr.filter _, ?_⟩, hm _ (fun k => k + (b - a)) ?_, ?_⟩,
      hr.filter _, ?_⟩
    all_goals
      intro x hx y hy
    all_goals
      simp only [List.mem_append, List.mem_filter, List.mem_map, Bool.and_eq_true, decide_eq_true_eq] at hx hy
    · intro hxy; simp only [Bool.and_eq_true, decide_eq_true_eq] at y; omega
    · obtain ⟨z, hz, rfl⟩ := hy; simp only; omega
    · rcases hx with hx | ⟨z, hz, rfl⟩
      · omega
      · simp only; omega
    · intro hxy; simp only [Bool.and_eq_true, decide_eq_true_eq] at y; omega
    · obtain ⟨w, hw, rfl⟩ := hy
      rcases hx with (hx | ⟨z, hz, rfl⟩) | hx <;> (try dsimp only) <;> omega
    · rcases hx with ((hx | ⟨z, hz, rfl⟩) | hx) | ⟨z, hz, rfl⟩ <;> (try dsimp only) <;> omega
  · intro x hx
    unfold memSwap at hx
    simp only [List.mem_append, List.mem_filter, List.mem_map] at hx
    rcases hx with (((hx | ⟨z, hz, rfl⟩) | hx) | ⟨z, hz, rfl⟩) | hx
    · exact hd x hx.1
    · exact hd z hz.1
    · exact hd x hx.1
    · exact hd z hz.1
    · exact hd x hx.1

theorem memSwap_within {a b n c m : Nat} {l : List Host.Cell} (h : Memory.within c m l) (ha : c ≤ a) (hb : b + n ≤ c + m)
    (hab : a + n ≤ b) : Memory.within c m (memSwap a b n l) := by
  intro x hx
  unfold memSwap at hx
  simp only [List.mem_append, List.mem_filter, List.mem_map, Bool.and_eq_true, decide_eq_true_eq] at hx
  rcases hx with (((hx | ⟨z, hz, rfl⟩) | hx) | ⟨z, hz, rfl⟩) | hx
  · exact h x hx.1
  · simp only; omega
  · exact h x hx.1
  · simp only; omega
  · exact h x hx.1

end Sys2Proof.Machine
end

