-- ==== Sys2Proof/Laws/Keep.lean ====
section
/-! SUPPORT. What the shared operations keep of the queue, of the power state, of the two memories and of SYS: the parts, and
how a list of changes, a choice and a chain of checks keep them. -/

namespace Sys2Proof.Machine

/-- The queue and the power state. -/
def State.ctl (s : State) : List Instr × Power := (s.pending, s.sys.power)

/-- The two memories. -/
def State.mems (s : State) : List Host.Cell × List Host.Cell := (s.sram, s.nor)

@[simp ↓] theorem ctl_fold (s : State) : (s.pending, s.sys.power) = s.ctl := rfl
@[simp ↓] theorem mems_fold (s : State) : (s.sram, s.nor) = s.mems := (rfl)

theorem forAll_keeps {α σ β : Type} (q : σ → β) (l : List α) (f : σ → α → σ) (s : σ)
    (h : ∀ s x, q (f s x) = q s) : q (forAll l f s) = q s := by
  unfold forAll
  induction l generalizing s with
  | nil => rfl
  | cons x r ih => rw [List.foldl_cons, ih, h]

@[simp ↓] theorem forAll_ctl {α : Type} (l : List α) (f : State → α → State) (s : State)
    (h : ∀ s x, (f s x).ctl = s.ctl) : (forAll l f s).ctl = s.ctl := forAll_keeps State.ctl l f s h

@[simp ↓] theorem forAll_mems {α : Type} (l : List α) (f : State → α → State) (s : State)
    (h : ∀ s x, (f s x).mems = s.mems) : (forAll l f s).mems = s.mems := forAll_keeps State.mems l f s h

@[simp ↓] theorem ite_ctl (c : Prop) [Decidable c] (a b : State) :
    (if c then a else b).ctl = if c then a.ctl else b.ctl := apply_ite State.ctl c a b

@[simp ↓] theorem ite_mems (c : Prop) [Decidable c] (a b : State) :
    (if c then a else b).mems = if c then a.mems else b.mems := apply_ite State.mems c a b
@[simp ↓] theorem ite_reply_s (c : Prop) [Decidable c] (a b : Reply) :
    (if c then a else b).s = if c then a.s else b.s := apply_ite Reply.s c a b
@[simp ↓] theorem reply_ok_s (s : State) (l : List Word) : (Reply.ok s l).s = s := rfl
@[simp ↓] theorem reply_deny_s (s : State) (x : Status) : (Reply.deny s x).s = s := rfl
@[simp ↓] theorem reply_later_s (s : State) (x : Pending) : (Reply.later s x).s = s := rfl
@[simp ↓] theorem checks_ctl (s : State) (l : List (Bool × Status)) (k : Reply) (h : k.s.ctl = s.ctl) :
    (checks s l k).s.ctl = s.ctl := by
  induction l with
  | nil => exact h
  | cons x r ih => obtain ⟨b, st⟩ := x; cases b <;> simp [checks, ih]
@[simp ↓] theorem checks_mems (s : State) (l : List (Bool × Status)) (k : Reply) (h : k.s.mems = s.mems) :
    (checks s l k).s.mems = s.mems := by
  induction l with
  | nil => exact h
  | cons x r ih => obtain ⟨b, st⟩ := x; cases b <;> simp [checks, ih]

/-- Both memories are in canonical form and lie in their windows, said of the memories alone. -/
def memOk (p : List Host.Cell × List Host.Cell) : Prop :=
  (Memory.wf sramBlank p.1 ∧ Memory.within sramBase sramSize p.1)
    ∧ (Memory.wf norBlank p.2 ∧ Memory.within norBase norSize p.2)

theorem memInv_iff (s : State) : MemInv s ↔ memOk s.mems := Iff.rfl

theorem forAll_ok {α : Type} (l : List α) (f : State → α → State) (s : State)
    (hf : ∀ s x, memOk s.mems → memOk (f s x).mems) (h : memOk s.mems) : memOk (forAll l f s).mems := by
  unfold forAll
  induction l generalizing s with
  | nil => exact h
  | cons x r ih => exact ih (f s x) (hf s x h)

theorem checks_ok (s : State) (l : List (Bool × Status)) (k : Reply) (h : memOk s.mems) (hk : memOk k.s.mems) :
    memOk (checks s l k).s.mems := by
  induction l with
  | nil => exact hk
  | cons x r ih => obtain ⟨b, st⟩ := x; cases b <;> simp [checks, ih, h]

theorem ite_ok (c : Prop) [Decidable c] (a b : State) (ha : memOk a.mems) (hb : memOk b.mems) :
    memOk (if c then a else b).mems := by
  split
  · exact ha
  · exact hb

@[simp ↓] theorem ctl_mk (sys time bus mbx intc eth can gpio met bill disp vp slac safe load txn thl mesh dma sec upd compat
    params ros wraps jrn jrnOld sram nor free pending) :
    (State.mk sys time bus mbx intc eth can gpio met bill disp vp slac safe load txn thl mesh dma sec upd compat
      params ros wraps jrn jrnOld sram nor free pending).ctl =
      (pending, sys.power) := (rfl)

@[simp ↓] theorem mems_mk (sys time bus mbx intc eth can gpio met bill disp vp slac safe load txn thl mesh dma sec upd compat
    params ros wraps jrn jrnOld sram nor free pending) :
    (State.mk sys time bus mbx intc eth can gpio met bill disp vp slac safe load txn thl mesh dma sec upd compat
      params ros wraps jrn jrnOld sram nor free pending).mems =
      (sram, nor) := (rfl)

end Sys2Proof.Machine
end

