-- ==== Sys2Proof/Laws/KeepQueue.lean ====
section
/-! SUPPORT. Every operation keeps the queue and the power state, but for the resets and the saves, whose lemmas say what they leave. -/

namespace Sys2Proof.Machine

/-! ### Machine/Ops.lean -/

@[simp ↓] theorem State.busOk_ctl (s : State) (v : Word) : (State.busOk s v).ctl = s.ctl := by simp [State.busOk]

@[simp ↓] theorem State.busErr_ctl (s : State) : (State.busErr s).ctl = s.ctl := by simp [State.busErr]

@[simp ↓] theorem State.decodeErr_ctl (s : State) (a : Word) (req kind : Nat) :
    (State.decodeErr s a req kind).ctl = s.ctl := by simp [State.decodeErr]

@[simp ↓] theorem State.tagged_ctl (s : State) : (State.tagged s).ctl = s.ctl := by simp [State.tagged]

@[simp ↓] theorem State.holeErr_ctl (s : State) (req a n : Nat) : (State.holeErr s req a n).ctl = s.ctl := by
  unfold State.holeErr
  split <;> simp

@[simp ↓] theorem holdEngine_ctl (s : State) : (holdEngine s).ctl = s.ctl := by simp [holdEngine]

@[simp ↓] theorem onBlock_ctl (k : BlkKind) (n : Nat) (s : State) (f : State → State) (hf : ∀ s, (f s).ctl = s.ctl) :
    (onBlock k n s f).ctl = s.ctl := by
  unfold onBlock
  dsimp only
  split
  · exact (hf _).trans rfl
  · rfl

@[simp ↓] theorem State.modVp_ctl (s : State) (n : Port) (f : Vp → Vp) : (State.modVp s n f).ctl = s.ctl := by simp [State.modVp]

@[simp ↓] theorem State.modPilot_ctl (s : State) (n : Port) (f : Pilot → Pilot) :
    (State.modPilot s n f).ctl = s.ctl := by simp [State.modPilot]

@[simp ↓] theorem State.modLink_ctl (s : State) (n : Port) (f : Link → Link) :
    (State.modLink s n f).ctl = s.ctl := by simp [State.modLink]

@[simp ↓] theorem State.modTls_ctl (s : State) (n : Port) (f : Tls → Tls) :
    (State.modTls s n f).ctl = s.ctl := by simp [State.modTls]

@[simp ↓] theorem State.modRgn_ctl (s : State) (r : Fin 16) (f : Region → Region) :
    (State.modRgn s r f).ctl = s.ctl := by simp [State.modRgn]

@[simp ↓] theorem State.modCh_ctl (s : State) (n : ChanId) (f : Chan → Chan) :
    (State.modCh s n f).ctl = s.ctl := by simp [State.modCh]

@[simp ↓] theorem State.modM_ctl (s : State) (m : MeterId) (f : Meter → Meter) :
    (State.modM s m f).ctl = s.ctl := by simp [State.modM]

@[simp ↓] theorem State.modEth_ctl (s : State) (n : Fin 2) (f : Eth → Eth) :
    (State.modEth s n f).ctl = s.ctl := by simp [State.modEth]

@[simp ↓] theorem State.modCan_ctl (s : State) (n : Fin 3) (f : Can → Can) :
    (State.modCan s n f).ctl = s.ctl := by simp [State.modCan]

@[simp ↓] theorem State.modLoad_ctl (s : State) (n : Fin 10) (f : LoadCh → LoadCh) :
    (State.modLoad s n f).ctl = s.ctl := by simp [State.modLoad]

@[simp ↓] theorem State.modCoil_ctl (s : State) (c : Fin 12) (f : Coil → Coil) :
    (State.modCoil s c f).ctl = s.ctl := by simp [State.modCoil]

@[simp ↓] theorem State.modOut_ctl (s : State) (n : Port) (f : Outlet → Outlet) :
    (State.modOut s n f).ctl = s.ctl := by simp [State.modOut]

@[simp ↓] theorem State.modImd_ctl (s : State) (g : Fin 6) (f : Imd → Imd) :
    (State.modImd s g f).ctl = s.ctl := by simp [State.modImd]

@[simp ↓] theorem State.modConn_ctl (s : State) (k : Fin 16) (f : Conn → Conn) :
    (State.modConn s k f).ctl = s.ctl := by simp [State.modConn]

@[simp ↓] theorem State.modPair_ctl (s : State) (j : Fin 8) (f : StopPair → StopPair) :
    (State.modPair s j f).ctl = s.ctl := by simp [State.modPair]

@[simp ↓] theorem State.modTxn_ctl (s : State) (d : Fin 6) (f : TxnDom → TxnDom) :
    (State.modTxn s d f).ctl = s.ctl := by simp [State.modTxn]

@[simp ↓] theorem State.modCore_ctl (s : State) (f : BillCore → BillCore) :
    (State.modCore s f).ctl = s.ctl := by simp [State.modCore]

@[simp ↓] theorem State.setSess_ctl (s : State) (n : Port) (x : Option Session) :
    (State.setSess s n x).ctl = s.ctl := by simp [State.setSess]

@[simp ↓] theorem State.modSess_ctl (s : State) (n : Port) (f : Session → Session) :
    (State.modSess s n f).ctl = s.ctl := by simp [State.modSess]

@[simp ↓] theorem State.setLofs_ctl (s : State) (ms : Nat) : (State.setLofs s ms).ctl = s.ctl := by simp [State.setLofs]

@[simp ↓] theorem State.draw_ctl (s : State) : ((State.draw s).2).ctl = s.ctl := by simp [State.draw]

@[simp ↓] theorem State.raise_ctl (s : State) (n : Nat) : (State.raise s n).ctl = s.ctl := by simp [State.raise]

@[simp ↓] theorem State.evPut_ctl (s : State) (typ source : Nat) (d0 d1 d2 : Word) :
    (State.evPut s typ source d0 d1 d2).ctl = s.ctl := by simp [State.evPut]

@[simp ↓] theorem State.evRoll_ctl (s : State) : (State.evRoll s).ctl = s.ctl := by simp [State.evRoll]

@[simp ↓] theorem State.evSecond_ctl (s : State) :
    (State.evSecond s).ctl = s.ctl := by simp [State.evSecond]

@[simp ↓] theorem State.evlog_ctl (s : State) (typ source : Nat) (d0 d1 d2 : Word) :
    (State.evlog s typ source d0 d1 d2).ctl = s.ctl := by simp [State.evlog]

@[simp ↓] theorem State.statsCleared_ctl (s : State) (block mask : Nat) :
    (State.statsCleared s block mask).ctl = s.ctl := by simp [State.statsCleared]

@[simp ↓] theorem State.audit_ctl (s : State) (typ source reason : Nat) (item old new : Word) :
    (State.audit s typ source reason item old new).ctl = s.ctl := by simp [State.audit]

@[simp ↓] theorem State.raiseDem_ctl (s : State) (n : Port) (cat cause : Nat) (reason : Byte) (why : Why) :
    (State.raiseDem s n cat cause reason why).ctl = s.ctl := by simp [State.raiseDem]

@[simp ↓] theorem State.demand_ctl (s : State) (n : Port) (cat cause : Nat) (reason : Byte) :
    (State.demand s n cat cause reason).ctl = s.ctl := by simp [State.demand]

@[simp ↓] theorem State.setLedger_ctl (s : State) (l : List (Option LedgerEntry)) :
    (State.setLedger s l).ctl = s.ctl := by simp [State.setLedger]

@[simp ↓] theorem State.flagSpan_ctl (s : State) (n : Port) (bits : BitVec 16) :
    (State.flagSpan s n bits).ctl = s.ctl := by simp [State.flagSpan]

@[simp ↓] theorem State.flagSess_ctl (s : State) (n : Port) (bits : BitVec 16) :
    (State.flagSess s n bits).ctl = s.ctl := by simp [State.flagSess]

@[simp ↓] theorem Reply.ok_ctl (s : State) (res : List Word) : ((Reply.ok s res).s).ctl = s.ctl := by simp

@[simp ↓] theorem Reply.deny_ctl (s : State) (st : Status) : ((Reply.deny s st).s).ctl = s.ctl := by simp

@[simp ↓] theorem Reply.later_ctl (s : State) (p : Pending) : ((Reply.later s p).s).ctl = s.ctl := by simp

@[simp ↓] theorem State.setBox_ctl (s : State) (i : MbxId) (x : Mailbox) :
    (State.setBox s i x).ctl = s.ctl := by simp [State.setBox]

@[simp ↓] theorem versions_ctl (i : MbxId) (s : State) : ((versions i s).s).ctl = s.ctl := by simp [versions]

@[simp ↓] theorem answered_ctl (i : MbxId) (r : Reply) : (answered i r).ctl = r.s.ctl := by
  unfold answered
  dsimp only
  split <;> simp

@[simp ↓] theorem ring_ctl (i : MbxId) (body : Nat → Vector Word 16 → State → Reply) (s : State) (hbody : ∀ x0 x1 s, ((body x0 x1 s).s).ctl = s.ctl) :
    (ring i body s).ctl = s.ctl := by simp [ring, hbody]

@[simp ↓] theorem mbxCall_ctl (i : MbxId) (cmd : Nat) (c : Call) (body : Vector Word 16 → State → Reply) (s : State) (hbody : ∀ x0 s, ((body x0 s).s).ctl = s.ctl) :
    (mbxCall i cmd c body s).ctl = s.ctl := by simp [mbxCall, hbody]

@[simp ↓] theorem mbxDone_ctl (i : MbxId) (st : Status) (res : List Word) (s : State) :
    (mbxDone i st res s).ctl = s.ctl := by simp [mbxDone]

/-! ### Machine/Sampling.lean -/

@[simp ↓] theorem fastSample_ctl (g : Fin 2) (bits miss : Vector (BitVec 16) 32) (s : State) :
    (fastSample g bits miss s).ctl = s.ctl := by simp [fastSample]

@[simp ↓] theorem selfCheck_ctl (p : Fin 8) (s : State) : (selfCheck p s).ctl = s.ctl := by
  unfold selfCheck
  repeat' first | (simp; done) | split | (dsimp only; split) | refine (forAll_ctl _ _ _ (fun _ _ => ?_)).trans ?_ |
    (dsimp only; refine (forAll_ctl _ _ _ (fun _ _ => ?_)).trans ?_)

@[simp ↓] theorem tempTake_ctl (s : State) : (tempTake s).ctl = s.ctl := by simp [tempTake]

@[simp ↓] theorem gainAll_ctl (s : State) : (gainAll s).ctl = s.ctl := by simp [gainAll]

@[simp ↓] theorem resample_ctl (g : Fin 2) (idx : Nat) (s : State) : (resample g idx s).ctl = s.ctl := by simp [resample]

@[simp ↓] theorem refFine_ctl (g : Fin 2) (idx : Nat) (ref : ChanId) (s : State) :
    (refFine g idx ref s).ctl = s.ctl := by simp [refFine]

@[simp ↓] theorem resampFine_ctl (g : Fin 2) (idx : Nat) (s : State) : (resampFine g idx s).ctl = s.ctl := by simp [resampFine]

@[simp ↓] theorem fineChannels_ctl (g : Fin 2) (s : State) : (fineChannels g s).ctl = s.ctl := by simp [fineChannels]

@[simp ↓] theorem State.modAdc_ctl (s : State) (a : Fin 4) (f : Adc → Adc) :
    (State.modAdc s a f).ctl = s.ctl := by simp [State.modAdc]

@[simp ↓] theorem rcFeed_ctl (src : Nat) (v : Int) (w : Nat) (s : State) : (rcFeed src v w s).ctl = s.ctl := by simp [rcFeed]

@[simp ↓] theorem freshTemp_ctl (src : Nat) (s : State) : (freshTemp src s).ctl = s.ctl := by simp [freshTemp]

@[simp ↓] theorem adcCoarse_ctl (a : Fin 4) (bits : BitVec 16) (s : State) :
    (adcCoarse a bits s).ctl = s.ctl := by simp [adcCoarse]

@[simp ↓] theorem takeTemp_ctl (src : Nat) (v : BitVec 24) (s : State) :
    (takeTemp src v s).ctl = s.ctl := by simp [takeTemp]

@[simp ↓] theorem adcFine_ctl (a : Fin 4) (s : State) : (adcFine a s).ctl = s.ctl := by simp [adcFine]

@[simp ↓] theorem dwellStart_ctl (a : Fin 4) (k : Nat) (s : State) : (dwellStart a k s).ctl = s.ctl := by simp [dwellStart]

@[simp ↓] theorem calibrate_ctl (a : Fin 4) (s : State) : (calibrate a s).ctl = s.ctl := by simp [calibrate]

@[simp ↓] theorem storeGain_ctl (a : Fin 4) (s : State) : (storeGain a s).ctl = s.ctl := by simp [storeGain]

@[simp ↓] theorem slotEnd_ctl (a : Fin 4) (s : State) : (slotEnd a s).ctl = s.ctl := by simp [slotEnd]

@[simp ↓] theorem slotResync_ctl (a : Fin 4) (changed : Nat → Bool) (s : State) :
    (slotResync a changed s).ctl = s.ctl := by simp [slotResync]

/-! ### Machine/Meters.lean -/

@[simp ↓] theorem rgwAll_ctl (m : MeterId) (s : State) : (rgwAll m s).ctl = s.ctl := by simp [rgwAll]

@[simp ↓] theorem cutBounds_ctl (m : MeterId) (inst : BitVec 64) (s : State) :
    (cutBounds m inst s).ctl = s.ctl := by simp [cutBounds]

@[simp ↓] theorem gapNow_ctl (m : MeterId) (s : State) : (gapNow m s).ctl = s.ctl := by simp [gapNow]

@[simp ↓] theorem markGap_ctl (m : MeterId) (s : State) : (markGap m s).ctl = s.ctl := by simp [markGap]

@[simp ↓] theorem validAgain_ctl (m : MeterId) (s : State) : (validAgain m s).ctl = s.ctl := by simp [validAgain]

@[simp ↓] theorem rollover_ctl (m : MeterId) (exp : Bool) (old : BitVec 160) (s : State) :
    (rollover m exp old s).ctl = s.ctl := by simp [rollover]

@[simp ↓] theorem pulseQueue_ctl (m : MeterId) (s : State) : (pulseQueue m s).ctl = s.ctl := by simp [pulseQueue]

@[simp ↓] theorem pulseRestart_ctl (q : Fin 8) (s : State) : (pulseRestart q s).ctl = s.ctl := by simp [pulseRestart]

@[simp ↓] theorem setPhseq_ctl (m : MeterId) (v : BitVec 2) (s : State) : (setPhseq m v s).ctl = s.ctl := by simp [setPhseq]

@[simp ↓] theorem phaseStep_ctl (m : MeterId) (s : State) : (phaseStep m s).ctl = s.ctl := by
  unfold phaseStep
  repeat' first | (simp; done) | split | (dsimp only; split)

@[simp ↓] theorem secondSums_ctl (m : MeterId) (q : Int) (s : State) : (secondSums m q s).ctl = s.ctl := by simp [secondSums]

@[simp ↓] theorem bookQ_ctl (m : MeterId) (s : State) : ((bookQ m s).2).ctl = s.ctl := by
  unfold bookQ
  repeat' first | (simp; done) | split | (dsimp only; split)

@[simp ↓] theorem snapTake_ctl (m : MeterId) (inst : BitVec 64) (s : State) :
    (snapTake m inst s).ctl = s.ctl := by simp [snapTake]

@[simp ↓] theorem snapDone_ctl (w : SnapWait) (s : State) :
    (snapDone w s).ctl = s.ctl := by simp [snapDone]

@[simp ↓] theorem snapEnd_ctl (s : State) :
    (snapEnd s).ctl = s.ctl := by
  unfold snapEnd
  repeat' first | (simp; done) | split | (dsimp only; split)

@[simp ↓] theorem meterFine_ctl (g : Fin 2) (m : MeterId) (s : State) : (meterFine g m s).ctl = s.ctl := by simp [meterFine]

@[simp ↓] theorem fineSample_ctl (g : Fin 2) (s : State) : (fineSample g s).ctl = s.ctl := by simp [fineSample]

@[simp ↓] theorem powerCheck_ctl (m : MeterId) (s : State) : (powerCheck m s).ctl = s.ctl := by simp [powerCheck]

@[simp ↓] theorem neutralCheck_ctl (m : MeterId) (s : State) : (neutralCheck m s).ctl = s.ctl := by simp [neutralCheck]

@[simp ↓] theorem neutralFlags_ctl (m : MeterId) (s : State) : (neutralFlags m s).ctl = s.ctl := by simp [neutralFlags]

@[simp ↓] theorem readAcc_ctl (a : Vector Word 16) (s : State) : ((readAcc a s).s).ctl = s.ctl := by
  unfold readAcc
  repeat' first | (simp; done) | split | (dsimp only; split)

@[simp ↓] theorem freeWords_ctl (place n : Nat) (s : State) : ((freeWords place n s).2).ctl = s.ctl := by simp [freeWords]

@[simp ↓] theorem readPq_ctl (a : Vector Word 16) (s : State) : ((readPq a s).s).ctl = s.ctl := by
  unfold readPq
  repeat' first | (simp; done) | split | (dsimp only; split)

@[simp ↓] theorem readHarm_ctl (a : Vector Word 16) (s : State) : ((readHarm a s).s).ctl = s.ctl := by
  unfold readHarm
  repeat' first | (simp; done) | split | (dsimp only; split)

@[simp ↓] theorem readBalance_ctl (a : Vector Word 16) (s : State) : ((readBalance a s).s).ctl = s.ctl := by
  unfold readBalance
  repeat' first | (simp; done) | split | (dsimp only; split)

@[simp ↓] theorem clearStats_ctl (mask : BitVec 6) (s : State) : (clearStats mask s).ctl = s.ctl := by simp [clearStats]

@[simp ↓] theorem clearStatsCall_ctl (a : Vector Word 16) (s : State) :
    ((clearStatsCall a s).s).ctl = s.ctl := by simp [clearStatsCall]

/-! ### Machine/DispReq.lean -/

@[simp ↓] theorem State.putRequest_ctl (s : State) (r : Fin 16) (q : PendUpd) :
    (State.putRequest s r q).ctl = s.ctl := by
  unfold State.putRequest
  repeat' first | (simp; done) | split | (dsimp only; split)

@[simp ↓] theorem State.legalReq_ctl (s : State) (n : Port) : (State.legalReq s n).ctl = s.ctl := by
  unfold State.legalReq
  repeat' first | (simp; done) | split | (dsimp only; split)

/-! ### Machine/TimeBase.lean -/

@[simp ↓] theorem rtcMove_ctl (n : Int) (s : State) : (rtcMove n s).ctl = s.ctl := by simp [rtcMove]

@[simp ↓] theorem rtcRun_ctl (n : Nat) (s : State) : (rtcRun n s).ctl = s.ctl := by simp [rtcRun]

@[simp ↓] theorem rtcTick_ctl (s : State) : (rtcTick s).ctl = s.ctl := by simp [rtcTick]

@[simp ↓] theorem refPeriod_ctl (s : State) : (refPeriod s).ctl = s.ctl := by simp [refPeriod]

@[simp ↓] theorem rtcLoad_ctl (s : State) : (rtcLoad s).ctl = s.ctl := by simp [rtcLoad]

@[simp ↓] theorem rtcReading_ctl (t : BitVec 12) (n : Nat) (s : State) :
    (rtcReading t n s).ctl = s.ctl := by simp [rtcReading]

@[simp ↓] theorem refdevMeasure_ctl (dev : BitVec 16) (s : State) : (refdevMeasure dev s).ctl = s.ctl := by simp [refdevMeasure]

@[simp ↓] theorem vbakMeasure_ctl (v : Byte) (s : State) : (vbakMeasure v s).ctl = s.ctl := by simp [vbakMeasure]

@[simp ↓] theorem evlDropSecond_ctl (s : State) : (evlDropSecond s).ctl = s.ctl := by simp [evlDropSecond]

@[simp ↓] theorem evlClrcnt_ctl (s : State) : (evlClrcnt s).ctl = s.ctl := by simp [evlClrcnt]

/-! ### Machine/Billing.lean -/

@[simp ↓] theorem State.pushRecord_ctl (s : State) (rtype : Nat) (flags : BitVec 16) (port : Option Port) (body : List Byte) :
    (State.pushRecord s rtype flags port body).ctl = s.ctl := by simp [State.pushRecord]

@[simp ↓] theorem State.journal_ctl (s : State) (save : Bool) : (State.journal s save).ctl = s.ctl := by simp [State.journal]

@[simp ↓] theorem closeSlice_ctl (m : MeterId) (s : State) : (closeSlice m s).ctl = s.ctl := by simp [closeSlice]

@[simp ↓] theorem closeSlices_ctl (s : State) : (closeSlices s).ctl = s.ctl := by simp [closeSlices]

@[simp ↓] theorem meterEnable_ctl (m : MeterId) (reason : Nat) (s : State) :
    (meterEnable m reason s).ctl = s.ctl := by simp [meterEnable]

@[simp ↓] theorem setTariff_ctl (s : State) : (setTariff s).ctl = s.ctl := by simp [setTariff]

@[simp ↓] theorem balance_ctl (durNs : Nat) (outage split : Bool) (s : State) :
    ((balance durNs outage split s).2.2).ctl = s.ctl := by
  unfold balance
  repeat' first | (simp; done) | split | (dsimp only; split)

@[simp ↓] theorem endPart_ctl (bits : BitVec 16) (s : State) : ((endPart bits s).2).ctl = s.ctl := by simp [endPart]

@[simp ↓] theorem writeDemand_ctl (c : ClosedPart) (count : Nat) (s : State) :
    (writeDemand c count s).ctl = s.ctl := by simp [writeDemand]

@[simp ↓] theorem openPart_ctl (lt : Int) (bits : BitVec 16) (s : State) :
    (openPart lt bits s).ctl = s.ctl := by simp [openPart]

@[simp ↓] theorem closePart_ctl (bits : BitVec 16) (next : Int) (s : State) :
    (closePart bits next s).ctl = s.ctl := by simp [closePart]

@[simp ↓] theorem demandClose_ctl (at_ : Int) (s : State) : (demandClose at_ s).ctl = s.ctl := by simp [demandClose]

@[simp ↓] theorem writePeriod_ctl (at_ : Int) (m : MeterId) (s : State) :
    (writePeriod at_ m s).ctl = s.ctl := by simp [writePeriod]

@[simp ↓] theorem periodClose_ctl (at_ : Int) (s : State) : (periodClose at_ s).ctl = s.ctl := by simp [periodClose]

@[simp ↓] theorem tariffSwitch_ctl (ms : Int) (s : State) : (tariffSwitch ms s).ctl = s.ctl := by simp [tariffSwitch]

@[simp ↓] theorem minuteBoundaries_ctl (min : Int) (s : State) : (minuteBoundaries min s).ctl = s.ctl := by simp [minuteBoundaries]

@[simp ↓] theorem passBoundaries_ctl (t0 t1 : Int) (s : State) : (passBoundaries t0 t1 s).ctl = s.ctl := by simp [passBoundaries]

@[simp ↓] theorem writeHeld_ctl (s : State) : (writeHeld s).ctl = s.ctl := by simp [writeHeld]

@[simp ↓] theorem outageBoundaries_ctl (t0 t1 : Int) (s : State) : (outageBoundaries t0 t1 s).ctl = s.ctl := by simp [outageBoundaries]

@[simp ↓] theorem dueDemand_ctl (s : State) : (dueDemand s).ctl = s.ctl := by
  unfold dueDemand
  repeat' first | (simp; done) | split | (dsimp only; split)

@[simp ↓] theorem duePeriod_ctl (s : State) : (duePeriod s).ctl = s.ctl := by
  unfold duePeriod
  repeat' first | (simp; done) | split | (dsimp only; split)

@[simp ↓] theorem dueBoundaries_ctl (s : State) : (dueBoundaries s).ctl = s.ctl := by simp [dueBoundaries]

@[simp ↓] theorem cancelSession_ctl (n : Port) (cause : Nat) (s : State) :
    (cancelSession n cause s).ctl = s.ctl := by
  unfold cancelSession
  repeat' first | (simp; done) | split | (dsimp only; split)

@[simp ↓] theorem openSession_ctl (n : Port) (m : MeterId) (auth : Nat) (ext : List Byte) (token : Option Token) (s : State) :
    (openSession n m auth ext token s).ctl = s.ctl := by
  unfold openSession
  repeat' first | (simp; done) | split | (dsimp only; split)

@[simp ↓] theorem sessionOpen_ctl (a : Vector Word 16) (s : State) : ((sessionOpen a s).s).ctl = s.ctl := by
  unfold sessionOpen
  repeat' first | (simp; done) | split | (dsimp only; split)

@[simp ↓] theorem sessionCancel_ctl (a : Vector Word 16) (s : State) : ((sessionCancel a s).s).ctl = s.ctl := by
  unfold sessionCancel
  repeat' first | (simp; done) | split | (dsimp only; split)

@[simp ↓] theorem sessionStatus_ctl (a : Vector Word 16) (s : State) : ((sessionStatus a s).s).ctl = s.ctl := by
  unfold sessionStatus
  repeat' first | (simp; done) | split | (dsimp only; split)

@[simp ↓] theorem markStart_ctl (n : Port) (s : State) : (markStart n s).ctl = s.ctl := by simp [markStart]

@[simp ↓] theorem startCut_ctl (n : Port) (s : State) : (startCut n s).ctl = s.ctl := by
  unfold startCut
  repeat' first | (simp; done) | split | (dsimp only; split)

@[simp ↓] theorem markStop_ctl (n : Port) (reason : Byte) (s : State) :
    (markStop n reason s).ctl = s.ctl := by simp [markStop]

@[simp ↓] theorem stopValues_ctl (n : Port) (s : State) : (stopValues n s).ctl = s.ctl := by
  unfold stopValues
  repeat' first | (simp; done) | split | (dsimp only; split)

@[simp ↓] theorem freezeStop_ctl (n : Port) (reason : Byte) (s : State) :
    (freezeStop n reason s).ctl = s.ctl := by
  unfold freezeStop
  repeat' first | (simp; done) | split | (dsimp only; split)

@[simp ↓] theorem writeStop_ctl (n : Port) (s : State) : (writeStop n s).ctl = s.ctl := by
  unfold writeStop
  repeat' first | (simp; done) | split | (dsimp only; split)

@[simp ↓] theorem stopCut_ctl (n : Port) (s : State) : (stopCut n s).ctl = s.ctl := by simp [stopCut]

@[simp ↓] theorem markShift_ctl (s : State) : (markShift s).ctl = s.ctl := by simp [markShift]

@[simp ↓] theorem adjustCut_ctl (old : Nat) (adj : Int) (new : Nat) (s : State) :
    (adjustCut old adj new s).ctl = s.ctl := by simp [adjustCut]

@[simp ↓] theorem firstCut_ctl (new : Nat) (s : State) : (firstCut new s).ctl = s.ctl := by simp [firstCut]

@[simp ↓] theorem backCut_ctl (new : Nat) (s : State) : (backCut new s).ctl = s.ctl := by simp [backCut]

@[simp ↓] theorem commitCut_ctl (cal part bp : Bool) (s : State) :
    (commitCut cal part bp s).ctl = s.ctl := by simp [commitCut]

@[simp ↓] theorem atBound_ctl (k : BoundKind) (s : State) : (atBound k s).ctl = s.ctl := by
  unfold atBound
  repeat' first | (simp; done) | split | (dsimp only; split)

@[simp ↓] theorem keepBound_ctl (s t : State) : (keepBound s t).ctl = t.ctl := by
  unfold keepBound
  split <;> simp

@[simp ↓] theorem asOf_ctl (b : Bound) (f : State → State) (s : State) (hf : ∀ s, (f s).ctl = s.ctl) :
    (asOf b f s).ctl = s.ctl := by simp [asOf, hf]

@[simp ↓] theorem endBound_ctl (b : Bound) (s : State) : (endBound b s).ctl = s.ctl := by simp [endBound]

@[simp ↓] theorem runBounds_ctl (all : Bool) (n : Nat) (s : State) : (runBounds all n s).ctl = s.ctl := by
  induction n generalizing s with
  | zero => rfl
  | succ n ih =>
    unfold runBounds
    split
    · rfl
    · split <;> simp [ih]

@[simp ↓] theorem settleBounds_ctl (s : State) : (settleBounds s).ctl = s.ctl := by simp [settleBounds]

@[simp ↓] theorem flushBounds_ctl (s : State) : (flushBounds s).ctl = s.ctl := by simp [flushBounds]

@[simp ↓] theorem boundary_ctl (k : BoundKind) (s : State) : (boundary k s).ctl = s.ctl := by simp [boundary]

@[simp ↓] theorem sessionStart_ctl (n : Port) (s : State) : (sessionStart n s).ctl = s.ctl := by
  unfold sessionStart
  repeat' first | (simp; done) | split | (dsimp only; split)

@[simp ↓] theorem sessionStop_ctl (n : Port) (reason : Byte) (s : State) :
    (sessionStop n reason s).ctl = s.ctl := by
  unfold sessionStop
  repeat' first | (simp; done) | split | (dsimp only; split)

@[simp ↓] theorem snapshot_ctl (a : Vector Word 16) (s : State) : ((snapshot a s).s).ctl = s.ctl := by simp [snapshot]

@[simp ↓] theorem storeRecord_ctl (r : Record) (s : State) : (storeRecord r s).ctl = s.ctl := by
  unfold storeRecord
  repeat' first | (simp; done) | split | (dsimp only; split)

@[simp ↓] theorem afterSign_ctl (r : Record) (s : State) : (afterSign r s).ctl = s.ctl := by
  unfold afterSign
  repeat' first | (simp; done) | split | (dsimp only; split)

@[simp ↓] theorem signDone_ctl (s : State) : (signDone s).ctl = s.ctl := by
  unfold signDone
  repeat' first | (simp; done) | split | (dsimp only; split)

/-! ### Machine/Records.lean -/

@[simp ↓] theorem readRecord_ctl (a : Vector Word 16) (s : State) : ((readRecord a s).s).ctl = s.ctl := by
  unfold readRecord
  repeat' first | (simp; done) | split | (dsimp only; split)

@[simp ↓] theorem ackRecord_ctl (a : Vector Word 16) (s : State) : ((ackRecord a s).s).ctl = s.ctl := by simp [ackRecord]

@[simp ↓] theorem readDemand_ctl (a : Vector Word 16) (s : State) : ((readDemand a s).s).ctl = s.ctl := by
  unfold readDemand
  repeat' first | (simp; done) | split | (dsimp only; split)

@[simp ↓] theorem readOcmf_ctl (a : Vector Word 16) (s : State) : ((readOcmf a s).s).ctl = s.ctl := by simp [readOcmf]

@[simp ↓] theorem ocmfDone_ctl (s : State) : (ocmfDone s).ctl = s.ctl := by
  unfold ocmfDone
  repeat' first | (simp; done) | split | (dsimp only; split)

@[simp ↓] theorem readAudit_ctl (a : Vector Word 16) (s : State) : ((readAudit a s).s).ctl = s.ctl := by
  unfold readAudit
  repeat' first | (simp; done) | split | (dsimp only; split)

@[simp ↓] theorem archiveBegin_ctl (a : Vector Word 16) (s : State) : ((archiveBegin a s).s).ctl = s.ctl := by
  unfold archiveBegin
  repeat' first | (simp; done) | split | (dsimp only; split)

@[simp ↓] theorem sealDone_ctl (s : State) : (sealDone s).ctl = s.ctl := by
  unfold sealDone
  repeat' first | (simp; done) | split | (dsimp only; split)

@[simp ↓] theorem archiveCommit_ctl (a : Vector Word 16) (s : State) : ((archiveCommit a s).s).ctl = s.ctl := by
  unfold archiveCommit
  repeat' first | (simp; done) | split | (dsimp only; split)

@[simp ↓] theorem creditCheck_ctl (n : Port) (s : State) : (creditCheck n s).ctl = s.ctl := by
  unfold creditCheck
  repeat' first | (simp; done) | split | (dsimp only; split)

/-! ### Machine/Tokens.lean -/

@[simp ↓] theorem State.modTok_ctl (s : State) (f : Tokens → Tokens) : (State.modTok s f).ctl = s.ctl := by simp [State.modTok]

@[simp ↓] theorem endEntry_ctl (port : Option Port) (code : Byte) (t : Option Token) (s : State) :
    (endEntry port code t s).ctl = s.ctl := by
  unfold endEntry
  repeat' first | (simp; done) | split | (dsimp only; split)

@[simp ↓] theorem countInvalid_ctl (s : State) : (countInvalid s).ctl = s.ctl := by
  unfold countInvalid
  repeat' first | (simp; done) | split | (dsimp only; split)

@[simp ↓] theorem tokenDecode_ctl (keys : List (BitVec 4)) (s : State) : (tokenDecode keys s).ctl = s.ctl := by
  unfold tokenDecode
  repeat' first | (simp; done) | split | (dsimp only; split)

@[simp ↓] theorem tokenKey_ctl (k : BitVec 4) (s : State) : (tokenKey k s).ctl = s.ctl := by
  unfold tokenKey
  repeat' first | (simp; done) | split | (dsimp only; split)

@[simp ↓] theorem tokenStart_ctl (s : State) : (tokenStart s).ctl = s.ctl := by simp [tokenStart]

@[simp ↓] theorem discardTokens_ctl (s : State) : (discardTokens s).ctl = s.ctl := by simp [discardTokens]

@[simp ↓] theorem tokenResult_ctl (a_ : Vector Word 16) (s : State) : ((tokenResult a_ s).s).ctl = s.ctl := by
  unfold tokenResult
  repeat' first | (simp; done) | split | (dsimp only; split)

@[simp ↓] theorem denyCode_ctl (s : State) (code : Word) : ((denyCode s code).s).ctl = s.ctl := by simp [denyCode]

@[simp ↓] theorem bindToken_ctl (n : Port) (m : MeterId) (t : Token) (ext : List Byte) (s : State) :
    ((bindToken n m t ext s).s).ctl = s.ctl := by simp [bindToken]

@[simp ↓] theorem tokenOpen_ctl (a : Vector Word 16) (s : State) : ((tokenOpen a s).s).ctl = s.ctl := by
  unfold tokenOpen
  repeat' first | (simp; done) | split | (dsimp only; split)

@[simp ↓] theorem tokenDiscard_ctl (a : Vector Word 16) (s : State) : ((tokenDiscard a s).s).ctl = s.ctl := by
  unfold tokenDiscard
  repeat' first | (simp; done) | split | (dsimp only; split)

@[simp ↓] theorem ledgerRead_ctl (a : Vector Word 16) (s : State) : ((ledgerRead a s).s).ctl = s.ctl := by simp [ledgerRead]

@[simp ↓] theorem tokenKeyLoad_ctl (a : Vector Word 16) (s : State) : ((tokenKeyLoad a s).s).ctl = s.ctl := by
  unfold tokenKeyLoad
  repeat' first | (simp; done) | split | (dsimp only; split)

@[simp ↓] theorem tokenKeyInfo_ctl (a : Vector Word 16) (s : State) : ((tokenKeyInfo a s).s).ctl = s.ctl := by
  unfold tokenKeyInfo
  repeat' first | (simp; done) | split | (dsimp only; split)

/-! ### Machine/LoadSw.lean -/

@[simp ↓] theorem genPeriod_ctl (g : Fin 2) (start : BitVec 64) (s : State) :
    (genPeriod g start s).ctl = s.ctl := by simp [genPeriod]

@[simp ↓] theorem genSync_ctl (s : State) : (genSync s).ctl = s.ctl := by simp [genSync]

@[simp ↓] theorem openWindow_ctl (n : Fin 10) (s : State) : (openWindow n s).ctl = s.ctl := by simp [openWindow]

@[simp ↓] theorem pulseStep_ctl (s : State) : (pulseStep s).ctl = s.ctl := by simp [pulseStep]

@[simp ↓] theorem loadOne_ctl (s : State) (n : Fin 10) : (loadOne s n).ctl = s.ctl := by simp [loadOne]

@[simp ↓] theorem loadAll_ctl (s : State) : (loadAll s).ctl = s.ctl := by simp [loadAll]

@[simp ↓] theorem loadAt_ctl (c : Nat) (s : State) : (loadAt c s).ctl = s.ctl := by
  unfold loadAt
  repeat' first | (simp; done) | split | (dsimp only; split)

@[simp ↓] theorem shedCh_ctl (n : Fin 10) (s : State) : (shedCh n s).ctl = s.ctl := by simp [shedCh]

@[simp ↓] theorem shedOne_ctl (s : State) : (shedOne s).ctl = s.ctl := by
  unfold shedOne
  repeat' first | (simp; done) | split | (dsimp only; split)

@[simp ↓] theorem budgetShed_ctl (avg : BitVec 16) (s : State) : (budgetShed avg s).ctl = s.ctl := by simp [budgetShed]

@[simp ↓] theorem shedReenable_ctl (s : State) : (shedReenable s).ctl = s.ctl := by
  unfold shedReenable
  repeat' first | (simp; done) | split | (dsimp only; split)

@[simp ↓] theorem shedAgain_ctl (n : Fin 10) (was : Bool) (s : State) :
    (shedAgain n was s).ctl = s.ctl := by simp [shedAgain]

@[simp ↓] theorem loadCmd_ctl (n : Fin 10) (cmd : BitVec 2) (s : State) : (loadCmd n cmd s).ctl = s.ctl := by simp [loadCmd]

@[simp ↓] theorem loadClrLatch_ctl (n : Fin 10) (cool : Bool) (s : State) :
    (loadClrLatch n cool s).ctl = s.ctl := by simp [loadClrLatch]

@[simp ↓] theorem loadThermal_ctl (n : Fin 10) (guard : Bool) (temp : BitVec 16) (s : State) :
    (loadThermal n guard temp s).ctl = s.ctl := by simp [loadThermal]

@[simp ↓] theorem loadRestart_ctl (n : Fin 10) (s : State) : (loadRestart n s).ctl = s.ctl := by simp [loadRestart]

@[simp ↓] theorem deferredTurnOn_ctl (s : State) : (deferredTurnOn s).ctl = s.ctl := by
  unfold deferredTurnOn
  repeat' first | (simp; done) | split | (dsimp only; split)

@[simp ↓] theorem loadSense_ctl (ch : BitVec 4) (s : State) : (loadSense ch s).ctl = s.ctl := by simp [loadSense]

@[simp ↓] theorem senseTest_ctl (s : State) : (senseTest s).ctl = s.ctl := by simp [senseTest]

@[simp ↓] theorem loadWdStart_ctl (s : State) : (loadWdStart s).ctl = s.ctl := by simp [loadWdStart]

@[simp ↓] theorem loadWdExpire_ctl (cause : BitVec 2) (s : State) : (loadWdExpire cause s).ctl = s.ctl := by simp [loadWdExpire]

@[simp ↓] theorem loadService_ctl (resp : BitVec 16) (s : State) : (loadService resp s).ctl = s.ctl := by simp [loadService]

@[simp ↓] theorem loadWdrel_ctl (s : State) : (loadWdrel s).ctl = s.ctl := by simp [loadWdrel]

@[simp ↓] theorem loadClrcnt_ctl (s : State) : (loadClrcnt s).ctl = s.ctl := by simp [loadClrcnt]

/-! ### Machine/Pilot.lean -/

@[simp ↓] theorem linkLost_ctl (s : State) (n : Port) : (linkLost s n).ctl = s.ctl := by simp [linkLost]

@[simp ↓] theorem setPState_ctl (s : State) (n : Port) (st : PState) : (setPState s n st).ctl = s.ctl := by simp [setPState]

@[simp ↓] theorem imposeOverride_ctl (s : State) (n : Port) : (imposeOverride s n).ctl = s.ctl := by
  unfold imposeOverride
  repeat' first | (simp; done) | split | (dsimp only; split)

@[simp ↓] theorem showState_ctl (s : State) (n : Port) : (showState s n).ctl = s.ctl := by simp [showState]

@[simp ↓] theorem setClass_ctl (s : State) (n : Port) (k : PState) : (setClass s n k).ctl = s.ctl := by simp [setClass]

@[simp ↓] theorem pilotsStart_ctl (s : State) : (pilotsStart s).ctl = s.ctl := by simp [pilotsStart]

@[simp ↓] theorem classify_ctl (s : State) (n : Port) (vh : Option Int) : (classify s n vh).ctl = s.ctl := by
  unfold classify
  repeat' first | (simp; done) | split | (dsimp only; split)

@[simp ↓] theorem measurePeriod_ctl (s : State) (n : Port) (samples : List (BitVec 12)) :
    (measurePeriod s n samples).ctl = s.ctl := by
  unfold measurePeriod
  repeat' first | (simp; done) | split | (dsimp only; split)

@[simp ↓] theorem nextPeriod_ctl (s : State) (n : Port) : (nextPeriod s n).ctl = s.ctl := by simp [nextPeriod]

@[simp ↓] theorem pilotPeriodEnd_ctl (n : Port) (samples : List (BitVec 12)) (s : State) :
    (pilotPeriodEnd n samples s).ctl = s.ctl := by simp [pilotPeriodEnd]

@[simp ↓] theorem pilotCtl_ctl (n : Port) (w : Word) (s : State) : (pilotCtl n w s).ctl = s.ctl := by simp [pilotCtl]

@[simp ↓] theorem pevtClrcnt_ctl (n : Port) (s : State) : (pevtClrcnt n s).ctl = s.ctl := by simp [pevtClrcnt]

/-! ### Machine/Link.lean -/

@[simp ↓] theorem mmeLimit_ctl (s : State) (n : Port) : ((mmeLimit s n).2).ctl = s.ctl := by
  unfold mmeLimit
  repeat' first | (simp; done) | split | (dsimp only; split)

@[simp ↓] theorem hearMme_ctl (n : Port) (f : State → State) (s : State) (hf : ∀ s, (f s).ctl = s.ctl) :
    (hearMme n f s).ctl = s.ctl := by simp [hearMme, hf]

@[simp ↓] theorem startAtten_ctl (n : Port) (mac : BitVec 48) (run : BitVec 64) (announced : Nat) (s : State) :
    (startAtten n mac run announced s).ctl = s.ctl := by simp [startAtten]

@[simp ↓] theorem sounding_ctl (n : Port) (mac : BitVec 48) (run : BitVec 64) (groups : List Nat) (s : State) :
    (sounding n mac run groups s).ctl = s.ctl := by simp [sounding]

@[simp ↓] theorem soundInd_ctl (n : Port) (mac : BitVec 48) (run : BitVec 64) (groups : List Nat) (s : State) :
    (soundInd n mac run groups s).ctl = s.ctl := by simp [soundInd]

@[simp ↓] theorem windowClose_ctl (mac : BitVec 48) (run : BitVec 64) (s : State) :
    (windowClose mac run s).ctl = s.ctl := by
  unfold windowClose
  repeat' first | (simp; done) | split | (dsimp only; split)

@[simp ↓] theorem slacMatch_ctl (n : Port) (mac : BitVec 48) (run : BitVec 64) (s : State) :
    (slacMatch n mac run s).ctl = s.ctl := by simp [slacMatch]

@[simp ↓] theorem slacRearm_ctl (n : Port) (s : State) : (slacRearm n s).ctl = s.ctl := by simp [slacRearm]

@[simp ↓] theorem announce_ctl (src : Fin 4) (at_ : Nat) (s : State) : (announce src at_ s).ctl = s.ctl := by simp [announce]

@[simp ↓] theorem storeFrame_ctl (n : Port) (frame : List Byte) (erased blanked : Nat) (xr6 : Bool) (s : State) :
    (storeFrame n frame erased blanked xr6 s).ctl = s.ctl := by simp [storeFrame]

@[simp ↓] theorem t1sUp_ctl (n : Port) (s : State) : (t1sUp n s).ctl = s.ctl := by simp [t1sUp]

@[simp ↓] theorem takeFrame_ctl (n : Port) (own xr6 : Bool) (frame : List Byte) (erased blanked : Nat) (s : State) :
    (takeFrame n own xr6 frame erased blanked s).ctl = s.ctl := by simp [takeFrame]

@[simp ↓] theorem frameReceive_ctl (n : Port) (kind : FrameKind) (frame : List Byte) (samples : List Int) (s : State) :
    (frameReceive n kind frame samples s).ctl = s.ctl := by
  unfold frameReceive
  repeat' first | (simp; done) | split | (dsimp only; split)

@[simp ↓] theorem txPush_ctl (n : Port) (w : Word) (s : State) : (txPush n w s).ctl = s.ctl := by simp [txPush]

@[simp ↓] theorem frameSent_ctl (n : Port) (air : Nat) (s : State) : (frameSent n air s).ctl = s.ctl := by
  unfold frameSent
  repeat' first | (simp; done) | split | (dsimp only; split)

@[simp ↓] theorem levtClrcnt_ctl (n : Port) (s : State) : (levtClrcnt n s).ctl = s.ctl := by simp [levtClrcnt]

@[simp ↓] theorem tlsKeyWord_ctl (n : Port) (w : Word) (s : State) : (tlsKeyWord n w s).ctl = s.ctl := by simp [tlsKeyWord]

@[simp ↓] theorem tlsInstall_ctl (rx : Bool) (n : Port) (s : State) : (tlsInstall rx n s).ctl = s.ctl := by simp [tlsInstall]

@[simp ↓] theorem tlsClear_ctl (n : Port) (s : State) : (tlsClear n s).ctl = s.ctl := by simp [tlsClear]

@[simp ↓] theorem tlsQueue_ctl (n : Port) (rx : Bool) (ctype : Byte) (len : Nat) (s : State) :
    (tlsQueue n rx ctype len s).ctl = s.ctl := by simp [tlsQueue]

/-! ### Machine/Caldera.lean -/

@[simp ↓] theorem setLims_ctl (n : Port) (vEv iEv : Nat) (s : State) : (setLims n vEv iEv s).ctl = s.ctl := by simp [setLims]

@[simp ↓] theorem formLims_ctl (s : State) :
    (formLims s).ctl = s.ctl := by
  refine forAll_ctl _ _ _ fun s n => ?_
  split <;> simp

@[simp ↓] theorem leaveUnproven_ctl (s : State) :
    (leaveUnproven s).ctl = s.ctl := by simp [leaveUnproven]

@[simp ↓] theorem State.slogPut_ctl (s : State) (typ source : Nat) (d0 d1 : Word) (prot : Bool) :
    (State.slogPut s typ source d0 d1 prot).ctl = s.ctl := by simp [State.slogPut]

@[simp ↓] theorem State.sfEvt_ctl (s : State) (bit : Nat) : (State.sfEvt s bit).ctl = s.ctl := by simp [State.sfEvt]

@[simp ↓] theorem State.poolEvt_ctl (s : State) (bit : Nat) : (State.poolEvt s bit).ctl = s.ctl := by simp [State.poolEvt]

@[simp ↓] theorem State.siEvt_ctl (s : State) (bit : Nat) : (State.siEvt s bit).ctl = s.ctl := by simp [State.siEvt]

@[simp ↓] theorem releaseModule_ctl (m : Fin 48) (s : State) : (releaseModule m s).ctl = s.ctl := by simp [releaseModule]

@[simp ↓] theorem releaseOutlet_ctl (n : Port) (s : State) : (releaseOutlet n s).ctl = s.ctl := by simp [releaseOutlet]

@[simp ↓] theorem endClose_ctl (c : Fin 12) (st : Status) (s : State) : (endClose c st s).ctl = s.ctl := by simp [endClose]

@[simp ↓] theorem countEm_ctl (c : Fin 12) (amps : Nat) (s : State) : (countEm c amps s).ctl = s.ctl := by simp [countEm]

@[simp ↓] theorem coilOff_ctl (c : Fin 12) (emergency : Bool) (s : State) :
    (coilOff c emergency s).ctl = s.ctl := by simp [coilOff]

@[simp ↓] theorem announceOpen_ctl (c : Fin 12) (s : State) : (announceOpen c s).ctl = s.ctl := by simp [announceOpen]

@[simp ↓] theorem startRamp_ctl (n : Port) (c : Fin 12) (s : State) : (startRamp n c s).ctl = s.ctl := by simp [startRamp]

@[simp ↓] theorem actStop_ctl (n : Port) (c : Fin 12) (cat : Nat) (s : State) :
    (actStop n c cat s).ctl = s.ctl := by
  unfold actStop
  repeat' first | (simp; done) | split | (dsimp only; split)

@[simp ↓] theorem endDemands_ctl (n : Port) (s : State) : (endDemands n s).ctl = s.ctl := by simp [endDemands]

@[simp ↓] theorem seqCheck_ctl (s : State) : (seqCheck s).ctl = s.ctl := by simp [seqCheck]

@[simp ↓] theorem dropTies_ctl (n : Port) (s : State) : (dropTies n s).ctl = s.ctl := by
  unfold dropTies
  split
  · rfl
  · rw [seqCheck_ctl]
    refine forAll_ctl _ _ _ fun s c => ?_
    split
    · split <;> simp
    · rfl

@[simp ↓] theorem accept_ctl (r : Raise) (s : State) : (accept r s).ctl = s.ctl := by
  unfold accept
  repeat' first | (simp; done) | split | (dsimp only; split)

@[simp ↓] theorem acceptAll_ctl (s : State) : (acceptAll s).ctl = s.ctl := by simp [acceptAll]

@[simp ↓] theorem pilotHold_ctl (n : Port) (on : Bool) (s : State) : (pilotHold n on s).ctl = s.ctl := by simp [pilotHold]

/-! ### Machine/CanBus.lean -/

@[simp ↓] theorem canReceive_ctl (b : Fin 3) (f : CanFrame) (s : State) : (canReceive b f s).ctl = s.ctl := by simp [canReceive]

@[simp ↓] theorem canTransmit_ctl (b : Fin 3) (sent : Bool) (s : State) :
    (canTransmit b sent s).ctl = s.ctl := by
  unfold canTransmit
  repeat' first | (simp; done) | split | (dsimp only; split)

@[simp ↓] theorem canTimeout_ctl (b : Fin 3) (s : State) : (canTimeout b s).ctl = s.ctl := by simp [canTimeout]

@[simp ↓] theorem sfLoad_ctl (b : Fin 3) (e : Fin 16) (s : State) : (sfLoad b e s).ctl = s.ctl := by simp [sfLoad]

@[simp ↓] theorem sfClear_ctl (b : Fin 3) (e : Fin 16) (s : State) : (sfClear b e s).ctl = s.ctl := by simp [sfClear]

@[simp ↓] theorem sfEntry_ctl (b : Fin 3) (e : Fin 16) (s : State) : (sfEntry b e s).ctl = s.ctl := by simp [sfEntry]

@[simp ↓] theorem canRecov_ctl (b : Fin 3) (s : State) : (canRecov b s).ctl = s.ctl := by simp [canRecov]

@[simp ↓] theorem canState_ctl (b : Fin 3) (st : CanState) (s : State) : (canState b st s).ctl = s.ctl := by simp [canState]

@[simp ↓] theorem canRecovered_ctl (b : Fin 3) (s : State) : (canRecovered b s).ctl = s.ctl := by simp [canRecovered]

@[simp ↓] theorem canErrors_ctl (b : Fin 3) (tec rcc : Byte) (s : State) :
    (canErrors b tec rcc s).ctl = s.ctl := by simp [canErrors]

@[simp ↓] theorem canBusOff_ctl (b : Fin 3) (s : State) : (canBusOff b s).ctl = s.ctl := by simp [canBusOff]

@[simp ↓] theorem canClrcnt_ctl (b : Fin 3) (s : State) : (canClrcnt b s).ctl = s.ctl := by simp [canClrcnt]

@[simp ↓] theorem gpioSet_ctl (f : Gpio → Gpio) (s : State) : (gpioSet f s).ctl = s.ctl := by simp [gpioSet]

/-! ### Machine/Irq.lean -/

@[simp ↓] theorem plicClaim_ctl (ctx : Fin 8) (s : State) : (plicClaim ctx s).ctl = s.ctl := by simp [plicClaim]

@[simp ↓] theorem plicComplete_ctl (ctx : Fin 8) (src : Word) (s : State) :
    (plicComplete ctx src s).ctl = s.ctl := by simp [plicComplete]

/-! ### Machine/Mem.lean -/

@[simp ↓] theorem State.ramWrite_ctl (s : State) (a : Nat) (bs : List Byte) :
    (State.ramWrite s a bs).ctl = s.ctl := by simp [State.ramWrite]

@[simp ↓] theorem State.norWrite_ctl (s : State) (o : Nat) (bs : List Byte) :
    (State.norWrite s o bs).ctl = s.ctl := by simp [State.norWrite]

@[simp ↓] theorem State.norErase_ctl (s : State) (o n : Nat) : (State.norErase s o n).ctl = s.ctl := by simp [State.norErase]

@[simp ↓] theorem State.eccErrs_ctl (s : State) (k a req : Nat) :
    (State.eccErrs s k a req).ctl = s.ctl := by simp [State.eccErrs]

@[simp ↓] theorem State.eccErr_ctl (s : State) (a : Nat) (req : Nat) : (State.eccErr s a req).ctl = s.ctl := by simp [State.eccErr]

@[simp ↓] theorem State.eccRun_ctl (s : State) (a n req : Nat) :
    (State.eccRun s a n req).ctl = s.ctl := by simp [State.eccRun]

@[simp ↓] theorem parRecord_ctl (req : Nat) (a : Word) (onResponse : Bool) (s : State) :
    (parRecord req a onResponse s).ctl = s.ctl := by simp [parRecord]

@[simp ↓] theorem State.mark_ctl (s : State) (a : Nat) : (State.mark s a).ctl = s.ctl := by simp [State.mark]

@[simp ↓] theorem State.srcBytes_ctl (s : State) (req a n : Nat) : (State.srcBytes s req a n).2.ctl = s.ctl := by
  unfold State.srcBytes
  repeat' first | (simp; done) | split | (dsimp only; split)

theorem ramStore_ctl (s t : State) (a : Nat) (bs : List Byte) (h : ramStore s a bs = some t) : t.ctl = s.ctl := by
  unfold ramStore at h
  dsimp only at h
  split at h
  · cases h
  · cases h; simp

@[simp] theorem ramStore_getD_ctl (s : State) (a : Nat) (bs : List Byte) : ((ramStore s a bs).getD s).ctl = s.ctl := by
  cases h : ramStore s a bs with
  | none => rfl
  | some t => exact ramStore_ctl s t a bs h

@[simp ↓] theorem State.appWrite_ctl (s : State) (req a : Nat) (bs : List Byte) :
    (State.appWrite s req a bs).ctl = s.ctl := by
  unfold State.appWrite
  dsimp only
  split
  · split
    · rename_i h; rw [ramStore_ctl _ _ _ _ h, State.tagged_ctl]
    · simp
  · simp

/-! ### Machine/Tls.lean -/

@[simp ↓] theorem tlsEnd_ctl (n : Port) (rx : Bool) (res olen : Nat) (itype : Option Byte) (s : State) :
    (tlsEnd n rx res olen itype s).ctl = s.ctl := by simp [tlsEnd]

@[simp ↓] theorem tlsOk_ctl (n : Port) (rx : Bool) (dst : Word) (out : List Byte) (itype : Option Byte) (s : State) :
    (tlsOk n rx dst out itype s).ctl = s.ctl := by simp [tlsOk]

@[simp ↓] theorem tlsTxDone_ctl (n : Port) (o : TlsOp) (suite : Nat) (k : TlsKeys) (seq : Nat) (s : State) :
    (tlsTxDone n o suite k seq s).ctl = s.ctl := by simp [tlsTxDone]

@[simp ↓] theorem tlsRxDone_ctl (n : Port) (o : TlsOp) (suite : Nat) (k : TlsKeys) (seq : Nat) (s : State) :
    (tlsRxDone n o suite k seq s).ctl = s.ctl := by
  unfold tlsRxDone
  repeat' first | (simp; done) | split | (dsimp only; split)

@[simp ↓] theorem tlsServe_ctl (n : Port) (rx : Bool) (s : State) : (tlsServe n rx s).ctl = s.ctl := by
  unfold tlsServe
  repeat' first | (simp; done) | split | (dsimp only; split)

@[simp ↓] theorem tlsComplete_ctl (n : Port) (rx : Bool) (s : State) : (tlsComplete n rx s).ctl = s.ctl := by
  unfold tlsComplete
  repeat' first | (simp; done) | split | (dsimp only; split)

/-! ### Machine/Checks.lean -/

@[simp ↓] theorem State.withParams_ctl (s : State) (b : List (Nat × Word)) :
    (State.withParams s b).ctl = s.ctl := by simp [State.withParams]

/-! ### Machine/Fabric.lean -/

@[simp ↓] theorem restartParts_ctl (ps : List (Fin 8)) (s : State) :
    (restartParts ps s).ctl = s.ctl := by simp [restartParts]

@[simp ↓] theorem recheck_ctl (s : State) : (recheck s).ctl = s.ctl := by simp [recheck]

/-! ### Machine/DmaCtl.lean -/

@[simp ↓] theorem State.modDma_ctl (s : State) (c : Fin 32) (f : DmaCh → DmaCh) :
    (State.modDma s c f).ctl = s.ctl := by simp [State.modDma]

@[simp ↓] theorem settleReq_ctl (c : Fin 32) (s : State) : (settleReq c s).ctl = s.ctl := by simp [settleReq]

@[simp ↓] theorem requestAssert_ctl (r : Fin 32) (s : State) : (requestAssert r s).ctl = s.ctl := by simp [requestAssert]

@[simp ↓] theorem requestWithdraw_ctl (r : Fin 32) (s : State) : (requestWithdraw r s).ctl = s.ctl := by simp [requestWithdraw]

@[simp ↓] theorem delivered_ctl (r : Nat) (s : State) : (delivered r s).ctl = s.ctl := by
  unfold delivered
  repeat' first | (simp; done) | split | (dsimp only; split)

@[simp ↓] theorem writeStatus_ctl (c : Fin 32) (addr : Nat) (irq : Bool) (res : DmaResult) (bytes : Nat) (s : State) :
    (writeStatus c addr irq res bytes s).ctl = s.ctl := by simp [writeStatus]

@[simp ↓] theorem dmaHalt_ctl (c : Fin 32) (s : State) : (dmaHalt c s).ctl = s.ctl := by simp [dmaHalt]

@[simp ↓] theorem dropRest_ctl (r : Nat) (s : State) :
    (dropRest r s).ctl = s.ctl := by
  unfold dropRest
  repeat' first | (simp; done) | split | (dsimp only; split)

@[simp ↓] theorem dmaStop_ctl (c : Fin 32) (s : State) : (dmaStop c s).ctl = s.ctl := by simp [dmaStop]

@[simp ↓] theorem fetchDesc_ctl (a : Nat) (hit : Option Bool) (s : State) :
    ((fetchDesc a hit s).2.2).ctl = s.ctl := by
  unfold fetchDesc
  dsimp only
  split <;> simp

@[simp ↓] theorem loadDesc_ctl (c : Fin 32) (hit : Option Bool) (s : State) : (loadDesc c hit s).ctl = s.ctl := by
  unfold loadDesc
  repeat' first | (simp; done) | split | (dsimp only; split)

@[simp ↓] theorem dmaFinish_ctl (c : Fin 32) (hit : Option Bool) (s : State) :
    (dmaFinish c hit s).ctl = s.ctl := by
  unfold dmaFinish
  repeat' first | (simp; done) | split | (dsimp only; split)

@[simp ↓] theorem selectRequest_ctl (c : Fin 32) (sel : BitVec 5) (stays : Bool) (s : State) :
    (selectRequest c sel stays s).ctl = s.ctl := by simp [selectRequest]

@[simp ↓] theorem setPrio_ctl (c : Fin 32) (p : BitVec 2) (s : State) : (setPrio c p s).ctl = s.ctl := by simp [setPrio]

@[simp ↓] theorem dmaEnable_ctl (c : Fin 32) (hit : Option Bool) (s : State) :
    (dmaEnable c hit s).ctl = s.ctl := by simp [dmaEnable]

@[simp ↓] theorem dmaDisable_ctl (c : Fin 32) (s : State) : (dmaDisable c s).ctl = s.ctl := by
  unfold dmaDisable
  repeat' first | (simp; done) | split | (dsimp only; split)

@[simp ↓] theorem dmaAllOff_ctl (s : State) : (dmaAllOff s).ctl = s.ctl := by simp [dmaAllOff]

@[simp ↓] theorem dmaAbort_ctl (c : Fin 32) (s : State) : (dmaAbort c s).ctl = s.ctl := by
  unfold dmaAbort
  repeat' first | (simp; done) | split | (dsimp only; split)

@[simp ↓] theorem dmaKick_ctl (c : Fin 32) (hit : Option Bool) (s : State) :
    (dmaKick c hit s).ctl = s.ctl := by simp [dmaKick]

@[simp ↓] theorem dmaClear_ctl (s : State) : (dmaClear s).ctl = s.ctl := by simp [dmaClear]

/-! ### Machine/Modes.lean -/

@[simp ↓] theorem abandonTie_ctl (c : Fin 12) (s : State) : (abandonTie c s).ctl = s.ctl := by
  unfold abandonTie
  repeat' first | (simp; done) | split | (dsimp only; split)

@[simp ↓] theorem abandonCloses_ctl (s : State) : (abandonCloses s).ctl = s.ctl := by simp [abandonCloses]

@[simp ↓] theorem endOos_ctl (st : Status) (s : State) : (endOos st s).ctl = s.ctl := by
  unfold endOos
  repeat' first | (simp; done) | split | (dsimp only; split)

@[simp ↓] theorem rollbackDom_ctl (d : Fin 6) (s : State) : (rollbackDom d s).ctl = s.ctl := by simp [rollbackDom]

@[simp ↓] theorem rollbackOpen_ctl (s : State) : (rollbackOpen s).ctl = s.ctl := by simp [rollbackOpen]

@[simp ↓] theorem setMode_ctl (m : Mode) (s : State) : (setMode m s).ctl = s.ctl := by simp [setMode]

@[simp ↓] theorem endPending_ctl (cause : Nat) (s : State) : (endPending cause s).ctl = s.ctl := by simp [endPending]

@[simp ↓] theorem degradedStops_ctl (s : State) : (degradedStops s).ctl = s.ctl := by simp [degradedStops]

@[simp ↓] theorem portsSilent_ctl (s : State) : (portsSilent s).ctl = s.ctl := by simp [portsSilent]

@[simp ↓] theorem trialFails_ctl (s : State) : (trialFails s).ctl = s.ctl := by simp [trialFails]

@[simp ↓] theorem degradedEntry_ctl (s : State) : (degradedEntry s).ctl = s.ctl := by simp [degradedEntry]

@[simp ↓] theorem enterDegraded_ctl (c : DegCause) (s : State) : (enterDegraded c s).ctl = s.ctl := by simp [enterDegraded]

@[simp ↓] theorem degTrigger_ctl (c : DegCause) (s : State) : (degTrigger c s).ctl = s.ctl := by
  unfold degTrigger
  repeat' first | (simp; done) | split | (dsimp only; split)

@[simp ↓] theorem enterLockout_ctl (s : State) : (enterLockout s).ctl = s.ctl := by
  unfold enterLockout
  repeat' first | (simp; done) | split | (dsimp only; split)

@[simp ↓] theorem safeState_ctl (s : State) : (safeState s).ctl = s.ctl := by simp [safeState]

@[simp ↓] theorem latchStops_ctl (code : Nat) (s : State) : (latchStops code s).ctl = s.ctl := by simp [latchStops]

@[simp ↓] theorem latchFault_ctl (code : Fin 10) (s : State) : (latchFault code s).ctl = s.ctl := by simp [latchFault]

@[simp ↓] theorem leaveLockout_ctl (s : State) : (leaveLockout s).ctl = s.ctl := by simp [leaveLockout]

@[simp ↓] theorem confirmClosed_ctl (n : Port) (s : State) : (confirmClosed n s).ctl = s.ctl := by simp [confirmClosed]

@[simp ↓] theorem oosStops_ctl (set : BitVec 8) (s : State) : (oosStops set s).ctl = s.ctl := by simp [oosStops]

@[simp ↓] theorem oosDone_ctl (s : State) : (oosDone s).ctl = s.ctl := by
  unfold oosDone
  repeat' first | (simp; done) | split | (dsimp only; split)

@[simp ↓] theorem confirmOpen_ctl (n : Port) (s : State) : (confirmOpen n s).ctl = s.ctl := by simp [confirmOpen]

/-! ### Machine/Sec.lean -/

@[simp ↓] theorem secQueue_ctl (op : BitVec 6) (port : BitVec 4) (key : BitVec 6) (len : BitVec 16) (s : State) :
    (secQueue op port key len s).ctl = s.ctl := by simp [secQueue]

@[simp ↓] theorem gcmAux_ctl (a : Word) (s : State) : ((gcmAux a s).2.2).ctl = s.ctl := by simp [gcmAux]

@[simp ↓] theorem putKey_ctl (k : BitVec 6) (x : HostKey) (s : State) : (putKey k x s).ctl = s.ctl := by simp [putKey]

@[simp] theorem secFail_ctl (r : SecRes) (s : State) : (SecOut.fail r s).s.ctl = s.ctl := rfl
@[simp] theorem ite_secOut_s (c : Prop) [Decidable c] (a b : SecOut) :
    (if c then a else b).s = if c then a.s else b.s := apply_ite SecOut.s c a b
@[simp] theorem secGenkey_ctl (o : SecOp) (s : State) : (secGenkey o s).s.ctl = s.ctl := by
  unfold secGenkey
  (repeat' (first | with_reducible rfl | (simp; done) | split | (dsimp only; split) | refine (forAll_ctl _ _ _ (fun _ _ => ?_)).trans ?_ | (dsimp only; refine (forAll_ctl _ _ _ (fun _ _ => ?_)).trans ?_)))
@[simp] theorem secAes_ctl (o : SecOp) (src : List Byte) (k : HostKey) (s : State) : (secAes o src k s).s.ctl = s.ctl := by
  unfold secAes
  (repeat' (first | with_reducible rfl | (simp; done) | split | (dsimp only; split) | refine (forAll_ctl _ _ _ (fun _ _ => ?_)).trans ?_ | (dsimp only; refine (forAll_ctl _ _ _ (fun _ _ => ?_)).trans ?_)))
@[simp] theorem secEc_ctl (o : SecOp) (src : List Byte) (k : HostKey) (s : State) : (secEc o src k s).s.ctl = s.ctl := by
  unfold secEc
  (repeat' (first | with_reducible rfl | (simp; done) | split | (dsimp only; split) | refine (forAll_ctl _ _ _ (fun _ _ => ?_)).trans ?_ | (dsimp only; refine (forAll_ctl _ _ _ (fun _ _ => ?_)).trans ?_)))
@[simp] theorem secVerify_ctl (o : SecOp) (src : List Byte) (s : State) : (secVerify o src s).s.ctl = s.ctl := by
  unfold secVerify
  (repeat' (first | with_reducible rfl | (simp; done) | split | (dsimp only; split) | refine (forAll_ctl _ _ _ (fun _ _ => ?_)).trans ?_ | (dsimp only; refine (forAll_ctl _ _ _ (fun _ _ => ?_)).trans ?_)))
@[simp] theorem secImport_ctl (o : SecOp) (src : List Byte) (s : State) : (secImport o src s).s.ctl = s.ctl := by
  unfold secImport
  (repeat' (first | with_reducible rfl | (simp; done) | split | (dsimp only; split) | refine (forAll_ctl _ _ _ (fun _ _ => ?_)).trans ?_ | (dsimp only; refine (forAll_ctl _ _ _ (fun _ _ => ?_)).trans ?_)))
@[simp] theorem secAttest_ctl (src : List Byte) (s : State) : (secAttest src s).s.ctl = s.ctl := by
  unfold secAttest
  (repeat' (first | with_reducible rfl | (simp; done) | split | (dsimp only; split) | refine (forAll_ctl _ _ _ (fun _ _ => ?_)).trans ?_ | (dsimp only; refine (forAll_ctl _ _ _ (fun _ _ => ?_)).trans ?_)))
@[simp] theorem secRun_ctl (o : SecOp) (s : State) : (secRun o s).s.ctl = s.ctl := by
  unfold secRun
  (repeat' (first | with_reducible rfl | (simp; done) | split | (dsimp only; split) | refine (forAll_ctl _ _ _ (fun _ _ => ?_)).trans ?_ | (dsimp only; refine (forAll_ctl _ _ _ (fun _ _ => ?_)).trans ?_)))

@[simp ↓] theorem secComplete_ctl (s : State) : (secComplete s).ctl = s.ctl := by
  unfold secComplete
  repeat' first | (simp; done) | split | (dsimp only; split)

@[simp ↓] theorem auditTamper_ctl (s : State) : (auditTamper s).ctl = s.ctl := by
  unfold auditTamper
  repeat' first | (simp; done) | split | (dsimp only; split)

@[simp ↓] theorem tamper_ctl (det : Word) (s : State) : (tamper det s).ctl = s.ctl := by simp [tamper]

/-! ### Machine/Upd.lean -/

@[simp ↓] theorem beginNew_ctl (man : List Byte) (s : State) : (beginNew man s).ctl = s.ctl := by simp [beginNew]

@[simp ↓] theorem updBegin_ctl (a : Vector Word 16) (s : State) : ((updBegin a s).s).ctl = s.ctl := by simp [updBegin]

@[simp ↓] theorem eraseStaging_ctl (s : State) : (eraseStaging s).ctl = s.ctl := by simp [eraseStaging]

@[simp ↓] theorem beginDone_ctl (ok : Bool) (s : State) : (beginDone ok s).ctl = s.ctl := by simp [beginDone]

@[simp ↓] theorem repairSector_ctl (base size per : Nat) (sector : Nat) (s : State) :
    (repairSector base size per sector s).ctl = s.ctl := by simp [repairSector]

@[simp ↓] theorem repair_ctl (k : Nat) (s : State) : (repair k s).ctl = s.ctl := by simp [repair]

@[simp ↓] theorem updSpore_ctl (a : Vector Word 16) (s : State) : ((updSpore a s).s).ctl = s.ctl := by simp [updSpore]

@[simp ↓] theorem updMissing_ctl (a : Vector Word 16) (s : State) : ((updMissing a s).s).ctl = s.ctl := by simp [updMissing]

@[simp ↓] theorem updVerify_ctl (a_ : Vector Word 16) (s : State) : ((updVerify a_ s).s).ctl = s.ctl := by simp [updVerify]

@[simp ↓] theorem verifyDone_ctl (ok : Bool) (s : State) : (verifyDone ok s).ctl = s.ctl := by simp [verifyDone]

@[simp ↓] theorem updActivate_ctl (a : Vector Word 16) (s : State) : ((updActivate a s).s).ctl = s.ctl := by simp [updActivate]

@[simp ↓] theorem updCancel_ctl (a : Vector Word 16) (s : State) : ((updCancel a s).s).ctl = s.ctl := by simp [updCancel]

@[simp ↓] theorem updConfirm_ctl (a_ : Vector Word 16) (s : State) : ((updConfirm a_ s).s).ctl = s.ctl := by simp [updConfirm]

@[simp ↓] theorem reject_ctl (reason hostcode : Nat) (s : State) : (reject reason hostcode s).ctl = s.ctl := by simp [reject]

@[simp ↓] theorem updReport_ctl (a : Vector Word 16) (s : State) : ((updReport a s).s).ctl = s.ctl := by simp [updReport]

@[simp ↓] theorem updStatus_ctl (a_ : Vector Word 16) (s : State) : ((updStatus a_ s).s).ctl = s.ctl := by simp [updStatus]

@[simp ↓] theorem windowWarning_ctl (s : State) : (windowWarning s).ctl = s.ctl := by simp [windowWarning]

@[simp ↓] theorem windowExpiry_ctl (s : State) : (windowExpiry s).ctl = s.ctl := by simp [windowExpiry]

@[simp ↓] theorem setOpen_ctl (a_ : Vector Word 16) (s : State) : ((setOpen a_ s).s).ctl = s.ctl := by simp [setOpen]

@[simp ↓] theorem setOpenDone_ctl (ok : Bool) (s : State) : (setOpenDone ok s).ctl = s.ctl := by simp [setOpenDone]

@[simp ↓] theorem State.norProgram_ctl (s : State) (o : Nat) (l : List Byte) :
    (State.norProgram s o l).ctl = s.ctl := by simp [State.norProgram]

@[simp ↓] theorem setWrite_ctl (a : Vector Word 16) (s : State) : ((setWrite a s).s).ctl = s.ctl := by
  unfold setWrite
  repeat' first | (simp; done) | split | (dsimp only; split)

@[simp ↓] theorem setCommit_ctl (a : Vector Word 16) (s : State) : ((setCommit a s).s).ctl = s.ctl := by
  unfold setCommit
  repeat' first | (simp; done) | split | (dsimp only; split)

@[simp ↓] theorem keyRotate_ctl (a : Vector Word 16) (s : State) : ((keyRotate a s).s).ctl = s.ctl := by simp [keyRotate]

@[simp ↓] theorem updClear_ctl (s : State) : (updClear s).ctl = s.ctl := by simp [updClear]

/-! ### Machine/Display.lean -/

@[simp ↓] theorem railStep_ctl (s : State) : (railStep s).ctl = s.ctl := by
  unfold railStep
  repeat' first | (simp; done) | split | (dsimp only; split)

@[simp ↓] theorem lowerRails_ctl (s : State) : (lowerRails s).ctl = s.ctl := by
  unfold lowerRails
  repeat' first | (simp; done) | split | (dsimp only; split)

@[simp ↓] theorem fetchTarget_ctl (r : Fin 16) (u : RunUpd) (s : State) : (fetchTarget r u s).2.ctl = s.ctl := by
  unfold fetchTarget
  repeat' first | (simp; done) | split | (dsimp only; split)

@[simp ↓] theorem beginUpdate_ctl (r : Fin 16) (u : RunUpd) (s : State) : (beginUpdate r u s).ctl = s.ctl := by simp [beginUpdate]

@[simp ↓] theorem noteTemp_ctl (s : State) : (noteTemp s).ctl = s.ctl := by simp [noteTemp]

@[simp ↓] theorem raiseRails_ctl (s : State) : (raiseRails s).ctl = s.ctl := by simp [raiseRails]

@[simp ↓] theorem startPending_ctl (r : Fin 16) (q : PendUpd) (band : Nat) (s : State) :
    (startPending r q band s).ctl = s.ctl := by simp [startPending]

@[simp ↓] theorem updateStart_ctl (slot : Fin 4) (s : State) : (updateStart slot s).ctl = s.ctl := by
  unfold updateStart
  repeat' first | (simp; done) | split | (dsimp only; split)

@[simp ↓] theorem setPermit_ctl (on : Bool) (s : State) : (setPermit on s).ctl = s.ctl := by
  unfold setPermit
  repeat' first | (simp; done) | split | (dsimp only; split)

@[simp ↓] theorem permitCheck_ctl (s : State) : (permitCheck s).ctl = s.ctl := by simp [permitCheck]

@[simp ↓] theorem finishUpdate_ctl (r : Fin 16) (u : RunUpd) (s : State) :
    (finishUpdate r u s).ctl = s.ctl := by simp [finishUpdate]

@[simp ↓] theorem followLater_ctl (r : Fin 16) (m : BitVec 3) (u : RunUpd) (s : State) :
    (followLater r m u s).ctl = s.ctl := by simp [followLater]

@[simp ↓] theorem updateEnd_ctl (r : Fin 16) (s : State) : (updateEnd r s).ctl = s.ctl := by
  unfold updateEnd
  repeat' first | (simp; done) | split | (dsimp only; split)

@[simp ↓] theorem updateRequest_ctl (r : Fin 16) (mode : BitVec 3) (s : State) :
    (updateRequest r mode s).ctl = s.ctl := by simp [updateRequest]

@[simp ↓] theorem queueRedraw_ctl (s : State) (r : Fin 16) : (queueRedraw s r).ctl = s.ctl := by simp [queueRedraw]

@[simp ↓] theorem queueRedraws_ctl (s : State) : (queueRedraws s).ctl = s.ctl := by simp [queueRedraws]

@[simp ↓] theorem railFault_ctl (rail : Fin 5) (s : State) : (railFault rail s).ctl = s.ctl := by simp [railFault]

@[simp ↓] theorem railRetry_ctl (s : State) : (railRetry s).ctl = s.ctl := by simp [railRetry]

@[simp ↓] theorem dispClrcnt_ctl (s : State) : (dispClrcnt s).ctl = s.ctl := by simp [dispClrcnt]

/-! ### Machine/SafeFunctions.lean -/

@[simp ↓] theorem pairTick_ctl (j : Fin 8) (s : State) : (pairTick j s).ctl = s.ctl := by simp [pairTick]

@[simp ↓] theorem connTick_ctl (k : Fin 16) (s : State) : (connTick k s).ctl = s.ctl := by simp [connTick]

@[simp ↓] theorem tickInputs_ctl (lv : BitVec 16) (lorst : Bool) (s : State) :
    (tickInputs lv lorst s).ctl = s.ctl := by simp [tickInputs]

@[simp ↓] theorem tickMeans_ctl (s : State) : (tickMeans s).ctl = s.ctl := by simp [tickMeans]

@[simp ↓] theorem tickChecks_ctl (spDiff rcBad : Bool) (s : State) :
    (tickChecks spDiff rcBad s).ctl = s.ctl := by simp [tickChecks]

@[simp ↓] theorem sf01_ctl (n : Port) (s : State) : (sf01 n s).ctl = s.ctl := by simp [sf01]

@[simp ↓] theorem sf07_ctl (n : Port) (s : State) : (sf07 n s).ctl = s.ctl := by
  unfold sf07
  repeat' first | (simp; done) | split | (dsimp only; split)

@[simp ↓] theorem outCounts_ctl (n : Port) (s : State) : (outCounts n s).ctl = s.ctl := by simp [outCounts]

@[simp ↓] theorem pilotFault_ctl (n : Port) (s : State) : (pilotFault n s).ctl = s.ctl := by simp [pilotFault]

@[simp ↓] theorem sf09_ctl (n : Port) (s : State) : (sf09 n s).ctl = s.ctl := by
  unfold sf09
  repeat' first | (simp; done) | split | (dsimp only; split)

@[simp ↓] theorem outTick_ctl (n : Port) (s : State) : (outTick n s).ctl = s.ctl := by simp [outTick]

@[simp ↓] theorem setImd_ctl (g : Fin 6) (st : ImdState) (s : State) : (setImd g st s).ctl = s.ctl := by simp [setImd]

@[simp ↓] theorem imdRestart_ctl (g : Fin 6) (s : State) : (imdRestart g s).ctl = s.ctl := by simp [imdRestart]

@[simp ↓] theorem preCheck_ctl (g : Fin 6) (s : State) : (preCheck g s).ctl = s.ctl := by simp [preCheck]

@[simp ↓] theorem imdSync_ctl (s : State) : (imdSync s).ctl = s.ctl := by simp [imdSync]

@[simp ↓] theorem askPreCheck_ctl (g : Fin 6) (s : State) : (askPreCheck g s).ctl = s.ctl := by simp [askPreCheck]

@[simp ↓] theorem imdTick_ctl (g : Fin 6) (s : State) : (imdTick g s).ctl = s.ctl := by simp [imdTick]

@[simp ↓] theorem rampTick_ctl (n : Port) (s : State) : (rampTick n s).ctl = s.ctl := by
  unfold rampTick
  repeat' first | (simp; done) | split | (dsimp only; split)

@[simp ↓] theorem weldTick_ctl (c : Fin 12) (s : State) : (weldTick c s).ctl = s.ctl := by
  unfold weldTick
  repeat' first | (simp; done) | split | (dsimp only; split)

@[simp ↓] theorem prepareTie_ctl (c : Fin 12) (s : State) : (prepareTie c s).ctl = s.ctl := by
  unfold prepareTie
  repeat' first | (simp; done) | split | (dsimp only; split)

@[simp ↓] theorem fallBack_ctl (c : Fin 12) (s : State) : (fallBack c s).ctl = s.ctl := by simp [fallBack]

@[simp ↓] theorem closeTick_ctl (c : Fin 12) (s : State) : (closeTick c s).ctl = s.ctl := by
  unfold closeTick
  repeat' first | (simp; done) | split | (dsimp only; split)

@[simp ↓] theorem tieOpenReq_ctl (c : Fin 12) (commit : Bool) (s : State) :
    (tieOpenReq c commit s).ctl = s.ctl := by simp [tieOpenReq]

@[simp ↓] theorem autoOpen_ctl (s : State) : (autoOpen s).ctl = s.ctl := by simp [autoOpen]

@[simp ↓] theorem openTick_ctl (c : Fin 12) (s : State) : (openTick c s).ctl = s.ctl := by
  unfold openTick
  repeat' first | (simp; done) | split | (dsimp only; split)

@[simp ↓] theorem enqueue_ctl (c : Fin 12) (s : State) : (enqueue c s).ctl = s.ctl := by simp [enqueue]

@[simp ↓] theorem numberReq_ctl (c : Fin 12) (s : State) : (numberReq c s).ctl = s.ctl := by simp [numberReq]

@[simp] theorem serveQueue_ctl (f : Nat) (s : State) : (serveQueue f s).ctl = s.ctl := by
  induction f generalizing s with
  | zero => rfl
  | succ f ih =>
    unfold serveQueue
    (repeat' (first | with_reducible rfl | (simp [ih]; done) | split | (dsimp only; split) | refine (forAll_ctl _ _ _ (fun _ _ => ?_)).trans ?_ | (dsimp only; refine (forAll_ctl _ _ _ (fun _ _ => ?_)).trans ?_)))

/-! ### Machine/SafeCoils.lean -/

@[simp ↓] theorem announceExpiry_ctl (c : Fin 12) (s : State) : (announceExpiry c s).ctl = s.ctl := by
  unfold announceExpiry
  repeat' first | (simp; done) | split | (dsimp only; split)

@[simp ↓] theorem closeMet_ctl (c : Fin 12) (s : State) : (closeMet c s).ctl = s.ctl := by
  unfold closeMet
  repeat' first | (simp; done) | split | (dsimp only; split)

@[simp ↓] theorem pullInEnd_ctl (c : Fin 12) (s : State) : (pullInEnd c s).ctl = s.ctl := by simp [pullInEnd]

@[simp ↓] theorem coilFault_ctl (c : Fin 12) (s : State) : (coilFault c s).ctl = s.ctl := by simp [coilFault]

@[simp ↓] theorem pulseTest_ctl (c : Fin 12) (high pass : Bool) (s : State) :
    (pulseTest c high pass s).ctl = s.ctl := by simp [pulseTest]

@[simp ↓] theorem lockoutRetest_ctl (c : Fin 12) (high pass : Bool) (s : State) :
    (lockoutRetest c high pass s).ctl = s.ctl := by simp [lockoutRetest]

@[simp ↓] theorem pulseInput_ctl (i : Fin 16) (low : Bool) (s : State) : (pulseInput i low s).ctl = s.ctl := by simp [pulseInput]

@[simp ↓] theorem testPulse_ctl (b : Bool) (low : BitVec 16) (s : State) : (testPulse b low s).ctl = s.ctl := by simp [testPulse]

@[simp ↓] theorem discrepancy_ctl (j : Fin 8) (s : State) : (discrepancy j s).ctl = s.ctl := by simp [discrepancy]

@[simp ↓] theorem rearmEdge_ctl (s : State) : (rearmEdge s).ctl = s.ctl := by
  unfold rearmEdge
  repeat' first | (simp; done) | split | (dsimp only; split)

@[simp ↓] theorem weld_ctl (c : Fin 12) (s : State) : (weld c s).ctl = s.ctl := by simp [weld]

@[simp ↓] theorem splitCheck_ctl (g : Fin 6) (s : State) : (splitCheck g s).ctl = s.ctl := by simp [splitCheck]

@[simp ↓] theorem openConfirmed_ctl (c : Fin 12) (s : State) : (openConfirmed c s).ctl = s.ctl := by simp [openConfirmed]

@[simp ↓] theorem closedConfirmed_ctl (c : Fin 12) (s : State) : (closedConfirmed c s).ctl = s.ctl := by simp [closedConfirmed]

@[simp ↓] theorem dropOut_ctl (c : Fin 12) (s : State) : (dropOut c s).ctl = s.ctl := by simp [dropOut]

@[simp ↓] theorem fbCheck_ctl (c : Fin 12) (s : State) : (fbCheck c s).ctl = s.ctl := by
  unfold fbCheck
  repeat' first | (simp; done) | split | (dsimp only; split)

@[simp ↓] theorem feedbackChange_ctl (i : Fin 16) (s : State) : (feedbackChange i s).ctl = s.ctl := by simp [feedbackChange]

@[simp ↓] theorem tieFail_ctl (c : Fin 12) (s : State) : (tieFail c s).ctl = s.ctl := by simp [tieFail]

@[simp ↓] theorem fbCloseTimeout_ctl (c : Fin 12) (s : State) : (fbCloseTimeout c s).ctl = s.ctl := by simp [fbCloseTimeout]

@[simp ↓] theorem fbOpenTimeout_ctl (c : Fin 12) (s : State) : (fbOpenTimeout c s).ctl = s.ctl := by simp [fbOpenTimeout]

@[simp ↓] theorem weldWindowEnd_ctl (c : Fin 12) (s : State) : (weldWindowEnd c s).ctl = s.ctl := by
  unfold weldWindowEnd
  repeat' first | (simp; done) | split | (dsimp only; split)

@[simp ↓] theorem tieTimeout_ctl (c : Fin 12) (s : State) : (tieTimeout c s).ctl = s.ctl := by
  unfold tieTimeout
  repeat' first | (simp; done) | split | (dsimp only; split)

@[simp ↓] theorem grantTimeout_ctl (c : Fin 12) (s : State) : (grantTimeout c s).ctl = s.ctl := by simp [grantTimeout]

/-! ### Machine/SafeMonitors.lean -/

@[simp ↓] theorem nextDwell_ctl (g : Fin 6) (s : State) : (nextDwell g s).ctl = s.ctl := by simp [nextDwell]

@[simp ↓] theorem imdInvalid_ctl (g : Fin 6) (d p : Dwell) (s : State) :
    (imdInvalid g d p s).ctl = s.ctl := by simp [imdInvalid]

@[simp ↓] theorem imdValue_ctl (g : Fin 6) (r : Rat) (s : State) : (imdValue g r s).ctl = s.ctl := by
  unfold imdValue
  repeat' first | (simp; done) | split | (dsimp only; split)

@[simp ↓] theorem imdDwellEnd_ctl (g : Fin 6) (s : State) : (imdDwellEnd g s).ctl = s.ctl := by
  unfold imdDwellEnd
  repeat' first | (simp; done) | split | (dsimp only; split)

@[simp ↓] theorem imdUnknown_ctl (g : Fin 6) (s : State) : (imdUnknown g s).ctl = s.ctl := by simp [imdUnknown]

@[simp ↓] theorem tempStale_ctl (n : Port) (k : Fin 2) (s : State) : (tempStale n k s).ctl = s.ctl := by simp [tempStale]

@[simp ↓] theorem hoursLimit_ctl (s : State) : (hoursLimit s).ctl = s.ctl := by simp [hoursLimit]

/-! ### Machine/SafeFast.lean -/

@[simp ↓] theorem fastComps_ctl (g : Fin 2) (n : Port) (s : State) : (fastComps g n s).ctl = s.ctl := by
  unfold fastComps
  repeat' first | (simp; done) | split | (dsimp only; split)

@[simp ↓] theorem fastTrip_ctl (n : Port) (s : State) : (fastTrip n s).ctl = s.ctl := by
  unfold fastTrip
  repeat' first | (simp; done) | split | (dsimp only; split)

@[simp ↓] theorem fastOutlet_ctl (g : Fin 2) (n : Port) (s : State) : (fastOutlet g n s).ctl = s.ctl := by simp [fastOutlet]

/-! ### Machine/SysCtl.lean -/

@[simp ↓] theorem wdogKick_ctl (v : Word) (s : State) : (wdogKick v s).ctl = s.ctl := by simp [wdogKick]

@[simp ↓] theorem sramFetch_ctl (core : Fin 4) (a : Word) (s : State) : (sramFetch core a s).ctl = s.ctl := by simp [sramFetch]

@[simp ↓] theorem thermal1_ctl (s : State) : (thermal1 s).ctl = s.ctl := by simp [thermal1]

@[simp ↓] theorem thermal2_ctl (s : State) : (thermal2 s).ctl = s.ctl := by simp [thermal2]

@[simp ↓] theorem degcfgWrite_ctl (v : Word) (s : State) : (degcfgWrite v s).ctl = s.ctl := by simp [degcfgWrite]

@[simp ↓] theorem vcoreWrite_ctl (v : Word) (s : State) : (vcoreWrite v s).ctl = s.ctl := by simp [vcoreWrite]

@[simp ↓] theorem capMeasured_ctl (t : Nat) (vsup : BitVec 12) (s : State) :
    (capMeasured t vsup s).ctl = s.ctl := by simp [capMeasured]

@[simp ↓] theorem holdReady_ctl (vsup vhold : BitVec 12) (s : State) :
    (holdReady vsup vhold s).ctl = s.ctl := by simp [holdReady]

@[simp ↓] theorem coreResume_ctl (s : State) : (coreResume s).ctl = s.ctl := by simp [coreResume]

@[simp ↓] theorem meshPar_ctl (req : Nat) (a : Word) (onResponse : Bool) (s : State) :
    (meshPar req a onResponse s).ctl = s.ctl := by simp [meshPar]

@[simp ↓] theorem meshClear_ctl (s : State) : (meshClear s).ctl = s.ctl := by simp [meshClear]

/-! ### Machine/SafeReset.lean -/

@[simp ↓] theorem slogSelftest_ctl (step : Byte) (s : State) : (slogSelftest step s).ctl = s.ctl := by simp [slogSelftest]

@[simp ↓] theorem restartSelftest_ctl (step : Byte) (s : State) : (restartSelftest step s).ctl = s.ctl := by simp [restartSelftest]

@[simp ↓] theorem tieSplit_ctl (ties : List (Fin 12)) (s : State) : (tieSplit ties s).ctl = s.ctl := by simp [tieSplit]

@[simp ↓] theorem resetAccepted_ctl (len : Nat) (link : Option (Fin 16)) (step : Byte) (s : State) :
    (resetAccepted len link step s).ctl = s.ctl := by simp [resetAccepted]

@[simp ↓] theorem deliberateReset_ctl (len rise : Nat) (link : Option (Fin 16)) (step : Byte) (s : State) :
    (deliberateReset len rise link step s).ctl = s.ctl := by simp [deliberateReset]

@[simp ↓] theorem lorstPulse_ctl (step : Byte) (s : State) : (lorstPulse step s).ctl = s.ctl := by
  unfold lorstPulse
  repeat' first | (simp; done) | split | (dsimp only; split)

/-! ### Machine/SafeCalls.lean -/

@[simp ↓] theorem safeBody_ctl (inLockout outlet : Bool) (body : Vector Word 16 → State → Reply) (a : Vector Word 16) (s : State) (hbody : ∀ x0 s, ((body x0 s).s).ctl = s.ctl) :
    ((safeBody inLockout outlet body a s).s).ctl = s.ctl := by simp [safeBody, hbody]

@[simp ↓] theorem safeCall_ctl (cmd : Nat) (inLockout outlet : Bool) (c : Call) (body : Vector Word 16 → State → Reply) (s : State) (hbody : ∀ x0 s, ((body x0 s).s).ctl = s.ctl) :
    (safeCall cmd inLockout outlet c body s).ctl = s.ctl := by simp [safeCall, hbody]

@[simp ↓] theorem startClose_ctl (n : Port) (c : Fin 12) (vEv iEv : Nat) (s : State) :
    (startClose n c vEv iEv s).ctl = s.ctl := by
  unfold startClose
  repeat' first | (simp; done) | split | (dsimp only; split)

@[simp ↓] theorem closeReq_ctl (a : Vector Word 16) (s : State) : ((closeReq a s).s).ctl = s.ctl := by
  unfold closeReq
  repeat' first | (simp; done) | split | (dsimp only; split)

@[simp ↓] theorem stopCall_ctl (a : Vector Word 16) (s : State) : ((stopCall a s).s).ctl = s.ctl := by simp [stopCall]

@[simp ↓] theorem setLimits_ctl (a : Vector Word 16) (s : State) : ((setLimits a s).s).ctl = s.ctl := by
  unfold setLimits
  repeat' first | (simp; done) | split | (dsimp only; split)

@[simp ↓] theorem rearmPort_ctl (n : Port) (s : State) : (rearmPort n s).ctl = s.ctl := by
  unfold rearmPort
  repeat' first | (simp; done) | split | (dsimp only; split)

@[simp ↓] theorem rearmPorts_ctl (mask : Nat) (s : State) : ((rearmPorts mask s).2.2).ctl = s.ctl := by simp [rearmPorts]

@[simp ↓] theorem rearmCall_ctl (a : Vector Word 16) (s : State) : ((rearmCall a s).s).ctl = s.ctl := by simp [rearmCall]

@[simp ↓] theorem setOos_ctl (a : Vector Word 16) (s : State) : ((setOos a s).s).ctl = s.ctl := by simp [setOos]

@[simp ↓] theorem contactorReplaced_ctl (a : Vector Word 16) (s : State) :
    ((contactorReplaced a s).s).ctl = s.ctl := by
  unfold contactorReplaced
  repeat' first | (simp; done) | split | (dsimp only; split)

@[simp ↓] theorem readChkval_ctl (a_ : Vector Word 16) (s : State) : ((readChkval a_ s).s).ctl = s.ctl := by simp [readChkval]

@[simp ↓] theorem linkKeyLoad_ctl (a : Vector Word 16) (s : State) : ((linkKeyLoad a s).s).ctl = s.ctl := by
  unfold linkKeyLoad
  repeat' first | (simp; done) | split | (dsimp only; split)

@[simp ↓] theorem tripTest_ctl (pass : BitVec 4) (a : Vector Word 16) (s : State) :
    ((tripTest pass a s).s).ctl = s.ctl := by
  unfold tripTest
  repeat' first | (simp; done) | split | (dsimp only; split)

@[simp ↓] theorem readSlog_ctl (a : Vector Word 16) (s : State) : ((readSlog a s).s).ctl = s.ctl := by simp [readSlog]

@[simp ↓] theorem slogRelease_ctl (a : Vector Word 16) (s : State) : ((slogRelease a s).s).ctl = s.ctl := by
  unfold slogRelease
  repeat' first | (simp; done) | split | (dsimp only; split)

@[simp ↓] theorem confirmResult_ctl (source : Nat) (exact : Bool) (value : Word) (s : State) :
    (confirmResult source exact value s).ctl = s.ctl := by simp [confirmResult]

@[simp ↓] theorem entryEnd_ctl (e : Entry) (s : State) : (entryEnd e s).ctl = s.ctl := by simp [entryEnd]

@[simp ↓] theorem confirmKey_ctl (e : Entry) (k : BitVec 4) (s : State) : (confirmKey e k s).ctl = s.ctl := by simp [confirmKey]

/-! ### Machine/SafeLink.lean -/

@[simp ↓] theorem linkReport_ctl (k : Fin 16) (s : State) : (linkReport k s).ctl = s.ctl := by simp [linkReport]

@[simp ↓] theorem setLink_ctl (k : Fin 16) (st : LinkState) (s : State) : (setLink k st s).ctl = s.ctl := by simp [setLink]

@[simp ↓] theorem linkDemand_ctl (n : Port) (cat : Nat) (why : Why) (s : State) :
    (linkDemand n cat why s).ctl = s.ctl := by simp [linkDemand]

@[simp ↓] theorem linkFail_ctl (k : Fin 16) (s : State) : (linkFail k s).ctl = s.ctl := by simp [linkFail]

@[simp ↓] theorem linkConnect_ctl (k : Fin 16) (s : State) : (linkConnect k s).ctl = s.ctl := by simp [linkConnect]

@[simp ↓] theorem sendPdu_ctl (k : Fin 16) (ack : Bool) (payload : List Byte) (s : State) :
    (sendPdu k ack payload s).ctl = s.ctl := by simp [sendPdu]

@[simp ↓] theorem sendConnect_ctl (k : Fin 16) (ack : Bool) (s : State) :
    (sendConnect k ack s).ctl = s.ctl := by simp [sendConnect]

@[simp ↓] theorem sendData_ctl (k : Fin 16) (s : State) : (sendData k s).ctl = s.ctl := by simp [sendData]

@[simp ↓] theorem linkCycle_ctl (k : Fin 16) (s : State) : (linkCycle k s).ctl = s.ctl := by
  unfold linkCycle
  repeat' first | (simp; done) | split | (dsimp only; split)

@[simp ↓] theorem linkWatchdog_ctl (k : Fin 16) (s : State) : (linkWatchdog k s).ctl = s.ctl := by simp [linkWatchdog]

@[simp ↓] theorem dualMiss_ctl (k : Fin 16) (x : Copy) (s : State) : (dualMiss k x s).ctl = s.ctl := by simp [dualMiss]

@[simp ↓] theorem dualPair_ctl (k : Fin 16) (x : Copy) (s : State) : (dualPair k x s).ctl = s.ctl := by simp [dualPair]

@[simp ↓] theorem dualExpiry_ctl (k : Fin 16) (s : State) : (dualExpiry k s).ctl = s.ctl := by
  unfold dualExpiry
  repeat' first | (simp; done) | split | (dsimp only; split)

@[simp ↓] theorem dualFirst_ctl (k : Fin 16) (p : LinkPdu) (l : List Byte) (s : State) :
    (dualFirst k p l s).ctl = s.ctl := by simp [dualFirst]

@[simp ↓] theorem dualSecond_ctl (k : Fin 16) (x : Copy) (l : List Byte) (s : State) :
    (dualSecond k x l s).ctl = s.ctl := by simp [dualSecond]

@[simp ↓] theorem acceptPdu_ctl (k : Fin 16) (p : LinkPdu) (s : State) : ((acceptPdu k p s).2).ctl = s.ctl := by
  unfold acceptPdu
  repeat' first | (simp; done) | split | (dsimp only; split)

@[simp ↓] theorem firstCopy_ctl (ty : Byte) (k : Fin 16) (p : LinkPdu) (conn open_ : Fin 16 → State → State) (s : State)
    (hconn : ∀ x0 s, (conn x0 s).ctl = s.ctl) (hopen_ : ∀ x0 s, (open_ x0 s).ctl = s.ctl) :
    (firstCopy ty k p conn open_ s).ctl = s.ctl := by
  unfold firstCopy
  repeat' first | (simp [hconn, hopen_]; done) | split | (dsimp only; split)

@[simp ↓] theorem receivePdu_ctl (ty : Byte) (p : LinkPdu) (conn open_ : Fin 16 → State → State) (s : State) (hconn : ∀ x0 s, (conn x0 s).ctl = s.ctl) (hopen_ : ∀ x0 s, (open_ x0 s).ctl = s.ctl) :
    (receivePdu ty p conn open_ s).ctl = s.ctl := by
  unfold receivePdu
  repeat' first | (simp [hconn, hopen_]; done) | split | (dsimp only; split)

@[simp ↓] theorem takeSeq_ctl (p : LinkPdu) (k : Fin 16) (s : State) : (takeSeq p k s).ctl = s.ctl := by simp [takeSeq]

@[simp ↓] theorem onConnect_ctl (p : LinkPdu) (k : Fin 16) (s : State) : (onConnect p k s).ctl = s.ctl := by simp [onConnect]

@[simp ↓] theorem onData_ctl (p : LinkPdu) (k : Fin 16) (s : State) : (onData p k s).ctl = s.ctl := by simp [onData]

@[simp ↓] theorem onPress_ctl (k : Fin 16) (s : State) : (onPress k s).ctl = s.ctl := by simp [onPress]

@[simp ↓] theorem onRelease_ctl (step : Byte) (k : Fin 16) (s : State) : (onRelease step k s).ctl = s.ctl := by
  unfold onRelease
  repeat' first | (simp; done) | split | (dsimp only; split)

@[simp ↓] theorem onRearm_ctl (p : LinkPdu) (k : Fin 16) (s : State) : (onRearm p k s).ctl = s.ctl := by simp [onRearm]

@[simp ↓] theorem onConfirm_ctl (p : LinkPdu) (k : Fin 16) (s : State) : (onConfirm p k s).ctl = s.ctl := by simp [onConfirm]

/-! ### Machine/Thl.lean -/

@[simp ↓] theorem slotStart_ctl (cmd : SlotCmd) (allowed : Bool) (k : Fin 2) (s : State) :
    (slotStart cmd allowed k s).ctl = s.ctl := by simp [slotStart]

@[simp ↓] theorem slotWriteCmd_ctl (k : Fin 2) (s : State) : (slotWriteCmd k s).ctl = s.ctl := by simp [slotWriteCmd]

@[simp ↓] theorem slotSwitchCmd_ctl (k : Fin 2) (s : State) : (slotSwitchCmd k s).ctl = s.ctl := by simp [slotSwitchCmd]

@[simp ↓] theorem State.freeBytes_ctl (s : State) (n : Nat) : ((State.freeBytes s n).2).ctl = s.ctl := by simp [State.freeBytes]

@[simp ↓] theorem slotErased_ctl (k : Fin 2) (ok : Bool) (s : State) : ((slotErased k ok s).1).ctl = s.ctl := by
  unfold slotErased
  repeat' first | (simp; done) | split | (dsimp only; split)

@[simp ↓] theorem slotWritten_ctl (k : Fin 2) (ok : Bool) (s : State) :
    ((slotWritten k ok s).1).ctl = s.ctl := by
  unfold slotWritten
  repeat' first | (simp; done) | split | (dsimp only; split)

@[simp ↓] theorem slotVerified_ctl (k : Fin 2) (ok : Bool) (s : State) :
    ((slotVerified k ok s).1).ctl = s.ctl := by simp [slotVerified]

@[simp ↓] theorem slotCommandDone_ctl (ok : Bool) (s : State) : (slotCommandDone ok s).ctl = s.ctl := by
  unfold slotCommandDone
  repeat' first | (simp; done) | split | (dsimp only; split)

@[simp ↓] theorem stageEnd_ctl (r : Nat) (c : List Byte) (s : State) : (stageEnd r c s).ctl = s.ctl := by simp [stageEnd]

@[simp ↓] theorem prStage_ctl (s : State) : (prStage s).ctl = s.ctl := by simp [prStage]

@[simp ↓] theorem stagingDone_ctl (s : State) : (stagingDone s).ctl = s.ctl := by simp [stagingDone]

@[simp ↓] theorem prDiscard_ctl (s : State) : (prDiscard s).ctl = s.ctl := by simp [prDiscard]

@[simp ↓] theorem writeIn_ctl (s : State) : (writeIn s).ctl = s.ctl := by simp [writeIn]

@[simp ↓] theorem State.modPart_ctl (s : State) (p : Fin 8) (f : PartCnt → PartCnt) :
    (State.modPart s p f).ctl = s.ctl := by simp [State.modPart]

@[simp ↓] theorem scrubCorrect_ctl (p : Fin 8) (s : State) : (scrubCorrect p s).ctl = s.ctl := by simp [scrubCorrect]

@[simp ↓] theorem configUncorrectable_ctl (p : Fin 8) (chans : BitVec 32) (s : State) :
    (configUncorrectable p chans s).ctl = s.ctl := by simp [configUncorrectable]

@[simp ↓] theorem fabricParity_ctl (p : Fin 8) (s : State) : (fabricParity p s).ctl = s.ctl := by simp [fabricParity]

@[simp ↓] theorem thlClear_ctl (s : State) : (thlClear s).ctl = s.ctl := by simp [thlClear]

@[simp ↓] theorem gSignal_ctl (g : GSignal) (s : State) : (gSignal g s).ctl = s.ctl := by
  unfold gSignal
  repeat' first | (simp; done) | split | (dsimp only; split)

/-! ### Machine/Txn.lean -/

@[simp ↓] theorem place_ctl (d : Fin 6) (a : Nat) (v : Word) (s : State) : (place d a v s).ctl = s.ctl := by
  unfold place
  repeat' first | (simp; done) | split | (dsimp only; split)

@[simp ↓] theorem rwtWrite_ctl (a : Nat) (v : Word) (s : State) : (rwtWrite a v s).ctl = s.ctl := by
  unfold rwtWrite
  repeat' first | (simp; done) | split | (dsimp only; split)

@[simp ↓] theorem txnBody_ctl (body : Vector Word 16 → State → Reply) (a : Vector Word 16) (s : State) (hbody : ∀ x0 s, ((body x0 s).s).ctl = s.ctl) :
    ((txnBody body a s).s).ctl = s.ctl := by simp [txnBody, hbody]

@[simp ↓] theorem txnBegin_ctl (a : Vector Word 16) (s : State) : ((txnBegin a s).s).ctl = s.ctl := by
  unfold txnBegin
  repeat' first | (simp; done) | split | (dsimp only; split)

@[simp] theorem txnNamed_ctl (s : State) (a : Vector Word 16) (f : Fin 6 → Reply)
    (hf : ∀ d, (f d).s.ctl = s.ctl) : (txnNamed s a f).s.ctl = s.ctl := by
  unfold txnNamed
  split
  · rfl
  · exact checks_ctl _ _ _ (hf _)

@[simp ↓] theorem txnCommit_ctl (a : Vector Word 16) (s : State) : ((txnCommit a s).s).ctl = s.ctl := by simp [txnCommit]

@[simp ↓] theorem txnRollback_ctl (a : Vector Word 16) (s : State) : ((txnRollback a s).s).ctl = s.ctl := by simp [txnRollback]

@[simp ↓] theorem txnRenew_ctl (a : Vector Word 16) (s : State) : ((txnRenew a s).s).ctl = s.ctl := by simp [txnRenew]

@[simp ↓] theorem txnPut_ctl (a : Vector Word 16) (s : State) : ((txnPut a s).s).ctl = s.ctl := by
  unfold txnPut
  repeat' first | (simp; done) | split | (dsimp only; split)

@[simp ↓] theorem leaseExpiry_ctl (d : Fin 6) (s : State) : (leaseExpiry d s).ctl = s.ctl := by simp [leaseExpiry]

@[simp ↓] theorem journalChanges_ctl (l : List (Nat × Word × Word)) (s : State) :
    (journalChanges l s).ctl = s.ctl := by simp [journalChanges]

@[simp ↓] theorem auditChanges_ctl (window : Nat) (reason : Byte) (l : List (Nat × Word × Word)) (s : State) :
    (auditChanges window reason l s).ctl = s.ctl := by simp [auditChanges]

@[simp ↓] theorem commitSlots_ctl (l : List (Nat × Word × Word)) (s : State) :
    (commitSlots l s).ctl = s.ctl := by simp [commitSlots]

@[simp ↓] theorem commitChannels_ctl (l : List (Nat × Word × Word)) (s : State) :
    (commitChannels l s).ctl = s.ctl := by simp [commitChannels]

@[simp ↓] theorem commitMeters_ctl (reason : Byte) (l : List (Nat × Word × Word)) (s : State) :
    (commitMeters reason l s).ctl = s.ctl := by simp [commitMeters]

@[simp ↓] theorem commitMet_ctl (reason : Byte) (l : List (Nat × Word × Word)) (s : State) :
    (commitMet reason l s).ctl = s.ctl := by simp [commitMet]

@[simp ↓] theorem commitTokenKeys_ctl (reason : Byte) (ks : List (Nat × Option (BitVec 128))) (s : State) :
    (commitTokenKeys reason ks s).ctl = s.ctl := by simp [commitTokenKeys]

@[simp ↓] theorem commitBill_ctl (reason : Byte) (ks : List (Nat × Option (BitVec 128))) (l : List (Nat × Word × Word)) (s : State) :
    (commitBill reason ks l s).ctl = s.ctl := by simp [commitBill]

@[simp ↓] theorem commitSafe_ctl (ks : List (Nat × Option (BitVec 128))) (l : List (Nat × Word × Word)) (s : State) :
    (commitSafe ks l s).ctl = s.ctl := by simp [commitSafe]

@[simp ↓] theorem tieCloseReq_ctl (c : Fin 12) (s : State) : (tieCloseReq c s).ctl = s.ctl := by simp [tieCloseReq]

@[simp ↓] theorem siteSequence_ctl (was : List (Fin 48 × Nat)) (s : State) :
    (siteSequence was s).ctl = s.ctl := by simp [siteSequence]

@[simp ↓] theorem commitSite_ctl (l : List (Nat × Word × Word)) (s : State) : (commitSite l s).ctl = s.ctl := by simp [commitSite]

@[simp ↓] theorem commitThl_ctl (agree : Bool) (reason : Byte) (s : State) :
    ((commitThl agree reason s).2).ctl = s.ctl := by
  unfold commitThl
  repeat' first | (simp; done) | split | (dsimp only; split)

@[simp ↓] theorem frontLight_ctl (old : Nat) (s : State) : (frontLight old s).ctl = s.ctl := by simp [frontLight]

@[simp ↓] theorem runCommit_ctl (d : Fin 6) (agree : Bool) (s : State) :
    ((runCommit d agree s).2).ctl = s.ctl := by
  unfold runCommit
  repeat' first | (simp; done) | split | (dsimp only; split)

@[simp ↓] theorem endCommit_ctl (d : Fin 6) (st : Status) (s : State) : (endCommit d st s).ctl = s.ctl := by
  unfold endCommit
  repeat' first | (simp; done) | split | (dsimp only; split)

@[simp ↓] theorem commitDone_ctl (agree : Bool) (s : State) : (commitDone agree s).ctl = s.ctl := by
  unfold commitDone
  repeat' first | (simp; done) | split | (dsimp only; split)

@[simp ↓] theorem txnClear_ctl (s : State) : (txnClear s).ctl = s.ctl := by simp [txnClear]

@[simp ↓] theorem compatWrite_ctl (i : Fin 28) (req : BitVec 16) (s : State) :
    (compatWrite i req s).ctl = s.ctl := by
  unfold compatWrite
  repeat' first | (simp; done) | split | (dsimp only; split)

/-! ### Machine/Keys.lean -/

@[simp ↓] theorem freeKey_ctl (k : BitVec 4) (s : State) : (freeKey k s).ctl = s.ctl := by simp [freeKey]

@[simp ↓] theorem keyPress_ctl (row col : Fin 4) (twin : Bool) (s : State) : (keyPress row col twin s).ctl = s.ctl := by
  unfold keyPress
  repeat' first | (simp; done) | split | (dsimp only; split)

@[simp ↓] theorem keyFifoRead_ctl (s : State) : (keyFifoRead s).ctl = s.ctl := by
  unfold keyFifoRead
  repeat' first | (simp; done) | split | (dsimp only; split)

/-! ### Machine/RegRead.lean -/

@[simp ↓] theorem multiWrap_ctl (s : State) (req a : Nat) (m : MeterId) (exp : Bool) :
    ((multiWrap s req a m exp).2).ctl = s.ctl := by simp [multiWrap]

@[simp ↓] theorem rosLatch_ctl (req a : Nat) (k : BlkKind) (n base o : Nat) (s : State) :
    (rosLatch req a k n base o s).ctl = s.ctl := by
  unfold rosLatch
  repeat' first | (simp; done) | split | (dsimp only; split)

@[simp ↓] theorem regRead_ctl (req a : Nat) (s : State) : (regRead req a s).ctl = s.ctl := by
  unfold regRead
  repeat' first | (simp; done) | split | (dsimp only; split)

@[simp ↓] theorem memWordRead_ctl (req a n : Nat) (s : State) : (memWordRead req a n s).ctl = s.ctl := by
  unfold memWordRead
  repeat' first | (simp; done) | split | (dsimp only; split)

@[simp ↓] theorem busRead_ctl (req a : Nat) (size : AccSize) (s : State) :
    (busRead req a size s).ctl = s.ctl := by simp [busRead]

/-! ### Machine/EthMac.lean -/

@[simp ↓] theorem ethStore_ctl (m : Fin 2) (f : List Byte) (s : State) : (ethStore m f s).ctl = s.ctl := by simp [ethStore]

@[simp ↓] theorem safeReceive_ctl (m : Fin 2) (f : List Byte) (step : Byte) (s : State) :
    (safeReceive m f step s).ctl = s.ctl := by
  unfold safeReceive
  repeat' first | (simp; done) | split | (dsimp only; split)

@[simp ↓] theorem ethReceive_ctl (m : Fin 2) (f : List Byte) (good : Bool) (step : Byte) (s : State) :
    (ethReceive m f good step s).ctl = s.ctl := by simp [ethReceive]

@[simp ↓] theorem ethTransmit_ctl (m : Fin 2) (s : State) : (ethTransmit m s).ctl = s.ctl := by
  unfold ethTransmit
  repeat' first | (simp; done) | split | (dsimp only; split)

@[simp ↓] theorem ethLink_ctl (m : Fin 2) (up : Bool) (speed : Fin 3) (full : Bool) (s : State) :
    (ethLink m up speed full s).ctl = s.ctl := by simp [ethLink]

@[simp ↓] theorem ethClrcnt_ctl (m : Fin 2) (s : State) : (ethClrcnt m s).ctl = s.ctl := by simp [ethClrcnt]

/-! ### Machine/TimeSet.lean -/

@[simp ↓] theorem setLegal_ctl (ms : Nat) (s : State) : (setLegal ms s).ctl = s.ctl := by simp [setLegal]

@[simp ↓] theorem adjustSmall_ctl (old : Nat) (adj : Int) (new : Nat) (reason : Nat) (s : State) :
    (adjustSmall old adj new reason s).ctl = s.ctl := by simp [adjustSmall]

@[simp ↓] theorem adjustNote_ctl (adj : Int) (reason : Nat) (s : State) :
    (adjustNote adj reason s).ctl = s.ctl := by simp [adjustNote]

@[simp ↓] theorem adjustBig_ctl (old : Nat) (adj : Int) (new : Nat) (reason : Nat) (s : State) :
    (adjustBig old adj new reason s).ctl = s.ctl := by simp [adjustBig]

@[simp ↓] theorem adjustFirst_ctl (adj : Int) (new : Nat) (reason : Nat) (s : State) :
    (adjustFirst adj new reason s).ctl = s.ctl := by simp [adjustFirst]

@[simp] theorem setTime_ctl (a : Vector Word 16) (s : State) : (setTime a s).s.ctl = s.ctl := by
  unfold setTime
  refine checks_ctl _ _ _ ?_
  (repeat' (first | with_reducible rfl | (simp; done) | split | (dsimp only; split) | refine (forAll_ctl _ _ _ (fun _ _ => ?_)).trans ?_ | (dsimp only; refine (forAll_ctl _ _ _ (fun _ _ => ?_)).trans ?_)))

@[simp ↓] theorem readTime_ctl (a_ : Vector Word 16) (s : State) : ((readTime a_ s).s).ctl = s.ctl := by simp [readTime]

@[simp ↓] theorem rtcTrim_ctl (a : Vector Word 16) (s : State) : ((rtcTrim a s).s).ctl = s.ctl := by simp [rtcTrim]

/-! ### Machine/RegWrite.lean -/

@[simp ↓] theorem metCalls_ctl (cmd : Nat) (a : Vector Word 16) (s : State) :
    ((metCalls cmd a s).s).ctl = s.ctl := by
  unfold metCalls
  repeat' first | (simp; done) | split | (dsimp only; split)

@[simp ↓] theorem billCalls_ctl (cmd : Nat) (a : Vector Word 16) (s : State) :
    ((billCalls cmd a s).s).ctl = s.ctl := by
  unfold billCalls
  repeat' first | (simp; done) | split | (dsimp only; split)

@[simp ↓] theorem safeCalls_ctl (cmd : Nat) (a : Vector Word 16) (s : State) :
    ((safeCalls cmd a s).s).ctl = s.ctl := by
  unfold safeCalls
  repeat' first | (simp; done) | split | (dsimp only; split)

@[simp ↓] theorem txnCalls_ctl (cmd : Nat) (a : Vector Word 16) (s : State) :
    ((txnCalls cmd a s).s).ctl = s.ctl := by
  unfold txnCalls
  repeat' first | (simp; done) | split | (dsimp only; split)

@[simp ↓] theorem updCalls_ctl (cmd : Nat) (a : Vector Word 16) (s : State) :
    ((updCalls cmd a s).s).ctl = s.ctl := by
  unfold updCalls
  repeat' first | (simp; done) | split | (dsimp only; split)

@[simp ↓] theorem doorbell_ctl (i : MbxId) (s : State) : (doorbell i s).ctl = s.ctl := by
  unfold doorbell
  repeat' first | (simp; done) | split | (dsimp only; split)

@[simp ↓] theorem writeMbx_ctl (i : MbxId) (o : Nat) (v : Word) (s : State) :
    (writeMbx i o v s).ctl = s.ctl := by simp [writeMbx]

@[simp] theorem writeMbxIn_ctl (i : MbxId) (o : Nat) (v : Word) (s : State) : (writeMbxIn i o v s).ctl = s.ctl := by
  have h (k : Nat) : (match i with
    | .bill => { s with bill.mbxin := putWord s.bill.mbxin k v }
    | .safe => { s with safe.mbxin := putWord s.safe.mbxin k v }
    | .upd => { s with upd.mbxin := putWord s.upd.mbxin k v }
    | _ => s).ctl = s.ctl := by cases i <;> rfl
  exact h _

@[simp ↓] theorem safeW1c_ctl (o : Nat) (v : Word) (s : State) : (safeW1c o v s).ctl = s.ctl := by simp [safeW1c]

theorem writeWindow_ctl (k : BlkKind) (base o : Nat) (v : Word) (s t : State)
    (h : writeWindow k base o v s = some t) : t.ctl = s.ctl := by
  unfold writeWindow at h
  split at h
  · repeat' split at h
    all_goals first | (cases h; simp; done) | cases h
  · cases h

@[simp] theorem writeWindow_getD_ctl (k : BlkKind) (base o : Nat) (v : Word) (s : State) :
    ((writeWindow k base o v s).getD s).ctl = s.ctl := by
  cases h : writeWindow k base o v s with
  | none => rfl
  | some t => exact writeWindow_ctl k base o v s t h

@[simp ↓] theorem writeSys_ctl (o : Nat) (v : Word) (s : State) : (writeSys o v s).ctl = s.ctl := by
  unfold writeSys
  repeat' first | (simp; done) | split | (dsimp only; split)

@[simp ↓] theorem writeTime_ctl (o : Nat) (v : Word) (s : State) : (writeTime o v s).ctl = s.ctl := by
  unfold writeTime
  repeat' first | (simp; done) | split | (dsimp only; split)

@[simp ↓] theorem writeChcfg_ctl (c : Fin 32) (v : Word) (s : State) : (writeChcfg c v s).ctl = s.ctl := by simp [writeChcfg]

@[simp ↓] theorem writeDma_ctl (o : Nat) (v : Word) (s : State) : (writeDma o v s).ctl = s.ctl := by
  unfold writeDma
  repeat' first | (simp; done) | split | (dsimp only; split)

@[simp ↓] theorem writeTxn_ctl (o : Nat) (v : Word) (s : State) : (writeTxn o v s).ctl = s.ctl := by simp [writeTxn]

@[simp ↓] theorem writeSec_ctl (o : Nat) (v : Word) (s : State) : (writeSec o v s).ctl = s.ctl := by
  unfold writeSec
  repeat' first | (simp; done) | split | (dsimp only; split)

@[simp ↓] theorem writeUpd_ctl (o : Nat) (v : Word) (s : State) : (writeUpd o v s).ctl = s.ctl := by simp [writeUpd]

@[simp ↓] theorem writeSlotctl_ctl (v : Word) (s : State) : (writeSlotctl v s).ctl = s.ctl := by
  unfold writeSlotctl
  repeat' first | (simp; done) | split | (dsimp only; split)

@[simp ↓] theorem writeThl_ctl (o : Nat) (v : Word) (s : State) : (writeThl o v s).ctl = s.ctl := by
  unfold writeThl
  repeat' first | (simp; done) | split | (dsimp only; split)

@[simp ↓] theorem writeEth_ctl (m : Fin 2) (o : Nat) (v : Word) (s : State) :
    (writeEth m o v s).ctl = s.ctl := by simp [writeEth]

@[simp ↓] theorem writeCan_ctl (b : Fin 3) (o : Nat) (v : Word) (s : State) :
    (writeCan b o v s).ctl = s.ctl := by simp [writeCan]

@[simp ↓] theorem setPar_ctl (a mask : Nat) (v : Word) (s : State) : (setPar a mask v s).ctl = s.ctl := by simp [setPar]

@[simp ↓] theorem writeLoad_ctl (o : Nat) (v : Word) (s : State) : (writeLoad o v s).ctl = s.ctl := by
  unfold writeLoad
  repeat' first | (simp; done) | split | (dsimp only; split)

@[simp ↓] theorem writeGpio_ctl (o : Nat) (v : Word) (s : State) : (writeGpio o v s).ctl = s.ctl := by
  unfold writeGpio
  repeat' first | (simp; done) | split | (dsimp only; split)

@[simp ↓] theorem writeMesh_ctl (o : Nat) (v : Word) (s : State) : (writeMesh o v s).ctl = s.ctl := by simp [writeMesh]

@[simp ↓] theorem writeIntc_ctl (o : Nat) (v : Word) (s : State) : (writeIntc o v s).ctl = s.ctl := by simp [writeIntc]

@[simp ↓] theorem writePevt_ctl (n : Port) (v : Word) (s : State) : (writePevt n v s).ctl = s.ctl := by simp [writePevt]

@[simp ↓] theorem writeLevt_ctl (n : Port) (v : Word) (s : State) : (writeLevt n v s).ctl = s.ctl := by simp [writeLevt]

@[simp ↓] theorem writeTlscfg_ctl (n : Port) (v : Word) (s : State) : (writeTlscfg n v s).ctl = s.ctl := by simp [writeTlscfg]

@[simp ↓] theorem writeVp_ctl (n : Port) (o : Nat) (v : Word) (s : State) : (writeVp n o v s).ctl = s.ctl := by
  unfold writeVp
  repeat' first | (simp; done) | split | (dsimp only; split)

@[simp ↓] theorem writeDisp_ctl (base o : Nat) (v : Word) (s : State) : (writeDisp base o v s).ctl = s.ctl := by
  unfold writeDisp
  repeat' first | (simp; done) | split | (dsimp only; split)

@[simp ↓] theorem writeBlk_ctl (k : BlkKind) (n base o : Nat) (v : Word) (s : State) :
    (writeBlk k n base o v s).ctl = s.ctl := by
  unfold writeBlk
  repeat' first | (simp; done) | split | (dsimp only; split)

@[simp ↓] theorem regWrite_ctl (req a : Nat) (v : Word) (s : State) : (regWrite req a v s).ctl = s.ctl := by
  unfold regWrite
  repeat' first | (simp; done) | split | (dsimp only; split)

@[simp] theorem memWrite_ctl (req a : Nat) (bs : List Byte) (s : State) : (memWrite req a bs s).ctl = s.ctl := by
  unfold memWrite
  split
  · split
    · rename_i t h; rw [State.busOk_ctl]; exact ramStore_ctl s t a bs h
    · simp
  · split <;> simp

@[simp ↓] theorem busWrite_ctl (req a : Nat) (size : AccSize) (v : Word) (s : State) :
    (busWrite req a size v s).ctl = s.ctl := by simp [busWrite]

/-! ### Machine/Dma.lean -/

@[simp] theorem regWords_ctl (a : Nat) (fixed : Bool) (n : Nat) (s : State) :
    (regWords a fixed n s).2.1.ctl = s.ctl := by
  induction n generalizing a s with
  | zero => rfl
  | succ n ih =>
    unfold regWords
    repeat' first | with_reducible rfl | (simp [ih]; done) | split | (dsimp only; split)

@[simp ↓] theorem regTail_ctl (a len : Nat) (t : List Byte × State × Option DmaResult) :
    (regTail a len t).2.1.ctl = t.2.1.ctl := by
  unfold regTail
  split <;> simp

@[simp ↓] theorem readSource_ctl (a len : Nat) (fixed : Bool) (s : State) : (readSource a len fixed s).2.1.ctl = s.ctl := by
  unfold readSource
  repeat' first | (simp; done) | split | (dsimp only; split)

@[simp ↓] theorem indexAt_ctl (w : Vector Word 8) (i : Nat) (s : State) :
    (indexAt w i s).2.1.ctl = s.ctl := by simp [indexAt]

@[simp ↓] theorem indexRead_ctl (w : Vector Word 8) (i : Nat) (hit : Option Bool) (s : State) :
    (indexRead w i hit s).2.1.ctl = s.ctl := by
  unfold indexRead parRead
  split <;> simp

@[simp ↓] theorem srcAddr_ctl (w : Vector Word 8) (off : Nat) (hit : Option Bool) (s : State) :
    (srcAddr w off hit s).2.1.ctl = s.ctl := by
  unfold srcAddr
  repeat' first | (simp; done) | split | (dsimp only; split)

@[simp ↓] theorem dstAddr_ctl (w : Vector Word 8) (off : Nat) (hit : Option Bool) (s : State) :
    (dstAddr w off hit s).2.1.ctl = s.ctl := by
  unfold dstAddr
  repeat' first | (simp; done) | split | (dsimp only; split)

@[simp ↓] theorem periphTake_ctl (r n : Nat) (s : State) : ((periphTake r n s).2).ctl = s.ctl := by
  unfold periphTake
  repeat' first | (simp; done) | split | (dsimp only; split)

@[simp ↓] theorem periphPut_ctl (r : Nat) (bs : List Byte) (s : State) : (periphPut r bs s).ctl = s.ctl := by simp [periphPut]

@[simp ↓] theorem burstData_ctl (w : Vector Word 8) (r off len src : Nat) (s : State) :
    ((burstData w r off len src s).2.1).ctl = s.ctl := by
  unfold burstData
  repeat' first | (simp; done) | split | (dsimp only; split)

@[simp ↓] theorem dmaAge_ctl (g : Fin 32) (s : State) : (dmaAge g s).ctl = s.ctl := by simp [dmaAge]

@[simp ↓] theorem State.modRun_ctl (s : State) (c : Fin 32) (f : DmaRun → DmaRun) :
    (State.modRun s c f).ctl = s.ctl := by simp [State.modRun]

@[simp ↓] theorem burstFails_ctl (c : Fin 32) (e : DmaResult) (s : State) : (burstFails c e s).ctl = s.ctl := by simp [burstFails]

@[simp ↓] theorem dmaPrefetch_ctl (c : Fin 32) (hit : Option Bool) (s : State) :
    (dmaPrefetch c hit s).ctl = s.ctl := by simp [dmaPrefetch]

@[simp ↓] theorem sidePar_ctl (fifo : Bool) (q a : Nat) (onResponse : Bool) (s : State) :
    (sidePar fifo q a onResponse s).ctl = s.ctl := by simp [sidePar]

@[simp ↓] theorem burstRead_ctl (c : Fin 32) (r : DmaRun) (b : Nat × Nat) (src dst : Nat) (ecc : Bool) (hit : Option Bool)
    (s : State) :
    (burstRead c r b src dst ecc hit s).ctl = s.ctl := by
  unfold burstRead
  repeat' first | (simp; done) | split | (dsimp only; split)

@[simp ↓] theorem burstStart_ctl (c : Fin 32) (ecc : Bool) (par : Option (DmaReq × Bool)) (s : State) :
    (burstStart c ecc par s).ctl = s.ctl := by
  unfold burstStart
  repeat' first | (simp; done) | split | (dsimp only; split)

@[simp ↓] theorem burstGrant_ctl (prefetch ecc : Bool) (par : Option (DmaReq × Bool)) (s : State) :
    (burstGrant prefetch ecc par s).ctl = s.ctl := by
  unfold burstGrant
  repeat' first | (simp; done) | split | (dsimp only; split)

@[simp] theorem putWords_ctl (a : Nat) (fixed : Bool) (l : List Byte) (s : State) :
    (putWords a fixed l s).2.1.ctl = s.ctl := by
  fun_induction putWords a fixed l s with
  | case1 => exact regWrite_ctl _ _ _ _
  | case2 _ _ _ _ _ _ _ _ _ _ ih => exact ih.trans (regWrite_ctl _ _ _ _)
  | case3 => rfl
  | case4 => simp

@[simp ↓] theorem writeDest_ctl (w : Vector Word 8) (r : Nat) (b : DmaBurst) (s : State) :
    (writeDest w r b s).2.1.ctl = s.ctl := by
  unfold writeDest
  repeat' first | (simp; done) | split | (dsimp only; split)

@[simp ↓] theorem burstDone_ctl (c : Fin 32) (par : Option (DmaReq × Bool)) (s : State) :
    (burstDone c par s).ctl = s.ctl := by
  unfold burstDone
  repeat' first | (simp; done) | split | (dsimp only; split)

/-! ### Machine/SafeTick.lean -/

@[simp ↓] theorem releaseWaiting_ctl (s : State) : (releaseWaiting s).ctl = s.ctl := by simp [releaseWaiting]

@[simp ↓] theorem safetyTick_ctl (lv : BitVec 16) (lorst spDiff : Bool) (s : State) :
    (safetyTick lv lorst spDiff s).ctl = s.ctl := by simp [safetyTick]

@[simp ↓] theorem rampTimeout_ctl (n : Port) (s : State) : (rampTimeout n s).ctl = s.ctl := by
  unfold rampTimeout
  repeat' first | (simp; done) | split | (dsimp only; split)

/-! ### Machine/Save.lean -/

@[simp ↓] theorem dropCalls_ctl (s : State) : (dropCalls s).ctl = s.ctl := by simp [dropCalls]

@[simp ↓] theorem tornSlot_ctl (s : State) : (tornSlot s).ctl = s.ctl := by
  unfold tornSlot
  repeat' first | (simp; done) | split | (dsimp only; split)

@[simp ↓] theorem tornErase_ctl (s : State) : (tornErase s).ctl = s.ctl := by simp [tornErase]

@[simp ↓] theorem tornSettings_ctl (s : State) : (tornSettings s).ctl = s.ctl := by simp [tornSettings]

@[simp ↓] theorem tornFlash_ctl (s : State) : (tornFlash s).ctl = s.ctl := by
  unfold tornFlash
  repeat' first | (simp; done) | split | (dsimp only; split)

@[simp ↓] theorem dropOutputs_ctl (s : State) : (dropOutputs s).ctl = s.ctl := by simp [dropOutputs]

@[simp ↓] theorem stopRunning_ctl (s : State) : (stopRunning s).ctl = s.ctl := by simp [stopRunning]

@[simp ↓] theorem holdPart_ctl (bits : BitVec 16) (s : State) : (holdPart bits s).ctl = s.ctl := by simp [holdPart]

@[simp ↓] theorem powerFailAudits_ctl (s : State) : (powerFailAudits s).ctl = s.ctl := by simp [powerFailAudits]

@[simp ↓] theorem lastFine_ctl (w : BitVec 64) (g : Fin 2) (s : State) : (lastFine w g s).ctl = s.ctl := by simp [lastFine]

@[simp ↓] theorem lastBits_ctl (w : BitVec 64) (s : State) (b : FastBits) :
    (lastBits w s b).ctl = s.ctl := by simp [lastBits]

@[simp ↓] theorem lastSamples_ctl (tail : List FastBits) (s : State) :
    (lastSamples tail s).ctl = s.ctl := by simp [lastSamples]

@[simp ↓] theorem lastBoundaries_ctl (tail : List FastBits) (s : State) :
    (lastBoundaries tail s).ctl = s.ctl := by simp [lastBoundaries]

@[simp ↓] theorem saveMetering_ctl (tail : List FastBits) (s : State) :
    (saveMetering tail s).ctl = s.ctl := by simp [saveMetering]

@[simp ↓] theorem meetFate_ctl (s : State) (x : Fin 16 × Fate) : (meetFate s x).ctl = s.ctl := by
  unfold meetFate
  repeat' first | (simp; done) | split | (dsimp only; split)

@[simp ↓] theorem saveDisplay_ctl (vhold : BitVec 12) (s : State) : (saveDisplay vhold s).ctl = s.ctl := by simp [saveDisplay]

@[simp ↓] theorem endEntries_ctl (s : State) : (endEntries s).ctl = s.ctl := by simp [endEntries]

@[simp ↓] theorem dropPulses_ctl (s : State) : (dropPulses s).ctl = s.ctl := by simp [dropPulses]

@[simp ↓] theorem portsErased_ctl (s : State) : (portsErased s).ctl = s.ctl := by simp [portsErased]

@[simp ↓] theorem pilotsOff_ctl (s : State) : (pilotsOff s).ctl = s.ctl := by simp [pilotsOff]

theorem powerFailSave_ctl (vhold : BitVec 12) (tail : List FastBits) (s : State) :
    (powerFailSave vhold tail s).ctl = (s.pending, .held) := by
  unfold powerFailSave
  dsimp only
  rw [loadAll_ctl, ctl_mk]
  generalize hX : (saveDisplay _ _) = X
  have h : X.ctl = s.ctl := by
    rw [← hX]
    simp only [saveDisplay_ctl, ctl_mk, ctl_fold]
    split <;> simp
  exact congrArg (fun p => (p.1, Power.held)) h

theorem powerFailWarning_ctl (src : PfwSource) (vhold : BitVec 12) (tail : List FastBits) (s : State) :
    (powerFailWarning src vhold tail s).ctl = s.ctl ∨ (powerFailWarning src vhold tail s).ctl = (s.pending, .held) := by
  unfold powerFailWarning
  repeat' split
  · exact .inr (powerFailSave_ctl _ _ _)
  · exact .inl rfl
  · exact .inr (powerFailSave_ctl _ _ _)
  · exact .inl rfl

@[simp ↓] theorem cutClose_ctl (s : State) : (cutClose s).ctl = s.ctl := by simp [cutClose]

@[simp ↓] theorem settle_ctl (s : State) : (settle s).ctl = s.ctl := by simp [settle]

@[simp ↓] theorem loseTail_ctl (s : State) : (loseTail s).ctl = s.ctl := by simp [loseTail]

theorem cutWithoutSave_ctl (steps : Fin 7) (tail : List FastBits) (s : State) :
    (cutWithoutSave steps tail s).ctl = (s.pending, .cut) := by
  unfold cutWithoutSave
  dsimp only
  rw [loadAll_ctl, ctl_mk]
  generalize hX : (pilotsOff _) = X
  have h : X.ctl = s.ctl := by
    rw [← hX]
    simp only [pilotsOff_ctl, settle_ctl, loseTail_ctl]
    (repeat' split) <;> simp
  exact congrArg (fun p => (p.1, Power.cut)) h

/-! ### Machine/StartUp.lean -/

theorem afterReset_ctl (cause : BitVec 13) (u : StartUp) (s : State) : (afterReset cause u s).ctl = (s.pending, .running) := rfl

@[simp ↓] theorem atNs_ctl (n : Nat) (s : State) : (atNs n s).ctl = s.ctl := by simp [atNs]

@[simp ↓] theorem causeBit_ctl (n : Nat) (s : State) : (causeBit n s).ctl = s.ctl := by simp [causeBit]

@[simp ↓] theorem bootSupply_ctl (u : StartUp) (s : State) : (bootSupply u s).ctl = s.ctl := by simp [bootSupply]

@[simp ↓] theorem bootTime_ctl (old : Mode) (u : StartUp) (s : State) : (bootTime old u s).ctl = s.ctl := by simp [bootTime]

@[simp ↓] theorem bootSelftest_ctl (u : StartUp) (s : State) : (bootSelftest u s).ctl = s.ctl := by simp [bootSelftest]

@[simp ↓] theorem swapAreas_ctl (s : State) : (swapAreas s).ctl = s.ctl := by simp [swapAreas]

@[simp ↓] theorem inActivate_ctl (f : State → State) (s : State) (hf : ∀ s, (f s).ctl = s.ctl) :
    (inActivate f s).ctl = s.ctl := by simp [inActivate, hf]

@[simp ↓] theorem activate_ctl (s : State) : (activate s).ctl = s.ctl := by simp [activate]

@[simp ↓] theorem swapBack_ctl (s : State) : (swapBack s).ctl = s.ctl := by simp [swapBack]

@[simp ↓] theorem provisionFkd_ctl (s : State) : (provisionFkd s).ctl = s.ctl := by simp [provisionFkd]

@[simp ↓] theorem bootConfirmed_ctl (s : State) : (bootConfirmed s).ctl = s.ctl := by simp [bootConfirmed]

@[simp ↓] theorem bootTrial_ctl (s : State) : (bootTrial s).ctl = s.ctl := by simp [bootTrial]

@[simp ↓] theorem bootManager_ctl (u : StartUp) (s : State) : (bootManager u s).ctl = s.ctl := by simp [bootManager]

@[simp ↓] theorem olderArea_ctl (s : State) (a : SinterArea) : (olderArea s a).ctl = s.ctl := by
  unfold olderArea
  repeat' first | (simp; done) | split | (dsimp only; split)

@[simp ↓] theorem loseArea_ctl (s : State) (a : SinterArea) : (loseArea s a).ctl = s.ctl := by
  unfold loseArea
  repeat' first | (simp; done) | split | (dsimp only; split)

@[simp ↓] theorem recovery_ctl (u : StartUp) (rolled : Nat) (s : State) :
    (recovery u rolled s).ctl = s.ctl := by simp [recovery]

@[simp ↓] theorem provisionSkd_ctl (k : Fin 2) (s : State) : (provisionSkd k s).ctl = s.ctl := by simp [provisionSkd]

@[simp ↓] theorem journalFs_ctl (s : State) : (journalFs s).ctl = s.ctl := by simp [journalFs]

@[simp ↓] theorem install_ctl (k : Fin 2) (l : Loaded) (s : State) : (install k l s).ctl = s.ctl := by simp [install]

@[simp ↓] theorem loadRest_ctl (k : Fin 2) (l : Loaded) (s : State) : (loadRest k l s).2.ctl = s.ctl := by
  unfold loadRest
  repeat' first | (simp; done) | split | (dsimp only; split)

@[simp ↓] theorem loadFrom_ctl (k : Fin 2) (s : State) : ((loadFrom k s).2).ctl = s.ctl := by
  unfold loadFrom
  repeat' first | (simp; done) | split | (dsimp only; split)

@[simp ↓] theorem afterLoad_ctl (u : StartUp) (s : State) : (afterLoad u s).ctl = s.ctl := by simp [afterLoad]

@[simp ↓] theorem loader_ctl (u : StartUp) (s : State) : (loader u s).ctl = s.ctl := by simp [loader]

@[simp ↓] theorem gapEntries_ctl (s : State) : (gapEntries s).ctl = s.ctl := by simp [gapEntries]

@[simp ↓] theorem restartSlices_ctl (s : State) : (restartSlices s).ctl = s.ctl := by simp [restartSlices]

@[simp ↓] theorem bootBoundaries_ctl (s : State) : (bootBoundaries s).ctl = s.ctl := by simp [bootBoundaries]

@[simp ↓] theorem bootStops_ctl (s : State) : (bootStops s).ctl = s.ctl := by simp [bootStops]

@[simp ↓] theorem bootPart_ctl (s : State) : (bootPart s).ctl = s.ctl := by simp [bootPart]

@[simp ↓] theorem lossEntries_ctl (l : List SinterArea) (s : State) : (lossEntries l s).ctl = s.ctl := by simp [lossEntries]

@[simp ↓] theorem kernelStart_ctl (u : StartUp) (s : State) : (kernelStart u s).ctl = s.ctl := by simp [kernelStart]

@[simp ↓] theorem bootKernel_ctl (u : StartUp) (s : State) : (bootKernel u s).ctl = s.ctl := by simp [bootKernel]

@[simp ↓] theorem releaseCores_ctl (s : State) : (releaseCores s).ctl = s.ctl := by simp [releaseCores]

@[simp ↓] theorem startWindow_ctl (s : State) : (startWindow s).ctl = s.ctl := by simp [startWindow]

@[simp ↓] theorem portsListen_ctl (s : State) : (portsListen s).ctl = s.ctl := by simp [portsListen]

@[simp ↓] theorem bootMode_ctl (s : State) : (bootMode s).ctl = s.ctl := by simp [bootMode]

theorem startUp_ctl (cause : BitVec 13) (u : StartUp) (s : State) : (startUp cause u s).ctl = (s.pending, .running) := by
  have hx : ∀ x : State, x.ctl = s.ctl → (afterReset cause u x).ctl = (s.pending, .running) := by
    intro x h
    rw [afterReset_ctl]
    exact congrArg (fun p => (p.1, Power.running)) h
  unfold startUp
  dsimp only
  generalize hY : (if u.older.isEmpty = true then settle (tornFlash s) else _) = Y
  have hy : Y.ctl = s.ctl := by
    rw [← hY]
    split <;> simp
  split
  · simp only [bootSelftest_ctl, bootTime_ctl, bootSupply_ctl]
    exact hx _ hy
  · simp only [bootMode_ctl, bootKernel_ctl, loader_ctl, recovery_ctl, bootManager_ctl, bootSelftest_ctl, bootTime_ctl,
      bootSupply_ctl]
    exact hx _ hy

theorem vsupRise_ctl (u : StartUp) (s : State) :
    (vsupRise u s).ctl = s.ctl ∨ (vsupRise u s).ctl = (s.pending, .running) := by
  unfold vsupRise
  split
  · exact .inr (startUp_ctl _ _ _)
  · exact .inl rfl

theorem nrstReset_ctl (u : StartUp) (s : State) :
    (nrstReset u s).ctl = s.ctl ∨ (nrstReset u s).ctl = (s.pending, .running) := by
  unfold nrstReset
  split
  · exact .inr (startUp_ctl _ _ _)
  · exact .inl rfl

theorem pfwClear_ctl (ball : Bool) (u : StartUp) (s : State) :
    (pfwClear ball u s).ctl = s.ctl ∨ (pfwClear ball u s).ctl = (s.pending, .running) := by
  unfold pfwClear
  split
  · exact .inr (startUp_ctl _ _ _)
  · exact .inl rfl

theorem degAutoReset_ctl (u : StartUp) (s : State) :
    (degAutoReset u s).ctl = s.ctl ∨ (degAutoReset u s).ctl = (s.pending, .running) := by
  unfold degAutoReset
  split
  · exact .inr (startUp_ctl _ _ _)
  · exact .inl rfl

theorem activationReset_ctl (u : StartUp) (s : State) :
    (activationReset u s).ctl = s.ctl ∨ (activationReset u s).ctl = (s.pending, .running) := by
  unfold activationReset
  split
  · exact .inr (startUp_ctl _ _ _)
  · exact .inl rfl

theorem rejectionReset_ctl (u : StartUp) (s : State) :
    (rejectionReset u s).ctl = s.ctl ∨ (rejectionReset u s).ctl = (s.pending, .running) := by
  unfold rejectionReset
  split
  · exact .inr (startUp_ctl _ _ _)
  · exact .inl rfl

theorem trialReset_ctl (u : StartUp) (s : State) :
    (trialReset u s).ctl = s.ctl ∨ (trialReset u s).ctl = (s.pending, .running) := by
  unfold trialReset
  split
  · exact .inr (startUp_ctl _ _ _)
  · exact .inl rfl

/-! ### Machine/Idle.lean -/

@[simp ↓] theorem idle_ctl (s : State) : (idle s).ctl = s.ctl := by simp [idle]

end Sys2Proof.Machine
end

