-- ==== Sys2Proof/Laws/KeepMem.lean ====
section
/-! SUPPORT. The operations that touch neither memory. -/

namespace Sys2Proof.Machine

/-! ### Machine/Ops.lean -/

@[simp ↓] theorem State.busOk_mems (s : State) (v : Word) : (State.busOk s v).mems = s.mems := by simp [State.busOk]

@[simp ↓] theorem State.busErr_mems (s : State) : (State.busErr s).mems = s.mems := by simp [State.busErr]

@[simp ↓] theorem State.decodeErr_mems (s : State) (a : Word) (req kind : Nat) :
    (State.decodeErr s a req kind).mems = s.mems := by simp [State.decodeErr]

@[simp ↓] theorem State.tagged_mems (s : State) : (State.tagged s).mems = s.mems := by simp [State.tagged]

@[simp ↓] theorem State.holeErr_mems (s : State) (req a n : Nat) : (State.holeErr s req a n).mems = s.mems := by
  unfold State.holeErr
  split <;> simp

@[simp ↓] theorem holdEngine_mems (s : State) : (holdEngine s).mems = s.mems := by simp [holdEngine]

@[simp ↓] theorem onBlock_mems (k : BlkKind) (n : Nat) (s : State) (f : State → State) (hf : ∀ s, (f s).mems = s.mems) :
    (onBlock k n s f).mems = s.mems := by
  unfold onBlock
  dsimp only
  split
  · exact (hf _).trans rfl
  · rfl

@[simp ↓] theorem State.modVp_mems (s : State) (n : Port) (f : Vp → Vp) :
    (State.modVp s n f).mems = s.mems := by simp [State.modVp]

@[simp ↓] theorem State.modPilot_mems (s : State) (n : Port) (f : Pilot → Pilot) :
    (State.modPilot s n f).mems = s.mems := by simp [State.modPilot]

@[simp ↓] theorem State.modLink_mems (s : State) (n : Port) (f : Link → Link) :
    (State.modLink s n f).mems = s.mems := by simp [State.modLink]

@[simp ↓] theorem State.modTls_mems (s : State) (n : Port) (f : Tls → Tls) :
    (State.modTls s n f).mems = s.mems := by simp [State.modTls]

@[simp ↓] theorem State.modRgn_mems (s : State) (r : Fin 16) (f : Region → Region) :
    (State.modRgn s r f).mems = s.mems := by simp [State.modRgn]

@[simp ↓] theorem State.modCh_mems (s : State) (n : ChanId) (f : Chan → Chan) :
    (State.modCh s n f).mems = s.mems := by simp [State.modCh]

@[simp ↓] theorem State.modM_mems (s : State) (m : MeterId) (f : Meter → Meter) :
    (State.modM s m f).mems = s.mems := by simp [State.modM]

@[simp ↓] theorem State.modEth_mems (s : State) (n : Fin 2) (f : Eth → Eth) :
    (State.modEth s n f).mems = s.mems := by simp [State.modEth]

@[simp ↓] theorem State.modCan_mems (s : State) (n : Fin 3) (f : Can → Can) :
    (State.modCan s n f).mems = s.mems := by simp [State.modCan]

@[simp ↓] theorem State.modLoad_mems (s : State) (n : Fin 10) (f : LoadCh → LoadCh) :
    (State.modLoad s n f).mems = s.mems := by simp [State.modLoad]

@[simp ↓] theorem State.modCoil_mems (s : State) (c : Fin 12) (f : Coil → Coil) :
    (State.modCoil s c f).mems = s.mems := by simp [State.modCoil]

@[simp ↓] theorem State.modOut_mems (s : State) (n : Port) (f : Outlet → Outlet) :
    (State.modOut s n f).mems = s.mems := by simp [State.modOut]

@[simp ↓] theorem State.modImd_mems (s : State) (g : Fin 6) (f : Imd → Imd) :
    (State.modImd s g f).mems = s.mems := by simp [State.modImd]

@[simp ↓] theorem State.modConn_mems (s : State) (k : Fin 16) (f : Conn → Conn) :
    (State.modConn s k f).mems = s.mems := by simp [State.modConn]

@[simp ↓] theorem State.modPair_mems (s : State) (j : Fin 8) (f : StopPair → StopPair) :
    (State.modPair s j f).mems = s.mems := by simp [State.modPair]

@[simp ↓] theorem State.modTxn_mems (s : State) (d : Fin 6) (f : TxnDom → TxnDom) :
    (State.modTxn s d f).mems = s.mems := by simp [State.modTxn]

@[simp ↓] theorem State.modCore_mems (s : State) (f : BillCore → BillCore) :
    (State.modCore s f).mems = s.mems := by simp [State.modCore]

@[simp ↓] theorem State.setSess_mems (s : State) (n : Port) (x : Option Session) :
    (State.setSess s n x).mems = s.mems := by simp [State.setSess]

@[simp ↓] theorem State.modSess_mems (s : State) (n : Port) (f : Session → Session) :
    (State.modSess s n f).mems = s.mems := by simp [State.modSess]

@[simp ↓] theorem State.setLofs_mems (s : State) (ms : Nat) : (State.setLofs s ms).mems = s.mems := by simp [State.setLofs]

@[simp ↓] theorem State.draw_mems (s : State) : ((State.draw s).2).mems = s.mems := by simp [State.draw]

@[simp ↓] theorem State.raise_mems (s : State) (n : Nat) : (State.raise s n).mems = s.mems := by simp [State.raise]

@[simp ↓] theorem State.evPut_mems (s : State) (typ source : Nat) (d0 d1 d2 : Word) :
    (State.evPut s typ source d0 d1 d2).mems = s.mems := by simp [State.evPut]

@[simp ↓] theorem State.evRoll_mems (s : State) : (State.evRoll s).mems = s.mems := by simp [State.evRoll]

@[simp ↓] theorem State.evSecond_mems (s : State) :
    (State.evSecond s).mems = s.mems := by simp [State.evSecond]

@[simp ↓] theorem State.evlog_mems (s : State) (typ source : Nat) (d0 d1 d2 : Word) :
    (State.evlog s typ source d0 d1 d2).mems = s.mems := by simp [State.evlog]

@[simp ↓] theorem State.statsCleared_mems (s : State) (block mask : Nat) :
    (State.statsCleared s block mask).mems = s.mems := by simp [State.statsCleared]

@[simp ↓] theorem State.audit_mems (s : State) (typ source reason : Nat) (item old new : Word) :
    (State.audit s typ source reason item old new).mems = s.mems := by simp [State.audit]

@[simp ↓] theorem State.raiseDem_mems (s : State) (n : Port) (cat cause : Nat) (reason : Byte) (why : Why) :
    (State.raiseDem s n cat cause reason why).mems = s.mems := by simp [State.raiseDem]

@[simp ↓] theorem State.demand_mems (s : State) (n : Port) (cat cause : Nat) (reason : Byte) :
    (State.demand s n cat cause reason).mems = s.mems := by simp [State.demand]

@[simp ↓] theorem State.setLedger_mems (s : State) (l : List (Option LedgerEntry)) :
    (State.setLedger s l).mems = s.mems := by simp [State.setLedger]

@[simp ↓] theorem State.flagSpan_mems (s : State) (n : Port) (bits : BitVec 16) :
    (State.flagSpan s n bits).mems = s.mems := by simp [State.flagSpan]

@[simp ↓] theorem State.flagSess_mems (s : State) (n : Port) (bits : BitVec 16) :
    (State.flagSess s n bits).mems = s.mems := by simp [State.flagSess]

@[simp ↓] theorem Reply.ok_mems (s : State) (res : List Word) : ((Reply.ok s res).s).mems = s.mems := by simp

@[simp ↓] theorem Reply.deny_mems (s : State) (st : Status) : ((Reply.deny s st).s).mems = s.mems := by simp

@[simp ↓] theorem Reply.later_mems (s : State) (p : Pending) : ((Reply.later s p).s).mems = s.mems := by simp

@[simp ↓] theorem State.setBox_mems (s : State) (i : MbxId) (x : Mailbox) :
    (State.setBox s i x).mems = s.mems := by simp [State.setBox]

@[simp ↓] theorem versions_mems (i : MbxId) (s : State) : ((versions i s).s).mems = s.mems := by simp [versions]

@[simp ↓] theorem answered_mems (i : MbxId) (r : Reply) : (answered i r).mems = r.s.mems := by
  unfold answered
  dsimp only
  split <;> simp

@[simp ↓] theorem ring_mems (i : MbxId) (body : Nat → Vector Word 16 → State → Reply) (s : State) (hbody : ∀ x0 x1 s, ((body x0 x1 s).s).mems = s.mems) :
    (ring i body s).mems = s.mems := by simp [ring, hbody]

@[simp ↓] theorem mbxCall_mems (i : MbxId) (cmd : Nat) (c : Call) (body : Vector Word 16 → State → Reply) (s : State) (hbody : ∀ x0 s, ((body x0 s).s).mems = s.mems) :
    (mbxCall i cmd c body s).mems = s.mems := by simp [mbxCall, hbody]

@[simp ↓] theorem mbxDone_mems (i : MbxId) (st : Status) (res : List Word) (s : State) :
    (mbxDone i st res s).mems = s.mems := by simp [mbxDone]

/-! ### Machine/Sampling.lean -/

@[simp ↓] theorem fastSample_mems (g : Fin 2) (bits miss : Vector (BitVec 16) 32) (s : State) :
    (fastSample g bits miss s).mems = s.mems := by simp [fastSample]

@[simp ↓] theorem selfCheck_mems (p : Fin 8) (s : State) : (selfCheck p s).mems = s.mems := by
  unfold selfCheck
  repeat' first | (simp; done) | split | (dsimp only; split) | refine (forAll_mems _ _ _ (fun _ _ => ?_)).trans ?_ |
    (dsimp only; refine (forAll_mems _ _ _ (fun _ _ => ?_)).trans ?_)

@[simp ↓] theorem tempTake_mems (s : State) : (tempTake s).mems = s.mems := by simp [tempTake]

@[simp ↓] theorem gainAll_mems (s : State) : (gainAll s).mems = s.mems := by simp [gainAll]

@[simp ↓] theorem resample_mems (g : Fin 2) (idx : Nat) (s : State) : (resample g idx s).mems = s.mems := by simp [resample]

@[simp ↓] theorem refFine_mems (g : Fin 2) (idx : Nat) (ref : ChanId) (s : State) :
    (refFine g idx ref s).mems = s.mems := by simp [refFine]

@[simp ↓] theorem resampFine_mems (g : Fin 2) (idx : Nat) (s : State) : (resampFine g idx s).mems = s.mems := by simp [resampFine]

@[simp ↓] theorem fineChannels_mems (g : Fin 2) (s : State) : (fineChannels g s).mems = s.mems := by simp [fineChannels]

@[simp ↓] theorem State.modAdc_mems (s : State) (a : Fin 4) (f : Adc → Adc) :
    (State.modAdc s a f).mems = s.mems := by simp [State.modAdc]

@[simp ↓] theorem rcFeed_mems (src : Nat) (v : Int) (w : Nat) (s : State) :
    (rcFeed src v w s).mems = s.mems := by simp [rcFeed]

@[simp ↓] theorem freshTemp_mems (src : Nat) (s : State) : (freshTemp src s).mems = s.mems := by simp [freshTemp]

@[simp ↓] theorem adcCoarse_mems (a : Fin 4) (bits : BitVec 16) (s : State) :
    (adcCoarse a bits s).mems = s.mems := by simp [adcCoarse]

@[simp ↓] theorem takeTemp_mems (src : Nat) (v : BitVec 24) (s : State) :
    (takeTemp src v s).mems = s.mems := by simp [takeTemp]

@[simp ↓] theorem adcFine_mems (a : Fin 4) (s : State) : (adcFine a s).mems = s.mems := by simp [adcFine]

@[simp ↓] theorem dwellStart_mems (a : Fin 4) (k : Nat) (s : State) :
    (dwellStart a k s).mems = s.mems := by simp [dwellStart]

@[simp ↓] theorem calibrate_mems (a : Fin 4) (s : State) : (calibrate a s).mems = s.mems := by simp [calibrate]

@[simp ↓] theorem storeGain_mems (a : Fin 4) (s : State) : (storeGain a s).mems = s.mems := by simp [storeGain]

@[simp ↓] theorem slotEnd_mems (a : Fin 4) (s : State) : (slotEnd a s).mems = s.mems := by simp [slotEnd]

@[simp ↓] theorem slotResync_mems (a : Fin 4) (changed : Nat → Bool) (s : State) :
    (slotResync a changed s).mems = s.mems := by simp [slotResync]

/-! ### Machine/Meters.lean -/

@[simp ↓] theorem rgwAll_mems (m : MeterId) (s : State) : (rgwAll m s).mems = s.mems := by simp [rgwAll]

@[simp ↓] theorem cutBounds_mems (m : MeterId) (inst : BitVec 64) (s : State) :
    (cutBounds m inst s).mems = s.mems := by simp [cutBounds]

@[simp ↓] theorem gapNow_mems (m : MeterId) (s : State) : (gapNow m s).mems = s.mems := by simp [gapNow]

@[simp ↓] theorem markGap_mems (m : MeterId) (s : State) : (markGap m s).mems = s.mems := by simp [markGap]

@[simp ↓] theorem validAgain_mems (m : MeterId) (s : State) : (validAgain m s).mems = s.mems := by simp [validAgain]

@[simp ↓] theorem rollover_mems (m : MeterId) (exp : Bool) (old : BitVec 160) (s : State) :
    (rollover m exp old s).mems = s.mems := by simp [rollover]

@[simp ↓] theorem pulseQueue_mems (m : MeterId) (s : State) : (pulseQueue m s).mems = s.mems := by simp [pulseQueue]

@[simp ↓] theorem pulseRestart_mems (q : Fin 8) (s : State) : (pulseRestart q s).mems = s.mems := by simp [pulseRestart]

@[simp ↓] theorem setPhseq_mems (m : MeterId) (v : BitVec 2) (s : State) : (setPhseq m v s).mems = s.mems := by simp [setPhseq]

@[simp ↓] theorem phaseStep_mems (m : MeterId) (s : State) : (phaseStep m s).mems = s.mems := by
  unfold phaseStep
  repeat' first | (simp; done) | split | (dsimp only; split)

@[simp ↓] theorem secondSums_mems (m : MeterId) (q : Int) (s : State) : (secondSums m q s).mems = s.mems := by simp [secondSums]

@[simp ↓] theorem bookQ_mems (m : MeterId) (s : State) : ((bookQ m s).2).mems = s.mems := by
  unfold bookQ
  repeat' first | (simp; done) | split | (dsimp only; split)

@[simp ↓] theorem snapTake_mems (m : MeterId) (inst : BitVec 64) (s : State) :
    (snapTake m inst s).mems = s.mems := by simp [snapTake]

@[simp ↓] theorem snapDone_mems (w : SnapWait) (s : State) :
    (snapDone w s).mems = s.mems := by simp [snapDone]

@[simp ↓] theorem snapEnd_mems (s : State) :
    (snapEnd s).mems = s.mems := by
  unfold snapEnd
  repeat' first | (simp; done) | split | (dsimp only; split)

@[simp ↓] theorem meterFine_mems (g : Fin 2) (m : MeterId) (s : State) : (meterFine g m s).mems = s.mems := by simp [meterFine]

@[simp ↓] theorem fineSample_mems (g : Fin 2) (s : State) : (fineSample g s).mems = s.mems := by simp [fineSample]

@[simp ↓] theorem powerCheck_mems (m : MeterId) (s : State) : (powerCheck m s).mems = s.mems := by simp [powerCheck]

@[simp ↓] theorem neutralCheck_mems (m : MeterId) (s : State) : (neutralCheck m s).mems = s.mems := by simp [neutralCheck]

@[simp ↓] theorem neutralFlags_mems (m : MeterId) (s : State) : (neutralFlags m s).mems = s.mems := by simp [neutralFlags]

@[simp ↓] theorem readAcc_mems (a : Vector Word 16) (s : State) : ((readAcc a s).s).mems = s.mems := by
  unfold readAcc
  repeat' first | (simp; done) | split | (dsimp only; split)

@[simp ↓] theorem freeWords_mems (place n : Nat) (s : State) : ((freeWords place n s).2).mems = s.mems := by simp [freeWords]

@[simp ↓] theorem readPq_mems (a : Vector Word 16) (s : State) : ((readPq a s).s).mems = s.mems := by
  unfold readPq
  repeat' first | (simp; done) | split | (dsimp only; split)

@[simp ↓] theorem readHarm_mems (a : Vector Word 16) (s : State) : ((readHarm a s).s).mems = s.mems := by
  unfold readHarm
  repeat' first | (simp; done) | split | (dsimp only; split)

@[simp ↓] theorem readBalance_mems (a : Vector Word 16) (s : State) : ((readBalance a s).s).mems = s.mems := by
  unfold readBalance
  repeat' first | (simp; done) | split | (dsimp only; split)

@[simp ↓] theorem clearStats_mems (mask : BitVec 6) (s : State) : (clearStats mask s).mems = s.mems := by simp [clearStats]

@[simp ↓] theorem clearStatsCall_mems (a : Vector Word 16) (s : State) :
    ((clearStatsCall a s).s).mems = s.mems := by simp [clearStatsCall]

/-! ### Machine/DispReq.lean -/

@[simp ↓] theorem State.putRequest_mems (s : State) (r : Fin 16) (q : PendUpd) :
    (State.putRequest s r q).mems = s.mems := by
  unfold State.putRequest
  repeat' first | (simp; done) | split | (dsimp only; split)

@[simp ↓] theorem State.legalReq_mems (s : State) (n : Port) : (State.legalReq s n).mems = s.mems := by
  unfold State.legalReq
  repeat' first | (simp; done) | split | (dsimp only; split)

/-! ### Machine/TimeBase.lean -/

@[simp ↓] theorem rtcMove_mems (n : Int) (s : State) : (rtcMove n s).mems = s.mems := by simp [rtcMove]

@[simp ↓] theorem rtcRun_mems (n : Nat) (s : State) : (rtcRun n s).mems = s.mems := by simp [rtcRun]

@[simp ↓] theorem rtcTick_mems (s : State) : (rtcTick s).mems = s.mems := by simp [rtcTick]

@[simp ↓] theorem refPeriod_mems (s : State) : (refPeriod s).mems = s.mems := by simp [refPeriod]

@[simp ↓] theorem rtcLoad_mems (s : State) : (rtcLoad s).mems = s.mems := by simp [rtcLoad]

@[simp ↓] theorem rtcReading_mems (t : BitVec 12) (n : Nat) (s : State) :
    (rtcReading t n s).mems = s.mems := by simp [rtcReading]

@[simp ↓] theorem refdevMeasure_mems (dev : BitVec 16) (s : State) : (refdevMeasure dev s).mems = s.mems := by simp [refdevMeasure]

@[simp ↓] theorem vbakMeasure_mems (v : Byte) (s : State) : (vbakMeasure v s).mems = s.mems := by simp [vbakMeasure]

@[simp ↓] theorem evlDropSecond_mems (s : State) : (evlDropSecond s).mems = s.mems := by simp [evlDropSecond]

@[simp ↓] theorem evlClrcnt_mems (s : State) : (evlClrcnt s).mems = s.mems := by simp [evlClrcnt]

/-! ### Machine/Billing.lean -/

@[simp ↓] theorem State.pushRecord_mems (s : State) (rtype : Nat) (flags : BitVec 16) (port : Option Port) (body : List Byte) :
    (State.pushRecord s rtype flags port body).mems = s.mems := by simp [State.pushRecord]

@[simp ↓] theorem State.journal_mems (s : State) (save : Bool) : (State.journal s save).mems = s.mems := by simp [State.journal]

@[simp ↓] theorem closeSlice_mems (m : MeterId) (s : State) : (closeSlice m s).mems = s.mems := by simp [closeSlice]

@[simp ↓] theorem closeSlices_mems (s : State) : (closeSlices s).mems = s.mems := by simp [closeSlices]

@[simp ↓] theorem meterEnable_mems (m : MeterId) (reason : Nat) (s : State) :
    (meterEnable m reason s).mems = s.mems := by simp [meterEnable]

@[simp ↓] theorem setTariff_mems (s : State) : (setTariff s).mems = s.mems := by simp [setTariff]

@[simp ↓] theorem balance_mems (durNs : Nat) (outage split : Bool) (s : State) :
    ((balance durNs outage split s).2.2).mems = s.mems := by
  unfold balance
  repeat' first | (simp; done) | split | (dsimp only; split)

@[simp ↓] theorem endPart_mems (bits : BitVec 16) (s : State) : ((endPart bits s).2).mems = s.mems := by simp [endPart]

@[simp ↓] theorem writeDemand_mems (c : ClosedPart) (count : Nat) (s : State) :
    (writeDemand c count s).mems = s.mems := by simp [writeDemand]

@[simp ↓] theorem openPart_mems (lt : Int) (bits : BitVec 16) (s : State) :
    (openPart lt bits s).mems = s.mems := by simp [openPart]

@[simp ↓] theorem closePart_mems (bits : BitVec 16) (next : Int) (s : State) :
    (closePart bits next s).mems = s.mems := by simp [closePart]

@[simp ↓] theorem demandClose_mems (at_ : Int) (s : State) : (demandClose at_ s).mems = s.mems := by simp [demandClose]

@[simp ↓] theorem writePeriod_mems (at_ : Int) (m : MeterId) (s : State) :
    (writePeriod at_ m s).mems = s.mems := by simp [writePeriod]

@[simp ↓] theorem periodClose_mems (at_ : Int) (s : State) : (periodClose at_ s).mems = s.mems := by simp [periodClose]

@[simp ↓] theorem tariffSwitch_mems (ms : Int) (s : State) : (tariffSwitch ms s).mems = s.mems := by simp [tariffSwitch]

@[simp ↓] theorem minuteBoundaries_mems (min : Int) (s : State) : (minuteBoundaries min s).mems = s.mems := by simp [minuteBoundaries]

@[simp ↓] theorem passBoundaries_mems (t0 t1 : Int) (s : State) : (passBoundaries t0 t1 s).mems = s.mems := by simp [passBoundaries]

@[simp ↓] theorem writeHeld_mems (s : State) : (writeHeld s).mems = s.mems := by simp [writeHeld]

@[simp ↓] theorem outageBoundaries_mems (t0 t1 : Int) (s : State) :
    (outageBoundaries t0 t1 s).mems = s.mems := by simp [outageBoundaries]

@[simp ↓] theorem dueDemand_mems (s : State) : (dueDemand s).mems = s.mems := by
  unfold dueDemand
  repeat' first | (simp; done) | split | (dsimp only; split)

@[simp ↓] theorem duePeriod_mems (s : State) : (duePeriod s).mems = s.mems := by
  unfold duePeriod
  repeat' first | (simp; done) | split | (dsimp only; split)

@[simp ↓] theorem dueBoundaries_mems (s : State) : (dueBoundaries s).mems = s.mems := by simp [dueBoundaries]

@[simp ↓] theorem cancelSession_mems (n : Port) (cause : Nat) (s : State) :
    (cancelSession n cause s).mems = s.mems := by
  unfold cancelSession
  repeat' first | (simp; done) | split | (dsimp only; split)

@[simp ↓] theorem openSession_mems (n : Port) (m : MeterId) (auth : Nat) (ext : List Byte) (token : Option Token) (s : State) :
    (openSession n m auth ext token s).mems = s.mems := by
  unfold openSession
  repeat' first | (simp; done) | split | (dsimp only; split)

@[simp ↓] theorem sessionOpen_mems (a : Vector Word 16) (s : State) : ((sessionOpen a s).s).mems = s.mems := by
  unfold sessionOpen
  repeat' first | (simp; done) | split | (dsimp only; split)

@[simp ↓] theorem sessionCancel_mems (a : Vector Word 16) (s : State) :
    ((sessionCancel a s).s).mems = s.mems := by
  unfold sessionCancel
  repeat' first | (simp; done) | split | (dsimp only; split)

@[simp ↓] theorem sessionStatus_mems (a : Vector Word 16) (s : State) :
    ((sessionStatus a s).s).mems = s.mems := by
  unfold sessionStatus
  repeat' first | (simp; done) | split | (dsimp only; split)

@[simp ↓] theorem markStart_mems (n : Port) (s : State) : (markStart n s).mems = s.mems := by simp [markStart]

@[simp ↓] theorem startCut_mems (n : Port) (s : State) : (startCut n s).mems = s.mems := by
  unfold startCut
  repeat' first | (simp; done) | split | (dsimp only; split)

@[simp ↓] theorem markStop_mems (n : Port) (reason : Byte) (s : State) :
    (markStop n reason s).mems = s.mems := by simp [markStop]

@[simp ↓] theorem stopValues_mems (n : Port) (s : State) : (stopValues n s).mems = s.mems := by
  unfold stopValues
  repeat' first | (simp; done) | split | (dsimp only; split)

@[simp ↓] theorem freezeStop_mems (n : Port) (reason : Byte) (s : State) :
    (freezeStop n reason s).mems = s.mems := by
  unfold freezeStop
  repeat' first | (simp; done) | split | (dsimp only; split)

@[simp ↓] theorem writeStop_mems (n : Port) (s : State) : (writeStop n s).mems = s.mems := by
  unfold writeStop
  repeat' first | (simp; done) | split | (dsimp only; split)

@[simp ↓] theorem stopCut_mems (n : Port) (s : State) : (stopCut n s).mems = s.mems := by simp [stopCut]

@[simp ↓] theorem markShift_mems (s : State) : (markShift s).mems = s.mems := by simp [markShift]

@[simp ↓] theorem adjustCut_mems (old : Nat) (adj : Int) (new : Nat) (s : State) :
    (adjustCut old adj new s).mems = s.mems := by simp [adjustCut]

@[simp ↓] theorem firstCut_mems (new : Nat) (s : State) : (firstCut new s).mems = s.mems := by simp [firstCut]

@[simp ↓] theorem backCut_mems (new : Nat) (s : State) : (backCut new s).mems = s.mems := by simp [backCut]

@[simp ↓] theorem commitCut_mems (cal part bp : Bool) (s : State) :
    (commitCut cal part bp s).mems = s.mems := by simp [commitCut]

@[simp ↓] theorem atBound_mems (k : BoundKind) (s : State) : (atBound k s).mems = s.mems := by
  unfold atBound
  repeat' first | (simp; done) | split | (dsimp only; split)

@[simp ↓] theorem keepBound_mems (s t : State) : (keepBound s t).mems = t.mems := by
  unfold keepBound
  split <;> simp

@[simp ↓] theorem asOf_mems (b : Bound) (f : State → State) (s : State) (hf : ∀ s, (f s).mems = s.mems) :
    (asOf b f s).mems = s.mems := by simp [asOf, hf]

@[simp ↓] theorem endBound_mems (b : Bound) (s : State) : (endBound b s).mems = s.mems := by simp [endBound]

@[simp ↓] theorem runBounds_mems (all : Bool) (n : Nat) (s : State) : (runBounds all n s).mems = s.mems := by
  induction n generalizing s with
  | zero => rfl
  | succ n ih =>
    unfold runBounds
    split
    · rfl
    · split <;> simp [ih]

@[simp ↓] theorem settleBounds_mems (s : State) : (settleBounds s).mems = s.mems := by simp [settleBounds]

@[simp ↓] theorem flushBounds_mems (s : State) : (flushBounds s).mems = s.mems := by simp [flushBounds]

@[simp ↓] theorem boundary_mems (k : BoundKind) (s : State) : (boundary k s).mems = s.mems := by simp [boundary]

@[simp ↓] theorem sessionStart_mems (n : Port) (s : State) : (sessionStart n s).mems = s.mems := by
  unfold sessionStart
  repeat' first | (simp; done) | split | (dsimp only; split)

@[simp ↓] theorem sessionStop_mems (n : Port) (reason : Byte) (s : State) :
    (sessionStop n reason s).mems = s.mems := by
  unfold sessionStop
  repeat' first | (simp; done) | split | (dsimp only; split)

@[simp ↓] theorem snapshot_mems (a : Vector Word 16) (s : State) : ((snapshot a s).s).mems = s.mems := by simp [snapshot]

@[simp ↓] theorem storeRecord_mems (r : Record) (s : State) : (storeRecord r s).mems = s.mems := by
  unfold storeRecord
  repeat' first | (simp; done) | split | (dsimp only; split)

@[simp ↓] theorem afterSign_mems (r : Record) (s : State) : (afterSign r s).mems = s.mems := by
  unfold afterSign
  repeat' first | (simp; done) | split | (dsimp only; split)

@[simp ↓] theorem signDone_mems (s : State) : (signDone s).mems = s.mems := by
  unfold signDone
  repeat' first | (simp; done) | split | (dsimp only; split)

/-! ### Machine/Records.lean -/

@[simp ↓] theorem readRecord_mems (a : Vector Word 16) (s : State) : ((readRecord a s).s).mems = s.mems := by
  unfold readRecord
  repeat' first | (simp; done) | split | (dsimp only; split)

@[simp ↓] theorem ackRecord_mems (a : Vector Word 16) (s : State) : ((ackRecord a s).s).mems = s.mems := by simp [ackRecord]

@[simp ↓] theorem readDemand_mems (a : Vector Word 16) (s : State) : ((readDemand a s).s).mems = s.mems := by
  unfold readDemand
  repeat' first | (simp; done) | split | (dsimp only; split)

@[simp ↓] theorem readOcmf_mems (a : Vector Word 16) (s : State) : ((readOcmf a s).s).mems = s.mems := by simp [readOcmf]

@[simp ↓] theorem ocmfDone_mems (s : State) : (ocmfDone s).mems = s.mems := by
  unfold ocmfDone
  repeat' first | (simp; done) | split | (dsimp only; split)

@[simp ↓] theorem readAudit_mems (a : Vector Word 16) (s : State) : ((readAudit a s).s).mems = s.mems := by
  unfold readAudit
  repeat' first | (simp; done) | split | (dsimp only; split)

@[simp ↓] theorem archiveBegin_mems (a : Vector Word 16) (s : State) :
    ((archiveBegin a s).s).mems = s.mems := by
  unfold archiveBegin
  repeat' first | (simp; done) | split | (dsimp only; split)

@[simp ↓] theorem sealDone_mems (s : State) : (sealDone s).mems = s.mems := by
  unfold sealDone
  repeat' first | (simp; done) | split | (dsimp only; split)

@[simp ↓] theorem archiveCommit_mems (a : Vector Word 16) (s : State) :
    ((archiveCommit a s).s).mems = s.mems := by
  unfold archiveCommit
  repeat' first | (simp; done) | split | (dsimp only; split)

@[simp ↓] theorem creditCheck_mems (n : Port) (s : State) : (creditCheck n s).mems = s.mems := by
  unfold creditCheck
  repeat' first | (simp; done) | split | (dsimp only; split)

/-! ### Machine/Tokens.lean -/

@[simp ↓] theorem State.modTok_mems (s : State) (f : Tokens → Tokens) : (State.modTok s f).mems = s.mems := by simp [State.modTok]

@[simp ↓] theorem endEntry_mems (port : Option Port) (code : Byte) (t : Option Token) (s : State) :
    (endEntry port code t s).mems = s.mems := by
  unfold endEntry
  repeat' first | (simp; done) | split | (dsimp only; split)

@[simp ↓] theorem countInvalid_mems (s : State) : (countInvalid s).mems = s.mems := by
  unfold countInvalid
  repeat' first | (simp; done) | split | (dsimp only; split)

@[simp ↓] theorem tokenDecode_mems (keys : List (BitVec 4)) (s : State) :
    (tokenDecode keys s).mems = s.mems := by
  unfold tokenDecode
  repeat' first | (simp; done) | split | (dsimp only; split)

@[simp ↓] theorem tokenKey_mems (k : BitVec 4) (s : State) : (tokenKey k s).mems = s.mems := by
  unfold tokenKey
  repeat' first | (simp; done) | split | (dsimp only; split)

@[simp ↓] theorem tokenStart_mems (s : State) : (tokenStart s).mems = s.mems := by simp [tokenStart]

@[simp ↓] theorem discardTokens_mems (s : State) : (discardTokens s).mems = s.mems := by simp [discardTokens]

@[simp ↓] theorem tokenResult_mems (a_ : Vector Word 16) (s : State) :
    ((tokenResult a_ s).s).mems = s.mems := by
  unfold tokenResult
  repeat' first | (simp; done) | split | (dsimp only; split)

@[simp ↓] theorem denyCode_mems (s : State) (code : Word) : ((denyCode s code).s).mems = s.mems := by simp [denyCode]

@[simp ↓] theorem bindToken_mems (n : Port) (m : MeterId) (t : Token) (ext : List Byte) (s : State) :
    ((bindToken n m t ext s).s).mems = s.mems := by simp [bindToken]

@[simp ↓] theorem tokenOpen_mems (a : Vector Word 16) (s : State) : ((tokenOpen a s).s).mems = s.mems := by
  unfold tokenOpen
  repeat' first | (simp; done) | split | (dsimp only; split)

@[simp ↓] theorem tokenDiscard_mems (a : Vector Word 16) (s : State) :
    ((tokenDiscard a s).s).mems = s.mems := by
  unfold tokenDiscard
  repeat' first | (simp; done) | split | (dsimp only; split)

@[simp ↓] theorem ledgerRead_mems (a : Vector Word 16) (s : State) : ((ledgerRead a s).s).mems = s.mems := by simp [ledgerRead]

@[simp ↓] theorem tokenKeyLoad_mems (a : Vector Word 16) (s : State) :
    ((tokenKeyLoad a s).s).mems = s.mems := by
  unfold tokenKeyLoad
  repeat' first | (simp; done) | split | (dsimp only; split)

@[simp ↓] theorem tokenKeyInfo_mems (a : Vector Word 16) (s : State) :
    ((tokenKeyInfo a s).s).mems = s.mems := by
  unfold tokenKeyInfo
  repeat' first | (simp; done) | split | (dsimp only; split)

/-! ### Machine/LoadSw.lean -/

@[simp ↓] theorem genPeriod_mems (g : Fin 2) (start : BitVec 64) (s : State) :
    (genPeriod g start s).mems = s.mems := by simp [genPeriod]

@[simp ↓] theorem genSync_mems (s : State) : (genSync s).mems = s.mems := by simp [genSync]

@[simp ↓] theorem openWindow_mems (n : Fin 10) (s : State) : (openWindow n s).mems = s.mems := by simp [openWindow]

@[simp ↓] theorem pulseStep_mems (s : State) : (pulseStep s).mems = s.mems := by simp [pulseStep]

@[simp ↓] theorem loadOne_mems (s : State) (n : Fin 10) : (loadOne s n).mems = s.mems := by simp [loadOne]

@[simp ↓] theorem loadAll_mems (s : State) : (loadAll s).mems = s.mems := by simp [loadAll]

@[simp ↓] theorem loadAt_mems (c : Nat) (s : State) : (loadAt c s).mems = s.mems := by
  unfold loadAt
  repeat' first | (simp; done) | split | (dsimp only; split)

@[simp ↓] theorem shedCh_mems (n : Fin 10) (s : State) : (shedCh n s).mems = s.mems := by simp [shedCh]

@[simp ↓] theorem shedOne_mems (s : State) : (shedOne s).mems = s.mems := by
  unfold shedOne
  repeat' first | (simp; done) | split | (dsimp only; split)

@[simp ↓] theorem budgetShed_mems (avg : BitVec 16) (s : State) : (budgetShed avg s).mems = s.mems := by simp [budgetShed]

@[simp ↓] theorem shedReenable_mems (s : State) : (shedReenable s).mems = s.mems := by
  unfold shedReenable
  repeat' first | (simp; done) | split | (dsimp only; split)

@[simp ↓] theorem shedAgain_mems (n : Fin 10) (was : Bool) (s : State) :
    (shedAgain n was s).mems = s.mems := by simp [shedAgain]

@[simp ↓] theorem loadCmd_mems (n : Fin 10) (cmd : BitVec 2) (s : State) : (loadCmd n cmd s).mems = s.mems := by simp [loadCmd]

@[simp ↓] theorem loadClrLatch_mems (n : Fin 10) (cool : Bool) (s : State) :
    (loadClrLatch n cool s).mems = s.mems := by simp [loadClrLatch]

@[simp ↓] theorem loadThermal_mems (n : Fin 10) (guard : Bool) (temp : BitVec 16) (s : State) :
    (loadThermal n guard temp s).mems = s.mems := by simp [loadThermal]

@[simp ↓] theorem loadRestart_mems (n : Fin 10) (s : State) : (loadRestart n s).mems = s.mems := by simp [loadRestart]

@[simp ↓] theorem deferredTurnOn_mems (s : State) : (deferredTurnOn s).mems = s.mems := by
  unfold deferredTurnOn
  repeat' first | (simp; done) | split | (dsimp only; split)

@[simp ↓] theorem loadSense_mems (ch : BitVec 4) (s : State) : (loadSense ch s).mems = s.mems := by simp [loadSense]

@[simp ↓] theorem senseTest_mems (s : State) : (senseTest s).mems = s.mems := by simp [senseTest]

@[simp ↓] theorem loadWdStart_mems (s : State) : (loadWdStart s).mems = s.mems := by simp [loadWdStart]

@[simp ↓] theorem loadWdExpire_mems (cause : BitVec 2) (s : State) : (loadWdExpire cause s).mems = s.mems := by simp [loadWdExpire]

@[simp ↓] theorem loadService_mems (resp : BitVec 16) (s : State) : (loadService resp s).mems = s.mems := by simp [loadService]

@[simp ↓] theorem loadWdrel_mems (s : State) : (loadWdrel s).mems = s.mems := by simp [loadWdrel]

@[simp ↓] theorem loadClrcnt_mems (s : State) : (loadClrcnt s).mems = s.mems := by simp [loadClrcnt]

/-! ### Machine/Pilot.lean -/

@[simp ↓] theorem linkLost_mems (s : State) (n : Port) : (linkLost s n).mems = s.mems := by simp [linkLost]

@[simp ↓] theorem setPState_mems (s : State) (n : Port) (st : PState) : (setPState s n st).mems = s.mems := by simp [setPState]

@[simp ↓] theorem imposeOverride_mems (s : State) (n : Port) : (imposeOverride s n).mems = s.mems := by
  unfold imposeOverride
  repeat' first | (simp; done) | split | (dsimp only; split)

@[simp ↓] theorem showState_mems (s : State) (n : Port) : (showState s n).mems = s.mems := by simp [showState]

@[simp ↓] theorem setClass_mems (s : State) (n : Port) (k : PState) : (setClass s n k).mems = s.mems := by simp [setClass]

@[simp ↓] theorem pilotsStart_mems (s : State) : (pilotsStart s).mems = s.mems := by simp [pilotsStart]

@[simp ↓] theorem classify_mems (s : State) (n : Port) (vh : Option Int) : (classify s n vh).mems = s.mems := by
  unfold classify
  repeat' first | (simp; done) | split | (dsimp only; split)

@[simp ↓] theorem measurePeriod_mems (s : State) (n : Port) (samples : List (BitVec 12)) :
    (measurePeriod s n samples).mems = s.mems := by
  unfold measurePeriod
  repeat' first | (simp; done) | split | (dsimp only; split)

@[simp ↓] theorem nextPeriod_mems (s : State) (n : Port) : (nextPeriod s n).mems = s.mems := by simp [nextPeriod]

@[simp ↓] theorem pilotPeriodEnd_mems (n : Port) (samples : List (BitVec 12)) (s : State) :
    (pilotPeriodEnd n samples s).mems = s.mems := by simp [pilotPeriodEnd]

@[simp ↓] theorem pilotCtl_mems (n : Port) (w : Word) (s : State) : (pilotCtl n w s).mems = s.mems := by simp [pilotCtl]

@[simp ↓] theorem pevtClrcnt_mems (n : Port) (s : State) : (pevtClrcnt n s).mems = s.mems := by simp [pevtClrcnt]

/-! ### Machine/Link.lean -/

@[simp ↓] theorem mmeLimit_mems (s : State) (n : Port) : ((mmeLimit s n).2).mems = s.mems := by
  unfold mmeLimit
  repeat' first | (simp; done) | split | (dsimp only; split)

@[simp ↓] theorem hearMme_mems (n : Port) (f : State → State) (s : State) (hf : ∀ s, (f s).mems = s.mems) :
    (hearMme n f s).mems = s.mems := by simp [hearMme, hf]

@[simp ↓] theorem startAtten_mems (n : Port) (mac : BitVec 48) (run : BitVec 64) (announced : Nat) (s : State) :
    (startAtten n mac run announced s).mems = s.mems := by simp [startAtten]

@[simp ↓] theorem sounding_mems (n : Port) (mac : BitVec 48) (run : BitVec 64) (groups : List Nat) (s : State) :
    (sounding n mac run groups s).mems = s.mems := by simp [sounding]

@[simp ↓] theorem soundInd_mems (n : Port) (mac : BitVec 48) (run : BitVec 64) (groups : List Nat) (s : State) :
    (soundInd n mac run groups s).mems = s.mems := by simp [soundInd]

@[simp ↓] theorem windowClose_mems (mac : BitVec 48) (run : BitVec 64) (s : State) :
    (windowClose mac run s).mems = s.mems := by
  unfold windowClose
  repeat' first | (simp; done) | split | (dsimp only; split)

@[simp ↓] theorem slacMatch_mems (n : Port) (mac : BitVec 48) (run : BitVec 64) (s : State) :
    (slacMatch n mac run s).mems = s.mems := by simp [slacMatch]

@[simp ↓] theorem slacRearm_mems (n : Port) (s : State) : (slacRearm n s).mems = s.mems := by simp [slacRearm]

@[simp ↓] theorem announce_mems (src : Fin 4) (at_ : Nat) (s : State) : (announce src at_ s).mems = s.mems := by simp [announce]

@[simp ↓] theorem storeFrame_mems (n : Port) (frame : List Byte) (erased blanked : Nat) (xr6 : Bool) (s : State) :
    (storeFrame n frame erased blanked xr6 s).mems = s.mems := by simp [storeFrame]

@[simp ↓] theorem t1sUp_mems (n : Port) (s : State) : (t1sUp n s).mems = s.mems := by simp [t1sUp]

@[simp ↓] theorem takeFrame_mems (n : Port) (own xr6 : Bool) (frame : List Byte) (erased blanked : Nat) (s : State) :
    (takeFrame n own xr6 frame erased blanked s).mems = s.mems := by simp [takeFrame]

@[simp ↓] theorem frameReceive_mems (n : Port) (kind : FrameKind) (frame : List Byte) (samples : List Int) (s : State) :
    (frameReceive n kind frame samples s).mems = s.mems := by
  unfold frameReceive
  repeat' first | (simp; done) | split | (dsimp only; split)

@[simp ↓] theorem txPush_mems (n : Port) (w : Word) (s : State) : (txPush n w s).mems = s.mems := by simp [txPush]

@[simp ↓] theorem frameSent_mems (n : Port) (air : Nat) (s : State) : (frameSent n air s).mems = s.mems := by
  unfold frameSent
  repeat' first | (simp; done) | split | (dsimp only; split)

@[simp ↓] theorem levtClrcnt_mems (n : Port) (s : State) : (levtClrcnt n s).mems = s.mems := by simp [levtClrcnt]

@[simp ↓] theorem tlsKeyWord_mems (n : Port) (w : Word) (s : State) : (tlsKeyWord n w s).mems = s.mems := by simp [tlsKeyWord]

@[simp ↓] theorem tlsInstall_mems (rx : Bool) (n : Port) (s : State) : (tlsInstall rx n s).mems = s.mems := by simp [tlsInstall]

@[simp ↓] theorem tlsClear_mems (n : Port) (s : State) : (tlsClear n s).mems = s.mems := by simp [tlsClear]

@[simp ↓] theorem tlsQueue_mems (n : Port) (rx : Bool) (ctype : Byte) (len : Nat) (s : State) :
    (tlsQueue n rx ctype len s).mems = s.mems := by simp [tlsQueue]

/-! ### Machine/Caldera.lean -/

@[simp ↓] theorem setLims_mems (n : Port) (vEv iEv : Nat) (s : State) :
    (setLims n vEv iEv s).mems = s.mems := by simp [setLims]

@[simp ↓] theorem formLims_mems (s : State) :
    (formLims s).mems = s.mems := by
  refine forAll_mems _ _ _ fun s n => ?_
  split <;> simp

@[simp ↓] theorem leaveUnproven_mems (s : State) :
    (leaveUnproven s).mems = s.mems := by simp [leaveUnproven]

@[simp ↓] theorem State.slogPut_mems (s : State) (typ source : Nat) (d0 d1 : Word) (prot : Bool) :
    (State.slogPut s typ source d0 d1 prot).mems = s.mems := by simp [State.slogPut]

@[simp ↓] theorem State.sfEvt_mems (s : State) (bit : Nat) : (State.sfEvt s bit).mems = s.mems := by simp [State.sfEvt]

@[simp ↓] theorem State.poolEvt_mems (s : State) (bit : Nat) : (State.poolEvt s bit).mems = s.mems := by simp [State.poolEvt]

@[simp ↓] theorem State.siEvt_mems (s : State) (bit : Nat) : (State.siEvt s bit).mems = s.mems := by simp [State.siEvt]

@[simp ↓] theorem releaseModule_mems (m : Fin 48) (s : State) : (releaseModule m s).mems = s.mems := by simp [releaseModule]

@[simp ↓] theorem releaseOutlet_mems (n : Port) (s : State) : (releaseOutlet n s).mems = s.mems := by simp [releaseOutlet]

@[simp ↓] theorem endClose_mems (c : Fin 12) (st : Status) (s : State) : (endClose c st s).mems = s.mems := by simp [endClose]

@[simp ↓] theorem countEm_mems (c : Fin 12) (amps : Nat) (s : State) : (countEm c amps s).mems = s.mems := by simp [countEm]

@[simp ↓] theorem coilOff_mems (c : Fin 12) (emergency : Bool) (s : State) :
    (coilOff c emergency s).mems = s.mems := by simp [coilOff]

@[simp ↓] theorem announceOpen_mems (c : Fin 12) (s : State) : (announceOpen c s).mems = s.mems := by simp [announceOpen]

@[simp ↓] theorem startRamp_mems (n : Port) (c : Fin 12) (s : State) : (startRamp n c s).mems = s.mems := by simp [startRamp]

@[simp ↓] theorem actStop_mems (n : Port) (c : Fin 12) (cat : Nat) (s : State) :
    (actStop n c cat s).mems = s.mems := by
  unfold actStop
  repeat' first | (simp; done) | split | (dsimp only; split)

@[simp ↓] theorem endDemands_mems (n : Port) (s : State) : (endDemands n s).mems = s.mems := by simp [endDemands]

@[simp ↓] theorem seqCheck_mems (s : State) : (seqCheck s).mems = s.mems := by simp [seqCheck]

@[simp ↓] theorem dropTies_mems (n : Port) (s : State) : (dropTies n s).mems = s.mems := by
  unfold dropTies
  split
  · rfl
  · rw [seqCheck_mems]
    refine forAll_mems _ _ _ fun s c => ?_
    split
    · split <;> simp
    · rfl

@[simp ↓] theorem accept_mems (r : Raise) (s : State) : (accept r s).mems = s.mems := by
  unfold accept
  repeat' first | (simp; done) | split | (dsimp only; split)

@[simp ↓] theorem acceptAll_mems (s : State) : (acceptAll s).mems = s.mems := by simp [acceptAll]

@[simp ↓] theorem pilotHold_mems (n : Port) (on : Bool) (s : State) : (pilotHold n on s).mems = s.mems := by simp [pilotHold]

/-! ### Machine/CanBus.lean -/

@[simp ↓] theorem canReceive_mems (b : Fin 3) (f : CanFrame) (s : State) :
    (canReceive b f s).mems = s.mems := by simp [canReceive]

@[simp ↓] theorem canTransmit_mems (b : Fin 3) (sent : Bool) (s : State) :
    (canTransmit b sent s).mems = s.mems := by
  unfold canTransmit
  repeat' first | (simp; done) | split | (dsimp only; split)

@[simp ↓] theorem canTimeout_mems (b : Fin 3) (s : State) : (canTimeout b s).mems = s.mems := by simp [canTimeout]

@[simp ↓] theorem sfLoad_mems (b : Fin 3) (e : Fin 16) (s : State) : (sfLoad b e s).mems = s.mems := by simp [sfLoad]

@[simp ↓] theorem sfClear_mems (b : Fin 3) (e : Fin 16) (s : State) : (sfClear b e s).mems = s.mems := by simp [sfClear]

@[simp ↓] theorem sfEntry_mems (b : Fin 3) (e : Fin 16) (s : State) : (sfEntry b e s).mems = s.mems := by simp [sfEntry]

@[simp ↓] theorem canRecov_mems (b : Fin 3) (s : State) : (canRecov b s).mems = s.mems := by simp [canRecov]

@[simp ↓] theorem canState_mems (b : Fin 3) (st : CanState) (s : State) : (canState b st s).mems = s.mems := by simp [canState]

@[simp ↓] theorem canRecovered_mems (b : Fin 3) (s : State) : (canRecovered b s).mems = s.mems := by simp [canRecovered]

@[simp ↓] theorem canErrors_mems (b : Fin 3) (tec rcc : Byte) (s : State) :
    (canErrors b tec rcc s).mems = s.mems := by simp [canErrors]

@[simp ↓] theorem canBusOff_mems (b : Fin 3) (s : State) : (canBusOff b s).mems = s.mems := by simp [canBusOff]

@[simp ↓] theorem canClrcnt_mems (b : Fin 3) (s : State) : (canClrcnt b s).mems = s.mems := by simp [canClrcnt]

@[simp ↓] theorem gpioSet_mems (f : Gpio → Gpio) (s : State) : (gpioSet f s).mems = s.mems := by simp [gpioSet]

/-! ### Machine/Irq.lean -/

@[simp ↓] theorem plicClaim_mems (ctx : Fin 8) (s : State) : (plicClaim ctx s).mems = s.mems := by simp [plicClaim]

@[simp ↓] theorem plicComplete_mems (ctx : Fin 8) (src : Word) (s : State) :
    (plicComplete ctx src s).mems = s.mems := by simp [plicComplete]

/-! ### Machine/Mem.lean -/

@[simp ↓] theorem State.eccErrs_mems (s : State) (k a req : Nat) :
    (State.eccErrs s k a req).mems = s.mems := by simp [State.eccErrs]

@[simp ↓] theorem State.eccErr_mems (s : State) (a : Nat) (req : Nat) :
    (State.eccErr s a req).mems = s.mems := by simp [State.eccErr]

@[simp ↓] theorem State.eccRun_mems (s : State) (a n req : Nat) :
    (State.eccRun s a n req).mems = s.mems := by simp [State.eccRun]

@[simp ↓] theorem parRecord_mems (req : Nat) (a : Word) (onResponse : Bool) (s : State) :
    (parRecord req a onResponse s).mems = s.mems := by simp [parRecord]

@[simp ↓] theorem State.mark_mems (s : State) (a : Nat) : (State.mark s a).mems = s.mems := by simp [State.mark]

@[simp ↓] theorem State.srcBytes_mems (s : State) (req a n : Nat) : (State.srcBytes s req a n).2.mems = s.mems := by
  unfold State.srcBytes
  repeat' first | (simp; done) | split | (dsimp only; split)

/-! ### Machine/Tls.lean -/

@[simp ↓] theorem tlsEnd_mems (n : Port) (rx : Bool) (res olen : Nat) (itype : Option Byte) (s : State) :
    (tlsEnd n rx res olen itype s).mems = s.mems := by simp [tlsEnd]

/-! ### Machine/Checks.lean -/

@[simp ↓] theorem State.withParams_mems (s : State) (b : List (Nat × Word)) :
    (State.withParams s b).mems = s.mems := by simp [State.withParams]

/-! ### Machine/Fabric.lean -/

@[simp ↓] theorem restartParts_mems (ps : List (Fin 8)) (s : State) :
    (restartParts ps s).mems = s.mems := by simp [restartParts]

@[simp ↓] theorem recheck_mems (s : State) : (recheck s).mems = s.mems := by simp [recheck]

/-! ### Machine/DmaCtl.lean -/

@[simp ↓] theorem State.modDma_mems (s : State) (c : Fin 32) (f : DmaCh → DmaCh) :
    (State.modDma s c f).mems = s.mems := by simp [State.modDma]

@[simp ↓] theorem settleReq_mems (c : Fin 32) (s : State) : (settleReq c s).mems = s.mems := by simp [settleReq]

@[simp ↓] theorem requestAssert_mems (r : Fin 32) (s : State) : (requestAssert r s).mems = s.mems := by simp [requestAssert]

@[simp ↓] theorem requestWithdraw_mems (r : Fin 32) (s : State) : (requestWithdraw r s).mems = s.mems := by simp [requestWithdraw]

@[simp ↓] theorem delivered_mems (r : Nat) (s : State) : (delivered r s).mems = s.mems := by
  unfold delivered
  repeat' first | (simp; done) | split | (dsimp only; split)

@[simp ↓] theorem dmaHalt_mems (c : Fin 32) (s : State) : (dmaHalt c s).mems = s.mems := by simp [dmaHalt]

@[simp ↓] theorem dropRest_mems (r : Nat) (s : State) :
    (dropRest r s).mems = s.mems := by
  unfold dropRest
  repeat' first | (simp; done) | split | (dsimp only; split)

@[simp ↓] theorem fetchDesc_mems (a : Nat) (hit : Option Bool) (s : State) :
    ((fetchDesc a hit s).2.2).mems = s.mems := by
  unfold fetchDesc
  dsimp only
  split <;> simp

@[simp ↓] theorem dmaStop_mems (c : Fin 32) (s : State) : (dmaStop c s).mems = s.mems := by simp [dmaStop]

@[simp ↓] theorem selectRequest_mems (c : Fin 32) (sel : BitVec 5) (stays : Bool) (s : State) :
    (selectRequest c sel stays s).mems = s.mems := by simp [selectRequest]

@[simp ↓] theorem setPrio_mems (c : Fin 32) (p : BitVec 2) (s : State) : (setPrio c p s).mems = s.mems := by simp [setPrio]

@[simp ↓] theorem dmaClear_mems (s : State) : (dmaClear s).mems = s.mems := by simp [dmaClear]

/-! ### Machine/Modes.lean -/

@[simp ↓] theorem abandonTie_mems (c : Fin 12) (s : State) : (abandonTie c s).mems = s.mems := by
  unfold abandonTie
  repeat' first | (simp; done) | split | (dsimp only; split)

@[simp ↓] theorem abandonCloses_mems (s : State) : (abandonCloses s).mems = s.mems := by simp [abandonCloses]

@[simp ↓] theorem endOos_mems (st : Status) (s : State) : (endOos st s).mems = s.mems := by
  unfold endOos
  repeat' first | (simp; done) | split | (dsimp only; split)

@[simp ↓] theorem rollbackDom_mems (d : Fin 6) (s : State) : (rollbackDom d s).mems = s.mems := by simp [rollbackDom]

@[simp ↓] theorem rollbackOpen_mems (s : State) : (rollbackOpen s).mems = s.mems := by simp [rollbackOpen]

@[simp ↓] theorem setMode_mems (m : Mode) (s : State) : (setMode m s).mems = s.mems := by simp [setMode]

@[simp ↓] theorem endPending_mems (cause : Nat) (s : State) : (endPending cause s).mems = s.mems := by simp [endPending]

@[simp ↓] theorem degradedStops_mems (s : State) : (degradedStops s).mems = s.mems := by simp [degradedStops]

@[simp ↓] theorem portsSilent_mems (s : State) : (portsSilent s).mems = s.mems := by simp [portsSilent]

@[simp ↓] theorem trialFails_mems (s : State) : (trialFails s).mems = s.mems := by simp [trialFails]

@[simp ↓] theorem enterLockout_mems (s : State) : (enterLockout s).mems = s.mems := by
  unfold enterLockout
  repeat' first | (simp; done) | split | (dsimp only; split)

@[simp ↓] theorem safeState_mems (s : State) : (safeState s).mems = s.mems := by simp [safeState]

@[simp ↓] theorem latchStops_mems (code : Nat) (s : State) : (latchStops code s).mems = s.mems := by simp [latchStops]

@[simp ↓] theorem latchFault_mems (code : Fin 10) (s : State) : (latchFault code s).mems = s.mems := by simp [latchFault]

@[simp ↓] theorem confirmClosed_mems (n : Port) (s : State) : (confirmClosed n s).mems = s.mems := by simp [confirmClosed]

@[simp ↓] theorem oosStops_mems (set : BitVec 8) (s : State) : (oosStops set s).mems = s.mems := by simp [oosStops]

@[simp ↓] theorem oosDone_mems (s : State) : (oosDone s).mems = s.mems := by
  unfold oosDone
  repeat' first | (simp; done) | split | (dsimp only; split)

@[simp ↓] theorem confirmOpen_mems (n : Port) (s : State) : (confirmOpen n s).mems = s.mems := by simp [confirmOpen]

/-! ### Machine/Sec.lean -/

@[simp ↓] theorem secQueue_mems (op : BitVec 6) (port : BitVec 4) (key : BitVec 6) (len : BitVec 16) (s : State) :
    (secQueue op port key len s).mems = s.mems := by simp [secQueue]

@[simp ↓] theorem gcmAux_mems (a : Word) (s : State) : ((gcmAux a s).2.2).mems = s.mems := by simp [gcmAux]

@[simp ↓] theorem putKey_mems (k : BitVec 6) (x : HostKey) (s : State) : (putKey k x s).mems = s.mems := by simp [putKey]

@[simp] theorem secFail_mems (r : SecRes) (s : State) : (SecOut.fail r s).s.mems = s.mems := rfl
@[simp] theorem secGenkey_mems (o : SecOp) (s : State) : (secGenkey o s).s.mems = s.mems := by
  unfold secGenkey
  (repeat' (first | with_reducible rfl | (simp; done) | split | (dsimp only; split) | refine (forAll_mems _ _ _ (fun _ _ => ?_)).trans ?_ | (dsimp only; refine (forAll_mems _ _ _ (fun _ _ => ?_)).trans ?_)))
@[simp] theorem secAes_mems (o : SecOp) (src : List Byte) (k : HostKey) (s : State) : (secAes o src k s).s.mems = s.mems := by
  unfold secAes
  (repeat' (first | with_reducible rfl | (simp; done) | split | (dsimp only; split) | refine (forAll_mems _ _ _ (fun _ _ => ?_)).trans ?_ | (dsimp only; refine (forAll_mems _ _ _ (fun _ _ => ?_)).trans ?_)))
@[simp] theorem secEc_mems (o : SecOp) (src : List Byte) (k : HostKey) (s : State) : (secEc o src k s).s.mems = s.mems := by
  unfold secEc
  (repeat' (first | with_reducible rfl | (simp; done) | split | (dsimp only; split) | refine (forAll_mems _ _ _ (fun _ _ => ?_)).trans ?_ | (dsimp only; refine (forAll_mems _ _ _ (fun _ _ => ?_)).trans ?_)))
@[simp] theorem secVerify_mems (o : SecOp) (src : List Byte) (s : State) : (secVerify o src s).s.mems = s.mems := by
  unfold secVerify
  (repeat' (first | with_reducible rfl | (simp; done) | split | (dsimp only; split) | refine (forAll_mems _ _ _ (fun _ _ => ?_)).trans ?_ | (dsimp only; refine (forAll_mems _ _ _ (fun _ _ => ?_)).trans ?_)))
@[simp] theorem secImport_mems (o : SecOp) (src : List Byte) (s : State) : (secImport o src s).s.mems = s.mems := by
  unfold secImport
  (repeat' (first | with_reducible rfl | (simp; done) | split | (dsimp only; split) | refine (forAll_mems _ _ _ (fun _ _ => ?_)).trans ?_ | (dsimp only; refine (forAll_mems _ _ _ (fun _ _ => ?_)).trans ?_)))
@[simp] theorem secAttest_mems (src : List Byte) (s : State) : (secAttest src s).s.mems = s.mems := by
  unfold secAttest
  (repeat' (first | with_reducible rfl | (simp; done) | split | (dsimp only; split) | refine (forAll_mems _ _ _ (fun _ _ => ?_)).trans ?_ | (dsimp only; refine (forAll_mems _ _ _ (fun _ _ => ?_)).trans ?_)))
@[simp] theorem secRun_mems (o : SecOp) (s : State) : (secRun o s).s.mems = s.mems := by
  unfold secRun
  (repeat' (first | with_reducible rfl | (simp; done) | split | (dsimp only; split) | refine (forAll_mems _ _ _ (fun _ _ => ?_)).trans ?_ | (dsimp only; refine (forAll_mems _ _ _ (fun _ _ => ?_)).trans ?_)))

@[simp ↓] theorem auditTamper_mems (s : State) : (auditTamper s).mems = s.mems := by
  unfold auditTamper
  repeat' first | (simp; done) | split | (dsimp only; split)

@[simp ↓] theorem tamper_mems (det : Word) (s : State) : (tamper det s).mems = s.mems := by simp [tamper]

/-! ### Machine/Upd.lean -/

@[simp ↓] theorem updMissing_mems (a : Vector Word 16) (s : State) : ((updMissing a s).s).mems = s.mems := by simp [updMissing]

@[simp ↓] theorem updVerify_mems (a_ : Vector Word 16) (s : State) : ((updVerify a_ s).s).mems = s.mems := by simp [updVerify]

@[simp ↓] theorem verifyDone_mems (ok : Bool) (s : State) : (verifyDone ok s).mems = s.mems := by simp [verifyDone]

@[simp ↓] theorem updActivate_mems (a : Vector Word 16) (s : State) : ((updActivate a s).s).mems = s.mems := by simp [updActivate]

@[simp ↓] theorem updCancel_mems (a : Vector Word 16) (s : State) : ((updCancel a s).s).mems = s.mems := by simp [updCancel]

@[simp ↓] theorem updConfirm_mems (a_ : Vector Word 16) (s : State) : ((updConfirm a_ s).s).mems = s.mems := by simp [updConfirm]

@[simp ↓] theorem reject_mems (reason hostcode : Nat) (s : State) :
    (reject reason hostcode s).mems = s.mems := by simp [reject]

@[simp ↓] theorem updReport_mems (a : Vector Word 16) (s : State) : ((updReport a s).s).mems = s.mems := by simp [updReport]

@[simp ↓] theorem updStatus_mems (a_ : Vector Word 16) (s : State) : ((updStatus a_ s).s).mems = s.mems := by simp [updStatus]

@[simp ↓] theorem windowWarning_mems (s : State) : (windowWarning s).mems = s.mems := by simp [windowWarning]

@[simp ↓] theorem windowExpiry_mems (s : State) : (windowExpiry s).mems = s.mems := by simp [windowExpiry]

@[simp ↓] theorem setOpen_mems (a_ : Vector Word 16) (s : State) : ((setOpen a_ s).s).mems = s.mems := by simp [setOpen]

@[simp ↓] theorem keyRotate_mems (a : Vector Word 16) (s : State) : ((keyRotate a s).s).mems = s.mems := by simp [keyRotate]

@[simp ↓] theorem updClear_mems (s : State) : (updClear s).mems = s.mems := by simp [updClear]

/-! ### Machine/Display.lean -/

@[simp ↓] theorem railStep_mems (s : State) : (railStep s).mems = s.mems := by
  unfold railStep
  repeat' first | (simp; done) | split | (dsimp only; split)

@[simp ↓] theorem lowerRails_mems (s : State) : (lowerRails s).mems = s.mems := by
  unfold lowerRails
  repeat' first | (simp; done) | split | (dsimp only; split)

@[simp ↓] theorem fetchTarget_mems (r : Fin 16) (u : RunUpd) (s : State) : (fetchTarget r u s).2.mems = s.mems := by
  unfold fetchTarget
  repeat' first | (simp; done) | split | (dsimp only; split)

@[simp ↓] theorem beginUpdate_mems (r : Fin 16) (u : RunUpd) (s : State) :
    (beginUpdate r u s).mems = s.mems := by simp [beginUpdate]

@[simp ↓] theorem noteTemp_mems (s : State) : (noteTemp s).mems = s.mems := by simp [noteTemp]

@[simp ↓] theorem raiseRails_mems (s : State) : (raiseRails s).mems = s.mems := by simp [raiseRails]

@[simp ↓] theorem startPending_mems (r : Fin 16) (q : PendUpd) (band : Nat) (s : State) :
    (startPending r q band s).mems = s.mems := by simp [startPending]

@[simp ↓] theorem updateStart_mems (slot : Fin 4) (s : State) : (updateStart slot s).mems = s.mems := by
  unfold updateStart
  repeat' first | (simp; done) | split | (dsimp only; split)

@[simp ↓] theorem setPermit_mems (on : Bool) (s : State) : (setPermit on s).mems = s.mems := by
  unfold setPermit
  repeat' first | (simp; done) | split | (dsimp only; split)

@[simp ↓] theorem permitCheck_mems (s : State) : (permitCheck s).mems = s.mems := by simp [permitCheck]

@[simp ↓] theorem finishUpdate_mems (r : Fin 16) (u : RunUpd) (s : State) :
    (finishUpdate r u s).mems = s.mems := by simp [finishUpdate]

@[simp ↓] theorem followLater_mems (r : Fin 16) (m : BitVec 3) (u : RunUpd) (s : State) :
    (followLater r m u s).mems = s.mems := by simp [followLater]

@[simp ↓] theorem updateEnd_mems (r : Fin 16) (s : State) : (updateEnd r s).mems = s.mems := by
  unfold updateEnd
  repeat' first | (simp; done) | split | (dsimp only; split)

@[simp ↓] theorem updateRequest_mems (r : Fin 16) (mode : BitVec 3) (s : State) :
    (updateRequest r mode s).mems = s.mems := by simp [updateRequest]

@[simp ↓] theorem queueRedraw_mems (s : State) (r : Fin 16) : (queueRedraw s r).mems = s.mems := by simp [queueRedraw]

@[simp ↓] theorem queueRedraws_mems (s : State) : (queueRedraws s).mems = s.mems := by simp [queueRedraws]

@[simp ↓] theorem railFault_mems (rail : Fin 5) (s : State) : (railFault rail s).mems = s.mems := by simp [railFault]

@[simp ↓] theorem railRetry_mems (s : State) : (railRetry s).mems = s.mems := by simp [railRetry]

@[simp ↓] theorem dispClrcnt_mems (s : State) : (dispClrcnt s).mems = s.mems := by simp [dispClrcnt]

/-! ### Machine/SafeFunctions.lean -/

@[simp ↓] theorem pairTick_mems (j : Fin 8) (s : State) : (pairTick j s).mems = s.mems := by simp [pairTick]

@[simp ↓] theorem connTick_mems (k : Fin 16) (s : State) : (connTick k s).mems = s.mems := by simp [connTick]

@[simp ↓] theorem tickInputs_mems (lv : BitVec 16) (lorst : Bool) (s : State) :
    (tickInputs lv lorst s).mems = s.mems := by simp [tickInputs]

@[simp ↓] theorem tickMeans_mems (s : State) : (tickMeans s).mems = s.mems := by simp [tickMeans]

@[simp ↓] theorem tickChecks_mems (spDiff rcBad : Bool) (s : State) :
    (tickChecks spDiff rcBad s).mems = s.mems := by simp [tickChecks]

@[simp ↓] theorem sf01_mems (n : Port) (s : State) : (sf01 n s).mems = s.mems := by simp [sf01]

@[simp ↓] theorem sf07_mems (n : Port) (s : State) : (sf07 n s).mems = s.mems := by
  unfold sf07
  repeat' first | (simp; done) | split | (dsimp only; split)

@[simp ↓] theorem outCounts_mems (n : Port) (s : State) : (outCounts n s).mems = s.mems := by simp [outCounts]

@[simp ↓] theorem pilotFault_mems (n : Port) (s : State) : (pilotFault n s).mems = s.mems := by simp [pilotFault]

@[simp ↓] theorem sf09_mems (n : Port) (s : State) : (sf09 n s).mems = s.mems := by
  unfold sf09
  repeat' first | (simp; done) | split | (dsimp only; split)

@[simp ↓] theorem outTick_mems (n : Port) (s : State) : (outTick n s).mems = s.mems := by simp [outTick]

@[simp ↓] theorem setImd_mems (g : Fin 6) (st : ImdState) (s : State) : (setImd g st s).mems = s.mems := by simp [setImd]

@[simp ↓] theorem imdRestart_mems (g : Fin 6) (s : State) : (imdRestart g s).mems = s.mems := by simp [imdRestart]

@[simp ↓] theorem preCheck_mems (g : Fin 6) (s : State) : (preCheck g s).mems = s.mems := by simp [preCheck]

@[simp ↓] theorem imdSync_mems (s : State) : (imdSync s).mems = s.mems := by simp [imdSync]

@[simp ↓] theorem askPreCheck_mems (g : Fin 6) (s : State) : (askPreCheck g s).mems = s.mems := by simp [askPreCheck]

@[simp ↓] theorem imdTick_mems (g : Fin 6) (s : State) : (imdTick g s).mems = s.mems := by simp [imdTick]

@[simp ↓] theorem rampTick_mems (n : Port) (s : State) : (rampTick n s).mems = s.mems := by
  unfold rampTick
  repeat' first | (simp; done) | split | (dsimp only; split)

@[simp ↓] theorem weldTick_mems (c : Fin 12) (s : State) : (weldTick c s).mems = s.mems := by
  unfold weldTick
  repeat' first | (simp; done) | split | (dsimp only; split)

@[simp ↓] theorem prepareTie_mems (c : Fin 12) (s : State) : (prepareTie c s).mems = s.mems := by
  unfold prepareTie
  repeat' first | (simp; done) | split | (dsimp only; split)

@[simp ↓] theorem fallBack_mems (c : Fin 12) (s : State) : (fallBack c s).mems = s.mems := by simp [fallBack]

@[simp ↓] theorem closeTick_mems (c : Fin 12) (s : State) : (closeTick c s).mems = s.mems := by
  unfold closeTick
  repeat' first | (simp; done) | split | (dsimp only; split)

@[simp ↓] theorem tieOpenReq_mems (c : Fin 12) (commit : Bool) (s : State) :
    (tieOpenReq c commit s).mems = s.mems := by simp [tieOpenReq]

@[simp ↓] theorem autoOpen_mems (s : State) : (autoOpen s).mems = s.mems := by simp [autoOpen]

@[simp ↓] theorem openTick_mems (c : Fin 12) (s : State) : (openTick c s).mems = s.mems := by
  unfold openTick
  repeat' first | (simp; done) | split | (dsimp only; split)

@[simp ↓] theorem enqueue_mems (c : Fin 12) (s : State) : (enqueue c s).mems = s.mems := by simp [enqueue]

@[simp ↓] theorem numberReq_mems (c : Fin 12) (s : State) : (numberReq c s).mems = s.mems := by simp [numberReq]

@[simp] theorem serveQueue_mems (f : Nat) (s : State) : (serveQueue f s).mems = s.mems := by
  induction f generalizing s with
  | zero => rfl
  | succ f ih =>
    unfold serveQueue
    (repeat' (first | with_reducible rfl | (simp [ih]; done) | split | (dsimp only; split) | refine (forAll_mems _ _ _ (fun _ _ => ?_)).trans ?_ | (dsimp only; refine (forAll_mems _ _ _ (fun _ _ => ?_)).trans ?_)))

/-! ### Machine/SafeCoils.lean -/

@[simp ↓] theorem announceExpiry_mems (c : Fin 12) (s : State) : (announceExpiry c s).mems = s.mems := by
  unfold announceExpiry
  repeat' first | (simp; done) | split | (dsimp only; split)

@[simp ↓] theorem closeMet_mems (c : Fin 12) (s : State) : (closeMet c s).mems = s.mems := by
  unfold closeMet
  repeat' first | (simp; done) | split | (dsimp only; split)

@[simp ↓] theorem pullInEnd_mems (c : Fin 12) (s : State) : (pullInEnd c s).mems = s.mems := by simp [pullInEnd]

@[simp ↓] theorem coilFault_mems (c : Fin 12) (s : State) : (coilFault c s).mems = s.mems := by simp [coilFault]

@[simp ↓] theorem pulseTest_mems (c : Fin 12) (high pass : Bool) (s : State) :
    (pulseTest c high pass s).mems = s.mems := by simp [pulseTest]

@[simp ↓] theorem lockoutRetest_mems (c : Fin 12) (high pass : Bool) (s : State) :
    (lockoutRetest c high pass s).mems = s.mems := by simp [lockoutRetest]

@[simp ↓] theorem pulseInput_mems (i : Fin 16) (low : Bool) (s : State) :
    (pulseInput i low s).mems = s.mems := by simp [pulseInput]

@[simp ↓] theorem testPulse_mems (b : Bool) (low : BitVec 16) (s : State) :
    (testPulse b low s).mems = s.mems := by simp [testPulse]

@[simp ↓] theorem discrepancy_mems (j : Fin 8) (s : State) : (discrepancy j s).mems = s.mems := by simp [discrepancy]

@[simp ↓] theorem rearmEdge_mems (s : State) : (rearmEdge s).mems = s.mems := by
  unfold rearmEdge
  repeat' first | (simp; done) | split | (dsimp only; split)

@[simp ↓] theorem weld_mems (c : Fin 12) (s : State) : (weld c s).mems = s.mems := by simp [weld]

@[simp ↓] theorem splitCheck_mems (g : Fin 6) (s : State) : (splitCheck g s).mems = s.mems := by simp [splitCheck]

@[simp ↓] theorem openConfirmed_mems (c : Fin 12) (s : State) : (openConfirmed c s).mems = s.mems := by simp [openConfirmed]

@[simp ↓] theorem closedConfirmed_mems (c : Fin 12) (s : State) : (closedConfirmed c s).mems = s.mems := by simp [closedConfirmed]

@[simp ↓] theorem dropOut_mems (c : Fin 12) (s : State) : (dropOut c s).mems = s.mems := by simp [dropOut]

@[simp ↓] theorem fbCheck_mems (c : Fin 12) (s : State) : (fbCheck c s).mems = s.mems := by
  unfold fbCheck
  repeat' first | (simp; done) | split | (dsimp only; split)

@[simp ↓] theorem feedbackChange_mems (i : Fin 16) (s : State) : (feedbackChange i s).mems = s.mems := by simp [feedbackChange]

@[simp ↓] theorem tieFail_mems (c : Fin 12) (s : State) : (tieFail c s).mems = s.mems := by simp [tieFail]

@[simp ↓] theorem fbCloseTimeout_mems (c : Fin 12) (s : State) : (fbCloseTimeout c s).mems = s.mems := by simp [fbCloseTimeout]

@[simp ↓] theorem fbOpenTimeout_mems (c : Fin 12) (s : State) : (fbOpenTimeout c s).mems = s.mems := by simp [fbOpenTimeout]

@[simp ↓] theorem weldWindowEnd_mems (c : Fin 12) (s : State) : (weldWindowEnd c s).mems = s.mems := by
  unfold weldWindowEnd
  repeat' first | (simp; done) | split | (dsimp only; split)

@[simp ↓] theorem tieTimeout_mems (c : Fin 12) (s : State) : (tieTimeout c s).mems = s.mems := by
  unfold tieTimeout
  repeat' first | (simp; done) | split | (dsimp only; split)

@[simp ↓] theorem grantTimeout_mems (c : Fin 12) (s : State) : (grantTimeout c s).mems = s.mems := by simp [grantTimeout]

/-! ### Machine/SafeMonitors.lean -/

@[simp ↓] theorem nextDwell_mems (g : Fin 6) (s : State) : (nextDwell g s).mems = s.mems := by simp [nextDwell]

@[simp ↓] theorem imdInvalid_mems (g : Fin 6) (d p : Dwell) (s : State) :
    (imdInvalid g d p s).mems = s.mems := by simp [imdInvalid]

@[simp ↓] theorem imdValue_mems (g : Fin 6) (r : Rat) (s : State) : (imdValue g r s).mems = s.mems := by
  unfold imdValue
  repeat' first | (simp; done) | split | (dsimp only; split)

@[simp ↓] theorem imdDwellEnd_mems (g : Fin 6) (s : State) : (imdDwellEnd g s).mems = s.mems := by
  unfold imdDwellEnd
  repeat' first | (simp; done) | split | (dsimp only; split)

@[simp ↓] theorem imdUnknown_mems (g : Fin 6) (s : State) : (imdUnknown g s).mems = s.mems := by simp [imdUnknown]

@[simp ↓] theorem tempStale_mems (n : Port) (k : Fin 2) (s : State) : (tempStale n k s).mems = s.mems := by simp [tempStale]

@[simp ↓] theorem hoursLimit_mems (s : State) : (hoursLimit s).mems = s.mems := by simp [hoursLimit]

/-! ### Machine/SafeFast.lean -/

@[simp ↓] theorem fastComps_mems (g : Fin 2) (n : Port) (s : State) : (fastComps g n s).mems = s.mems := by
  unfold fastComps
  repeat' first | (simp; done) | split | (dsimp only; split)

@[simp ↓] theorem fastTrip_mems (n : Port) (s : State) : (fastTrip n s).mems = s.mems := by
  unfold fastTrip
  repeat' first | (simp; done) | split | (dsimp only; split)

@[simp ↓] theorem fastOutlet_mems (g : Fin 2) (n : Port) (s : State) : (fastOutlet g n s).mems = s.mems := by simp [fastOutlet]

/-! ### Machine/SysCtl.lean -/

@[simp ↓] theorem thermal1_mems (s : State) : (thermal1 s).mems = s.mems := by simp [thermal1]

@[simp ↓] theorem degcfgWrite_mems (v : Word) (s : State) : (degcfgWrite v s).mems = s.mems := by simp [degcfgWrite]

@[simp ↓] theorem vcoreWrite_mems (v : Word) (s : State) : (vcoreWrite v s).mems = s.mems := by simp [vcoreWrite]

@[simp ↓] theorem capMeasured_mems (t : Nat) (vsup : BitVec 12) (s : State) :
    (capMeasured t vsup s).mems = s.mems := by simp [capMeasured]

@[simp ↓] theorem holdReady_mems (vsup vhold : BitVec 12) (s : State) :
    (holdReady vsup vhold s).mems = s.mems := by simp [holdReady]

@[simp ↓] theorem coreResume_mems (s : State) : (coreResume s).mems = s.mems := by simp [coreResume]

@[simp ↓] theorem meshPar_mems (req : Nat) (a : Word) (onResponse : Bool) (s : State) :
    (meshPar req a onResponse s).mems = s.mems := by simp [meshPar]

@[simp ↓] theorem meshClear_mems (s : State) : (meshClear s).mems = s.mems := by simp [meshClear]

/-! ### Machine/SafeReset.lean -/

@[simp ↓] theorem slogSelftest_mems (step : Byte) (s : State) : (slogSelftest step s).mems = s.mems := by simp [slogSelftest]

@[simp ↓] theorem restartSelftest_mems (step : Byte) (s : State) : (restartSelftest step s).mems = s.mems := by simp [restartSelftest]

@[simp ↓] theorem tieSplit_mems (ties : List (Fin 12)) (s : State) : (tieSplit ties s).mems = s.mems := by simp [tieSplit]

/-! ### Machine/SafeCalls.lean -/

@[simp ↓] theorem safeBody_mems (inLockout outlet : Bool) (body : Vector Word 16 → State → Reply) (a : Vector Word 16) (s : State) (hbody : ∀ x0 s, ((body x0 s).s).mems = s.mems) :
    ((safeBody inLockout outlet body a s).s).mems = s.mems := by simp [safeBody, hbody]

@[simp ↓] theorem safeCall_mems (cmd : Nat) (inLockout outlet : Bool) (c : Call) (body : Vector Word 16 → State → Reply) (s : State) (hbody : ∀ x0 s, ((body x0 s).s).mems = s.mems) :
    (safeCall cmd inLockout outlet c body s).mems = s.mems := by simp [safeCall, hbody]

@[simp ↓] theorem startClose_mems (n : Port) (c : Fin 12) (vEv iEv : Nat) (s : State) :
    (startClose n c vEv iEv s).mems = s.mems := by
  unfold startClose
  repeat' first | (simp; done) | split | (dsimp only; split)

@[simp ↓] theorem closeReq_mems (a : Vector Word 16) (s : State) : ((closeReq a s).s).mems = s.mems := by
  unfold closeReq
  repeat' first | (simp; done) | split | (dsimp only; split)

@[simp ↓] theorem stopCall_mems (a : Vector Word 16) (s : State) : ((stopCall a s).s).mems = s.mems := by simp [stopCall]

@[simp ↓] theorem setLimits_mems (a : Vector Word 16) (s : State) : ((setLimits a s).s).mems = s.mems := by
  unfold setLimits
  repeat' first | (simp; done) | split | (dsimp only; split)

@[simp ↓] theorem rearmPort_mems (n : Port) (s : State) : (rearmPort n s).mems = s.mems := by
  unfold rearmPort
  repeat' first | (simp; done) | split | (dsimp only; split)

@[simp ↓] theorem rearmPorts_mems (mask : Nat) (s : State) : ((rearmPorts mask s).2.2).mems = s.mems := by simp [rearmPorts]

@[simp ↓] theorem rearmCall_mems (a : Vector Word 16) (s : State) : ((rearmCall a s).s).mems = s.mems := by simp [rearmCall]

@[simp ↓] theorem setOos_mems (a : Vector Word 16) (s : State) : ((setOos a s).s).mems = s.mems := by simp [setOos]

@[simp ↓] theorem contactorReplaced_mems (a : Vector Word 16) (s : State) :
    ((contactorReplaced a s).s).mems = s.mems := by
  unfold contactorReplaced
  repeat' first | (simp; done) | split | (dsimp only; split)

@[simp ↓] theorem readChkval_mems (a_ : Vector Word 16) (s : State) : ((readChkval a_ s).s).mems = s.mems := by simp [readChkval]

@[simp ↓] theorem linkKeyLoad_mems (a : Vector Word 16) (s : State) : ((linkKeyLoad a s).s).mems = s.mems := by
  unfold linkKeyLoad
  repeat' first | (simp; done) | split | (dsimp only; split)

@[simp ↓] theorem tripTest_mems (pass : BitVec 4) (a : Vector Word 16) (s : State) :
    ((tripTest pass a s).s).mems = s.mems := by
  unfold tripTest
  repeat' first | (simp; done) | split | (dsimp only; split)

@[simp ↓] theorem readSlog_mems (a : Vector Word 16) (s : State) : ((readSlog a s).s).mems = s.mems := by simp [readSlog]

@[simp ↓] theorem slogRelease_mems (a : Vector Word 16) (s : State) : ((slogRelease a s).s).mems = s.mems := by
  unfold slogRelease
  repeat' first | (simp; done) | split | (dsimp only; split)

@[simp ↓] theorem confirmResult_mems (source : Nat) (exact : Bool) (value : Word) (s : State) :
    (confirmResult source exact value s).mems = s.mems := by simp [confirmResult]

@[simp ↓] theorem entryEnd_mems (e : Entry) (s : State) : (entryEnd e s).mems = s.mems := by simp [entryEnd]

@[simp ↓] theorem confirmKey_mems (e : Entry) (k : BitVec 4) (s : State) :
    (confirmKey e k s).mems = s.mems := by simp [confirmKey]

/-! ### Machine/SafeLink.lean -/

@[simp ↓] theorem linkReport_mems (k : Fin 16) (s : State) : (linkReport k s).mems = s.mems := by simp [linkReport]

@[simp ↓] theorem setLink_mems (k : Fin 16) (st : LinkState) (s : State) : (setLink k st s).mems = s.mems := by simp [setLink]

@[simp ↓] theorem linkDemand_mems (n : Port) (cat : Nat) (why : Why) (s : State) :
    (linkDemand n cat why s).mems = s.mems := by simp [linkDemand]

@[simp ↓] theorem linkFail_mems (k : Fin 16) (s : State) : (linkFail k s).mems = s.mems := by simp [linkFail]

@[simp ↓] theorem linkConnect_mems (k : Fin 16) (s : State) : (linkConnect k s).mems = s.mems := by simp [linkConnect]

@[simp ↓] theorem sendPdu_mems (k : Fin 16) (ack : Bool) (payload : List Byte) (s : State) :
    (sendPdu k ack payload s).mems = s.mems := by simp [sendPdu]

@[simp ↓] theorem sendConnect_mems (k : Fin 16) (ack : Bool) (s : State) :
    (sendConnect k ack s).mems = s.mems := by simp [sendConnect]

@[simp ↓] theorem sendData_mems (k : Fin 16) (s : State) : (sendData k s).mems = s.mems := by simp [sendData]

@[simp ↓] theorem linkCycle_mems (k : Fin 16) (s : State) : (linkCycle k s).mems = s.mems := by
  unfold linkCycle
  repeat' first | (simp; done) | split | (dsimp only; split)

@[simp ↓] theorem linkWatchdog_mems (k : Fin 16) (s : State) : (linkWatchdog k s).mems = s.mems := by simp [linkWatchdog]

@[simp ↓] theorem dualMiss_mems (k : Fin 16) (x : Copy) (s : State) : (dualMiss k x s).mems = s.mems := by simp [dualMiss]

@[simp ↓] theorem dualPair_mems (k : Fin 16) (x : Copy) (s : State) : (dualPair k x s).mems = s.mems := by simp [dualPair]

@[simp ↓] theorem dualExpiry_mems (k : Fin 16) (s : State) : (dualExpiry k s).mems = s.mems := by
  unfold dualExpiry
  repeat' first | (simp; done) | split | (dsimp only; split)

@[simp ↓] theorem dualFirst_mems (k : Fin 16) (p : LinkPdu) (l : List Byte) (s : State) :
    (dualFirst k p l s).mems = s.mems := by simp [dualFirst]

@[simp ↓] theorem dualSecond_mems (k : Fin 16) (x : Copy) (l : List Byte) (s : State) :
    (dualSecond k x l s).mems = s.mems := by simp [dualSecond]

@[simp ↓] theorem acceptPdu_mems (k : Fin 16) (p : LinkPdu) (s : State) :
    ((acceptPdu k p s).2).mems = s.mems := by
  unfold acceptPdu
  repeat' first | (simp; done) | split | (dsimp only; split)

@[simp ↓] theorem firstCopy_mems (ty : Byte) (k : Fin 16) (p : LinkPdu) (conn open_ : Fin 16 → State → State) (s : State)
    (hconn : ∀ x0 s, (conn x0 s).mems = s.mems) (hopen_ : ∀ x0 s, (open_ x0 s).mems = s.mems) :
    (firstCopy ty k p conn open_ s).mems = s.mems := by
  unfold firstCopy
  repeat' first | (simp [hconn, hopen_]; done) | split | (dsimp only; split)

@[simp ↓] theorem receivePdu_mems (ty : Byte) (p : LinkPdu) (conn open_ : Fin 16 → State → State) (s : State) (hconn : ∀ x0 s, (conn x0 s).mems = s.mems) (hopen_ : ∀ x0 s, (open_ x0 s).mems = s.mems) :
    (receivePdu ty p conn open_ s).mems = s.mems := by
  unfold receivePdu
  repeat' first | (simp [hconn, hopen_]; done) | split | (dsimp only; split)

@[simp ↓] theorem takeSeq_mems (p : LinkPdu) (k : Fin 16) (s : State) : (takeSeq p k s).mems = s.mems := by simp [takeSeq]

@[simp ↓] theorem onConnect_mems (p : LinkPdu) (k : Fin 16) (s : State) : (onConnect p k s).mems = s.mems := by simp [onConnect]

@[simp ↓] theorem onData_mems (p : LinkPdu) (k : Fin 16) (s : State) : (onData p k s).mems = s.mems := by simp [onData]

@[simp ↓] theorem onPress_mems (k : Fin 16) (s : State) : (onPress k s).mems = s.mems := by simp [onPress]

@[simp ↓] theorem onRearm_mems (p : LinkPdu) (k : Fin 16) (s : State) : (onRearm p k s).mems = s.mems := by simp [onRearm]

@[simp ↓] theorem onConfirm_mems (p : LinkPdu) (k : Fin 16) (s : State) : (onConfirm p k s).mems = s.mems := by simp [onConfirm]

/-! ### Machine/Thl.lean -/

@[simp ↓] theorem slotStart_mems (cmd : SlotCmd) (allowed : Bool) (k : Fin 2) (s : State) :
    (slotStart cmd allowed k s).mems = s.mems := by simp [slotStart]

@[simp ↓] theorem slotWriteCmd_mems (k : Fin 2) (s : State) : (slotWriteCmd k s).mems = s.mems := by simp [slotWriteCmd]

@[simp ↓] theorem slotSwitchCmd_mems (k : Fin 2) (s : State) : (slotSwitchCmd k s).mems = s.mems := by simp [slotSwitchCmd]

@[simp ↓] theorem State.freeBytes_mems (s : State) (n : Nat) : ((State.freeBytes s n).2).mems = s.mems := by simp [State.freeBytes]

@[simp ↓] theorem slotVerified_mems (k : Fin 2) (ok : Bool) (s : State) :
    ((slotVerified k ok s).1).mems = s.mems := by simp [slotVerified]

@[simp ↓] theorem stageEnd_mems (r : Nat) (c : List Byte) (s : State) : (stageEnd r c s).mems = s.mems := by simp [stageEnd]

@[simp ↓] theorem prStage_mems (s : State) : (prStage s).mems = s.mems := by simp [prStage]

@[simp ↓] theorem stagingDone_mems (s : State) : (stagingDone s).mems = s.mems := by simp [stagingDone]

@[simp ↓] theorem prDiscard_mems (s : State) : (prDiscard s).mems = s.mems := by simp [prDiscard]

@[simp ↓] theorem State.modPart_mems (s : State) (p : Fin 8) (f : PartCnt → PartCnt) :
    (State.modPart s p f).mems = s.mems := by simp [State.modPart]

@[simp ↓] theorem scrubCorrect_mems (p : Fin 8) (s : State) : (scrubCorrect p s).mems = s.mems := by simp [scrubCorrect]

@[simp ↓] theorem configUncorrectable_mems (p : Fin 8) (chans : BitVec 32) (s : State) :
    (configUncorrectable p chans s).mems = s.mems := by simp [configUncorrectable]

@[simp ↓] theorem fabricParity_mems (p : Fin 8) (s : State) : (fabricParity p s).mems = s.mems := by simp [fabricParity]

@[simp ↓] theorem thlClear_mems (s : State) : (thlClear s).mems = s.mems := by simp [thlClear]

@[simp ↓] theorem gSignal_mems (g : GSignal) (s : State) : (gSignal g s).mems = s.mems := by
  unfold gSignal
  repeat' first | (simp; done) | split | (dsimp only; split)

/-! ### Machine/Txn.lean -/

@[simp ↓] theorem place_mems (d : Fin 6) (a : Nat) (v : Word) (s : State) : (place d a v s).mems = s.mems := by
  unfold place
  repeat' first | (simp; done) | split | (dsimp only; split)

@[simp ↓] theorem rwtWrite_mems (a : Nat) (v : Word) (s : State) : (rwtWrite a v s).mems = s.mems := by
  unfold rwtWrite
  repeat' first | (simp; done) | split | (dsimp only; split)

@[simp ↓] theorem txnBody_mems (body : Vector Word 16 → State → Reply) (a : Vector Word 16) (s : State) (hbody : ∀ x0 s, ((body x0 s).s).mems = s.mems) :
    ((txnBody body a s).s).mems = s.mems := by simp [txnBody, hbody]

@[simp ↓] theorem txnBegin_mems (a : Vector Word 16) (s : State) : ((txnBegin a s).s).mems = s.mems := by
  unfold txnBegin
  repeat' first | (simp; done) | split | (dsimp only; split)

@[simp] theorem txnNamed_mems (s : State) (a : Vector Word 16) (f : Fin 6 → Reply)
    (hf : ∀ d, (f d).s.mems = s.mems) : (txnNamed s a f).s.mems = s.mems := by
  unfold txnNamed
  split
  · rfl
  · exact checks_mems _ _ _ (hf _)

@[simp ↓] theorem txnCommit_mems (a : Vector Word 16) (s : State) : ((txnCommit a s).s).mems = s.mems := by simp [txnCommit]

@[simp ↓] theorem txnRollback_mems (a : Vector Word 16) (s : State) : ((txnRollback a s).s).mems = s.mems := by simp [txnRollback]

@[simp ↓] theorem txnRenew_mems (a : Vector Word 16) (s : State) : ((txnRenew a s).s).mems = s.mems := by simp [txnRenew]

@[simp ↓] theorem txnPut_mems (a : Vector Word 16) (s : State) : ((txnPut a s).s).mems = s.mems := by
  unfold txnPut
  repeat' first | (simp; done) | split | (dsimp only; split)

@[simp ↓] theorem leaseExpiry_mems (d : Fin 6) (s : State) : (leaseExpiry d s).mems = s.mems := by simp [leaseExpiry]

@[simp ↓] theorem journalChanges_mems (l : List (Nat × Word × Word)) (s : State) :
    (journalChanges l s).mems = s.mems := by simp [journalChanges]

@[simp ↓] theorem auditChanges_mems (window : Nat) (reason : Byte) (l : List (Nat × Word × Word)) (s : State) :
    (auditChanges window reason l s).mems = s.mems := by simp [auditChanges]

@[simp ↓] theorem commitSlots_mems (l : List (Nat × Word × Word)) (s : State) :
    (commitSlots l s).mems = s.mems := by simp [commitSlots]

@[simp ↓] theorem commitChannels_mems (l : List (Nat × Word × Word)) (s : State) :
    (commitChannels l s).mems = s.mems := by simp [commitChannels]

@[simp ↓] theorem commitMeters_mems (reason : Byte) (l : List (Nat × Word × Word)) (s : State) :
    (commitMeters reason l s).mems = s.mems := by simp [commitMeters]

@[simp ↓] theorem commitMet_mems (reason : Byte) (l : List (Nat × Word × Word)) (s : State) :
    (commitMet reason l s).mems = s.mems := by simp [commitMet]

@[simp ↓] theorem commitTokenKeys_mems (reason : Byte) (ks : List (Nat × Option (BitVec 128))) (s : State) :
    (commitTokenKeys reason ks s).mems = s.mems := by simp [commitTokenKeys]

@[simp ↓] theorem commitBill_mems (reason : Byte) (ks : List (Nat × Option (BitVec 128))) (l : List (Nat × Word × Word)) (s : State) :
    (commitBill reason ks l s).mems = s.mems := by simp [commitBill]

@[simp ↓] theorem commitSafe_mems (ks : List (Nat × Option (BitVec 128))) (l : List (Nat × Word × Word)) (s : State) :
    (commitSafe ks l s).mems = s.mems := by simp [commitSafe]

@[simp ↓] theorem tieCloseReq_mems (c : Fin 12) (s : State) : (tieCloseReq c s).mems = s.mems := by simp [tieCloseReq]

@[simp ↓] theorem siteSequence_mems (was : List (Fin 48 × Nat)) (s : State) :
    (siteSequence was s).mems = s.mems := by simp [siteSequence]

@[simp ↓] theorem commitSite_mems (l : List (Nat × Word × Word)) (s : State) :
    (commitSite l s).mems = s.mems := by simp [commitSite]

@[simp ↓] theorem frontLight_mems (old : Nat) (s : State) : (frontLight old s).mems = s.mems := by simp [frontLight]

@[simp ↓] theorem endCommit_mems (d : Fin 6) (st : Status) (s : State) : (endCommit d st s).mems = s.mems := by
  unfold endCommit
  repeat' first | (simp; done) | split | (dsimp only; split)

@[simp ↓] theorem txnClear_mems (s : State) : (txnClear s).mems = s.mems := by simp [txnClear]

@[simp ↓] theorem compatWrite_mems (i : Fin 28) (req : BitVec 16) (s : State) :
    (compatWrite i req s).mems = s.mems := by
  unfold compatWrite
  repeat' first | (simp; done) | split | (dsimp only; split)

/-! ### Machine/Keys.lean -/

@[simp ↓] theorem freeKey_mems (k : BitVec 4) (s : State) : (freeKey k s).mems = s.mems := by simp [freeKey]

@[simp ↓] theorem keyPress_mems (row col : Fin 4) (twin : Bool) (s : State) : (keyPress row col twin s).mems = s.mems := by
  unfold keyPress
  repeat' first | (simp; done) | split | (dsimp only; split)

@[simp ↓] theorem keyFifoRead_mems (s : State) : (keyFifoRead s).mems = s.mems := by
  unfold keyFifoRead
  repeat' first | (simp; done) | split | (dsimp only; split)

/-! ### Machine/RegRead.lean -/

@[simp ↓] theorem multiWrap_mems (s : State) (req a : Nat) (m : MeterId) (exp : Bool) :
    ((multiWrap s req a m exp).2).mems = s.mems := by simp [multiWrap]

@[simp ↓] theorem rosLatch_mems (req a : Nat) (k : BlkKind) (n base o : Nat) (s : State) :
    (rosLatch req a k n base o s).mems = s.mems := by
  unfold rosLatch
  repeat' first | (simp; done) | split | (dsimp only; split)

@[simp ↓] theorem regRead_mems (req a : Nat) (s : State) : (regRead req a s).mems = s.mems := by
  unfold regRead
  repeat' first | (simp; done) | split | (dsimp only; split)

/-! ### Machine/EthMac.lean -/

@[simp ↓] theorem ethStore_mems (m : Fin 2) (f : List Byte) (s : State) : (ethStore m f s).mems = s.mems := by simp [ethStore]

@[simp ↓] theorem ethTransmit_mems (m : Fin 2) (s : State) : (ethTransmit m s).mems = s.mems := by
  unfold ethTransmit
  repeat' first | (simp; done) | split | (dsimp only; split)

@[simp ↓] theorem ethLink_mems (m : Fin 2) (up : Bool) (speed : Fin 3) (full : Bool) (s : State) :
    (ethLink m up speed full s).mems = s.mems := by simp [ethLink]

@[simp ↓] theorem ethClrcnt_mems (m : Fin 2) (s : State) : (ethClrcnt m s).mems = s.mems := by simp [ethClrcnt]

/-! ### Machine/TimeSet.lean -/

@[simp ↓] theorem setLegal_mems (ms : Nat) (s : State) : (setLegal ms s).mems = s.mems := by simp [setLegal]

@[simp ↓] theorem adjustSmall_mems (old : Nat) (adj : Int) (new : Nat) (reason : Nat) (s : State) :
    (adjustSmall old adj new reason s).mems = s.mems := by simp [adjustSmall]

@[simp ↓] theorem adjustNote_mems (adj : Int) (reason : Nat) (s : State) :
    (adjustNote adj reason s).mems = s.mems := by simp [adjustNote]

@[simp ↓] theorem adjustBig_mems (old : Nat) (adj : Int) (new : Nat) (reason : Nat) (s : State) :
    (adjustBig old adj new reason s).mems = s.mems := by simp [adjustBig]

@[simp ↓] theorem adjustFirst_mems (adj : Int) (new : Nat) (reason : Nat) (s : State) :
    (adjustFirst adj new reason s).mems = s.mems := by simp [adjustFirst]

@[simp] theorem setTime_mems (a : Vector Word 16) (s : State) : (setTime a s).s.mems = s.mems := by
  unfold setTime
  refine checks_mems _ _ _ ?_
  (repeat' (first | with_reducible rfl | (simp; done) | split | (dsimp only; split) | refine (forAll_mems _ _ _ (fun _ _ => ?_)).trans ?_ | (dsimp only; refine (forAll_mems _ _ _ (fun _ _ => ?_)).trans ?_)))

@[simp ↓] theorem readTime_mems (a_ : Vector Word 16) (s : State) : ((readTime a_ s).s).mems = s.mems := by simp [readTime]

@[simp ↓] theorem rtcTrim_mems (a : Vector Word 16) (s : State) : ((rtcTrim a s).s).mems = s.mems := by simp [rtcTrim]

/-! ### Machine/RegWrite.lean -/

@[simp ↓] theorem metCalls_mems (cmd : Nat) (a : Vector Word 16) (s : State) :
    ((metCalls cmd a s).s).mems = s.mems := by
  unfold metCalls
  repeat' first | (simp; done) | split | (dsimp only; split)

@[simp ↓] theorem billCalls_mems (cmd : Nat) (a : Vector Word 16) (s : State) :
    ((billCalls cmd a s).s).mems = s.mems := by
  unfold billCalls
  repeat' first | (simp; done) | split | (dsimp only; split)

@[simp ↓] theorem safeCalls_mems (cmd : Nat) (a : Vector Word 16) (s : State) :
    ((safeCalls cmd a s).s).mems = s.mems := by
  unfold safeCalls
  repeat' first | (simp; done) | split | (dsimp only; split)

@[simp ↓] theorem txnCalls_mems (cmd : Nat) (a : Vector Word 16) (s : State) :
    ((txnCalls cmd a s).s).mems = s.mems := by
  unfold txnCalls
  repeat' first | (simp; done) | split | (dsimp only; split)

@[simp] theorem writeMbxIn_mems (i : MbxId) (o : Nat) (v : Word) (s : State) : (writeMbxIn i o v s).mems = s.mems := by
  have h (k : Nat) : (match i with
    | .bill => { s with bill.mbxin := putWord s.bill.mbxin k v }
    | .safe => { s with safe.mbxin := putWord s.safe.mbxin k v }
    | .upd => { s with upd.mbxin := putWord s.upd.mbxin k v }
    | _ => s).mems = s.mems := by cases i <;> rfl
  exact h _

@[simp ↓] theorem safeW1c_mems (o : Nat) (v : Word) (s : State) : (safeW1c o v s).mems = s.mems := by simp [safeW1c]

@[simp ↓] theorem writeTime_mems (o : Nat) (v : Word) (s : State) : (writeTime o v s).mems = s.mems := by
  unfold writeTime
  repeat' first | (simp; done) | split | (dsimp only; split)

@[simp ↓] theorem writeSec_mems (o : Nat) (v : Word) (s : State) : (writeSec o v s).mems = s.mems := by
  unfold writeSec
  repeat' first | (simp; done) | split | (dsimp only; split)

@[simp ↓] theorem writeSlotctl_mems (v : Word) (s : State) : (writeSlotctl v s).mems = s.mems := by
  unfold writeSlotctl
  repeat' first | (simp; done) | split | (dsimp only; split)

@[simp ↓] theorem writeThl_mems (o : Nat) (v : Word) (s : State) : (writeThl o v s).mems = s.mems := by
  unfold writeThl
  repeat' first | (simp; done) | split | (dsimp only; split)

@[simp ↓] theorem writeEth_mems (m : Fin 2) (o : Nat) (v : Word) (s : State) :
    (writeEth m o v s).mems = s.mems := by simp [writeEth]

@[simp ↓] theorem writeCan_mems (b : Fin 3) (o : Nat) (v : Word) (s : State) :
    (writeCan b o v s).mems = s.mems := by simp [writeCan]

@[simp ↓] theorem setPar_mems (a mask : Nat) (v : Word) (s : State) : (setPar a mask v s).mems = s.mems := by simp [setPar]

@[simp ↓] theorem writeLoad_mems (o : Nat) (v : Word) (s : State) : (writeLoad o v s).mems = s.mems := by
  unfold writeLoad
  repeat' first | (simp; done) | split | (dsimp only; split)

@[simp ↓] theorem writeGpio_mems (o : Nat) (v : Word) (s : State) : (writeGpio o v s).mems = s.mems := by
  unfold writeGpio
  repeat' first | (simp; done) | split | (dsimp only; split)

@[simp ↓] theorem writeMesh_mems (o : Nat) (v : Word) (s : State) : (writeMesh o v s).mems = s.mems := by simp [writeMesh]

@[simp ↓] theorem writeIntc_mems (o : Nat) (v : Word) (s : State) : (writeIntc o v s).mems = s.mems := by simp [writeIntc]

@[simp ↓] theorem writePevt_mems (n : Port) (v : Word) (s : State) : (writePevt n v s).mems = s.mems := by simp [writePevt]

@[simp ↓] theorem writeLevt_mems (n : Port) (v : Word) (s : State) : (writeLevt n v s).mems = s.mems := by simp [writeLevt]

@[simp ↓] theorem writeTlscfg_mems (n : Port) (v : Word) (s : State) : (writeTlscfg n v s).mems = s.mems := by simp [writeTlscfg]

@[simp ↓] theorem writeVp_mems (n : Port) (o : Nat) (v : Word) (s : State) :
    (writeVp n o v s).mems = s.mems := by
  unfold writeVp
  repeat' first | (simp; done) | split | (dsimp only; split)

@[simp ↓] theorem writeDisp_mems (base o : Nat) (v : Word) (s : State) :
    (writeDisp base o v s).mems = s.mems := by
  unfold writeDisp
  repeat' first | (simp; done) | split | (dsimp only; split)

/-! ### Machine/Dma.lean -/

@[simp] theorem regWords_mems (a : Nat) (fixed : Bool) (n : Nat) (s : State) :
    (regWords a fixed n s).2.1.mems = s.mems := by
  induction n generalizing a s with
  | zero => rfl
  | succ n ih =>
    unfold regWords
    repeat' first | with_reducible rfl | (simp [ih]; done) | split | (dsimp only; split)

@[simp ↓] theorem regTail_mems (a len : Nat) (t : List Byte × State × Option DmaResult) :
    (regTail a len t).2.1.mems = t.2.1.mems := by
  unfold regTail
  split <;> simp

@[simp ↓] theorem readSource_mems (a len : Nat) (fixed : Bool) (s : State) :
    (readSource a len fixed s).2.1.mems = s.mems := by
  unfold readSource
  repeat' first | (simp; done) | split | (dsimp only; split)

@[simp ↓] theorem indexAt_mems (w : Vector Word 8) (i : Nat) (s : State) :
    (indexAt w i s).2.1.mems = s.mems := by simp [indexAt]

@[simp ↓] theorem indexRead_mems (w : Vector Word 8) (i : Nat) (hit : Option Bool) (s : State) :
    (indexRead w i hit s).2.1.mems = s.mems := by
  unfold indexRead parRead
  split <;> simp

@[simp ↓] theorem srcAddr_mems (w : Vector Word 8) (off : Nat) (hit : Option Bool) (s : State) :
    (srcAddr w off hit s).2.1.mems = s.mems := by
  unfold srcAddr
  repeat' first | (simp; done) | split | (dsimp only; split)

@[simp ↓] theorem dstAddr_mems (w : Vector Word 8) (off : Nat) (hit : Option Bool) (s : State) :
    (dstAddr w off hit s).2.1.mems = s.mems := by
  unfold dstAddr
  repeat' first | (simp; done) | split | (dsimp only; split)

@[simp ↓] theorem periphTake_mems (r n : Nat) (s : State) : ((periphTake r n s).2).mems = s.mems := by
  unfold periphTake
  repeat' first | (simp; done) | split | (dsimp only; split)

@[simp ↓] theorem periphPut_mems (r : Nat) (bs : List Byte) (s : State) : (periphPut r bs s).mems = s.mems := by simp [periphPut]

@[simp ↓] theorem sidePar_mems (fifo : Bool) (q a : Nat) (onResponse : Bool) (s : State) :
    (sidePar fifo q a onResponse s).mems = s.mems := by simp [sidePar]

@[simp ↓] theorem burstData_mems (w : Vector Word 8) (r off len src : Nat) (s : State) :
    ((burstData w r off len src s).2.1).mems = s.mems := by
  unfold burstData
  repeat' first | (simp; done) | split | (dsimp only; split)

@[simp ↓] theorem dmaAge_mems (g : Fin 32) (s : State) : (dmaAge g s).mems = s.mems := by simp [dmaAge]

@[simp ↓] theorem State.modRun_mems (s : State) (c : Fin 32) (f : DmaRun → DmaRun) :
    (State.modRun s c f).mems = s.mems := by simp [State.modRun]

@[simp ↓] theorem dmaPrefetch_mems (c : Fin 32) (hit : Option Bool) (s : State) :
    (dmaPrefetch c hit s).mems = s.mems := by simp [dmaPrefetch]

/-! ### Machine/SafeTick.lean -/

@[simp ↓] theorem releaseWaiting_mems (s : State) : (releaseWaiting s).mems = s.mems := by simp [releaseWaiting]

@[simp ↓] theorem safetyTick_mems (lv : BitVec 16) (lorst spDiff : Bool) (s : State) :
    (safetyTick lv lorst spDiff s).mems = s.mems := by simp [safetyTick]

@[simp ↓] theorem rampTimeout_mems (n : Port) (s : State) : (rampTimeout n s).mems = s.mems := by
  unfold rampTimeout
  repeat' first | (simp; done) | split | (dsimp only; split)

/-! ### Machine/Save.lean -/

@[simp ↓] theorem dropCalls_mems (s : State) : (dropCalls s).mems = s.mems := by simp [dropCalls]

@[simp ↓] theorem stopRunning_mems (s : State) : (stopRunning s).mems = s.mems := by simp [stopRunning]

@[simp ↓] theorem holdPart_mems (bits : BitVec 16) (s : State) : (holdPart bits s).mems = s.mems := by simp [holdPart]

@[simp ↓] theorem powerFailAudits_mems (s : State) : (powerFailAudits s).mems = s.mems := by simp [powerFailAudits]

@[simp ↓] theorem lastFine_mems (w : BitVec 64) (g : Fin 2) (s : State) :
    (lastFine w g s).mems = s.mems := by simp [lastFine]

@[simp ↓] theorem lastBits_mems (w : BitVec 64) (s : State) (b : FastBits) :
    (lastBits w s b).mems = s.mems := by simp [lastBits]

@[simp ↓] theorem lastSamples_mems (tail : List FastBits) (s : State) :
    (lastSamples tail s).mems = s.mems := by simp [lastSamples]

@[simp ↓] theorem lastBoundaries_mems (tail : List FastBits) (s : State) :
    (lastBoundaries tail s).mems = s.mems := by simp [lastBoundaries]

@[simp ↓] theorem saveMetering_mems (tail : List FastBits) (s : State) :
    (saveMetering tail s).mems = s.mems := by simp [saveMetering]

@[simp ↓] theorem meetFate_mems (s : State) (x : Fin 16 × Fate) : (meetFate s x).mems = s.mems := by
  unfold meetFate
  repeat' first | (simp; done) | split | (dsimp only; split)

@[simp ↓] theorem saveDisplay_mems (vhold : BitVec 12) (s : State) : (saveDisplay vhold s).mems = s.mems := by simp [saveDisplay]

@[simp ↓] theorem endEntries_mems (s : State) : (endEntries s).mems = s.mems := by simp [endEntries]

@[simp ↓] theorem dropPulses_mems (s : State) : (dropPulses s).mems = s.mems := by simp [dropPulses]

@[simp ↓] theorem portsErased_mems (s : State) : (portsErased s).mems = s.mems := by simp [portsErased]

@[simp ↓] theorem pilotsOff_mems (s : State) : (pilotsOff s).mems = s.mems := by simp [pilotsOff]

@[simp ↓] theorem cutClose_mems (s : State) : (cutClose s).mems = s.mems := by simp [cutClose]

@[simp ↓] theorem settle_mems (s : State) : (settle s).mems = s.mems := by simp [settle]

@[simp ↓] theorem loseTail_mems (s : State) : (loseTail s).mems = s.mems := by simp [loseTail]

/-! ### Machine/StartUp.lean -/

@[simp ↓] theorem atNs_mems (n : Nat) (s : State) : (atNs n s).mems = s.mems := by simp [atNs]

@[simp ↓] theorem causeBit_mems (n : Nat) (s : State) : (causeBit n s).mems = s.mems := by simp [causeBit]

@[simp ↓] theorem bootSupply_mems (u : StartUp) (s : State) : (bootSupply u s).mems = s.mems := by simp [bootSupply]

@[simp ↓] theorem bootTime_mems (old : Mode) (u : StartUp) (s : State) : (bootTime old u s).mems = s.mems := by simp [bootTime]

@[simp ↓] theorem bootSelftest_mems (u : StartUp) (s : State) : (bootSelftest u s).mems = s.mems := by simp [bootSelftest]

@[simp ↓] theorem inActivate_mems (f : State → State) (s : State) (hf : ∀ s, (f s).mems = s.mems) :
    (inActivate f s).mems = s.mems := by simp [inActivate, hf]

@[simp ↓] theorem provisionFkd_mems (s : State) : (provisionFkd s).mems = s.mems := by simp [provisionFkd]

@[simp ↓] theorem bootConfirmed_mems (s : State) : (bootConfirmed s).mems = s.mems := by simp [bootConfirmed]

@[simp ↓] theorem olderArea_mems (s : State) (a : SinterArea) : (olderArea s a).mems = s.mems := by
  unfold olderArea
  repeat' first | (simp; done) | split | (dsimp only; split)

@[simp ↓] theorem loseArea_mems (s : State) (a : SinterArea) : (loseArea s a).mems = s.mems := by
  unfold loseArea
  repeat' first | (simp; done) | split | (dsimp only; split)

@[simp ↓] theorem recovery_mems (u : StartUp) (rolled : Nat) (s : State) :
    (recovery u rolled s).mems = s.mems := by simp [recovery]

@[simp ↓] theorem provisionSkd_mems (k : Fin 2) (s : State) : (provisionSkd k s).mems = s.mems := by simp [provisionSkd]

@[simp ↓] theorem journalFs_mems (s : State) : (journalFs s).mems = s.mems := by simp [journalFs]

@[simp ↓] theorem install_mems (k : Fin 2) (l : Loaded) (s : State) : (install k l s).mems = s.mems := by simp [install]

@[simp ↓] theorem loadRest_mems (k : Fin 2) (l : Loaded) (s : State) : (loadRest k l s).2.mems = s.mems := by
  unfold loadRest
  repeat' first | (simp; done) | split | (dsimp only; split)

@[simp ↓] theorem loadFrom_mems (k : Fin 2) (s : State) : ((loadFrom k s).2).mems = s.mems := by
  unfold loadFrom
  repeat' first | (simp; done) | split | (dsimp only; split)

@[simp ↓] theorem afterLoad_mems (u : StartUp) (s : State) : (afterLoad u s).mems = s.mems := by simp [afterLoad]

@[simp ↓] theorem loader_mems (u : StartUp) (s : State) : (loader u s).mems = s.mems := by simp [loader]

@[simp ↓] theorem gapEntries_mems (s : State) : (gapEntries s).mems = s.mems := by simp [gapEntries]

@[simp ↓] theorem restartSlices_mems (s : State) : (restartSlices s).mems = s.mems := by simp [restartSlices]

@[simp ↓] theorem bootBoundaries_mems (s : State) : (bootBoundaries s).mems = s.mems := by simp [bootBoundaries]

@[simp ↓] theorem bootStops_mems (s : State) : (bootStops s).mems = s.mems := by simp [bootStops]

@[simp ↓] theorem bootPart_mems (s : State) : (bootPart s).mems = s.mems := by simp [bootPart]

@[simp ↓] theorem lossEntries_mems (l : List SinterArea) (s : State) : (lossEntries l s).mems = s.mems := by simp [lossEntries]

@[simp ↓] theorem kernelStart_mems (u : StartUp) (s : State) : (kernelStart u s).mems = s.mems := by simp [kernelStart]

@[simp ↓] theorem bootKernel_mems (u : StartUp) (s : State) : (bootKernel u s).mems = s.mems := by simp [bootKernel]

@[simp ↓] theorem releaseCores_mems (s : State) : (releaseCores s).mems = s.mems := by simp [releaseCores]

@[simp ↓] theorem startWindow_mems (s : State) : (startWindow s).mems = s.mems := by simp [startWindow]

@[simp ↓] theorem portsListen_mems (s : State) : (portsListen s).mems = s.mems := by simp [portsListen]

@[simp ↓] theorem bootMode_mems (s : State) : (bootMode s).mems = s.mems := by simp [bootMode]

/-! ### Machine/Idle.lean -/

@[simp ↓] theorem idle_mems (s : State) : (idle s).mems = s.mems := by simp [idle]

end Sys2Proof.Machine
end

