-- ==== Sys2Proof/Laws/KeepMemOk.lean ====
section
/-! SUPPORT. The operations that write a memory keep its canonical form and its window. -/

namespace Sys2Proof.Machine

/-! ### Machine/Ops.lean -/

@[simp ↓] theorem onBlock_ok (k : BlkKind) (n : Nat) (s : State) (f : State → State)
    (hf : ∀ s, memOk s.mems → memOk (f s).mems) (h : memOk s.mems) : memOk (onBlock k n s f).mems := by
  unfold onBlock
  dsimp only
  split
  · exact hf _ h
  · exact h

@[simp ↓] theorem ring_ok (i : MbxId) (body : Nat → Vector Word 16 → State → Reply) (s : State)
    (hb : ∀ v a s, memOk s.mems → memOk (body v a s).s.mems) (h : memOk s.mems) : memOk (ring i body s).mems := by
  unfold ring
  dsimp only
  split
  · simpa using h
  · rw [answered_mems]
    repeat' split
    all_goals first | exact hb _ _ _ (by simpa using h) | simpa [versions] using h

@[simp ↓] theorem mbxCall_ok (i : MbxId) (cmd : Nat) (c : Call) (body : Vector Word 16 → State → Reply) (s : State)
    (hb : ∀ a s, memOk s.mems → memOk (body a s).s.mems) (h : memOk s.mems) : memOk (mbxCall i cmd c body s).mems := by
  unfold mbxCall
  exact onBlock_ok _ _ _ _ (fun s hs => ring_ok _ _ _ (fun _ a s hs => hb a s hs) (by simpa using hs)) h

/-! ### Machine/Mem.lean -/

@[simp ↓] theorem State.ramWrite_ok (s : State) (a : Nat) (bs : List Byte) (h : memOk s.mems) :
    memOk (s.ramWrite a bs).mems := by
  unfold State.ramWrite
  split
  · rename_i hi
    exact ⟨⟨memPut_wf h.1.1, memPut_within h.1.2 hi⟩, h.2⟩
  · exact h

@[simp ↓] theorem State.norWrite_ok (s : State) (o : Nat) (bs : List Byte) (h : memOk s.mems) :
    memOk (s.norWrite o bs).mems := by
  unfold State.norWrite
  split
  · rename_i hi
    exact ⟨h.1, memPut_wf h.2.1, memPut_within h.2.2 hi⟩
  · exact h

@[simp ↓] theorem State.norErase_ok (s : State) (o n : Nat) (h : memOk s.mems) : memOk (s.norErase o n).mems :=
  ⟨h.1, memErase_wf h.2.1, memErase_within h.2.2⟩

/-! ### Machine/DmaCtl.lean -/

theorem ramStore_ok (s t : State) (a : Nat) (bs : List Byte) (hs : ramStore s a bs = some t) (h : memOk s.mems) :
    memOk t.mems := by
  unfold ramStore at hs
  dsimp only at hs
  split at hs
  · cases hs
  · cases hs; simp [h]

@[simp ↓] theorem ramStore_getD_ok (s d : State) (a : Nat) (bs : List Byte) (h : memOk s.mems) (hd : memOk d.mems) :
    memOk ((ramStore s a bs).getD d).mems := by
  cases hs : ramStore s a bs with
  | none => exact hd
  | some t => exact ramStore_ok s t a bs hs h

@[simp ↓] theorem writeStatus_ok (c : Fin 32) (addr : Nat) (irq : Bool) (res : DmaResult) (bytes : Nat) (s : State) (h : memOk s.mems) :
    memOk ((writeStatus c addr irq res bytes s)).mems := by
  unfold writeStatus
  repeat' first | (simp [h]; done) | split | (dsimp only; split)

@[simp ↓] theorem loadDesc_ok (c : Fin 32) (hit : Option Bool) (s : State) (h : memOk s.mems) :
    memOk ((loadDesc c hit s)).mems := by
  unfold loadDesc
  repeat' first | (simp [h]; done) | split | (dsimp only; split)

@[simp ↓] theorem dmaFinish_ok (c : Fin 32) (hit : Option Bool) (s : State) (h : memOk s.mems) :
    memOk ((dmaFinish c hit s)).mems := by
  unfold dmaFinish
  repeat' first | (simp [h]; done) | split | (dsimp only; split)

@[simp ↓] theorem dmaEnable_ok (c : Fin 32) (hit : Option Bool) (s : State) (h : memOk s.mems) :
    memOk ((dmaEnable c hit s)).mems := by
  unfold dmaEnable
  repeat' first | (simp [h]; done) | split | (dsimp only; split)

@[simp ↓] theorem dmaDisable_ok (c : Fin 32) (s : State) (h : memOk s.mems) :
    memOk ((dmaDisable c s)).mems := by
  unfold dmaDisable
  dsimp only
  simp only [ite_mems, State.modDma_mems, dmaStop_mems, State.draw_mems]
  repeat' first | (simp [h]; done) | split | (dsimp only; split) | refine forAll_ok _ _ _ (fun _ _ h => ?_) ?_ |
    (dsimp only; refine forAll_ok _ _ _ (fun _ _ h => ?_) ?_)

@[simp ↓] theorem dmaAllOff_ok (s : State) (h : memOk s.mems) : memOk ((dmaAllOff s)).mems := by
  unfold dmaAllOff
  repeat' first | (simp [h]; done) | split | (dsimp only; split) | refine forAll_ok _ _ _ (fun _ _ h => ?_) ?_ |
    (dsimp only; refine forAll_ok _ _ _ (fun _ _ h => ?_) ?_)

@[simp ↓] theorem dmaAbort_ok (c : Fin 32) (s : State) (h : memOk s.mems) : memOk ((dmaAbort c s)).mems := by
  unfold dmaAbort
  repeat' first | (simp [h]; done) | split | (dsimp only; split)

@[simp ↓] theorem dmaKick_ok (c : Fin 32) (hit : Option Bool) (s : State) (h : memOk s.mems) :
    memOk ((dmaKick c hit s)).mems := by
  unfold dmaKick
  repeat' first | (simp [h]; done) | split | (dsimp only; split)

/-! ### Machine/Modes.lean -/

@[simp ↓] theorem degradedEntry_ok (s : State) (h : memOk s.mems) : memOk (degradedEntry s).mems := by
  simp [degradedEntry, h]

@[simp ↓] theorem enterDegraded_ok (c : DegCause) (s : State) (h : memOk s.mems) :
    memOk ((enterDegraded c s)).mems := by simp [enterDegraded, h]

@[simp ↓] theorem degTrigger_ok (c : DegCause) (s : State) (h : memOk s.mems) :
    memOk ((degTrigger c s)).mems := by
  unfold degTrigger
  repeat' first | (simp [h]; done) | split | (dsimp only; split)

@[simp ↓] theorem leaveLockout_ok (s : State) (h : memOk s.mems) : memOk ((leaveLockout s)).mems := by
  unfold leaveLockout
  repeat' first | (simp [h]; done) | split | (dsimp only; split)

/-! ### Machine/SafeReset.lean -/

@[simp ↓] theorem resetAccepted_ok (len : Nat) (link : Option (Fin 16)) (step : Byte) (s : State) (h : memOk s.mems) :
    memOk ((resetAccepted len link step s)).mems := by
  unfold resetAccepted
  repeat' first | (simp [h]; done) | split | (dsimp only; split)

@[simp ↓] theorem deliberateReset_ok (len rise : Nat) (link : Option (Fin 16)) (step : Byte) (s : State) (h : memOk s.mems) :
    memOk ((deliberateReset len rise link step s)).mems := by
  unfold deliberateReset
  repeat' first | (simp [h]; done) | split | (dsimp only; split)

@[simp ↓] theorem lorstPulse_ok (step : Byte) (s : State) (h : memOk s.mems) :
    memOk ((lorstPulse step s)).mems := by
  unfold lorstPulse
  repeat' first | (simp [h]; done) | split | (dsimp only; split)

/-! ### Machine/SafeLink.lean -/

theorem firstCopy_ok (ty : Byte) (k : Fin 16) (p : LinkPdu) (conn open_ : Fin 16 → State → State) (s : State)
    (hc : ∀ k s, memOk s.mems → memOk (conn k s).mems) (ho : ∀ k s, memOk s.mems → memOk (open_ k s).mems)
    (h : memOk s.mems) : memOk (firstCopy ty k p conn open_ s).mems := by
  unfold firstCopy
  repeat' first | (simp [h]; done) | exact hc _ _ (by simp [h]) | exact ho _ _ (by simp [h]) | split | (dsimp only; split)

theorem receivePdu_ok (ty : Byte) (p : LinkPdu) (conn open_ : Fin 16 → State → State) (s : State)
    (hc : ∀ k s, memOk s.mems → memOk (conn k s).mems) (ho : ∀ k s, memOk s.mems → memOk (open_ k s).mems)
    (h : memOk s.mems) : memOk (receivePdu ty p conn open_ s).mems := by
  unfold receivePdu
  repeat' first | (simp [h]; done) | exact firstCopy_ok _ _ _ _ _ _ hc ho h | split | (dsimp only; split)

@[simp ↓] theorem onRelease_ok (step : Byte) (k : Fin 16) (s : State) (h : memOk s.mems) :
    memOk ((onRelease step k s)).mems := by
  unfold onRelease
  repeat' first | (simp [h]; done) | split | (dsimp only; split)

/-! ### Machine/EthMac.lean -/

@[simp ↓] theorem safeReceive_ok (m : Fin 2) (f : List Byte) (step : Byte) (s : State) (h : memOk s.mems) :
    memOk (safeReceive m f step s).mems := by
  unfold safeReceive
  dsimp only
  split
  all_goals first | exact h | exact receivePdu_ok _ _ _ _ _ (fun _ _ h => by simp [h]) (fun _ _ h => by simp [h]) h

@[simp ↓] theorem ethReceive_ok (m : Fin 2) (f : List Byte) (good : Bool) (step : Byte) (s : State) (h : memOk s.mems) :
    memOk ((ethReceive m f good step s)).mems := by
  unfold ethReceive
  repeat' first | (simp [h]; done) | split | (dsimp only; split)

/-! ### Machine/Thl.lean -/

@[simp ↓] theorem slotErased_ok (k : Fin 2) (ok : Bool) (s : State) (h : memOk s.mems) :
    memOk ((slotErased k ok s).1).mems := by
  unfold slotErased
  repeat' first | (simp [h]; done) | split | (dsimp only; split)

@[simp ↓] theorem slotWritten_ok (k : Fin 2) (ok : Bool) (s : State) (h : memOk s.mems) :
    memOk ((slotWritten k ok s).1).mems := by
  unfold slotWritten
  repeat' first | (simp [h]; done) | split | (dsimp only; split)

@[simp ↓] theorem slotCommandDone_ok (ok : Bool) (s : State) (h : memOk s.mems) :
    memOk ((slotCommandDone ok s)).mems := by
  unfold slotCommandDone
  repeat' first | (simp [h]; done) | split | (dsimp only; split)

@[simp ↓] theorem writeIn_ok (s : State) (h : memOk s.mems) : memOk ((writeIn s)).mems := by simp [writeIn, h]

/-! ### Machine/Txn.lean -/

theorem txnNamed_ok (s : State) (a : Vector Word 16) (f : Fin 6 → Reply) (h : memOk s.mems)
    (hf : ∀ d, memOk (f d).s.mems) : memOk (txnNamed s a f).s.mems := by
  unfold txnNamed
  split
  · exact h
  · exact checks_ok _ _ _ h (hf _)

@[simp ↓] theorem commitThl_ok (agree : Bool) (reason : Byte) (s : State) (h : memOk s.mems) :
    memOk ((commitThl agree reason s).2).mems := by
  unfold commitThl
  repeat' first | (simp [h]; done) | split | (dsimp only; split)

@[simp ↓] theorem runCommit_ok (d : Fin 6) (agree : Bool) (s : State) (h : memOk s.mems) :
    memOk ((runCommit d agree s).2).mems := by
  unfold runCommit
  repeat' first | (simp [h]; done) | split | (dsimp only; split)

@[simp ↓] theorem commitDone_ok (agree : Bool) (s : State) (h : memOk s.mems) :
    memOk ((commitDone agree s)).mems := by
  unfold commitDone
  repeat' first | (simp [h]; done) | split | (dsimp only; split)

@[simp ↓] theorem State.appWrite_ok (s : State) (req a : Nat) (bs : List Byte) (h : memOk s.mems) :
    memOk ((State.appWrite s req a bs)).mems := by
  unfold State.appWrite
  dsimp only
  split
  · split
    · rename_i hs; exact ramStore_ok _ _ _ _ hs (by simp [h])
    · simp [h]
  · simp [h]

/-! ### Machine/Tls.lean -/

@[simp ↓] theorem tlsOk_ok (n : Port) (rx : Bool) (dst : Word) (out : List Byte) (itype : Option Byte) (s : State) (h : memOk s.mems) :
    memOk ((tlsOk n rx dst out itype s)).mems := by simp [tlsOk, h]

@[simp ↓] theorem tlsTxDone_ok (n : Port) (o : TlsOp) (suite : Nat) (k : TlsKeys) (seq : Nat) (s : State) (h : memOk s.mems) :
    memOk ((tlsTxDone n o suite k seq s)).mems := by
  unfold tlsTxDone
  repeat' first | (simp [h]; done) | split | (dsimp only; split)

@[simp ↓] theorem tlsRxDone_ok (n : Port) (o : TlsOp) (suite : Nat) (k : TlsKeys) (seq : Nat) (s : State) (h : memOk s.mems) :
    memOk ((tlsRxDone n o suite k seq s)).mems := by
  unfold tlsRxDone
  repeat' first | (simp [h]; done) | split | (dsimp only; split)

@[simp ↓] theorem tlsServe_ok (n : Port) (rx : Bool) (s : State) (h : memOk s.mems) :
    memOk (tlsServe n rx s).mems := by
  unfold tlsServe
  repeat' first | (simp [h]; done) | split | (dsimp only; split)

@[simp ↓] theorem tlsComplete_ok (n : Port) (rx : Bool) (s : State) (h : memOk s.mems) :
    memOk ((tlsComplete n rx s)).mems := by
  unfold tlsComplete
  exact ite_ok _ _ _ (tlsServe_ok _ _ _ (by simpa only [mems_mk, mems_fold] using h)) h

/-! ### Machine/Sec.lean -/

@[simp ↓] theorem secComplete_ok (s : State) (h : memOk s.mems) : memOk (secComplete s).mems := by
  unfold secComplete
  split
  · exact h
  · split
    · exact h
    · dsimp only
      split <;> split <;> simp [h]

/-! ### Machine/Upd.lean -/

@[simp ↓] theorem beginNew_ok (man : List Byte) (s : State) (h : memOk s.mems) :
    memOk ((beginNew man s)).mems := by simp [beginNew, h]

@[simp ↓] theorem updBegin_ok (a : Vector Word 16) (s : State) (h : memOk s.mems) :
    memOk ((updBegin a s).s).mems := by
  unfold updBegin
  repeat' first | (simp [h]; done) | split | (dsimp only; split)

@[simp ↓] theorem eraseStaging_ok (s : State) (h : memOk s.mems) : memOk (eraseStaging s).mems :=
  State.norErase_ok _ _ _ (State.norErase_ok _ _ _ (State.norErase_ok _ _ _ h))

@[simp ↓] theorem beginDone_ok (ok : Bool) (s : State) (h : memOk s.mems) : memOk ((beginDone ok s)).mems := by
  unfold beginDone
  repeat' first | (simp [h]; done) | split | (dsimp only; split)

theorem repairSector_ok (base size per sector : Nat) (s : State) (h : memOk s.mems) :
    memOk (repairSector base size per sector s).mems :=
  forAll_ok _ _ _ (fun _ _ h => State.norWrite_ok _ _ _ h) (State.norErase_ok _ _ _
    (forAll_ok _ _ _ (fun _ _ h => State.norWrite_ok _ _ _ h) (State.norErase_ok _ _ _ h)))

@[simp ↓] theorem repair_ok (k : Nat) (s : State) (h : memOk s.mems) : memOk (repair k s).mems := by
  have h1 : ∀ (b : Bool) (base size per k : Nat) (s : State), memOk s.mems →
      memOk (if b then repairSector base size per k s else s).mems := by
    intro b base size per k s h
    split
    · exact repairSector_ok _ _ _ _ _ h
    · exact h
  unfold repair
  dsimp only
  split
  · exact h1 _ _ _ _ _ _ (h1 _ _ _ _ _ _ h)
  · exact h1 _ _ _ _ _ _ (h1 _ _ _ _ _ _ h)

@[simp ↓] theorem updSpore_ok (a : Vector Word 16) (s : State) (h : memOk s.mems) : memOk (updSpore a s).s.mems := by
  unfold updSpore
  split
  · exact h
  · have hs : ∀ q x n, memOk (s.srcBytes q x n).2.mems := fun q x n => by simp [h]
    dsimp only
    split
    · exact hs _ _ _
    · split
      · simp only [reply_deny_s, mems_mk, mems_fold]
        exact hs _ _ _
      · split
        · exact hs _ _ _
        split
        · exact hs _ _ _
        · simp only [reply_ok_s, mems_mk, mems_fold]
          exact State.norWrite_ok _ _ _ (State.norWrite_ok _ _ _ (repair_ok _ _ (hs _ _ _)))

@[simp ↓] theorem setOpenDone_ok (ok : Bool) (s : State) (h : memOk s.mems) :
    memOk ((setOpenDone ok s)).mems := by
  unfold setOpenDone
  repeat' first | (simp [h]; done) | split | (dsimp only; split)

@[simp ↓] theorem State.norProgram_ok (s : State) (o : Nat) (l : List Byte) (h : memOk s.mems) :
    memOk ((State.norProgram s o l)).mems := by simp [State.norProgram, h]

@[simp ↓] theorem setWrite_ok (a : Vector Word 16) (s : State) (h : memOk s.mems) :
    memOk ((setWrite a s).s).mems := by
  unfold setWrite
  repeat' first | (simp [h]; done) | split | (dsimp only; split)

@[simp ↓] theorem setCommit_ok (a : Vector Word 16) (s : State) (h : memOk s.mems) :
    memOk ((setCommit a s).s).mems := by
  unfold setCommit
  repeat' first | (simp [h]; done) | split | (dsimp only; split)

/-! ### Machine/SysCtl.lean -/

@[simp ↓] theorem wdogKick_ok (v : Word) (s : State) (h : memOk s.mems) : memOk ((wdogKick v s)).mems := by
  unfold wdogKick
  repeat' first | (simp [h]; done) | split | (dsimp only; split)

@[simp ↓] theorem sramFetch_ok (core : Fin 4) (a : Word) (s : State) (h : memOk s.mems) :
    memOk ((sramFetch core a s)).mems := by
  unfold sramFetch
  repeat' first | (simp [h]; done) | split | (dsimp only; split)

@[simp ↓] theorem thermal2_ok (s : State) (h : memOk s.mems) : memOk ((thermal2 s)).mems := by simp [thermal2, h]

/-! ### Machine/RegRead.lean -/

@[simp ↓] theorem memWordRead_ok (req a n : Nat) (s : State) (h : memOk s.mems) :
    memOk ((memWordRead req a n s)).mems := by
  unfold memWordRead
  repeat' first | (simp [h]; done) | split | (dsimp only; split)

@[simp ↓] theorem busRead_ok (req a : Nat) (size : AccSize) (s : State) (h : memOk s.mems) : memOk ((busRead req a size s)).mems := by
  unfold busRead
  repeat' first | (simp [h]; done) | split | (dsimp only; split)

/-! ### Machine/RegWrite.lean -/

@[simp ↓] theorem updCalls_ok (cmd : Nat) (a : Vector Word 16) (s : State) (h : memOk s.mems) :
    memOk (updCalls cmd a s).s.mems := by
  unfold updCalls
  split <;> simp [h]

@[simp ↓] theorem doorbell_ok (i : MbxId) (s : State) (h : memOk s.mems) : memOk (doorbell i s).mems := by
  unfold doorbell
  refine ring_ok _ _ _ (fun _ a s hs => ?_) h
  cases i <;> simp [hs]

@[simp ↓] theorem writeMbx_ok (i : MbxId) (o : Nat) (v : Word) (s : State) (h : memOk s.mems) :
    memOk ((writeMbx i o v s)).mems := by
  unfold writeMbx
  repeat' first | (simp [h]; done) | split | (dsimp only; split)

theorem writeWindow_ok (k : BlkKind) (base o : Nat) (v : Word) (s t : State)
    (hs : writeWindow k base o v s = some t) (h : memOk s.mems) : memOk t.mems := by
  unfold writeWindow at hs
  split at hs
  · repeat' split at hs
    all_goals first | (cases hs; simp [h]; done) | cases hs
  · cases hs

@[simp ↓] theorem writeWindow_getD_ok (k : BlkKind) (base o : Nat) (v : Word) (s : State) (h : memOk s.mems) :
    memOk ((writeWindow k base o v s).getD s).mems := by
  cases hs : writeWindow k base o v s with
  | none => exact h
  | some t => exact writeWindow_ok k base o v s t hs h

@[simp ↓] theorem writeSys_ok (o : Nat) (v : Word) (s : State) (h : memOk s.mems) :
    memOk ((writeSys o v s)).mems := by
  unfold writeSys
  repeat' first | (simp [h]; done) | split | (dsimp only; split)

@[simp ↓] theorem writeChcfg_ok (c : Fin 32) (v : Word) (s : State) (h : memOk s.mems) :
    memOk (writeChcfg c v s).mems := by
  have x (s : State) (h : memOk s.mems) := ite_ok (bitAt v 30 = true) _ _ (dmaAbort_ok c s h) h
  have y (s : State) (h : memOk s.mems) := ite_ok (bitAt v 31 = true) _ _
    (ite_ok (bitAt v 30 = true) _ _ h (dmaEnable_ok c none s h)) (dmaDisable_ok c s h)
  have z (s : State) (h : memOk s.mems) := ite_ok (bitAt v 29 = true) _ _ (dmaKick_ok c none s h) h
  unfold writeChcfg
  dsimp only
  refine z _ (y _ (x _ ?_))
  rw [ite_mems, selectRequest_mems, ite_self, setPrio_mems, State.modDma_mems]
  exact h

@[simp ↓] theorem writeDma_ok (o : Nat) (v : Word) (s : State) (h : memOk s.mems) : memOk (writeDma o v s).mems := by
  unfold writeDma
  split
  · dsimp only
    split <;> simp [h]
  · split
    · simp [h]
    · split
      · dsimp only
        generalize rel 0x100 0x40 o = k
        split
        · exact writeChcfg_ok _ _ _ h
        · split <;> simp [h]
        · split <;> simp [h]
        · split <;> simp [h]
        · exact h
      · exact h

@[simp ↓] theorem writeTxn_ok (o : Nat) (v : Word) (s : State) (h : memOk s.mems) :
    memOk ((writeTxn o v s)).mems := by
  unfold writeTxn
  repeat' first | (simp [h]; done) | split | (dsimp only; split)

@[simp ↓] theorem writeUpd_ok (o : Nat) (v : Word) (s : State) (h : memOk s.mems) :
    memOk ((writeUpd o v s)).mems := by
  unfold writeUpd
  repeat' first | (simp [h]; done) | split | (dsimp only; split)

@[simp ↓] theorem writeBlk_ok (k : BlkKind) (n base o : Nat) (v : Word) (s : State) (h : memOk s.mems) :
    memOk ((writeBlk k n base o v s)).mems := by
  unfold writeBlk
  repeat' first | (simp [h]; done) | split | (dsimp only; split)

@[simp ↓] theorem regWrite_ok (req a : Nat) (v : Word) (s : State) (h : memOk s.mems) : memOk (regWrite req a v s).mems := by
  unfold regWrite
  split
  · simp [h]
  · dsimp only
    repeat' split
    all_goals first
      | exact onBlock_ok _ _ _ _ (fun s hs => by simp [hs]) h
      | simp [h]

@[simp ↓] theorem memWrite_ok (req a : Nat) (bs : List Byte) (s : State) (h : memOk s.mems) :
    memOk (memWrite req a bs s).mems := by
  unfold memWrite
  split
  · split
    · rename_i t hs; rw [State.busOk_mems]; exact ramStore_ok s t a bs hs h
    · simp [h]
  · split <;> simp [h]

@[simp ↓] theorem busWrite_ok (req a : Nat) (size : AccSize) (v : Word) (s : State) (h : memOk s.mems) :
    memOk ((busWrite req a size v s)).mems := by
  unfold busWrite
  repeat' first | (simp [h]; done) | split | (dsimp only; split)

/-! ### Machine/Dma.lean -/

@[simp ↓] theorem burstFails_ok (c : Fin 32) (e : DmaResult) (s : State) (h : memOk s.mems) :
    memOk ((burstFails c e s)).mems := by simp [burstFails, h]

@[simp ↓] theorem burstRead_ok (c : Fin 32) (r : DmaRun) (b : Nat × Nat) (src dst : Nat) (ecc : Bool) (hit : Option Bool)
    (s : State) (h : memOk s.mems) : memOk (burstRead c r b src dst ecc hit s).mems := by
  unfold burstRead
  repeat' first | (simp [h]; done) | split | (dsimp only; split)

@[simp ↓] theorem burstStart_ok (c : Fin 32) (ecc : Bool) (par : Option (DmaReq × Bool)) (s : State) (h : memOk s.mems) :
    memOk ((burstStart c ecc par s)).mems := by
  have hs (q : Bool) (w : Vector Word 8) (o : Nat) (p : Option Bool) (x : State) :
      (if q then (0, x, none) else srcAddr w o p x).2.1.mems = x.mems := by split <;> simp
  have hd (q : Bool) (w : Vector Word 8) (o : Nat) (p : Option Bool) (x : State) :
      (if q then (0, x, none) else dstAddr w o p x).2.1.mems = x.mems := by split <;> simp
  unfold burstStart
  split
  · exact h
  · dsimp only
    split
    · exact burstFails_ok _ _ _ (by rw [hs]; exact h)
    · split
      · exact burstFails_ok _ _ _ (by rw [hd, hs]; exact h)
      · exact burstRead_ok _ _ _ _ _ _ _ _ (by rw [hd, hs]; exact h)

@[simp ↓] theorem burstGrant_ok (prefetch ecc : Bool) (par : Option (DmaReq × Bool)) (s : State) (h : memOk s.mems) :
    memOk ((burstGrant prefetch ecc par s)).mems := by
  unfold burstGrant
  repeat' first | (simp [h]; done) | split | (dsimp only; split)

@[simp ↓] theorem putWords_ok (a : Nat) (fixed : Bool) (l : List Byte) (s : State) (h : memOk s.mems) :
    memOk (putWords a fixed l s).2.1.mems := by
  fun_induction putWords a fixed l s with
  | case1 => exact regWrite_ok _ _ _ _ h
  | case2 _ _ _ _ _ _ _ _ _ _ ih => exact ih (regWrite_ok _ _ _ _ h)
  | case3 => exact h
  | case4 => simpa using h

@[simp ↓] theorem writeDest_ok (w : Vector Word 8) (r : Nat) (b : DmaBurst) (s : State) (h : memOk s.mems) :
    memOk ((writeDest w r b s).2.1).mems := by
  unfold writeDest
  repeat' first | (simp [h]; done) | split | (dsimp only; split)

@[simp ↓] theorem burstDone_ok (c : Fin 32) (par : Option (DmaReq × Bool)) (s : State) (h : memOk s.mems) :
    memOk ((burstDone c par s)).mems := by
  unfold burstDone
  repeat' first | (simp [h]; done) | split | (dsimp only; split)

/-! ### Machine/Save.lean -/

@[simp ↓] theorem tornSlot_ok (s : State) (h : memOk s.mems) : memOk ((tornSlot s)).mems := by
  unfold tornSlot
  repeat' first | (simp [h]; done) | split | (dsimp only; split)

@[simp ↓] theorem tornErase_ok (s : State) (h : memOk s.mems) : memOk (tornErase s).mems := by
  have hf : ∀ (s : State) (n : Nat), memOk s.mems → memOk (s.freeBytes n).2.mems := by
    intro s n h
    rw [State.freeBytes_mems]
    exact h
  unfold tornErase
  dsimp only
  refine ite_ok _ _ _ (State.norWrite_ok _ _ _ (State.norWrite_ok _ _ _
    (State.norWrite_ok _ _ _ (hf _ _ (hf _ _ (hf _ _ h)))))) h

@[simp ↓] theorem tornSettings_ok (s : State) (h : memOk s.mems) : memOk ((tornSettings s)).mems := by
  unfold tornSettings
  repeat' first | (simp [h]; done) | split | (dsimp only; split)

@[simp ↓] theorem tornFlash_ok (s : State) (h : memOk s.mems) : memOk (tornFlash s).mems := by
  unfold tornFlash
  dsimp only
  simp only [mems_mk, mems_fold]
  exact tornSettings_ok _ (tornErase_ok _ (tornSlot_ok _ h))

@[simp ↓] theorem dropOutputs_ok (s : State) (h : memOk s.mems) : memOk (dropOutputs s).mems := by
  have := tornFlash_ok s h
  simp [dropOutputs, this]

@[simp ↓] theorem powerFailSave_ok (vhold : BitVec 12) (tail : List FastBits) (s : State) (h : memOk s.mems) :
    memOk (powerFailSave vhold tail s).mems := by
  have hd (x : Sys) : memOk (dmaAllOff (dropOutputs { s with sys := x })).mems :=
    dmaAllOff_ok _ (dropOutputs_ok _ (by simp only [mems_mk, mems_fold]; exact h))
  unfold powerFailSave
  dsimp only
  simp only [loadAll_mems, mems_mk, mems_fold, saveDisplay_mems]
  refine ite_ok _ _ _ ?_ ?_
  all_goals
    simp only [State.journal_mems, dropPulses_mems, endEntries_mems, saveMetering_mems, mems_mk, mems_fold, pilotsOff_mems,
      portsErased_mems]
    exact hd _

@[simp ↓] theorem powerFailWarning_ok (src : PfwSource) (vhold : BitVec 12) (tail : List FastBits) (s : State) (h : memOk s.mems) :
    memOk (powerFailWarning src vhold tail s).mems := by
  unfold powerFailWarning
  repeat' split
  · exact powerFailSave_ok _ _ _ (by simpa only [mems_mk, mems_fold] using h)
  · exact h
  · exact powerFailSave_ok _ _ _ (by simpa only [mems_mk, mems_fold] using h)
  · exact h

@[simp ↓] theorem cutWithoutSave_ok (steps : Fin 7) (tail : List FastBits) (s : State) (h : memOk s.mems) :
    memOk (cutWithoutSave steps tail s).mems := by
  have hd := tornFlash_ok s h
  have h4 : memOk (if 4 ≤ steps.val ∧ kernelUp (tornFlash s) = true then
      (closeSlices (lastBoundaries tail (tornFlash s))).journal false else tornFlash s).mems :=
    ite_ok _ _ _ (by simpa using hd) hd
  unfold cutWithoutSave
  dsimp only
  simp only [loadAll_mems, mems_mk, mems_fold, pilotsOff_mems, settle_mems, loseTail_mems, ite_mems, ite_self] at h4 ⊢
  exact h4

/-! ### Machine/StartUp.lean -/

@[simp ↓] theorem afterReset_ok (cause : BitVec 13) (u : StartUp) (s : State) (h : memOk s.mems) :
    memOk (afterReset cause u s).mems := by
  refine ⟨?_, h.2⟩
  show Memory.wf sramBlank (if _ then s.sram else []) ∧ Memory.within sramBase sramSize (if _ then s.sram else [])
  split
  · exact h.1
  · exact ⟨⟨.nil, by simp⟩, by simp⟩

theorem swapBlocks_le (s : State) : swapBlocks s ≤ 256 := by
  have hb : ∀ m : List Byte, (if mfFormatOk m then mfBlocks m else 0) ≤ 256 := by
    intro m
    split
    · rename_i hm
      simp only [mfFormatOk, Bool.and_eq_true, decide_eq_true_eq] at hm
      unfold mfBlocks
      omega
    · omega
  unfold swapBlocks
  exact Nat.max_le.mpr ⟨hb _, hb _⟩

@[simp ↓] theorem swapAreas_ok (s : State) (h : memOk s.mems) : memOk (swapAreas s).mems := by
  have hn := swapBlocks_le s
  have h1 : ∀ a b n : Nat, norBase ≤ a → a + n ≤ b → b + n ≤ norBase + norSize → ∀ l,
      Memory.wf norBlank l ∧ Memory.within norBase norSize l →
      Memory.wf norBlank (memSwap a b n l) ∧ Memory.within norBase norSize (memSwap a b n l) :=
    fun a b n ha hab hb l hl => ⟨memSwap_wf hl.1 hab, memSwap_within hl.2 ha hb hab⟩
  have h2 := h1 (norBase + actOfs) (norBase + stgOfs) (65536 * swapBlocks s)
    (by simp only [norBase, actOfs]; omega) (by simp only [norBase, actOfs, stgOfs]; omega)
    (by simp only [norBase, stgOfs, norSize]; omega) s.nor h.2
  have h3 := h1 (norBase + actTags) (norBase + stgTags) (1024 * swapBlocks s)
    (by simp only [norBase, actTags]; omega) (by simp only [norBase, actTags, stgTags]; omega)
    (by simp only [norBase, stgTags, norSize]; omega) _ h2
  have h4 := h1 (norBase + actMan) (norBase + stgMan) 0x10000
    (by simp only [norBase, actMan]; omega) (by simp only [norBase, actMan, stgMan]; omega)
    (by simp only [norBase, stgMan, norSize]; omega) _ h3
  have h5 : memOk (s.sram, memSwap (norBase + actMan) (norBase + stgMan) 0x10000
      (memSwap (norBase + actTags) (norBase + stgTags) (1024 * swapBlocks s)
        (memSwap (norBase + actOfs) (norBase + stgOfs) (65536 * swapBlocks s) s.nor))) := ⟨h.1, h4⟩
  unfold swapAreas
  dsimp only
  simp only [mems_mk, mems_fold]
  refine State.norWrite_ok _ _ _ (ite_ok _ _ _ ?_ (State.norWrite_ok _ _ _ ?_))
  all_goals
    simp only [mems_mk]
    exact h5

@[simp ↓] theorem inActivate_ok (f : State → State) (s : State) (hf : ∀ s, memOk s.mems → memOk (f s).mems)
    (h : memOk s.mems) : memOk (inActivate f s).mems := by
  unfold inActivate
  have := hf (setMode .activate s) (by simp [h])
  simp [this]

@[simp ↓] theorem activate_ok (s : State) (h : memOk s.mems) : memOk ((activate s)).mems := by simp [activate, h]

@[simp ↓] theorem swapBack_ok (s : State) (h : memOk s.mems) : memOk (swapBack s).mems := by
  have := swapAreas_ok s h
  unfold swapBack
  dsimp only
  split
  · simp only [mems_mk, mems_fold]
    exact State.norWrite_ok _ _ _ this
  · simpa using this

@[simp ↓] theorem bootTrial_ok (s : State) (h : memOk s.mems) : memOk (bootTrial s).mems := by
  unfold bootTrial
  have hb (s : State) (h : memOk s.mems) := inActivate_ok swapBack s (fun s h => swapBack_ok s h) h
  split
  · rw [bootConfirmed_mems]
    exact hb _ (by simp [h])
  · dsimp only
    split
    · simp [h]
    · rw [bootConfirmed_mems]
      exact hb _ (by simp [h])

@[simp ↓] theorem bootManager_ok (u : StartUp) (s : State) (h : memOk s.mems) : memOk (bootManager u s).mems := by
  unfold bootManager
  have h0 : memOk (atNs u.at4 s).mems := by simp [h]
  dsimp only
  have h1 := ite_ok ((atNs u.at4 s).upd.st = .pending_) _ _ (inActivate_ok activate _ (fun s h => activate_ok s h) h0)
    (ite_ok ((atNs u.at4 s).upd.swapBack = true) _ _ (inActivate_ok swapBack _ (fun s h => swapBack_ok s h) h0) h0)
  refine ite_ok _ _ _ (bootTrial_ok _ h1) ?_
  rw [bootConfirmed_mems]
  exact h1

@[simp ↓] theorem startUp_ok (cause : BitVec 13) (u : StartUp) (s : State) (h : memOk s.mems) :
    memOk (startUp cause u s).mems := by
  have h1 : memOk (settle (tornFlash s)).mems := by rw [settle_mems]; exact tornFlash_ok _ h
  unfold startUp
  dsimp only
  generalize hY : (if u.older.isEmpty = true then settle (tornFlash s) else _) = Y
  have hy : memOk Y.mems := by
    rw [← hY]
    split
    · exact h1
    · simpa only [mems_mk, mems_fold] using h1
  have h3 (m : Mode) : memOk (bootSelftest u (bootTime m u (bootSupply u (afterReset cause u Y)))).mems := by
    simpa using afterReset_ok cause u Y hy
  refine ite_ok _ _ _ (h3 _) ?_
  have h4 := bootManager_ok u _ (h3 Y.sys.mode)
  simpa using h4

@[simp ↓] theorem vsupRise_ok (u : StartUp) (s : State) (h : memOk s.mems) : memOk ((vsupRise u s)).mems := by
  unfold vsupRise
  repeat' first | (simp [h]; done) | split | (dsimp only; split)

@[simp ↓] theorem nrstReset_ok (u : StartUp) (s : State) (h : memOk s.mems) : memOk ((nrstReset u s)).mems := by
  unfold nrstReset
  repeat' first | (simp [h]; done) | split | (dsimp only; split)

@[simp ↓] theorem pfwClear_ok (ball : Bool) (u : StartUp) (s : State) (h : memOk s.mems) : memOk ((pfwClear ball u s)).mems := by
  unfold pfwClear
  repeat' first | (simp [h]; done) | split | (dsimp only; split)

@[simp ↓] theorem degAutoReset_ok (u : StartUp) (s : State) (h : memOk s.mems) :
    memOk ((degAutoReset u s)).mems := by
  unfold degAutoReset
  repeat' first | (simp [h]; done) | split | (dsimp only; split)

@[simp ↓] theorem activationReset_ok (u : StartUp) (s : State) (h : memOk s.mems) :
    memOk ((activationReset u s)).mems := by
  unfold activationReset
  repeat' first | (simp [h]; done) | split | (dsimp only; split)

@[simp ↓] theorem rejectionReset_ok (u : StartUp) (s : State) (h : memOk s.mems) :
    memOk ((rejectionReset u s)).mems := by
  unfold rejectionReset
  repeat' first | (simp [h]; done) | split | (dsimp only; split)

@[simp ↓] theorem trialReset_ok (u : StartUp) (s : State) (h : memOk s.mems) :
    memOk ((trialReset u s)).mems := by
  unfold trialReset
  repeat' first | (simp [h]; done) | split | (dsimp only; split)

end Sys2Proof.Machine
end

