-- ==== Sys2Proof/Laws/KeepSys.lean ====
section
/-! SUPPORT. The operations that leave the SYS block, and with it the mode, as it is. -/

namespace Sys2Proof.Machine

@[simp ↓] theorem forAll_sys {α : Type} (l : List α) (f : State → α → State) (s : State)
    (h : ∀ s x, (f s x).sys = s.sys) : (forAll l f s).sys = s.sys := forAll_keeps State.sys l f s h

@[simp ↓] theorem ite_sys (c : Prop) [Decidable c] (a b : State) :
    (if c then a else b).sys = if c then a.sys else b.sys := apply_ite State.sys c a b

@[simp ↓] theorem checks_sys (s : State) (l : List (Bool × Status)) (k : Reply) (h : k.s.sys = s.sys) :
    (checks s l k).s.sys = s.sys := by
  induction l with
  | nil => exact h
  | cons x r ih => obtain ⟨b, st⟩ := x; cases b <;> simp [checks, ih]

/-! ### Machine/Ops.lean -/

@[simp ↓] theorem State.busOk_sys (s : State) (v : Word) : (State.busOk s v).sys = s.sys := by simp [State.busOk]

@[simp ↓] theorem State.busErr_sys (s : State) : (State.busErr s).sys = s.sys := by simp [State.busErr]

@[simp ↓] theorem State.decodeErr_sys (s : State) (a : Word) (req kind : Nat) :
    (State.decodeErr s a req kind).sys = s.sys := by simp [State.decodeErr]

@[simp ↓] theorem State.tagged_sys (s : State) : (State.tagged s).sys = s.sys := by simp [State.tagged]

@[simp ↓] theorem State.holeErr_sys (s : State) (req a n : Nat) : (State.holeErr s req a n).sys = s.sys := by
  unfold State.holeErr
  split <;> simp

@[simp ↓] theorem holdEngine_sys (s : State) : (holdEngine s).sys = s.sys := by simp [holdEngine]

@[simp ↓] theorem onBlock_sys (k : BlkKind) (n : Nat) (s : State) (f : State → State) (hf : ∀ s, (f s).sys = s.sys) :
    (onBlock k n s f).sys = s.sys := by simp [onBlock, hf]

@[simp ↓] theorem State.modVp_sys (s : State) (n : Port) (f : Vp → Vp) : (State.modVp s n f).sys = s.sys := by simp [State.modVp]

@[simp ↓] theorem State.modPilot_sys (s : State) (n : Port) (f : Pilot → Pilot) :
    (State.modPilot s n f).sys = s.sys := by simp [State.modPilot]

@[simp ↓] theorem State.modLink_sys (s : State) (n : Port) (f : Link → Link) :
    (State.modLink s n f).sys = s.sys := by simp [State.modLink]

@[simp ↓] theorem State.modTls_sys (s : State) (n : Port) (f : Tls → Tls) :
    (State.modTls s n f).sys = s.sys := by simp [State.modTls]

@[simp ↓] theorem State.modRgn_sys (s : State) (r : Fin 16) (f : Region → Region) :
    (State.modRgn s r f).sys = s.sys := by simp [State.modRgn]

@[simp ↓] theorem State.modCh_sys (s : State) (n : ChanId) (f : Chan → Chan) :
    (State.modCh s n f).sys = s.sys := by simp [State.modCh]

@[simp ↓] theorem State.modM_sys (s : State) (m : MeterId) (f : Meter → Meter) :
    (State.modM s m f).sys = s.sys := by simp [State.modM]

@[simp ↓] theorem State.modEth_sys (s : State) (n : Fin 2) (f : Eth → Eth) :
    (State.modEth s n f).sys = s.sys := by simp [State.modEth]

@[simp ↓] theorem State.modCan_sys (s : State) (n : Fin 3) (f : Can → Can) :
    (State.modCan s n f).sys = s.sys := by simp [State.modCan]

@[simp ↓] theorem State.modLoad_sys (s : State) (n : Fin 10) (f : LoadCh → LoadCh) :
    (State.modLoad s n f).sys = s.sys := by simp [State.modLoad]

@[simp ↓] theorem State.modCoil_sys (s : State) (c : Fin 12) (f : Coil → Coil) :
    (State.modCoil s c f).sys = s.sys := by simp [State.modCoil]

@[simp ↓] theorem State.modOut_sys (s : State) (n : Port) (f : Outlet → Outlet) :
    (State.modOut s n f).sys = s.sys := by simp [State.modOut]

@[simp ↓] theorem State.modImd_sys (s : State) (g : Fin 6) (f : Imd → Imd) :
    (State.modImd s g f).sys = s.sys := by simp [State.modImd]

@[simp ↓] theorem State.modConn_sys (s : State) (k : Fin 16) (f : Conn → Conn) :
    (State.modConn s k f).sys = s.sys := by simp [State.modConn]

@[simp ↓] theorem State.modPair_sys (s : State) (j : Fin 8) (f : StopPair → StopPair) :
    (State.modPair s j f).sys = s.sys := by simp [State.modPair]

@[simp ↓] theorem State.modTxn_sys (s : State) (d : Fin 6) (f : TxnDom → TxnDom) :
    (State.modTxn s d f).sys = s.sys := by simp [State.modTxn]

@[simp ↓] theorem State.modCore_sys (s : State) (f : BillCore → BillCore) :
    (State.modCore s f).sys = s.sys := by simp [State.modCore]

@[simp ↓] theorem State.setSess_sys (s : State) (n : Port) (x : Option Session) :
    (State.setSess s n x).sys = s.sys := by simp [State.setSess]

@[simp ↓] theorem State.modSess_sys (s : State) (n : Port) (f : Session → Session) :
    (State.modSess s n f).sys = s.sys := by simp [State.modSess]

@[simp ↓] theorem State.setLofs_sys (s : State) (ms : Nat) : (State.setLofs s ms).sys = s.sys := by simp [State.setLofs]

@[simp ↓] theorem State.draw_sys (s : State) : ((State.draw s).2).sys = s.sys := by simp [State.draw]

@[simp ↓] theorem State.raise_sys (s : State) (n : Nat) : (State.raise s n).sys = s.sys := by simp [State.raise]

@[simp ↓] theorem State.evPut_sys (s : State) (typ source : Nat) (d0 d1 d2 : Word) :
    (State.evPut s typ source d0 d1 d2).sys = s.sys := by simp [State.evPut]

@[simp ↓] theorem State.evRoll_sys (s : State) : (State.evRoll s).sys = s.sys := by simp [State.evRoll]

@[simp ↓] theorem State.evSecond_sys (s : State) :
    (State.evSecond s).sys = s.sys := by simp [State.evSecond]

@[simp ↓] theorem State.evlog_sys (s : State) (typ source : Nat) (d0 d1 d2 : Word) :
    (State.evlog s typ source d0 d1 d2).sys = s.sys := by simp [State.evlog]

@[simp ↓] theorem State.statsCleared_sys (s : State) (block mask : Nat) :
    (State.statsCleared s block mask).sys = s.sys := by simp [State.statsCleared]

@[simp ↓] theorem State.audit_sys (s : State) (typ source reason : Nat) (item old new : Word) :
    (State.audit s typ source reason item old new).sys = s.sys := by simp [State.audit]

@[simp ↓] theorem State.raiseDem_sys (s : State) (n : Port) (cat cause : Nat) (reason : Byte) (why : Why) :
    (State.raiseDem s n cat cause reason why).sys = s.sys := by simp [State.raiseDem]

@[simp ↓] theorem State.demand_sys (s : State) (n : Port) (cat cause : Nat) (reason : Byte) :
    (State.demand s n cat cause reason).sys = s.sys := by simp [State.demand]

@[simp ↓] theorem State.setLedger_sys (s : State) (l : List (Option LedgerEntry)) :
    (State.setLedger s l).sys = s.sys := by simp [State.setLedger]

@[simp ↓] theorem State.flagSpan_sys (s : State) (n : Port) (bits : BitVec 16) :
    (State.flagSpan s n bits).sys = s.sys := by simp [State.flagSpan]

@[simp ↓] theorem State.flagSess_sys (s : State) (n : Port) (bits : BitVec 16) :
    (State.flagSess s n bits).sys = s.sys := by simp [State.flagSess]

@[simp ↓] theorem Reply.ok_sys (s : State) (res : List Word) : ((Reply.ok s res).s).sys = s.sys := by simp

@[simp ↓] theorem Reply.deny_sys (s : State) (st : Status) : ((Reply.deny s st).s).sys = s.sys := by simp

@[simp ↓] theorem Reply.later_sys (s : State) (p : Pending) : ((Reply.later s p).s).sys = s.sys := by simp

@[simp ↓] theorem State.setBox_sys (s : State) (i : MbxId) (x : Mailbox) :
    (State.setBox s i x).sys = s.sys := by simp [State.setBox]

@[simp ↓] theorem versions_sys (i : MbxId) (s : State) : ((versions i s).s).sys = s.sys := by simp [versions]

@[simp ↓] theorem answered_sys (i : MbxId) (r : Reply) : (answered i r).sys = r.s.sys := by
  unfold answered
  dsimp only
  split <;> simp

@[simp ↓] theorem ring_sys (i : MbxId) (body : Nat → Vector Word 16 → State → Reply) (s : State) (hbody : ∀ x0 x1 s, ((body x0 x1 s).s).sys = s.sys) :
    (ring i body s).sys = s.sys := by simp [ring, hbody]

@[simp ↓] theorem mbxCall_sys (i : MbxId) (cmd : Nat) (c : Call) (body : Vector Word 16 → State → Reply) (s : State) (hbody : ∀ x0 s, ((body x0 s).s).sys = s.sys) :
    (mbxCall i cmd c body s).sys = s.sys := by simp [mbxCall, hbody]

@[simp ↓] theorem mbxDone_sys (i : MbxId) (st : Status) (res : List Word) (s : State) :
    (mbxDone i st res s).sys = s.sys := by simp [mbxDone]

/-! ### Machine/Sampling.lean -/

@[simp ↓] theorem fastSample_sys (g : Fin 2) (bits miss : Vector (BitVec 16) 32) (s : State) :
    (fastSample g bits miss s).sys = s.sys := by simp [fastSample]

@[simp ↓] theorem selfCheck_sys (p : Fin 8) (s : State) : (selfCheck p s).sys = s.sys := by
  unfold selfCheck
  repeat' first | (simp; done) | split | (dsimp only; split) | refine (forAll_sys _ _ _ (fun _ _ => ?_)).trans ?_ |
    (dsimp only; refine (forAll_sys _ _ _ (fun _ _ => ?_)).trans ?_)

@[simp ↓] theorem tempTake_sys (s : State) : (tempTake s).sys = s.sys := by simp [tempTake]

@[simp ↓] theorem gainAll_sys (s : State) : (gainAll s).sys = s.sys := by simp [gainAll]

@[simp ↓] theorem resample_sys (g : Fin 2) (idx : Nat) (s : State) : (resample g idx s).sys = s.sys := by simp [resample]

@[simp ↓] theorem refFine_sys (g : Fin 2) (idx : Nat) (ref : ChanId) (s : State) :
    (refFine g idx ref s).sys = s.sys := by simp [refFine]

@[simp ↓] theorem resampFine_sys (g : Fin 2) (idx : Nat) (s : State) : (resampFine g idx s).sys = s.sys := by simp [resampFine]

@[simp ↓] theorem fineChannels_sys (g : Fin 2) (s : State) : (fineChannels g s).sys = s.sys := by simp [fineChannels]

@[simp ↓] theorem State.modAdc_sys (s : State) (a : Fin 4) (f : Adc → Adc) :
    (State.modAdc s a f).sys = s.sys := by simp [State.modAdc]

@[simp ↓] theorem rcFeed_sys (src : Nat) (v : Int) (w : Nat) (s : State) : (rcFeed src v w s).sys = s.sys := by simp [rcFeed]

@[simp ↓] theorem freshTemp_sys (src : Nat) (s : State) : (freshTemp src s).sys = s.sys := by simp [freshTemp]

@[simp ↓] theorem adcCoarse_sys (a : Fin 4) (bits : BitVec 16) (s : State) :
    (adcCoarse a bits s).sys = s.sys := by simp [adcCoarse]

@[simp ↓] theorem takeTemp_sys (src : Nat) (v : BitVec 24) (s : State) :
    (takeTemp src v s).sys = s.sys := by simp [takeTemp]

@[simp ↓] theorem adcFine_sys (a : Fin 4) (s : State) : (adcFine a s).sys = s.sys := by simp [adcFine]

@[simp ↓] theorem dwellStart_sys (a : Fin 4) (k : Nat) (s : State) : (dwellStart a k s).sys = s.sys := by simp [dwellStart]

@[simp ↓] theorem calibrate_sys (a : Fin 4) (s : State) : (calibrate a s).sys = s.sys := by simp [calibrate]

@[simp ↓] theorem storeGain_sys (a : Fin 4) (s : State) : (storeGain a s).sys = s.sys := by simp [storeGain]

@[simp ↓] theorem slotEnd_sys (a : Fin 4) (s : State) : (slotEnd a s).sys = s.sys := by simp [slotEnd]

@[simp ↓] theorem slotResync_sys (a : Fin 4) (changed : Nat → Bool) (s : State) :
    (slotResync a changed s).sys = s.sys := by simp [slotResync]

/-! ### Machine/Meters.lean -/

@[simp ↓] theorem rgwAll_sys (m : MeterId) (s : State) : (rgwAll m s).sys = s.sys := by simp [rgwAll]

@[simp ↓] theorem cutBounds_sys (m : MeterId) (inst : BitVec 64) (s : State) :
    (cutBounds m inst s).sys = s.sys := by simp [cutBounds]

@[simp ↓] theorem gapNow_sys (m : MeterId) (s : State) : (gapNow m s).sys = s.sys := by simp [gapNow]

@[simp ↓] theorem markGap_sys (m : MeterId) (s : State) : (markGap m s).sys = s.sys := by simp [markGap]

@[simp ↓] theorem validAgain_sys (m : MeterId) (s : State) : (validAgain m s).sys = s.sys := by simp [validAgain]

@[simp ↓] theorem rollover_sys (m : MeterId) (exp : Bool) (old : BitVec 160) (s : State) :
    (rollover m exp old s).sys = s.sys := by simp [rollover]

@[simp ↓] theorem pulseQueue_sys (m : MeterId) (s : State) : (pulseQueue m s).sys = s.sys := by simp [pulseQueue]

@[simp ↓] theorem pulseRestart_sys (q : Fin 8) (s : State) : (pulseRestart q s).sys = s.sys := by simp [pulseRestart]

@[simp ↓] theorem setPhseq_sys (m : MeterId) (v : BitVec 2) (s : State) : (setPhseq m v s).sys = s.sys := by simp [setPhseq]

@[simp ↓] theorem phaseStep_sys (m : MeterId) (s : State) : (phaseStep m s).sys = s.sys := by
  unfold phaseStep
  repeat' first | (simp; done) | split | (dsimp only; split)

@[simp ↓] theorem secondSums_sys (m : MeterId) (q : Int) (s : State) : (secondSums m q s).sys = s.sys := by simp [secondSums]

@[simp ↓] theorem bookQ_sys (m : MeterId) (s : State) : ((bookQ m s).2).sys = s.sys := by
  unfold bookQ
  repeat' first | (simp; done) | split | (dsimp only; split)

@[simp ↓] theorem snapTake_sys (m : MeterId) (inst : BitVec 64) (s : State) :
    (snapTake m inst s).sys = s.sys := by simp [snapTake]

@[simp ↓] theorem snapDone_sys (w : SnapWait) (s : State) :
    (snapDone w s).sys = s.sys := by simp [snapDone]

@[simp ↓] theorem snapEnd_sys (s : State) :
    (snapEnd s).sys = s.sys := by
  unfold snapEnd
  repeat' first | (simp; done) | split | (dsimp only; split)

@[simp ↓] theorem meterFine_sys (g : Fin 2) (m : MeterId) (s : State) : (meterFine g m s).sys = s.sys := by simp [meterFine]

@[simp ↓] theorem fineSample_sys (g : Fin 2) (s : State) : (fineSample g s).sys = s.sys := by simp [fineSample]

@[simp ↓] theorem powerCheck_sys (m : MeterId) (s : State) : (powerCheck m s).sys = s.sys := by simp [powerCheck]

@[simp ↓] theorem neutralCheck_sys (m : MeterId) (s : State) : (neutralCheck m s).sys = s.sys := by simp [neutralCheck]

@[simp ↓] theorem neutralFlags_sys (m : MeterId) (s : State) : (neutralFlags m s).sys = s.sys := by simp [neutralFlags]

@[simp ↓] theorem readAcc_sys (a : Vector Word 16) (s : State) : ((readAcc a s).s).sys = s.sys := by
  unfold readAcc
  repeat' first | (simp; done) | split | (dsimp only; split)

@[simp ↓] theorem freeWords_sys (place n : Nat) (s : State) : ((freeWords place n s).2).sys = s.sys := by simp [freeWords]

@[simp ↓] theorem readPq_sys (a : Vector Word 16) (s : State) : ((readPq a s).s).sys = s.sys := by
  unfold readPq
  repeat' first | (simp; done) | split | (dsimp only; split)

@[simp ↓] theorem readHarm_sys (a : Vector Word 16) (s : State) : ((readHarm a s).s).sys = s.sys := by
  unfold readHarm
  repeat' first | (simp; done) | split | (dsimp only; split)

@[simp ↓] theorem readBalance_sys (a : Vector Word 16) (s : State) : ((readBalance a s).s).sys = s.sys := by
  unfold readBalance
  repeat' first | (simp; done) | split | (dsimp only; split)

@[simp ↓] theorem clearStats_sys (mask : BitVec 6) (s : State) : (clearStats mask s).sys = s.sys := by simp [clearStats]

@[simp ↓] theorem clearStatsCall_sys (a : Vector Word 16) (s : State) :
    ((clearStatsCall a s).s).sys = s.sys := by simp [clearStatsCall]

/-! ### Machine/DispReq.lean -/

@[simp ↓] theorem State.putRequest_sys (s : State) (r : Fin 16) (q : PendUpd) :
    (State.putRequest s r q).sys = s.sys := by
  unfold State.putRequest
  repeat' first | (simp; done) | split | (dsimp only; split)

@[simp ↓] theorem State.legalReq_sys (s : State) (n : Port) : (State.legalReq s n).sys = s.sys := by
  unfold State.legalReq
  repeat' first | (simp; done) | split | (dsimp only; split)

/-! ### Machine/TimeBase.lean -/

@[simp ↓] theorem rtcMove_sys (n : Int) (s : State) : (rtcMove n s).sys = s.sys := by simp [rtcMove]

@[simp ↓] theorem rtcRun_sys (n : Nat) (s : State) : (rtcRun n s).sys = s.sys := by simp [rtcRun]

@[simp ↓] theorem rtcTick_sys (s : State) : (rtcTick s).sys = s.sys := by simp [rtcTick]

@[simp ↓] theorem refPeriod_sys (s : State) : (refPeriod s).sys = s.sys := by simp [refPeriod]

@[simp ↓] theorem rtcLoad_sys (s : State) : (rtcLoad s).sys = s.sys := by simp [rtcLoad]

@[simp ↓] theorem rtcReading_sys (t : BitVec 12) (n : Nat) (s : State) :
    (rtcReading t n s).sys = s.sys := by simp [rtcReading]

@[simp ↓] theorem refdevMeasure_sys (dev : BitVec 16) (s : State) : (refdevMeasure dev s).sys = s.sys := by simp [refdevMeasure]

@[simp ↓] theorem vbakMeasure_sys (v : Byte) (s : State) : (vbakMeasure v s).sys = s.sys := by simp [vbakMeasure]

@[simp ↓] theorem evlDropSecond_sys (s : State) : (evlDropSecond s).sys = s.sys := by simp [evlDropSecond]

@[simp ↓] theorem evlClrcnt_sys (s : State) : (evlClrcnt s).sys = s.sys := by simp [evlClrcnt]

/-! ### Machine/Billing.lean -/

@[simp ↓] theorem State.pushRecord_sys (s : State) (rtype : Nat) (flags : BitVec 16) (port : Option Port) (body : List Byte) :
    (State.pushRecord s rtype flags port body).sys = s.sys := by simp [State.pushRecord]

@[simp ↓] theorem State.journal_sys (s : State) (save : Bool) : (State.journal s save).sys = s.sys := by simp [State.journal]

@[simp ↓] theorem closeSlice_sys (m : MeterId) (s : State) : (closeSlice m s).sys = s.sys := by simp [closeSlice]

@[simp ↓] theorem closeSlices_sys (s : State) : (closeSlices s).sys = s.sys := by simp [closeSlices]

@[simp ↓] theorem meterEnable_sys (m : MeterId) (reason : Nat) (s : State) :
    (meterEnable m reason s).sys = s.sys := by simp [meterEnable]

@[simp ↓] theorem setTariff_sys (s : State) : (setTariff s).sys = s.sys := by simp [setTariff]

@[simp ↓] theorem balance_sys (durNs : Nat) (outage split : Bool) (s : State) :
    ((balance durNs outage split s).2.2).sys = s.sys := by
  unfold balance
  repeat' first | (simp; done) | split | (dsimp only; split)

@[simp ↓] theorem endPart_sys (bits : BitVec 16) (s : State) : ((endPart bits s).2).sys = s.sys := by simp [endPart]

@[simp ↓] theorem writeDemand_sys (c : ClosedPart) (count : Nat) (s : State) :
    (writeDemand c count s).sys = s.sys := by simp [writeDemand]

@[simp ↓] theorem openPart_sys (lt : Int) (bits : BitVec 16) (s : State) :
    (openPart lt bits s).sys = s.sys := by simp [openPart]

@[simp ↓] theorem closePart_sys (bits : BitVec 16) (next : Int) (s : State) :
    (closePart bits next s).sys = s.sys := by simp [closePart]

@[simp ↓] theorem demandClose_sys (at_ : Int) (s : State) : (demandClose at_ s).sys = s.sys := by simp [demandClose]

@[simp ↓] theorem writePeriod_sys (at_ : Int) (m : MeterId) (s : State) :
    (writePeriod at_ m s).sys = s.sys := by simp [writePeriod]

@[simp ↓] theorem periodClose_sys (at_ : Int) (s : State) : (periodClose at_ s).sys = s.sys := by simp [periodClose]

@[simp ↓] theorem tariffSwitch_sys (ms : Int) (s : State) : (tariffSwitch ms s).sys = s.sys := by simp [tariffSwitch]

@[simp ↓] theorem minuteBoundaries_sys (min : Int) (s : State) : (minuteBoundaries min s).sys = s.sys := by simp [minuteBoundaries]

@[simp ↓] theorem passBoundaries_sys (t0 t1 : Int) (s : State) : (passBoundaries t0 t1 s).sys = s.sys := by simp [passBoundaries]

@[simp ↓] theorem writeHeld_sys (s : State) : (writeHeld s).sys = s.sys := by simp [writeHeld]

@[simp ↓] theorem outageBoundaries_sys (t0 t1 : Int) (s : State) : (outageBoundaries t0 t1 s).sys = s.sys := by simp [outageBoundaries]

@[simp ↓] theorem dueDemand_sys (s : State) : (dueDemand s).sys = s.sys := by
  unfold dueDemand
  repeat' first | (simp; done) | split | (dsimp only; split)

@[simp ↓] theorem duePeriod_sys (s : State) : (duePeriod s).sys = s.sys := by
  unfold duePeriod
  repeat' first | (simp; done) | split | (dsimp only; split)

@[simp ↓] theorem dueBoundaries_sys (s : State) : (dueBoundaries s).sys = s.sys := by simp [dueBoundaries]

@[simp ↓] theorem cancelSession_sys (n : Port) (cause : Nat) (s : State) :
    (cancelSession n cause s).sys = s.sys := by
  unfold cancelSession
  repeat' first | (simp; done) | split | (dsimp only; split)

@[simp ↓] theorem openSession_sys (n : Port) (m : MeterId) (auth : Nat) (ext : List Byte) (token : Option Token) (s : State) :
    (openSession n m auth ext token s).sys = s.sys := by
  unfold openSession
  repeat' first | (simp; done) | split | (dsimp only; split)

@[simp ↓] theorem sessionOpen_sys (a : Vector Word 16) (s : State) : ((sessionOpen a s).s).sys = s.sys := by
  unfold sessionOpen
  repeat' first | (simp; done) | split | (dsimp only; split)

@[simp ↓] theorem sessionCancel_sys (a : Vector Word 16) (s : State) : ((sessionCancel a s).s).sys = s.sys := by
  unfold sessionCancel
  repeat' first | (simp; done) | split | (dsimp only; split)

@[simp ↓] theorem sessionStatus_sys (a : Vector Word 16) (s : State) : ((sessionStatus a s).s).sys = s.sys := by
  unfold sessionStatus
  repeat' first | (simp; done) | split | (dsimp only; split)

@[simp ↓] theorem markStart_sys (n : Port) (s : State) : (markStart n s).sys = s.sys := by simp [markStart]

@[simp ↓] theorem startCut_sys (n : Port) (s : State) : (startCut n s).sys = s.sys := by
  unfold startCut
  repeat' first | (simp; done) | split | (dsimp only; split)

@[simp ↓] theorem markStop_sys (n : Port) (reason : Byte) (s : State) :
    (markStop n reason s).sys = s.sys := by simp [markStop]

@[simp ↓] theorem stopValues_sys (n : Port) (s : State) : (stopValues n s).sys = s.sys := by
  unfold stopValues
  repeat' first | (simp; done) | split | (dsimp only; split)

@[simp ↓] theorem freezeStop_sys (n : Port) (reason : Byte) (s : State) :
    (freezeStop n reason s).sys = s.sys := by
  unfold freezeStop
  repeat' first | (simp; done) | split | (dsimp only; split)

@[simp ↓] theorem writeStop_sys (n : Port) (s : State) : (writeStop n s).sys = s.sys := by
  unfold writeStop
  repeat' first | (simp; done) | split | (dsimp only; split)

@[simp ↓] theorem stopCut_sys (n : Port) (s : State) : (stopCut n s).sys = s.sys := by simp [stopCut]

@[simp ↓] theorem markShift_sys (s : State) : (markShift s).sys = s.sys := by simp [markShift]

@[simp ↓] theorem adjustCut_sys (old : Nat) (adj : Int) (new : Nat) (s : State) :
    (adjustCut old adj new s).sys = s.sys := by simp [adjustCut]

@[simp ↓] theorem firstCut_sys (new : Nat) (s : State) : (firstCut new s).sys = s.sys := by simp [firstCut]

@[simp ↓] theorem backCut_sys (new : Nat) (s : State) : (backCut new s).sys = s.sys := by simp [backCut]

@[simp ↓] theorem commitCut_sys (cal part bp : Bool) (s : State) :
    (commitCut cal part bp s).sys = s.sys := by simp [commitCut]

@[simp ↓] theorem atBound_sys (k : BoundKind) (s : State) : (atBound k s).sys = s.sys := by
  unfold atBound
  repeat' first | (simp; done) | split | (dsimp only; split)

@[simp ↓] theorem keepBound_sys (s t : State) : (keepBound s t).sys = t.sys := by
  unfold keepBound
  split <;> simp

@[simp ↓] theorem asOf_sys (b : Bound) (f : State → State) (s : State) (hf : ∀ s, (f s).sys = s.sys) :
    (asOf b f s).sys = s.sys := by simp [asOf, hf]

@[simp ↓] theorem endBound_sys (b : Bound) (s : State) : (endBound b s).sys = s.sys := by simp [endBound]

@[simp ↓] theorem runBounds_sys (all : Bool) (n : Nat) (s : State) : (runBounds all n s).sys = s.sys := by
  induction n generalizing s with
  | zero => rfl
  | succ n ih =>
    unfold runBounds
    split
    · rfl
    · split <;> simp [ih]

@[simp ↓] theorem settleBounds_sys (s : State) : (settleBounds s).sys = s.sys := by simp [settleBounds]

@[simp ↓] theorem flushBounds_sys (s : State) : (flushBounds s).sys = s.sys := by simp [flushBounds]

@[simp ↓] theorem boundary_sys (k : BoundKind) (s : State) : (boundary k s).sys = s.sys := by simp [boundary]

@[simp ↓] theorem sessionStart_sys (n : Port) (s : State) : (sessionStart n s).sys = s.sys := by
  unfold sessionStart
  repeat' first | (simp; done) | split | (dsimp only; split)

@[simp ↓] theorem sessionStop_sys (n : Port) (reason : Byte) (s : State) :
    (sessionStop n reason s).sys = s.sys := by
  unfold sessionStop
  repeat' first | (simp; done) | split | (dsimp only; split)

@[simp ↓] theorem snapshot_sys (a : Vector Word 16) (s : State) : ((snapshot a s).s).sys = s.sys := by simp [snapshot]

@[simp ↓] theorem storeRecord_sys (r : Record) (s : State) : (storeRecord r s).sys = s.sys := by
  unfold storeRecord
  repeat' first | (simp; done) | split | (dsimp only; split)

@[simp ↓] theorem afterSign_sys (r : Record) (s : State) : (afterSign r s).sys = s.sys := by
  unfold afterSign
  repeat' first | (simp; done) | split | (dsimp only; split)

@[simp ↓] theorem signDone_sys (s : State) : (signDone s).sys = s.sys := by
  unfold signDone
  repeat' first | (simp; done) | split | (dsimp only; split)

/-! ### Machine/Records.lean -/

@[simp ↓] theorem readRecord_sys (a : Vector Word 16) (s : State) : ((readRecord a s).s).sys = s.sys := by
  unfold readRecord
  repeat' first | (simp; done) | split | (dsimp only; split)

@[simp ↓] theorem ackRecord_sys (a : Vector Word 16) (s : State) : ((ackRecord a s).s).sys = s.sys := by simp [ackRecord]

@[simp ↓] theorem readDemand_sys (a : Vector Word 16) (s : State) : ((readDemand a s).s).sys = s.sys := by
  unfold readDemand
  repeat' first | (simp; done) | split | (dsimp only; split)

@[simp ↓] theorem readOcmf_sys (a : Vector Word 16) (s : State) : ((readOcmf a s).s).sys = s.sys := by simp [readOcmf]

@[simp ↓] theorem ocmfDone_sys (s : State) : (ocmfDone s).sys = s.sys := by
  unfold ocmfDone
  repeat' first | (simp; done) | split | (dsimp only; split)

@[simp ↓] theorem archiveBegin_sys (a : Vector Word 16) (s : State) : ((archiveBegin a s).s).sys = s.sys := by
  unfold archiveBegin
  repeat' first | (simp; done) | split | (dsimp only; split)

@[simp ↓] theorem sealDone_sys (s : State) : (sealDone s).sys = s.sys := by
  unfold sealDone
  repeat' first | (simp; done) | split | (dsimp only; split)

@[simp ↓] theorem archiveCommit_sys (a : Vector Word 16) (s : State) : ((archiveCommit a s).s).sys = s.sys := by
  unfold archiveCommit
  repeat' first | (simp; done) | split | (dsimp only; split)

@[simp ↓] theorem creditCheck_sys (n : Port) (s : State) : (creditCheck n s).sys = s.sys := by
  unfold creditCheck
  repeat' first | (simp; done) | split | (dsimp only; split)

/-! ### Machine/Tokens.lean -/

@[simp ↓] theorem State.modTok_sys (s : State) (f : Tokens → Tokens) : (State.modTok s f).sys = s.sys := by simp [State.modTok]

@[simp ↓] theorem endEntry_sys (port : Option Port) (code : Byte) (t : Option Token) (s : State) :
    (endEntry port code t s).sys = s.sys := by
  unfold endEntry
  repeat' first | (simp; done) | split | (dsimp only; split)

@[simp ↓] theorem countInvalid_sys (s : State) : (countInvalid s).sys = s.sys := by
  unfold countInvalid
  repeat' first | (simp; done) | split | (dsimp only; split)

@[simp ↓] theorem tokenDecode_sys (keys : List (BitVec 4)) (s : State) : (tokenDecode keys s).sys = s.sys := by
  unfold tokenDecode
  repeat' first | (simp; done) | split | (dsimp only; split)

@[simp ↓] theorem tokenKey_sys (k : BitVec 4) (s : State) : (tokenKey k s).sys = s.sys := by
  unfold tokenKey
  repeat' first | (simp; done) | split | (dsimp only; split)

@[simp ↓] theorem tokenStart_sys (s : State) : (tokenStart s).sys = s.sys := by simp [tokenStart]

@[simp ↓] theorem discardTokens_sys (s : State) : (discardTokens s).sys = s.sys := by simp [discardTokens]

@[simp ↓] theorem tokenResult_sys (a_ : Vector Word 16) (s : State) : ((tokenResult a_ s).s).sys = s.sys := by
  unfold tokenResult
  repeat' first | (simp; done) | split | (dsimp only; split)

@[simp ↓] theorem denyCode_sys (s : State) (code : Word) : ((denyCode s code).s).sys = s.sys := by simp [denyCode]

@[simp ↓] theorem bindToken_sys (n : Port) (m : MeterId) (t : Token) (ext : List Byte) (s : State) :
    ((bindToken n m t ext s).s).sys = s.sys := by simp [bindToken]

@[simp ↓] theorem tokenOpen_sys (a : Vector Word 16) (s : State) : ((tokenOpen a s).s).sys = s.sys := by
  unfold tokenOpen
  repeat' first | (simp; done) | split | (dsimp only; split)

@[simp ↓] theorem tokenDiscard_sys (a : Vector Word 16) (s : State) : ((tokenDiscard a s).s).sys = s.sys := by
  unfold tokenDiscard
  repeat' first | (simp; done) | split | (dsimp only; split)

@[simp ↓] theorem ledgerRead_sys (a : Vector Word 16) (s : State) : ((ledgerRead a s).s).sys = s.sys := by simp [ledgerRead]

@[simp ↓] theorem tokenKeyLoad_sys (a : Vector Word 16) (s : State) : ((tokenKeyLoad a s).s).sys = s.sys := by
  unfold tokenKeyLoad
  repeat' first | (simp; done) | split | (dsimp only; split)

@[simp ↓] theorem tokenKeyInfo_sys (a : Vector Word 16) (s : State) : ((tokenKeyInfo a s).s).sys = s.sys := by
  unfold tokenKeyInfo
  repeat' first | (simp; done) | split | (dsimp only; split)

/-! ### Machine/LoadSw.lean -/

@[simp ↓] theorem genPeriod_sys (g : Fin 2) (start : BitVec 64) (s : State) :
    (genPeriod g start s).sys = s.sys := by simp [genPeriod]

@[simp ↓] theorem genSync_sys (s : State) : (genSync s).sys = s.sys := by simp [genSync]

@[simp ↓] theorem openWindow_sys (n : Fin 10) (s : State) : (openWindow n s).sys = s.sys := by simp [openWindow]

@[simp ↓] theorem pulseStep_sys (s : State) : (pulseStep s).sys = s.sys := by simp [pulseStep]

@[simp ↓] theorem loadOne_sys (s : State) (n : Fin 10) : (loadOne s n).sys = s.sys := by simp [loadOne]

@[simp ↓] theorem loadAll_sys (s : State) : (loadAll s).sys = s.sys := by simp [loadAll]

@[simp ↓] theorem loadAt_sys (c : Nat) (s : State) : (loadAt c s).sys = s.sys := by
  unfold loadAt
  repeat' first | (simp; done) | split | (dsimp only; split)

@[simp ↓] theorem shedReenable_sys (s : State) : (shedReenable s).sys = s.sys := by
  unfold shedReenable
  repeat' first | (simp; done) | split | (dsimp only; split)

@[simp ↓] theorem loadClrLatch_sys (n : Fin 10) (cool : Bool) (s : State) :
    (loadClrLatch n cool s).sys = s.sys := by simp [loadClrLatch]

@[simp ↓] theorem loadThermal_sys (n : Fin 10) (guard : Bool) (temp : BitVec 16) (s : State) :
    (loadThermal n guard temp s).sys = s.sys := by simp [loadThermal]

@[simp ↓] theorem loadRestart_sys (n : Fin 10) (s : State) : (loadRestart n s).sys = s.sys := by simp [loadRestart]

@[simp ↓] theorem loadSense_sys (ch : BitVec 4) (s : State) : (loadSense ch s).sys = s.sys := by simp [loadSense]

@[simp ↓] theorem senseTest_sys (s : State) : (senseTest s).sys = s.sys := by simp [senseTest]

@[simp ↓] theorem loadWdStart_sys (s : State) : (loadWdStart s).sys = s.sys := by simp [loadWdStart]

@[simp ↓] theorem loadWdExpire_sys (cause : BitVec 2) (s : State) : (loadWdExpire cause s).sys = s.sys := by simp [loadWdExpire]

@[simp ↓] theorem loadService_sys (resp : BitVec 16) (s : State) : (loadService resp s).sys = s.sys := by simp [loadService]

@[simp ↓] theorem loadWdrel_sys (s : State) : (loadWdrel s).sys = s.sys := by simp [loadWdrel]

@[simp ↓] theorem loadClrcnt_sys (s : State) : (loadClrcnt s).sys = s.sys := by simp [loadClrcnt]

/-! ### Machine/Pilot.lean -/

@[simp ↓] theorem linkLost_sys (s : State) (n : Port) : (linkLost s n).sys = s.sys := by simp [linkLost]

@[simp ↓] theorem setPState_sys (s : State) (n : Port) (st : PState) : (setPState s n st).sys = s.sys := by simp [setPState]

@[simp ↓] theorem imposeOverride_sys (s : State) (n : Port) : (imposeOverride s n).sys = s.sys := by
  unfold imposeOverride
  repeat' first | (simp; done) | split | (dsimp only; split)

@[simp ↓] theorem showState_sys (s : State) (n : Port) : (showState s n).sys = s.sys := by simp [showState]

@[simp ↓] theorem setClass_sys (s : State) (n : Port) (k : PState) : (setClass s n k).sys = s.sys := by simp [setClass]

@[simp ↓] theorem pilotsStart_sys (s : State) : (pilotsStart s).sys = s.sys := by simp [pilotsStart]

@[simp ↓] theorem classify_sys (s : State) (n : Port) (vh : Option Int) : (classify s n vh).sys = s.sys := by
  unfold classify
  repeat' first | (simp; done) | split | (dsimp only; split)

@[simp ↓] theorem measurePeriod_sys (s : State) (n : Port) (samples : List (BitVec 12)) :
    (measurePeriod s n samples).sys = s.sys := by
  unfold measurePeriod
  repeat' first | (simp; done) | split | (dsimp only; split)

@[simp ↓] theorem nextPeriod_sys (s : State) (n : Port) : (nextPeriod s n).sys = s.sys := by simp [nextPeriod]

@[simp ↓] theorem pilotPeriodEnd_sys (n : Port) (samples : List (BitVec 12)) (s : State) :
    (pilotPeriodEnd n samples s).sys = s.sys := by simp [pilotPeriodEnd]

@[simp ↓] theorem pilotCtl_sys (n : Port) (w : Word) (s : State) : (pilotCtl n w s).sys = s.sys := by simp [pilotCtl]

@[simp ↓] theorem pevtClrcnt_sys (n : Port) (s : State) : (pevtClrcnt n s).sys = s.sys := by simp [pevtClrcnt]

/-! ### Machine/Link.lean -/

@[simp ↓] theorem mmeLimit_sys (s : State) (n : Port) : ((mmeLimit s n).2).sys = s.sys := by
  unfold mmeLimit
  repeat' first | (simp; done) | split | (dsimp only; split)

@[simp ↓] theorem hearMme_sys (n : Port) (f : State → State) (s : State) (hf : ∀ s, (f s).sys = s.sys) :
    (hearMme n f s).sys = s.sys := by simp [hearMme, hf]

@[simp ↓] theorem startAtten_sys (n : Port) (mac : BitVec 48) (run : BitVec 64) (announced : Nat) (s : State) :
    (startAtten n mac run announced s).sys = s.sys := by simp [startAtten]

@[simp ↓] theorem sounding_sys (n : Port) (mac : BitVec 48) (run : BitVec 64) (groups : List Nat) (s : State) :
    (sounding n mac run groups s).sys = s.sys := by simp [sounding]

@[simp ↓] theorem soundInd_sys (n : Port) (mac : BitVec 48) (run : BitVec 64) (groups : List Nat) (s : State) :
    (soundInd n mac run groups s).sys = s.sys := by simp [soundInd]

@[simp ↓] theorem windowClose_sys (mac : BitVec 48) (run : BitVec 64) (s : State) :
    (windowClose mac run s).sys = s.sys := by
  unfold windowClose
  repeat' first | (simp; done) | split | (dsimp only; split)

@[simp ↓] theorem slacMatch_sys (n : Port) (mac : BitVec 48) (run : BitVec 64) (s : State) :
    (slacMatch n mac run s).sys = s.sys := by simp [slacMatch]

@[simp ↓] theorem slacRearm_sys (n : Port) (s : State) : (slacRearm n s).sys = s.sys := by simp [slacRearm]

@[simp ↓] theorem announce_sys (src : Fin 4) (at_ : Nat) (s : State) : (announce src at_ s).sys = s.sys := by simp [announce]

@[simp ↓] theorem storeFrame_sys (n : Port) (frame : List Byte) (erased blanked : Nat) (xr6 : Bool) (s : State) :
    (storeFrame n frame erased blanked xr6 s).sys = s.sys := by simp [storeFrame]

@[simp ↓] theorem t1sUp_sys (n : Port) (s : State) : (t1sUp n s).sys = s.sys := by simp [t1sUp]

@[simp ↓] theorem takeFrame_sys (n : Port) (own xr6 : Bool) (frame : List Byte) (erased blanked : Nat) (s : State) :
    (takeFrame n own xr6 frame erased blanked s).sys = s.sys := by simp [takeFrame]

@[simp ↓] theorem frameReceive_sys (n : Port) (kind : FrameKind) (frame : List Byte) (samples : List Int) (s : State) :
    (frameReceive n kind frame samples s).sys = s.sys := by
  unfold frameReceive
  repeat' first | (simp; done) | split | (dsimp only; split)

@[simp ↓] theorem txPush_sys (n : Port) (w : Word) (s : State) : (txPush n w s).sys = s.sys := by simp [txPush]

@[simp ↓] theorem frameSent_sys (n : Port) (air : Nat) (s : State) : (frameSent n air s).sys = s.sys := by
  unfold frameSent
  repeat' first | (simp; done) | split | (dsimp only; split)

@[simp ↓] theorem levtClrcnt_sys (n : Port) (s : State) : (levtClrcnt n s).sys = s.sys := by simp [levtClrcnt]

@[simp ↓] theorem tlsKeyWord_sys (n : Port) (w : Word) (s : State) : (tlsKeyWord n w s).sys = s.sys := by simp [tlsKeyWord]

@[simp ↓] theorem tlsInstall_sys (rx : Bool) (n : Port) (s : State) : (tlsInstall rx n s).sys = s.sys := by simp [tlsInstall]

@[simp ↓] theorem tlsClear_sys (n : Port) (s : State) : (tlsClear n s).sys = s.sys := by simp [tlsClear]

@[simp ↓] theorem tlsQueue_sys (n : Port) (rx : Bool) (ctype : Byte) (len : Nat) (s : State) :
    (tlsQueue n rx ctype len s).sys = s.sys := by simp [tlsQueue]

/-! ### Machine/Caldera.lean -/

@[simp ↓] theorem setLims_sys (n : Port) (vEv iEv : Nat) (s : State) : (setLims n vEv iEv s).sys = s.sys := by simp [setLims]

@[simp ↓] theorem formLims_sys (s : State) :
    (formLims s).sys = s.sys := by
  refine forAll_sys _ _ _ fun s n => ?_
  split <;> simp

@[simp ↓] theorem leaveUnproven_sys (s : State) :
    (leaveUnproven s).sys = s.sys := by simp [leaveUnproven]

@[simp ↓] theorem State.slogPut_sys (s : State) (typ source : Nat) (d0 d1 : Word) (prot : Bool) :
    (State.slogPut s typ source d0 d1 prot).sys = s.sys := by simp [State.slogPut]

@[simp ↓] theorem State.sfEvt_sys (s : State) (bit : Nat) : (State.sfEvt s bit).sys = s.sys := by simp [State.sfEvt]

@[simp ↓] theorem State.poolEvt_sys (s : State) (bit : Nat) : (State.poolEvt s bit).sys = s.sys := by simp [State.poolEvt]

@[simp ↓] theorem State.siEvt_sys (s : State) (bit : Nat) : (State.siEvt s bit).sys = s.sys := by simp [State.siEvt]

@[simp ↓] theorem releaseModule_sys (m : Fin 48) (s : State) : (releaseModule m s).sys = s.sys := by simp [releaseModule]

@[simp ↓] theorem releaseOutlet_sys (n : Port) (s : State) : (releaseOutlet n s).sys = s.sys := by simp [releaseOutlet]

@[simp ↓] theorem endClose_sys (c : Fin 12) (st : Status) (s : State) : (endClose c st s).sys = s.sys := by simp [endClose]

@[simp ↓] theorem countEm_sys (c : Fin 12) (amps : Nat) (s : State) : (countEm c amps s).sys = s.sys := by simp [countEm]

@[simp ↓] theorem coilOff_sys (c : Fin 12) (emergency : Bool) (s : State) :
    (coilOff c emergency s).sys = s.sys := by simp [coilOff]

@[simp ↓] theorem announceOpen_sys (c : Fin 12) (s : State) : (announceOpen c s).sys = s.sys := by simp [announceOpen]

@[simp ↓] theorem startRamp_sys (n : Port) (c : Fin 12) (s : State) : (startRamp n c s).sys = s.sys := by simp [startRamp]

@[simp ↓] theorem actStop_sys (n : Port) (c : Fin 12) (cat : Nat) (s : State) :
    (actStop n c cat s).sys = s.sys := by
  unfold actStop
  repeat' first | (simp; done) | split | (dsimp only; split)

@[simp ↓] theorem endDemands_sys (n : Port) (s : State) : (endDemands n s).sys = s.sys := by simp [endDemands]

@[simp ↓] theorem seqCheck_sys (s : State) : (seqCheck s).sys = s.sys := by simp [seqCheck]

@[simp ↓] theorem dropTies_sys (n : Port) (s : State) : (dropTies n s).sys = s.sys := by
  unfold dropTies
  split
  · rfl
  · rw [seqCheck_sys]
    refine forAll_sys _ _ _ fun s c => ?_
    split
    · split <;> simp
    · rfl

@[simp ↓] theorem accept_sys (r : Raise) (s : State) : (accept r s).sys = s.sys := by
  unfold accept
  repeat' first | (simp; done) | split | (dsimp only; split)

@[simp ↓] theorem acceptAll_sys (s : State) : (acceptAll s).sys = s.sys := by simp [acceptAll]

@[simp ↓] theorem pilotHold_sys (n : Port) (on : Bool) (s : State) : (pilotHold n on s).sys = s.sys := by simp [pilotHold]

/-! ### Machine/CanBus.lean -/

@[simp ↓] theorem canReceive_sys (b : Fin 3) (f : CanFrame) (s : State) : (canReceive b f s).sys = s.sys := by simp [canReceive]

@[simp ↓] theorem canTransmit_sys (b : Fin 3) (sent : Bool) (s : State) :
    (canTransmit b sent s).sys = s.sys := by
  unfold canTransmit
  repeat' first | (simp; done) | split | (dsimp only; split)

@[simp ↓] theorem canTimeout_sys (b : Fin 3) (s : State) : (canTimeout b s).sys = s.sys := by simp [canTimeout]

@[simp ↓] theorem sfLoad_sys (b : Fin 3) (e : Fin 16) (s : State) : (sfLoad b e s).sys = s.sys := by simp [sfLoad]

@[simp ↓] theorem sfClear_sys (b : Fin 3) (e : Fin 16) (s : State) : (sfClear b e s).sys = s.sys := by simp [sfClear]

@[simp ↓] theorem sfEntry_sys (b : Fin 3) (e : Fin 16) (s : State) : (sfEntry b e s).sys = s.sys := by simp [sfEntry]

@[simp ↓] theorem canRecov_sys (b : Fin 3) (s : State) : (canRecov b s).sys = s.sys := by simp [canRecov]

@[simp ↓] theorem canState_sys (b : Fin 3) (st : CanState) (s : State) : (canState b st s).sys = s.sys := by simp [canState]

@[simp ↓] theorem canRecovered_sys (b : Fin 3) (s : State) : (canRecovered b s).sys = s.sys := by simp [canRecovered]

@[simp ↓] theorem canErrors_sys (b : Fin 3) (tec rcc : Byte) (s : State) :
    (canErrors b tec rcc s).sys = s.sys := by simp [canErrors]

@[simp ↓] theorem canBusOff_sys (b : Fin 3) (s : State) : (canBusOff b s).sys = s.sys := by simp [canBusOff]

@[simp ↓] theorem canClrcnt_sys (b : Fin 3) (s : State) : (canClrcnt b s).sys = s.sys := by simp [canClrcnt]

@[simp ↓] theorem gpioSet_sys (f : Gpio → Gpio) (s : State) : (gpioSet f s).sys = s.sys := by simp [gpioSet]

/-! ### Machine/Irq.lean -/

@[simp ↓] theorem plicClaim_sys (ctx : Fin 8) (s : State) : (plicClaim ctx s).sys = s.sys := by simp [plicClaim]

@[simp ↓] theorem plicComplete_sys (ctx : Fin 8) (src : Word) (s : State) :
    (plicComplete ctx src s).sys = s.sys := by simp [plicComplete]

/-! ### Machine/Mem.lean -/

@[simp ↓] theorem State.ramWrite_sys (s : State) (a : Nat) (bs : List Byte) :
    (State.ramWrite s a bs).sys = s.sys := by simp [State.ramWrite]

@[simp ↓] theorem State.norWrite_sys (s : State) (o : Nat) (bs : List Byte) :
    (State.norWrite s o bs).sys = s.sys := by simp [State.norWrite]

@[simp ↓] theorem State.norErase_sys (s : State) (o n : Nat) : (State.norErase s o n).sys = s.sys := by simp [State.norErase]

@[simp ↓] theorem State.eccErrs_sys (s : State) (k a req : Nat) :
    (State.eccErrs s k a req).sys = s.sys := by simp [State.eccErrs]

@[simp ↓] theorem State.eccErr_sys (s : State) (a : Nat) (req : Nat) : (State.eccErr s a req).sys = s.sys := by simp [State.eccErr]

@[simp ↓] theorem State.eccRun_sys (s : State) (a n req : Nat) :
    (State.eccRun s a n req).sys = s.sys := by simp [State.eccRun]

@[simp ↓] theorem parRecord_sys (req : Nat) (a : Word) (onResponse : Bool) (s : State) :
    (parRecord req a onResponse s).sys = s.sys := by simp [parRecord]

@[simp ↓] theorem State.mark_sys (s : State) (a : Nat) : (State.mark s a).sys = s.sys := by simp [State.mark]

@[simp ↓] theorem State.srcBytes_sys (s : State) (req a n : Nat) : (State.srcBytes s req a n).2.sys = s.sys := by
  unfold State.srcBytes
  repeat' first | (simp; done) | split | (dsimp only; split)

theorem ramStore_sys (s t : State) (a : Nat) (bs : List Byte) (h : ramStore s a bs = some t) : t.sys = s.sys := by
  unfold ramStore at h
  dsimp only at h
  split at h
  · cases h
  · cases h; simp

@[simp] theorem ramStore_getD_sys (s : State) (a : Nat) (bs : List Byte) : ((ramStore s a bs).getD s).sys = s.sys := by
  cases h : ramStore s a bs with
  | none => rfl
  | some t => exact ramStore_sys s t a bs h

@[simp ↓] theorem State.appWrite_sys (s : State) (req a : Nat) (bs : List Byte) :
    (State.appWrite s req a bs).sys = s.sys := by
  unfold State.appWrite
  dsimp only
  split
  · split
    · rename_i h; rw [ramStore_sys _ _ _ _ h, State.tagged_sys]
    · simp
  · simp

/-! ### Machine/Tls.lean -/

@[simp ↓] theorem tlsEnd_sys (n : Port) (rx : Bool) (res olen : Nat) (itype : Option Byte) (s : State) :
    (tlsEnd n rx res olen itype s).sys = s.sys := by simp [tlsEnd]

@[simp ↓] theorem tlsOk_sys (n : Port) (rx : Bool) (dst : Word) (out : List Byte) (itype : Option Byte) (s : State) :
    (tlsOk n rx dst out itype s).sys = s.sys := by simp [tlsOk]

@[simp ↓] theorem tlsTxDone_sys (n : Port) (o : TlsOp) (suite : Nat) (k : TlsKeys) (seq : Nat) (s : State) :
    (tlsTxDone n o suite k seq s).sys = s.sys := by simp [tlsTxDone]

@[simp ↓] theorem tlsRxDone_sys (n : Port) (o : TlsOp) (suite : Nat) (k : TlsKeys) (seq : Nat) (s : State) :
    (tlsRxDone n o suite k seq s).sys = s.sys := by
  unfold tlsRxDone
  repeat' first | (simp; done) | split | (dsimp only; split)

@[simp ↓] theorem tlsServe_sys (n : Port) (rx : Bool) (s : State) : (tlsServe n rx s).sys = s.sys := by
  unfold tlsServe
  repeat' first | (simp; done) | split | (dsimp only; split)

@[simp ↓] theorem tlsComplete_sys (n : Port) (rx : Bool) (s : State) : (tlsComplete n rx s).sys = s.sys := by
  unfold tlsComplete
  repeat' first | (simp; done) | split | (dsimp only; split)

/-! ### Machine/Checks.lean -/

@[simp ↓] theorem State.withParams_sys (s : State) (b : List (Nat × Word)) :
    (State.withParams s b).sys = s.sys := by simp [State.withParams]

/-! ### Machine/Fabric.lean -/

@[simp ↓] theorem restartParts_sys (ps : List (Fin 8)) (s : State) :
    (restartParts ps s).sys = s.sys := by simp [restartParts]

/-! ### Machine/DmaCtl.lean -/

@[simp ↓] theorem State.modDma_sys (s : State) (c : Fin 32) (f : DmaCh → DmaCh) :
    (State.modDma s c f).sys = s.sys := by simp [State.modDma]

@[simp ↓] theorem settleReq_sys (c : Fin 32) (s : State) : (settleReq c s).sys = s.sys := by simp [settleReq]

@[simp ↓] theorem requestAssert_sys (r : Fin 32) (s : State) : (requestAssert r s).sys = s.sys := by simp [requestAssert]

@[simp ↓] theorem requestWithdraw_sys (r : Fin 32) (s : State) : (requestWithdraw r s).sys = s.sys := by simp [requestWithdraw]

@[simp ↓] theorem delivered_sys (r : Nat) (s : State) : (delivered r s).sys = s.sys := by
  unfold delivered
  repeat' first | (simp; done) | split | (dsimp only; split)

@[simp ↓] theorem writeStatus_sys (c : Fin 32) (addr : Nat) (irq : Bool) (res : DmaResult) (bytes : Nat) (s : State) :
    (writeStatus c addr irq res bytes s).sys = s.sys := by simp [writeStatus]

@[simp ↓] theorem dmaHalt_sys (c : Fin 32) (s : State) : (dmaHalt c s).sys = s.sys := by simp [dmaHalt]

@[simp ↓] theorem dropRest_sys (r : Nat) (s : State) :
    (dropRest r s).sys = s.sys := by
  unfold dropRest
  repeat' first | (simp; done) | split | (dsimp only; split)

@[simp ↓] theorem dmaStop_sys (c : Fin 32) (s : State) : (dmaStop c s).sys = s.sys := by simp [dmaStop]

@[simp ↓] theorem fetchDesc_sys (a : Nat) (hit : Option Bool) (s : State) :
    ((fetchDesc a hit s).2.2).sys = s.sys := by
  unfold fetchDesc
  dsimp only
  split <;> simp

@[simp ↓] theorem loadDesc_sys (c : Fin 32) (hit : Option Bool) (s : State) : (loadDesc c hit s).sys = s.sys := by
  unfold loadDesc
  repeat' first | (simp; done) | split | (dsimp only; split)

@[simp ↓] theorem dmaFinish_sys (c : Fin 32) (hit : Option Bool) (s : State) :
    (dmaFinish c hit s).sys = s.sys := by
  unfold dmaFinish
  repeat' first | (simp; done) | split | (dsimp only; split)

@[simp ↓] theorem selectRequest_sys (c : Fin 32) (sel : BitVec 5) (stays : Bool) (s : State) :
    (selectRequest c sel stays s).sys = s.sys := by simp [selectRequest]

@[simp ↓] theorem setPrio_sys (c : Fin 32) (p : BitVec 2) (s : State) : (setPrio c p s).sys = s.sys := by simp [setPrio]

@[simp ↓] theorem dmaEnable_sys (c : Fin 32) (hit : Option Bool) (s : State) :
    (dmaEnable c hit s).sys = s.sys := by simp [dmaEnable]

@[simp ↓] theorem dmaDisable_sys (c : Fin 32) (s : State) : (dmaDisable c s).sys = s.sys := by
  unfold dmaDisable
  repeat' first | (simp; done) | split | (dsimp only; split)

@[simp ↓] theorem dmaAllOff_sys (s : State) : (dmaAllOff s).sys = s.sys := by simp [dmaAllOff]

@[simp ↓] theorem dmaAbort_sys (c : Fin 32) (s : State) : (dmaAbort c s).sys = s.sys := by
  unfold dmaAbort
  repeat' first | (simp; done) | split | (dsimp only; split)

@[simp ↓] theorem dmaKick_sys (c : Fin 32) (hit : Option Bool) (s : State) :
    (dmaKick c hit s).sys = s.sys := by simp [dmaKick]

@[simp ↓] theorem dmaClear_sys (s : State) : (dmaClear s).sys = s.sys := by simp [dmaClear]

/-! ### Machine/Modes.lean -/

@[simp ↓] theorem abandonTie_sys (c : Fin 12) (s : State) : (abandonTie c s).sys = s.sys := by
  unfold abandonTie
  repeat' first | (simp; done) | split | (dsimp only; split)

@[simp ↓] theorem abandonCloses_sys (s : State) : (abandonCloses s).sys = s.sys := by simp [abandonCloses]

@[simp ↓] theorem endOos_sys (st : Status) (s : State) : (endOos st s).sys = s.sys := by
  unfold endOos
  repeat' first | (simp; done) | split | (dsimp only; split)

@[simp ↓] theorem rollbackDom_sys (d : Fin 6) (s : State) : (rollbackDom d s).sys = s.sys := by simp [rollbackDom]

@[simp ↓] theorem rollbackOpen_sys (s : State) : (rollbackOpen s).sys = s.sys := by simp [rollbackOpen]

@[simp ↓] theorem endPending_sys (cause : Nat) (s : State) : (endPending cause s).sys = s.sys := by simp [endPending]

@[simp ↓] theorem degradedStops_sys (s : State) : (degradedStops s).sys = s.sys := by simp [degradedStops]

@[simp ↓] theorem portsSilent_sys (s : State) : (portsSilent s).sys = s.sys := by simp [portsSilent]

@[simp ↓] theorem trialFails_sys (s : State) : (trialFails s).sys = s.sys := by simp [trialFails]

@[simp ↓] theorem safeState_sys (s : State) : (safeState s).sys = s.sys := by simp [safeState]

@[simp ↓] theorem latchStops_sys (code : Nat) (s : State) : (latchStops code s).sys = s.sys := by simp [latchStops]

@[simp ↓] theorem confirmClosed_sys (n : Port) (s : State) : (confirmClosed n s).sys = s.sys := by simp [confirmClosed]

/-! ### Machine/Sec.lean -/

@[simp ↓] theorem secQueue_sys (op : BitVec 6) (port : BitVec 4) (key : BitVec 6) (len : BitVec 16) (s : State) :
    (secQueue op port key len s).sys = s.sys := by simp [secQueue]

@[simp ↓] theorem gcmAux_sys (a : Word) (s : State) : ((gcmAux a s).2.2).sys = s.sys := by simp [gcmAux]

@[simp ↓] theorem putKey_sys (k : BitVec 6) (x : HostKey) (s : State) : (putKey k x s).sys = s.sys := by simp [putKey]

@[simp] theorem secFail_sys (r : SecRes) (s : State) : (SecOut.fail r s).s.sys = s.sys := rfl
@[simp] theorem secGenkey_sys (o : SecOp) (s : State) : (secGenkey o s).s.sys = s.sys := by
  unfold secGenkey
  (repeat' (first | with_reducible rfl | (simp; done) | split | (dsimp only; split) | refine (forAll_sys _ _ _ (fun _ _ => ?_)).trans ?_ | (dsimp only; refine (forAll_sys _ _ _ (fun _ _ => ?_)).trans ?_)))
@[simp] theorem secAes_sys (o : SecOp) (src : List Byte) (k : HostKey) (s : State) : (secAes o src k s).s.sys = s.sys := by
  unfold secAes
  (repeat' (first | with_reducible rfl | (simp; done) | split | (dsimp only; split) | refine (forAll_sys _ _ _ (fun _ _ => ?_)).trans ?_ | (dsimp only; refine (forAll_sys _ _ _ (fun _ _ => ?_)).trans ?_)))
@[simp] theorem secEc_sys (o : SecOp) (src : List Byte) (k : HostKey) (s : State) : (secEc o src k s).s.sys = s.sys := by
  unfold secEc
  (repeat' (first | with_reducible rfl | (simp; done) | split | (dsimp only; split) | refine (forAll_sys _ _ _ (fun _ _ => ?_)).trans ?_ | (dsimp only; refine (forAll_sys _ _ _ (fun _ _ => ?_)).trans ?_)))
@[simp] theorem secVerify_sys (o : SecOp) (src : List Byte) (s : State) : (secVerify o src s).s.sys = s.sys := by
  unfold secVerify
  (repeat' (first | with_reducible rfl | (simp; done) | split | (dsimp only; split) | refine (forAll_sys _ _ _ (fun _ _ => ?_)).trans ?_ | (dsimp only; refine (forAll_sys _ _ _ (fun _ _ => ?_)).trans ?_)))
@[simp] theorem secImport_sys (o : SecOp) (src : List Byte) (s : State) : (secImport o src s).s.sys = s.sys := by
  unfold secImport
  (repeat' (first | with_reducible rfl | (simp; done) | split | (dsimp only; split) | refine (forAll_sys _ _ _ (fun _ _ => ?_)).trans ?_ | (dsimp only; refine (forAll_sys _ _ _ (fun _ _ => ?_)).trans ?_)))
@[simp] theorem secAttest_sys (src : List Byte) (s : State) : (secAttest src s).s.sys = s.sys := by
  unfold secAttest
  (repeat' (first | with_reducible rfl | (simp; done) | split | (dsimp only; split) | refine (forAll_sys _ _ _ (fun _ _ => ?_)).trans ?_ | (dsimp only; refine (forAll_sys _ _ _ (fun _ _ => ?_)).trans ?_)))
@[simp] theorem secRun_sys (o : SecOp) (s : State) : (secRun o s).s.sys = s.sys := by
  unfold secRun
  (repeat' (first | with_reducible rfl | (simp; done) | split | (dsimp only; split) | refine (forAll_sys _ _ _ (fun _ _ => ?_)).trans ?_ | (dsimp only; refine (forAll_sys _ _ _ (fun _ _ => ?_)).trans ?_)))

@[simp ↓] theorem secComplete_sys (s : State) : (secComplete s).sys = s.sys := by
  unfold secComplete
  repeat' first | (simp; done) | split | (dsimp only; split)

@[simp ↓] theorem auditTamper_sys (s : State) : (auditTamper s).sys = s.sys := by
  unfold auditTamper
  repeat' first | (simp; done) | split | (dsimp only; split)

@[simp ↓] theorem tamper_sys (det : Word) (s : State) : (tamper det s).sys = s.sys := by simp [tamper]

/-! ### Machine/Upd.lean -/

@[simp ↓] theorem beginNew_sys (man : List Byte) (s : State) : (beginNew man s).sys = s.sys := by simp [beginNew]

@[simp ↓] theorem updBegin_sys (a : Vector Word 16) (s : State) : ((updBegin a s).s).sys = s.sys := by simp [updBegin]

@[simp ↓] theorem eraseStaging_sys (s : State) : (eraseStaging s).sys = s.sys := by simp [eraseStaging]

@[simp ↓] theorem beginDone_sys (ok : Bool) (s : State) : (beginDone ok s).sys = s.sys := by simp [beginDone]

@[simp ↓] theorem repairSector_sys (base size per : Nat) (sector : Nat) (s : State) :
    (repairSector base size per sector s).sys = s.sys := by simp [repairSector]

@[simp ↓] theorem repair_sys (k : Nat) (s : State) : (repair k s).sys = s.sys := by simp [repair]

@[simp ↓] theorem updSpore_sys (a : Vector Word 16) (s : State) : ((updSpore a s).s).sys = s.sys := by simp [updSpore]

@[simp ↓] theorem updMissing_sys (a : Vector Word 16) (s : State) : ((updMissing a s).s).sys = s.sys := by simp [updMissing]

@[simp ↓] theorem updVerify_sys (a_ : Vector Word 16) (s : State) : ((updVerify a_ s).s).sys = s.sys := by simp [updVerify]

@[simp ↓] theorem verifyDone_sys (ok : Bool) (s : State) : (verifyDone ok s).sys = s.sys := by simp [verifyDone]

@[simp ↓] theorem updActivate_sys (a : Vector Word 16) (s : State) : ((updActivate a s).s).sys = s.sys := by simp [updActivate]

@[simp ↓] theorem updCancel_sys (a : Vector Word 16) (s : State) : ((updCancel a s).s).sys = s.sys := by simp [updCancel]

@[simp ↓] theorem updConfirm_sys (a_ : Vector Word 16) (s : State) : ((updConfirm a_ s).s).sys = s.sys := by simp [updConfirm]

@[simp ↓] theorem reject_sys (reason hostcode : Nat) (s : State) : (reject reason hostcode s).sys = s.sys := by simp [reject]

@[simp ↓] theorem updReport_sys (a : Vector Word 16) (s : State) : ((updReport a s).s).sys = s.sys := by simp [updReport]

@[simp ↓] theorem updStatus_sys (a_ : Vector Word 16) (s : State) : ((updStatus a_ s).s).sys = s.sys := by simp [updStatus]

@[simp ↓] theorem windowWarning_sys (s : State) : (windowWarning s).sys = s.sys := by simp [windowWarning]

@[simp ↓] theorem windowExpiry_sys (s : State) : (windowExpiry s).sys = s.sys := by simp [windowExpiry]

@[simp ↓] theorem setOpen_sys (a_ : Vector Word 16) (s : State) : ((setOpen a_ s).s).sys = s.sys := by simp [setOpen]

@[simp ↓] theorem setOpenDone_sys (ok : Bool) (s : State) : (setOpenDone ok s).sys = s.sys := by simp [setOpenDone]

@[simp ↓] theorem State.norProgram_sys (s : State) (o : Nat) (l : List Byte) :
    (State.norProgram s o l).sys = s.sys := by simp [State.norProgram]

@[simp ↓] theorem setWrite_sys (a : Vector Word 16) (s : State) : ((setWrite a s).s).sys = s.sys := by
  unfold setWrite
  repeat' first | (simp; done) | split | (dsimp only; split)

@[simp ↓] theorem setCommit_sys (a : Vector Word 16) (s : State) : ((setCommit a s).s).sys = s.sys := by
  unfold setCommit
  repeat' first | (simp; done) | split | (dsimp only; split)

@[simp ↓] theorem keyRotate_sys (a : Vector Word 16) (s : State) : ((keyRotate a s).s).sys = s.sys := by simp [keyRotate]

@[simp ↓] theorem updClear_sys (s : State) : (updClear s).sys = s.sys := by simp [updClear]

/-! ### Machine/Display.lean -/

@[simp ↓] theorem railStep_sys (s : State) : (railStep s).sys = s.sys := by
  unfold railStep
  repeat' first | (simp; done) | split | (dsimp only; split)

@[simp ↓] theorem lowerRails_sys (s : State) : (lowerRails s).sys = s.sys := by
  unfold lowerRails
  repeat' first | (simp; done) | split | (dsimp only; split)

@[simp ↓] theorem fetchTarget_sys (r : Fin 16) (u : RunUpd) (s : State) : (fetchTarget r u s).2.sys = s.sys := by
  unfold fetchTarget
  repeat' first | (simp; done) | split | (dsimp only; split)

@[simp ↓] theorem beginUpdate_sys (r : Fin 16) (u : RunUpd) (s : State) : (beginUpdate r u s).sys = s.sys := by simp [beginUpdate]

@[simp ↓] theorem noteTemp_sys (s : State) : (noteTemp s).sys = s.sys := by simp [noteTemp]

@[simp ↓] theorem raiseRails_sys (s : State) : (raiseRails s).sys = s.sys := by simp [raiseRails]

@[simp ↓] theorem startPending_sys (r : Fin 16) (q : PendUpd) (band : Nat) (s : State) :
    (startPending r q band s).sys = s.sys := by simp [startPending]

@[simp ↓] theorem updateStart_sys (slot : Fin 4) (s : State) : (updateStart slot s).sys = s.sys := by
  unfold updateStart
  repeat' first | (simp; done) | split | (dsimp only; split)

@[simp ↓] theorem setPermit_sys (on : Bool) (s : State) : (setPermit on s).sys = s.sys := by
  unfold setPermit
  repeat' first | (simp; done) | split | (dsimp only; split)

@[simp ↓] theorem permitCheck_sys (s : State) : (permitCheck s).sys = s.sys := by simp [permitCheck]

@[simp ↓] theorem finishUpdate_sys (r : Fin 16) (u : RunUpd) (s : State) :
    (finishUpdate r u s).sys = s.sys := by simp [finishUpdate]

@[simp ↓] theorem followLater_sys (r : Fin 16) (m : BitVec 3) (u : RunUpd) (s : State) :
    (followLater r m u s).sys = s.sys := by simp [followLater]

@[simp ↓] theorem updateEnd_sys (r : Fin 16) (s : State) : (updateEnd r s).sys = s.sys := by
  unfold updateEnd
  repeat' first | (simp; done) | split | (dsimp only; split)

@[simp ↓] theorem updateRequest_sys (r : Fin 16) (mode : BitVec 3) (s : State) :
    (updateRequest r mode s).sys = s.sys := by simp [updateRequest]

@[simp ↓] theorem queueRedraw_sys (s : State) (r : Fin 16) : (queueRedraw s r).sys = s.sys := by simp [queueRedraw]

@[simp ↓] theorem queueRedraws_sys (s : State) : (queueRedraws s).sys = s.sys := by simp [queueRedraws]

@[simp ↓] theorem railFault_sys (rail : Fin 5) (s : State) : (railFault rail s).sys = s.sys := by simp [railFault]

@[simp ↓] theorem railRetry_sys (s : State) : (railRetry s).sys = s.sys := by simp [railRetry]

@[simp ↓] theorem dispClrcnt_sys (s : State) : (dispClrcnt s).sys = s.sys := by simp [dispClrcnt]

/-! ### Machine/SafeFunctions.lean -/

@[simp ↓] theorem pairTick_sys (j : Fin 8) (s : State) : (pairTick j s).sys = s.sys := by simp [pairTick]

@[simp ↓] theorem connTick_sys (k : Fin 16) (s : State) : (connTick k s).sys = s.sys := by simp [connTick]

@[simp ↓] theorem tickInputs_sys (lv : BitVec 16) (lorst : Bool) (s : State) :
    (tickInputs lv lorst s).sys = s.sys := by simp [tickInputs]

@[simp ↓] theorem tickMeans_sys (s : State) : (tickMeans s).sys = s.sys := by simp [tickMeans]

@[simp ↓] theorem sf01_sys (n : Port) (s : State) : (sf01 n s).sys = s.sys := by simp [sf01]

@[simp ↓] theorem sf07_sys (n : Port) (s : State) : (sf07 n s).sys = s.sys := by
  unfold sf07
  repeat' first | (simp; done) | split | (dsimp only; split)

@[simp ↓] theorem outCounts_sys (n : Port) (s : State) : (outCounts n s).sys = s.sys := by simp [outCounts]

@[simp ↓] theorem pilotFault_sys (n : Port) (s : State) : (pilotFault n s).sys = s.sys := by simp [pilotFault]

@[simp ↓] theorem sf09_sys (n : Port) (s : State) : (sf09 n s).sys = s.sys := by
  unfold sf09
  repeat' first | (simp; done) | split | (dsimp only; split)

@[simp ↓] theorem outTick_sys (n : Port) (s : State) : (outTick n s).sys = s.sys := by simp [outTick]

@[simp ↓] theorem setImd_sys (g : Fin 6) (st : ImdState) (s : State) : (setImd g st s).sys = s.sys := by simp [setImd]

@[simp ↓] theorem imdRestart_sys (g : Fin 6) (s : State) : (imdRestart g s).sys = s.sys := by simp [imdRestart]

@[simp ↓] theorem preCheck_sys (g : Fin 6) (s : State) : (preCheck g s).sys = s.sys := by simp [preCheck]

@[simp ↓] theorem imdSync_sys (s : State) : (imdSync s).sys = s.sys := by simp [imdSync]

@[simp ↓] theorem askPreCheck_sys (g : Fin 6) (s : State) : (askPreCheck g s).sys = s.sys := by simp [askPreCheck]

@[simp ↓] theorem imdTick_sys (g : Fin 6) (s : State) : (imdTick g s).sys = s.sys := by simp [imdTick]

@[simp ↓] theorem rampTick_sys (n : Port) (s : State) : (rampTick n s).sys = s.sys := by
  unfold rampTick
  repeat' first | (simp; done) | split | (dsimp only; split)

@[simp ↓] theorem weldTick_sys (c : Fin 12) (s : State) : (weldTick c s).sys = s.sys := by
  unfold weldTick
  repeat' first | (simp; done) | split | (dsimp only; split)

@[simp ↓] theorem prepareTie_sys (c : Fin 12) (s : State) : (prepareTie c s).sys = s.sys := by
  unfold prepareTie
  repeat' first | (simp; done) | split | (dsimp only; split)

@[simp ↓] theorem fallBack_sys (c : Fin 12) (s : State) : (fallBack c s).sys = s.sys := by simp [fallBack]

@[simp ↓] theorem closeTick_sys (c : Fin 12) (s : State) : (closeTick c s).sys = s.sys := by
  unfold closeTick
  repeat' first | (simp; done) | split | (dsimp only; split)

@[simp ↓] theorem tieOpenReq_sys (c : Fin 12) (commit : Bool) (s : State) :
    (tieOpenReq c commit s).sys = s.sys := by simp [tieOpenReq]

@[simp ↓] theorem autoOpen_sys (s : State) : (autoOpen s).sys = s.sys := by simp [autoOpen]

@[simp ↓] theorem openTick_sys (c : Fin 12) (s : State) : (openTick c s).sys = s.sys := by
  unfold openTick
  repeat' first | (simp; done) | split | (dsimp only; split)

@[simp ↓] theorem enqueue_sys (c : Fin 12) (s : State) : (enqueue c s).sys = s.sys := by simp [enqueue]

@[simp ↓] theorem numberReq_sys (c : Fin 12) (s : State) : (numberReq c s).sys = s.sys := by simp [numberReq]

@[simp] theorem serveQueue_sys (f : Nat) (s : State) : (serveQueue f s).sys = s.sys := by
  induction f generalizing s with
  | zero => rfl
  | succ f ih =>
    unfold serveQueue
    (repeat' (first | with_reducible rfl | (simp [ih]; done) | split | (dsimp only; split) | refine (forAll_sys _ _ _ (fun _ _ => ?_)).trans ?_ | (dsimp only; refine (forAll_sys _ _ _ (fun _ _ => ?_)).trans ?_)))

/-! ### Machine/SafeCoils.lean -/

@[simp ↓] theorem announceExpiry_sys (c : Fin 12) (s : State) : (announceExpiry c s).sys = s.sys := by
  unfold announceExpiry
  repeat' first | (simp; done) | split | (dsimp only; split)

@[simp ↓] theorem closeMet_sys (c : Fin 12) (s : State) : (closeMet c s).sys = s.sys := by
  unfold closeMet
  repeat' first | (simp; done) | split | (dsimp only; split)

@[simp ↓] theorem pullInEnd_sys (c : Fin 12) (s : State) : (pullInEnd c s).sys = s.sys := by simp [pullInEnd]

@[simp ↓] theorem lockoutRetest_sys (c : Fin 12) (high pass : Bool) (s : State) :
    (lockoutRetest c high pass s).sys = s.sys := by simp [lockoutRetest]

@[simp ↓] theorem pulseInput_sys (i : Fin 16) (low : Bool) (s : State) : (pulseInput i low s).sys = s.sys := by simp [pulseInput]

@[simp ↓] theorem testPulse_sys (b : Bool) (low : BitVec 16) (s : State) : (testPulse b low s).sys = s.sys := by simp [testPulse]

@[simp ↓] theorem rearmEdge_sys (s : State) : (rearmEdge s).sys = s.sys := by
  unfold rearmEdge
  repeat' first | (simp; done) | split | (dsimp only; split)

@[simp ↓] theorem splitCheck_sys (g : Fin 6) (s : State) : (splitCheck g s).sys = s.sys := by simp [splitCheck]

@[simp ↓] theorem closedConfirmed_sys (c : Fin 12) (s : State) : (closedConfirmed c s).sys = s.sys := by simp [closedConfirmed]

@[simp ↓] theorem tieFail_sys (c : Fin 12) (s : State) : (tieFail c s).sys = s.sys := by simp [tieFail]

@[simp ↓] theorem fbCloseTimeout_sys (c : Fin 12) (s : State) : (fbCloseTimeout c s).sys = s.sys := by simp [fbCloseTimeout]

@[simp ↓] theorem tieTimeout_sys (c : Fin 12) (s : State) : (tieTimeout c s).sys = s.sys := by
  unfold tieTimeout
  repeat' first | (simp; done) | split | (dsimp only; split)

@[simp ↓] theorem grantTimeout_sys (c : Fin 12) (s : State) : (grantTimeout c s).sys = s.sys := by simp [grantTimeout]

/-! ### Machine/SafeMonitors.lean -/

@[simp ↓] theorem nextDwell_sys (g : Fin 6) (s : State) : (nextDwell g s).sys = s.sys := by simp [nextDwell]

@[simp ↓] theorem imdInvalid_sys (g : Fin 6) (d p : Dwell) (s : State) :
    (imdInvalid g d p s).sys = s.sys := by simp [imdInvalid]

@[simp ↓] theorem imdValue_sys (g : Fin 6) (r : Rat) (s : State) : (imdValue g r s).sys = s.sys := by
  unfold imdValue
  repeat' first | (simp; done) | split | (dsimp only; split)

@[simp ↓] theorem imdDwellEnd_sys (g : Fin 6) (s : State) : (imdDwellEnd g s).sys = s.sys := by
  unfold imdDwellEnd
  repeat' first | (simp; done) | split | (dsimp only; split)

@[simp ↓] theorem imdUnknown_sys (g : Fin 6) (s : State) : (imdUnknown g s).sys = s.sys := by simp [imdUnknown]

@[simp ↓] theorem tempStale_sys (n : Port) (k : Fin 2) (s : State) : (tempStale n k s).sys = s.sys := by simp [tempStale]

@[simp ↓] theorem hoursLimit_sys (s : State) : (hoursLimit s).sys = s.sys := by simp [hoursLimit]

/-! ### Machine/SafeFast.lean -/

@[simp ↓] theorem fastComps_sys (g : Fin 2) (n : Port) (s : State) : (fastComps g n s).sys = s.sys := by
  unfold fastComps
  repeat' first | (simp; done) | split | (dsimp only; split)

@[simp ↓] theorem fastTrip_sys (n : Port) (s : State) : (fastTrip n s).sys = s.sys := by
  unfold fastTrip
  repeat' first | (simp; done) | split | (dsimp only; split)

@[simp ↓] theorem fastOutlet_sys (g : Fin 2) (n : Port) (s : State) : (fastOutlet g n s).sys = s.sys := by simp [fastOutlet]

/-! ### Machine/SysCtl.lean -/

@[simp ↓] theorem meshClear_sys (s : State) : (meshClear s).sys = s.sys := by simp [meshClear]

/-! ### Machine/SafeReset.lean -/

@[simp ↓] theorem slogSelftest_sys (step : Byte) (s : State) : (slogSelftest step s).sys = s.sys := by simp [slogSelftest]

@[simp ↓] theorem restartSelftest_sys (step : Byte) (s : State) : (restartSelftest step s).sys = s.sys := by simp [restartSelftest]

@[simp ↓] theorem tieSplit_sys (ties : List (Fin 12)) (s : State) : (tieSplit ties s).sys = s.sys := by simp [tieSplit]

/-! ### Machine/SafeCalls.lean -/

@[simp ↓] theorem safeBody_sys (inLockout outlet : Bool) (body : Vector Word 16 → State → Reply) (a : Vector Word 16) (s : State) (hbody : ∀ x0 s, ((body x0 s).s).sys = s.sys) :
    ((safeBody inLockout outlet body a s).s).sys = s.sys := by simp [safeBody, hbody]

@[simp ↓] theorem safeCall_sys (cmd : Nat) (inLockout outlet : Bool) (c : Call) (body : Vector Word 16 → State → Reply) (s : State) (hbody : ∀ x0 s, ((body x0 s).s).sys = s.sys) :
    (safeCall cmd inLockout outlet c body s).sys = s.sys := by simp [safeCall, hbody]

@[simp ↓] theorem startClose_sys (n : Port) (c : Fin 12) (vEv iEv : Nat) (s : State) :
    (startClose n c vEv iEv s).sys = s.sys := by
  unfold startClose
  repeat' first | (simp; done) | split | (dsimp only; split)

@[simp ↓] theorem closeReq_sys (a : Vector Word 16) (s : State) : ((closeReq a s).s).sys = s.sys := by
  unfold closeReq
  repeat' first | (simp; done) | split | (dsimp only; split)

@[simp ↓] theorem stopCall_sys (a : Vector Word 16) (s : State) : ((stopCall a s).s).sys = s.sys := by simp [stopCall]

@[simp ↓] theorem setLimits_sys (a : Vector Word 16) (s : State) : ((setLimits a s).s).sys = s.sys := by
  unfold setLimits
  repeat' first | (simp; done) | split | (dsimp only; split)

@[simp ↓] theorem rearmPort_sys (n : Port) (s : State) : (rearmPort n s).sys = s.sys := by
  unfold rearmPort
  repeat' first | (simp; done) | split | (dsimp only; split)

@[simp ↓] theorem rearmPorts_sys (mask : Nat) (s : State) : ((rearmPorts mask s).2.2).sys = s.sys := by simp [rearmPorts]

@[simp ↓] theorem rearmCall_sys (a : Vector Word 16) (s : State) : ((rearmCall a s).s).sys = s.sys := by simp [rearmCall]

@[simp ↓] theorem oosStops_sys (set : BitVec 8) (s : State) : (oosStops set s).sys = s.sys := by simp [oosStops]

@[simp ↓] theorem setOos_sys (a : Vector Word 16) (s : State) : ((setOos a s).s).sys = s.sys := by simp [setOos]

@[simp ↓] theorem contactorReplaced_sys (a : Vector Word 16) (s : State) :
    ((contactorReplaced a s).s).sys = s.sys := by
  unfold contactorReplaced
  repeat' first | (simp; done) | split | (dsimp only; split)

@[simp ↓] theorem readChkval_sys (a_ : Vector Word 16) (s : State) : ((readChkval a_ s).s).sys = s.sys := by simp [readChkval]

@[simp ↓] theorem linkKeyLoad_sys (a : Vector Word 16) (s : State) : ((linkKeyLoad a s).s).sys = s.sys := by
  unfold linkKeyLoad
  repeat' first | (simp; done) | split | (dsimp only; split)

@[simp ↓] theorem tripTest_sys (pass : BitVec 4) (a : Vector Word 16) (s : State) :
    ((tripTest pass a s).s).sys = s.sys := by
  unfold tripTest
  repeat' first | (simp; done) | split | (dsimp only; split)

@[simp ↓] theorem readSlog_sys (a : Vector Word 16) (s : State) : ((readSlog a s).s).sys = s.sys := by simp [readSlog]

@[simp ↓] theorem slogRelease_sys (a : Vector Word 16) (s : State) : ((slogRelease a s).s).sys = s.sys := by
  unfold slogRelease
  repeat' first | (simp; done) | split | (dsimp only; split)

/-! ### Machine/SafeLink.lean -/

@[simp ↓] theorem linkReport_sys (k : Fin 16) (s : State) : (linkReport k s).sys = s.sys := by simp [linkReport]

@[simp ↓] theorem setLink_sys (k : Fin 16) (st : LinkState) (s : State) : (setLink k st s).sys = s.sys := by simp [setLink]

@[simp ↓] theorem linkDemand_sys (n : Port) (cat : Nat) (why : Why) (s : State) :
    (linkDemand n cat why s).sys = s.sys := by simp [linkDemand]

@[simp ↓] theorem linkFail_sys (k : Fin 16) (s : State) : (linkFail k s).sys = s.sys := by simp [linkFail]

@[simp ↓] theorem linkConnect_sys (k : Fin 16) (s : State) : (linkConnect k s).sys = s.sys := by simp [linkConnect]

@[simp ↓] theorem sendPdu_sys (k : Fin 16) (ack : Bool) (payload : List Byte) (s : State) :
    (sendPdu k ack payload s).sys = s.sys := by simp [sendPdu]

@[simp ↓] theorem sendConnect_sys (k : Fin 16) (ack : Bool) (s : State) :
    (sendConnect k ack s).sys = s.sys := by simp [sendConnect]

@[simp ↓] theorem sendData_sys (k : Fin 16) (s : State) : (sendData k s).sys = s.sys := by simp [sendData]

@[simp ↓] theorem linkCycle_sys (k : Fin 16) (s : State) : (linkCycle k s).sys = s.sys := by
  unfold linkCycle
  repeat' first | (simp; done) | split | (dsimp only; split)

@[simp ↓] theorem linkWatchdog_sys (k : Fin 16) (s : State) : (linkWatchdog k s).sys = s.sys := by simp [linkWatchdog]

@[simp ↓] theorem dualMiss_sys (k : Fin 16) (x : Copy) (s : State) : (dualMiss k x s).sys = s.sys := by simp [dualMiss]

@[simp ↓] theorem dualPair_sys (k : Fin 16) (x : Copy) (s : State) : (dualPair k x s).sys = s.sys := by simp [dualPair]

@[simp ↓] theorem dualExpiry_sys (k : Fin 16) (s : State) : (dualExpiry k s).sys = s.sys := by
  unfold dualExpiry
  repeat' first | (simp; done) | split | (dsimp only; split)

@[simp ↓] theorem dualFirst_sys (k : Fin 16) (p : LinkPdu) (l : List Byte) (s : State) :
    (dualFirst k p l s).sys = s.sys := by simp [dualFirst]

@[simp ↓] theorem dualSecond_sys (k : Fin 16) (x : Copy) (l : List Byte) (s : State) :
    (dualSecond k x l s).sys = s.sys := by simp [dualSecond]

@[simp ↓] theorem acceptPdu_sys (k : Fin 16) (p : LinkPdu) (s : State) : ((acceptPdu k p s).2).sys = s.sys := by
  unfold acceptPdu
  repeat' first | (simp; done) | split | (dsimp only; split)

@[simp ↓] theorem firstCopy_sys (ty : Byte) (k : Fin 16) (p : LinkPdu) (conn open_ : Fin 16 → State → State) (s : State)
    (hconn : ∀ x0 s, (conn x0 s).sys = s.sys) (hopen_ : ∀ x0 s, (open_ x0 s).sys = s.sys) :
    (firstCopy ty k p conn open_ s).sys = s.sys := by
  unfold firstCopy
  repeat' first | (simp [hconn, hopen_]; done) | split | (dsimp only; split)

@[simp ↓] theorem receivePdu_sys (ty : Byte) (p : LinkPdu) (conn open_ : Fin 16 → State → State) (s : State) (hconn : ∀ x0 s, (conn x0 s).sys = s.sys) (hopen_ : ∀ x0 s, (open_ x0 s).sys = s.sys) :
    (receivePdu ty p conn open_ s).sys = s.sys := by
  unfold receivePdu
  repeat' first | (simp [hconn, hopen_]; done) | split | (dsimp only; split)

@[simp ↓] theorem takeSeq_sys (p : LinkPdu) (k : Fin 16) (s : State) : (takeSeq p k s).sys = s.sys := by simp [takeSeq]

@[simp ↓] theorem onConnect_sys (p : LinkPdu) (k : Fin 16) (s : State) : (onConnect p k s).sys = s.sys := by simp [onConnect]

@[simp ↓] theorem onData_sys (p : LinkPdu) (k : Fin 16) (s : State) : (onData p k s).sys = s.sys := by simp [onData]

@[simp ↓] theorem onPress_sys (k : Fin 16) (s : State) : (onPress k s).sys = s.sys := by simp [onPress]

@[simp ↓] theorem onRearm_sys (p : LinkPdu) (k : Fin 16) (s : State) : (onRearm p k s).sys = s.sys := by simp [onRearm]

/-! ### Machine/Thl.lean -/

@[simp ↓] theorem slotStart_sys (cmd : SlotCmd) (allowed : Bool) (k : Fin 2) (s : State) :
    (slotStart cmd allowed k s).sys = s.sys := by simp [slotStart]

@[simp ↓] theorem slotWriteCmd_sys (k : Fin 2) (s : State) : (slotWriteCmd k s).sys = s.sys := by simp [slotWriteCmd]

@[simp ↓] theorem slotSwitchCmd_sys (k : Fin 2) (s : State) : (slotSwitchCmd k s).sys = s.sys := by simp [slotSwitchCmd]

@[simp ↓] theorem State.freeBytes_sys (s : State) (n : Nat) : ((State.freeBytes s n).2).sys = s.sys := by simp [State.freeBytes]

@[simp ↓] theorem slotErased_sys (k : Fin 2) (ok : Bool) (s : State) : ((slotErased k ok s).1).sys = s.sys := by
  unfold slotErased
  repeat' first | (simp; done) | split | (dsimp only; split)

@[simp ↓] theorem slotWritten_sys (k : Fin 2) (ok : Bool) (s : State) :
    ((slotWritten k ok s).1).sys = s.sys := by
  unfold slotWritten
  repeat' first | (simp; done) | split | (dsimp only; split)

@[simp ↓] theorem slotVerified_sys (k : Fin 2) (ok : Bool) (s : State) :
    ((slotVerified k ok s).1).sys = s.sys := by simp [slotVerified]

@[simp ↓] theorem slotCommandDone_sys (ok : Bool) (s : State) : (slotCommandDone ok s).sys = s.sys := by
  unfold slotCommandDone
  repeat' first | (simp; done) | split | (dsimp only; split)

@[simp ↓] theorem stageEnd_sys (r : Nat) (c : List Byte) (s : State) : (stageEnd r c s).sys = s.sys := by simp [stageEnd]

@[simp ↓] theorem prStage_sys (s : State) : (prStage s).sys = s.sys := by simp [prStage]

@[simp ↓] theorem stagingDone_sys (s : State) : (stagingDone s).sys = s.sys := by simp [stagingDone]

@[simp ↓] theorem prDiscard_sys (s : State) : (prDiscard s).sys = s.sys := by simp [prDiscard]

@[simp ↓] theorem writeIn_sys (s : State) : (writeIn s).sys = s.sys := by simp [writeIn]

@[simp ↓] theorem State.modPart_sys (s : State) (p : Fin 8) (f : PartCnt → PartCnt) :
    (State.modPart s p f).sys = s.sys := by simp [State.modPart]

@[simp ↓] theorem scrubCorrect_sys (p : Fin 8) (s : State) : (scrubCorrect p s).sys = s.sys := by simp [scrubCorrect]

@[simp ↓] theorem thlClear_sys (s : State) : (thlClear s).sys = s.sys := by simp [thlClear]

@[simp ↓] theorem gSignal_sys (g : GSignal) (s : State) : (gSignal g s).sys = s.sys := by
  unfold gSignal
  repeat' first | (simp; done) | split | (dsimp only; split)

/-! ### Machine/Txn.lean -/

@[simp ↓] theorem place_sys (d : Fin 6) (a : Nat) (v : Word) (s : State) : (place d a v s).sys = s.sys := by
  unfold place
  repeat' first | (simp; done) | split | (dsimp only; split)

@[simp ↓] theorem rwtWrite_sys (a : Nat) (v : Word) (s : State) : (rwtWrite a v s).sys = s.sys := by
  unfold rwtWrite
  repeat' first | (simp; done) | split | (dsimp only; split)

@[simp ↓] theorem txnBody_sys (body : Vector Word 16 → State → Reply) (a : Vector Word 16) (s : State) (hbody : ∀ x0 s, ((body x0 s).s).sys = s.sys) :
    ((txnBody body a s).s).sys = s.sys := by simp [txnBody, hbody]

@[simp ↓] theorem txnBegin_sys (a : Vector Word 16) (s : State) : ((txnBegin a s).s).sys = s.sys := by
  unfold txnBegin
  repeat' first | (simp; done) | split | (dsimp only; split)

@[simp] theorem txnNamed_sys (s : State) (a : Vector Word 16) (f : Fin 6 → Reply)
    (hf : ∀ d, (f d).s.sys = s.sys) : (txnNamed s a f).s.sys = s.sys := by
  unfold txnNamed
  split
  · rfl
  · exact checks_sys _ _ _ (hf _)

@[simp ↓] theorem txnCommit_sys (a : Vector Word 16) (s : State) : ((txnCommit a s).s).sys = s.sys := by simp [txnCommit]

@[simp ↓] theorem txnRollback_sys (a : Vector Word 16) (s : State) : ((txnRollback a s).s).sys = s.sys := by simp [txnRollback]

@[simp ↓] theorem txnRenew_sys (a : Vector Word 16) (s : State) : ((txnRenew a s).s).sys = s.sys := by simp [txnRenew]

@[simp ↓] theorem txnPut_sys (a : Vector Word 16) (s : State) : ((txnPut a s).s).sys = s.sys := by
  unfold txnPut
  repeat' first | (simp; done) | split | (dsimp only; split)

@[simp ↓] theorem leaseExpiry_sys (d : Fin 6) (s : State) : (leaseExpiry d s).sys = s.sys := by simp [leaseExpiry]

@[simp ↓] theorem journalChanges_sys (l : List (Nat × Word × Word)) (s : State) :
    (journalChanges l s).sys = s.sys := by simp [journalChanges]

@[simp ↓] theorem auditChanges_sys (window : Nat) (reason : Byte) (l : List (Nat × Word × Word)) (s : State) :
    (auditChanges window reason l s).sys = s.sys := by simp [auditChanges]

@[simp ↓] theorem commitSlots_sys (l : List (Nat × Word × Word)) (s : State) :
    (commitSlots l s).sys = s.sys := by simp [commitSlots]

@[simp ↓] theorem commitChannels_sys (l : List (Nat × Word × Word)) (s : State) :
    (commitChannels l s).sys = s.sys := by simp [commitChannels]

@[simp ↓] theorem commitMeters_sys (reason : Byte) (l : List (Nat × Word × Word)) (s : State) :
    (commitMeters reason l s).sys = s.sys := by simp [commitMeters]

@[simp ↓] theorem commitTokenKeys_sys (reason : Byte) (ks : List (Nat × Option (BitVec 128))) (s : State) :
    (commitTokenKeys reason ks s).sys = s.sys := by simp [commitTokenKeys]

@[simp ↓] theorem commitBill_sys (reason : Byte) (ks : List (Nat × Option (BitVec 128))) (l : List (Nat × Word × Word)) (s : State) :
    (commitBill reason ks l s).sys = s.sys := by simp [commitBill]

@[simp ↓] theorem commitSafe_sys (ks : List (Nat × Option (BitVec 128))) (l : List (Nat × Word × Word)) (s : State) :
    (commitSafe ks l s).sys = s.sys := by simp [commitSafe]

@[simp ↓] theorem tieCloseReq_sys (c : Fin 12) (s : State) : (tieCloseReq c s).sys = s.sys := by simp [tieCloseReq]

@[simp ↓] theorem siteSequence_sys (was : List (Fin 48 × Nat)) (s : State) :
    (siteSequence was s).sys = s.sys := by simp [siteSequence]

@[simp ↓] theorem commitSite_sys (l : List (Nat × Word × Word)) (s : State) : (commitSite l s).sys = s.sys := by simp [commitSite]

@[simp ↓] theorem frontLight_sys (old : Nat) (s : State) : (frontLight old s).sys = s.sys := by simp [frontLight]

@[simp ↓] theorem endCommit_sys (d : Fin 6) (st : Status) (s : State) : (endCommit d st s).sys = s.sys := by
  unfold endCommit
  repeat' first | (simp; done) | split | (dsimp only; split)

@[simp ↓] theorem txnClear_sys (s : State) : (txnClear s).sys = s.sys := by simp [txnClear]

@[simp ↓] theorem compatWrite_sys (i : Fin 28) (req : BitVec 16) (s : State) :
    (compatWrite i req s).sys = s.sys := by
  unfold compatWrite
  repeat' first | (simp; done) | split | (dsimp only; split)

/-! ### Machine/Keys.lean -/

@[simp ↓] theorem freeKey_sys (k : BitVec 4) (s : State) : (freeKey k s).sys = s.sys := by simp [freeKey]

@[simp ↓] theorem keyFifoRead_sys (s : State) : (keyFifoRead s).sys = s.sys := by
  unfold keyFifoRead
  repeat' first | (simp; done) | split | (dsimp only; split)

/-! ### Machine/RegRead.lean -/

@[simp ↓] theorem multiWrap_sys (s : State) (req a : Nat) (m : MeterId) (exp : Bool) :
    ((multiWrap s req a m exp).2).sys = s.sys := by simp [multiWrap]

@[simp ↓] theorem rosLatch_sys (req a : Nat) (k : BlkKind) (n base o : Nat) (s : State) :
    (rosLatch req a k n base o s).sys = s.sys := by
  unfold rosLatch
  repeat' first | (simp; done) | split | (dsimp only; split)

@[simp ↓] theorem regRead_sys (req a : Nat) (s : State) : (regRead req a s).sys = s.sys := by
  unfold regRead
  repeat' first | (simp; done) | split | (dsimp only; split)

/-! ### Machine/EthMac.lean -/

@[simp ↓] theorem ethStore_sys (m : Fin 2) (f : List Byte) (s : State) : (ethStore m f s).sys = s.sys := by simp [ethStore]

@[simp ↓] theorem ethTransmit_sys (m : Fin 2) (s : State) : (ethTransmit m s).sys = s.sys := by
  unfold ethTransmit
  repeat' first | (simp; done) | split | (dsimp only; split)

@[simp ↓] theorem ethLink_sys (m : Fin 2) (up : Bool) (speed : Fin 3) (full : Bool) (s : State) :
    (ethLink m up speed full s).sys = s.sys := by simp [ethLink]

@[simp ↓] theorem ethClrcnt_sys (m : Fin 2) (s : State) : (ethClrcnt m s).sys = s.sys := by simp [ethClrcnt]

/-! ### Machine/TimeSet.lean -/

@[simp ↓] theorem setLegal_sys (ms : Nat) (s : State) : (setLegal ms s).sys = s.sys := by simp [setLegal]

@[simp ↓] theorem adjustSmall_sys (old : Nat) (adj : Int) (new : Nat) (reason : Nat) (s : State) :
    (adjustSmall old adj new reason s).sys = s.sys := by simp [adjustSmall]

@[simp ↓] theorem adjustNote_sys (adj : Int) (reason : Nat) (s : State) :
    (adjustNote adj reason s).sys = s.sys := by simp [adjustNote]

@[simp ↓] theorem adjustBig_sys (old : Nat) (adj : Int) (new : Nat) (reason : Nat) (s : State) :
    (adjustBig old adj new reason s).sys = s.sys := by simp [adjustBig]

@[simp ↓] theorem readTime_sys (a_ : Vector Word 16) (s : State) : ((readTime a_ s).s).sys = s.sys := by simp [readTime]

@[simp ↓] theorem rtcTrim_sys (a : Vector Word 16) (s : State) : ((rtcTrim a s).s).sys = s.sys := by simp [rtcTrim]

/-! ### Machine/RegWrite.lean -/

@[simp ↓] theorem billCalls_sys (cmd : Nat) (a : Vector Word 16) (s : State) :
    ((billCalls cmd a s).s).sys = s.sys := by
  unfold billCalls
  repeat' first | (simp; done) | split | (dsimp only; split)

@[simp ↓] theorem safeCalls_sys (cmd : Nat) (a : Vector Word 16) (s : State) :
    ((safeCalls cmd a s).s).sys = s.sys := by
  unfold safeCalls
  repeat' first | (simp; done) | split | (dsimp only; split)

@[simp ↓] theorem txnCalls_sys (cmd : Nat) (a : Vector Word 16) (s : State) :
    ((txnCalls cmd a s).s).sys = s.sys := by
  unfold txnCalls
  repeat' first | (simp; done) | split | (dsimp only; split)

@[simp ↓] theorem updCalls_sys (cmd : Nat) (a : Vector Word 16) (s : State) :
    ((updCalls cmd a s).s).sys = s.sys := by
  unfold updCalls
  repeat' first | (simp; done) | split | (dsimp only; split)

@[simp] theorem writeMbxIn_sys (i : MbxId) (o : Nat) (v : Word) (s : State) : (writeMbxIn i o v s).sys = s.sys := by
  have h (k : Nat) : (match i with
    | .bill => { s with bill.mbxin := putWord s.bill.mbxin k v }
    | .safe => { s with safe.mbxin := putWord s.safe.mbxin k v }
    | .upd => { s with upd.mbxin := putWord s.upd.mbxin k v }
    | _ => s).sys = s.sys := by cases i <;> rfl
  exact h _

@[simp ↓] theorem safeW1c_sys (o : Nat) (v : Word) (s : State) : (safeW1c o v s).sys = s.sys := by simp [safeW1c]

@[simp ↓] theorem writeTime_sys (o : Nat) (v : Word) (s : State) : (writeTime o v s).sys = s.sys := by
  unfold writeTime
  repeat' first | (simp; done) | split | (dsimp only; split)

@[simp ↓] theorem writeChcfg_sys (c : Fin 32) (v : Word) (s : State) : (writeChcfg c v s).sys = s.sys := by simp [writeChcfg]

@[simp ↓] theorem writeDma_sys (o : Nat) (v : Word) (s : State) : (writeDma o v s).sys = s.sys := by
  unfold writeDma
  repeat' first | (simp; done) | split | (dsimp only; split)

@[simp ↓] theorem writeSec_sys (o : Nat) (v : Word) (s : State) : (writeSec o v s).sys = s.sys := by
  unfold writeSec
  repeat' first | (simp; done) | split | (dsimp only; split)

@[simp ↓] theorem writeSlotctl_sys (v : Word) (s : State) : (writeSlotctl v s).sys = s.sys := by
  unfold writeSlotctl
  repeat' first | (simp; done) | split | (dsimp only; split)

@[simp ↓] theorem writeThl_sys (o : Nat) (v : Word) (s : State) : (writeThl o v s).sys = s.sys := by
  unfold writeThl
  repeat' first | (simp; done) | split | (dsimp only; split)

@[simp ↓] theorem writeEth_sys (m : Fin 2) (o : Nat) (v : Word) (s : State) :
    (writeEth m o v s).sys = s.sys := by simp [writeEth]

@[simp ↓] theorem writeCan_sys (b : Fin 3) (o : Nat) (v : Word) (s : State) :
    (writeCan b o v s).sys = s.sys := by simp [writeCan]

@[simp ↓] theorem setPar_sys (a mask : Nat) (v : Word) (s : State) : (setPar a mask v s).sys = s.sys := by simp [setPar]

@[simp ↓] theorem writeGpio_sys (o : Nat) (v : Word) (s : State) : (writeGpio o v s).sys = s.sys := by
  unfold writeGpio
  repeat' first | (simp; done) | split | (dsimp only; split)

@[simp ↓] theorem writeMesh_sys (o : Nat) (v : Word) (s : State) : (writeMesh o v s).sys = s.sys := by simp [writeMesh]

@[simp ↓] theorem writeIntc_sys (o : Nat) (v : Word) (s : State) : (writeIntc o v s).sys = s.sys := by simp [writeIntc]

@[simp ↓] theorem writePevt_sys (n : Port) (v : Word) (s : State) : (writePevt n v s).sys = s.sys := by simp [writePevt]

@[simp ↓] theorem writeLevt_sys (n : Port) (v : Word) (s : State) : (writeLevt n v s).sys = s.sys := by simp [writeLevt]

@[simp ↓] theorem writeTlscfg_sys (n : Port) (v : Word) (s : State) : (writeTlscfg n v s).sys = s.sys := by simp [writeTlscfg]

@[simp ↓] theorem writeVp_sys (n : Port) (o : Nat) (v : Word) (s : State) : (writeVp n o v s).sys = s.sys := by
  unfold writeVp
  repeat' first | (simp; done) | split | (dsimp only; split)

@[simp ↓] theorem writeDisp_sys (base o : Nat) (v : Word) (s : State) : (writeDisp base o v s).sys = s.sys := by
  unfold writeDisp
  repeat' first | (simp; done) | split | (dsimp only; split)

@[simp] theorem memWrite_sys (req a : Nat) (bs : List Byte) (s : State) : (memWrite req a bs s).sys = s.sys := by
  unfold memWrite
  split
  · split
    · rename_i t h; rw [State.busOk_sys]; exact ramStore_sys s t a bs h
    · simp
  · split <;> simp

/-! ### Machine/Dma.lean -/

@[simp] theorem regWords_sys (a : Nat) (fixed : Bool) (n : Nat) (s : State) :
    (regWords a fixed n s).2.1.sys = s.sys := by
  induction n generalizing a s with
  | zero => rfl
  | succ n ih =>
    unfold regWords
    repeat' first | with_reducible rfl | (simp [ih]; done) | split | (dsimp only; split)

@[simp ↓] theorem regTail_sys (a len : Nat) (t : List Byte × State × Option DmaResult) :
    (regTail a len t).2.1.sys = t.2.1.sys := by
  unfold regTail
  split <;> simp

@[simp ↓] theorem readSource_sys (a len : Nat) (fixed : Bool) (s : State) : (readSource a len fixed s).2.1.sys = s.sys := by
  unfold readSource
  repeat' first | (simp; done) | split | (dsimp only; split)

@[simp ↓] theorem indexAt_sys (w : Vector Word 8) (i : Nat) (s : State) :
    (indexAt w i s).2.1.sys = s.sys := by simp [indexAt]

@[simp ↓] theorem periphTake_sys (r n : Nat) (s : State) : ((periphTake r n s).2).sys = s.sys := by
  unfold periphTake
  repeat' first | (simp; done) | split | (dsimp only; split)

@[simp ↓] theorem periphPut_sys (r : Nat) (bs : List Byte) (s : State) : (periphPut r bs s).sys = s.sys := by simp [periphPut]

@[simp ↓] theorem burstData_sys (w : Vector Word 8) (r off len src : Nat) (s : State) :
    ((burstData w r off len src s).2.1).sys = s.sys := by
  unfold burstData
  repeat' first | (simp; done) | split | (dsimp only; split)

@[simp ↓] theorem dmaAge_sys (g : Fin 32) (s : State) : (dmaAge g s).sys = s.sys := by simp [dmaAge]

@[simp ↓] theorem State.modRun_sys (s : State) (c : Fin 32) (f : DmaRun → DmaRun) :
    (State.modRun s c f).sys = s.sys := by simp [State.modRun]

@[simp ↓] theorem burstFails_sys (c : Fin 32) (e : DmaResult) (s : State) : (burstFails c e s).sys = s.sys := by simp [burstFails]

@[simp ↓] theorem dmaPrefetch_sys (c : Fin 32) (hit : Option Bool) (s : State) :
    (dmaPrefetch c hit s).sys = s.sys := by simp [dmaPrefetch]

/-! ### Machine/SafeTick.lean -/

@[simp ↓] theorem releaseWaiting_sys (s : State) : (releaseWaiting s).sys = s.sys := by simp [releaseWaiting]

@[simp ↓] theorem rampTimeout_sys (n : Port) (s : State) : (rampTimeout n s).sys = s.sys := by
  unfold rampTimeout
  repeat' first | (simp; done) | split | (dsimp only; split)

/-! ### Machine/Save.lean -/

@[simp ↓] theorem dropCalls_sys (s : State) : (dropCalls s).sys = s.sys := by simp [dropCalls]

@[simp ↓] theorem tornSlot_sys (s : State) : (tornSlot s).sys = s.sys := by
  unfold tornSlot
  repeat' first | (simp; done) | split | (dsimp only; split)

@[simp ↓] theorem tornErase_sys (s : State) : (tornErase s).sys = s.sys := by simp [tornErase]

@[simp ↓] theorem tornSettings_sys (s : State) : (tornSettings s).sys = s.sys := by simp [tornSettings]

@[simp ↓] theorem tornFlash_sys (s : State) : (tornFlash s).sys = s.sys := by simp [tornFlash]

@[simp ↓] theorem dropOutputs_sys (s : State) : (dropOutputs s).sys = s.sys := by simp [dropOutputs]

@[simp ↓] theorem stopRunning_sys (s : State) : (stopRunning s).sys = s.sys := by simp [stopRunning]

@[simp ↓] theorem holdPart_sys (bits : BitVec 16) (s : State) : (holdPart bits s).sys = s.sys := by simp [holdPart]

@[simp ↓] theorem powerFailAudits_sys (s : State) : (powerFailAudits s).sys = s.sys := by simp [powerFailAudits]

@[simp ↓] theorem lastFine_sys (w : BitVec 64) (g : Fin 2) (s : State) : (lastFine w g s).sys = s.sys := by simp [lastFine]

@[simp ↓] theorem lastBits_sys (w : BitVec 64) (s : State) (b : FastBits) :
    (lastBits w s b).sys = s.sys := by simp [lastBits]

@[simp ↓] theorem lastSamples_sys (tail : List FastBits) (s : State) :
    (lastSamples tail s).sys = s.sys := by simp [lastSamples]

@[simp ↓] theorem lastBoundaries_sys (tail : List FastBits) (s : State) :
    (lastBoundaries tail s).sys = s.sys := by simp [lastBoundaries]

@[simp ↓] theorem saveMetering_sys (tail : List FastBits) (s : State) :
    (saveMetering tail s).sys = s.sys := by simp [saveMetering]

@[simp ↓] theorem meetFate_sys (s : State) (x : Fin 16 × Fate) : (meetFate s x).sys = s.sys := by
  unfold meetFate
  repeat' first | (simp; done) | split | (dsimp only; split)

@[simp ↓] theorem saveDisplay_sys (vhold : BitVec 12) (s : State) : (saveDisplay vhold s).sys = s.sys := by simp [saveDisplay]

@[simp ↓] theorem endEntries_sys (s : State) : (endEntries s).sys = s.sys := by simp [endEntries]

@[simp ↓] theorem dropPulses_sys (s : State) : (dropPulses s).sys = s.sys := by simp [dropPulses]

@[simp ↓] theorem portsErased_sys (s : State) : (portsErased s).sys = s.sys := by simp [portsErased]

@[simp ↓] theorem pilotsOff_sys (s : State) : (pilotsOff s).sys = s.sys := by simp [pilotsOff]

@[simp ↓] theorem cutClose_sys (s : State) : (cutClose s).sys = s.sys := by simp [cutClose]

@[simp ↓] theorem settle_sys (s : State) : (settle s).sys = s.sys := by simp [settle]

@[simp ↓] theorem loseTail_sys (s : State) : (loseTail s).sys = s.sys := by simp [loseTail]

/-! ### Machine/StartUp.lean -/

@[simp ↓] theorem atNs_sys (n : Nat) (s : State) : (atNs n s).sys = s.sys := by simp [atNs]

@[simp ↓] theorem swapAreas_sys (s : State) : (swapAreas s).sys = s.sys := by simp [swapAreas]

@[simp ↓] theorem activate_sys (s : State) : (activate s).sys = s.sys := by simp [activate]

@[simp ↓] theorem swapBack_sys (s : State) : (swapBack s).sys = s.sys := by simp [swapBack]

@[simp ↓] theorem provisionFkd_sys (s : State) : (provisionFkd s).sys = s.sys := by simp [provisionFkd]

@[simp ↓] theorem olderArea_sys (s : State) (a : SinterArea) : (olderArea s a).sys = s.sys := by
  unfold olderArea
  repeat' first | (simp; done) | split | (dsimp only; split)

@[simp ↓] theorem loseArea_sys (s : State) (a : SinterArea) : (loseArea s a).sys = s.sys := by
  unfold loseArea
  repeat' first | (simp; done) | split | (dsimp only; split)

@[simp ↓] theorem recovery_sys (u : StartUp) (rolled : Nat) (s : State) :
    (recovery u rolled s).sys = if u.lost.isEmpty && u.older.isEmpty then s.sys
      else { s.sys with rstCause := s.sys.rstCause ||| BitVec.ofNat 13 (2 ^ 10) } := by
  have h (x : State) : (causeBit 10 x).sys
      = { x.sys with rstCause := x.sys.rstCause ||| BitVec.ofNat 13 (2 ^ 10) } := rfl
  unfold recovery
  dsimp only
  cases u.lost.isEmpty && u.older.isEmpty <;> simp [h]

@[simp ↓] theorem provisionSkd_sys (k : Fin 2) (s : State) : (provisionSkd k s).sys = s.sys := by simp [provisionSkd]

@[simp ↓] theorem journalFs_sys (s : State) : (journalFs s).sys = s.sys := by simp [journalFs]

@[simp ↓] theorem restartSlices_sys (s : State) : (restartSlices s).sys = s.sys := by simp [restartSlices]

@[simp ↓] theorem bootBoundaries_sys (s : State) : (bootBoundaries s).sys = s.sys := by simp [bootBoundaries]

@[simp ↓] theorem bootStops_sys (s : State) : (bootStops s).sys = s.sys := by simp [bootStops]

@[simp ↓] theorem bootPart_sys (s : State) : (bootPart s).sys = s.sys := by simp [bootPart]

@[simp ↓] theorem startWindow_sys (s : State) : (startWindow s).sys = s.sys := by simp [startWindow]

@[simp ↓] theorem portsListen_sys (s : State) : (portsListen s).sys = s.sys := by simp [portsListen]

/-! ### Machine/Idle.lean -/

@[simp ↓] theorem idle_sys (s : State) : (idle s).sys = s.sys := by simp [idle]

end Sys2Proof.Machine
end

