-- ==== Sys2Proof/Laws/KeepMet.lean ====
section
/-! SUPPORT. The operations that leave MET: sampling, converters, meters as it is. -/

namespace Sys2Proof.Machine

@[simp ↓] theorem forAll_met {α : Type} (l : List α) (f : State → α → State) (s : State)
    (h : ∀ s x, (f s x).met = s.met) : (forAll l f s).met = s.met := forAll_keeps State.met l f s h

@[simp ↓] theorem ite_met (c : Prop) [Decidable c] (a b : State) :
    (if c then a else b).met = if c then a.met else b.met := apply_ite State.met c a b

@[simp ↓] theorem checks_met (s : State) (l : List (Bool × Status)) (k : Reply) (h : k.s.met = s.met) :
    (checks s l k).s.met = s.met := by
  induction l with
  | nil => exact h
  | cons x r ih => obtain ⟨b, st⟩ := x; cases b <;> simp [checks, ih]

/-! ### Machine/Ops.lean -/

@[simp ↓] theorem State.busOk_met (s : State) (v : Word) : (State.busOk s v).met = s.met := by simp [State.busOk]

@[simp ↓] theorem State.busErr_met (s : State) : (State.busErr s).met = s.met := by simp [State.busErr]

@[simp ↓] theorem State.decodeErr_met (s : State) (a : Word) (req kind : Nat) :
    (State.decodeErr s a req kind).met = s.met := by simp [State.decodeErr]

@[simp ↓] theorem State.tagged_met (s : State) : (State.tagged s).met = s.met := by simp [State.tagged]

@[simp ↓] theorem State.holeErr_met (s : State) (req a n : Nat) : (State.holeErr s req a n).met = s.met := by
  unfold State.holeErr
  split <;> simp

@[simp ↓] theorem holdEngine_met (s : State) : (holdEngine s).met = s.met := by simp [holdEngine]

@[simp ↓] theorem onBlock_met (k : BlkKind) (n : Nat) (s : State) (f : State → State) (hf : ∀ s, (f s).met = s.met) :
    (onBlock k n s f).met = s.met := by simp [onBlock, hf]

@[simp ↓] theorem State.modVp_met (s : State) (n : Port) (f : Vp → Vp) : (State.modVp s n f).met = s.met := by simp [State.modVp]

@[simp ↓] theorem State.modPilot_met (s : State) (n : Port) (f : Pilot → Pilot) :
    (State.modPilot s n f).met = s.met := by simp [State.modPilot]

@[simp ↓] theorem State.modLink_met (s : State) (n : Port) (f : Link → Link) :
    (State.modLink s n f).met = s.met := by simp [State.modLink]

@[simp ↓] theorem State.modTls_met (s : State) (n : Port) (f : Tls → Tls) :
    (State.modTls s n f).met = s.met := by simp [State.modTls]

@[simp ↓] theorem State.modRgn_met (s : State) (r : Fin 16) (f : Region → Region) :
    (State.modRgn s r f).met = s.met := by simp [State.modRgn]

@[simp ↓] theorem State.modEth_met (s : State) (n : Fin 2) (f : Eth → Eth) :
    (State.modEth s n f).met = s.met := by simp [State.modEth]

@[simp ↓] theorem State.modCan_met (s : State) (n : Fin 3) (f : Can → Can) :
    (State.modCan s n f).met = s.met := by simp [State.modCan]

@[simp ↓] theorem State.modLoad_met (s : State) (n : Fin 10) (f : LoadCh → LoadCh) :
    (State.modLoad s n f).met = s.met := by simp [State.modLoad]

@[simp ↓] theorem State.modCoil_met (s : State) (c : Fin 12) (f : Coil → Coil) :
    (State.modCoil s c f).met = s.met := by simp [State.modCoil]

@[simp ↓] theorem State.modOut_met (s : State) (n : Port) (f : Outlet → Outlet) :
    (State.modOut s n f).met = s.met := by simp [State.modOut]

@[simp ↓] theorem State.modImd_met (s : State) (g : Fin 6) (f : Imd → Imd) :
    (State.modImd s g f).met = s.met := by simp [State.modImd]

@[simp ↓] theorem State.modConn_met (s : State) (k : Fin 16) (f : Conn → Conn) :
    (State.modConn s k f).met = s.met := by simp [State.modConn]

@[simp ↓] theorem State.modPair_met (s : State) (j : Fin 8) (f : StopPair → StopPair) :
    (State.modPair s j f).met = s.met := by simp [State.modPair]

@[simp ↓] theorem State.modTxn_met (s : State) (d : Fin 6) (f : TxnDom → TxnDom) :
    (State.modTxn s d f).met = s.met := by simp [State.modTxn]

@[simp ↓] theorem State.modCore_met (s : State) (f : BillCore → BillCore) :
    (State.modCore s f).met = s.met := by simp [State.modCore]

@[simp ↓] theorem State.setSess_met (s : State) (n : Port) (x : Option Session) :
    (State.setSess s n x).met = s.met := by simp [State.setSess]

@[simp ↓] theorem State.modSess_met (s : State) (n : Port) (f : Session → Session) :
    (State.modSess s n f).met = s.met := by simp [State.modSess]

@[simp ↓] theorem State.setLofs_met (s : State) (ms : Nat) : (State.setLofs s ms).met = s.met := by simp [State.setLofs]

@[simp ↓] theorem State.draw_met (s : State) : ((State.draw s).2).met = s.met := by simp [State.draw]

@[simp ↓] theorem State.raise_met (s : State) (n : Nat) : (State.raise s n).met = s.met := by simp [State.raise]

@[simp ↓] theorem State.evPut_met (s : State) (typ source : Nat) (d0 d1 d2 : Word) :
    (State.evPut s typ source d0 d1 d2).met = s.met := by simp [State.evPut]

@[simp ↓] theorem State.evRoll_met (s : State) : (State.evRoll s).met = s.met := by simp [State.evRoll]

@[simp ↓] theorem State.evSecond_met (s : State) :
    (State.evSecond s).met = s.met := by simp [State.evSecond]

@[simp ↓] theorem State.evlog_met (s : State) (typ source : Nat) (d0 d1 d2 : Word) :
    (State.evlog s typ source d0 d1 d2).met = s.met := by simp [State.evlog]

@[simp ↓] theorem State.statsCleared_met (s : State) (block mask : Nat) :
    (State.statsCleared s block mask).met = s.met := by simp [State.statsCleared]

@[simp ↓] theorem State.audit_met (s : State) (typ source reason : Nat) (item old new : Word) :
    (State.audit s typ source reason item old new).met = s.met := by simp [State.audit]

@[simp ↓] theorem State.raiseDem_met (s : State) (n : Port) (cat cause : Nat) (reason : Byte) (why : Why) :
    (State.raiseDem s n cat cause reason why).met = s.met := by simp [State.raiseDem]

@[simp ↓] theorem State.demand_met (s : State) (n : Port) (cat cause : Nat) (reason : Byte) :
    (State.demand s n cat cause reason).met = s.met := by simp [State.demand]

@[simp ↓] theorem State.setLedger_met (s : State) (l : List (Option LedgerEntry)) :
    (State.setLedger s l).met = s.met := by simp [State.setLedger]

@[simp ↓] theorem State.flagSpan_met (s : State) (n : Port) (bits : BitVec 16) :
    (State.flagSpan s n bits).met = s.met := by simp [State.flagSpan]

@[simp ↓] theorem State.flagSess_met (s : State) (n : Port) (bits : BitVec 16) :
    (State.flagSess s n bits).met = s.met := by simp [State.flagSess]

@[simp ↓] theorem Reply.ok_met (s : State) (res : List Word) : ((Reply.ok s res).s).met = s.met := by simp

@[simp ↓] theorem Reply.deny_met (s : State) (st : Status) : ((Reply.deny s st).s).met = s.met := by simp

@[simp ↓] theorem Reply.later_met (s : State) (p : Pending) : ((Reply.later s p).s).met = s.met := by simp

@[simp ↓] theorem State.setBox_met (s : State) (i : MbxId) (x : Mailbox) :
    (State.setBox s i x).met = s.met := by simp [State.setBox]

@[simp ↓] theorem versions_met (i : MbxId) (s : State) : ((versions i s).s).met = s.met := by simp [versions]

@[simp ↓] theorem answered_met (i : MbxId) (r : Reply) : (answered i r).met = r.s.met := by
  unfold answered
  dsimp only
  split <;> simp

@[simp ↓] theorem ring_met (i : MbxId) (body : Nat → Vector Word 16 → State → Reply) (s : State) (hbody : ∀ x0 x1 s, ((body x0 x1 s).s).met = s.met) :
    (ring i body s).met = s.met := by simp [ring, hbody]

@[simp ↓] theorem mbxCall_met (i : MbxId) (cmd : Nat) (c : Call) (body : Vector Word 16 → State → Reply) (s : State) (hbody : ∀ x0 s, ((body x0 s).s).met = s.met) :
    (mbxCall i cmd c body s).met = s.met := by simp [mbxCall, hbody]

@[simp ↓] theorem mbxDone_met (i : MbxId) (st : Status) (res : List Word) (s : State) :
    (mbxDone i st res s).met = s.met := by simp [mbxDone]

/-! ### Machine/Sampling.lean -/

@[simp ↓] theorem rcFeed_met (src : Nat) (v : Int) (w : Nat) (s : State) : (rcFeed src v w s).met = s.met := by simp [rcFeed]

@[simp ↓] theorem freshTemp_met (src : Nat) (s : State) : (freshTemp src s).met = s.met := by simp [freshTemp]

/-! ### Machine/Meters.lean -/

@[simp ↓] theorem cutBounds_met (m : MeterId) (inst : BitVec 64) (s : State) :
    (cutBounds m inst s).met = s.met := by simp [cutBounds]

@[simp ↓] theorem rollover_met (m : MeterId) (exp : Bool) (old : BitVec 160) (s : State) :
    (rollover m exp old s).met = s.met := by simp [rollover]

@[simp ↓] theorem neutralFlags_met (m : MeterId) (s : State) : (neutralFlags m s).met = s.met := by simp [neutralFlags]

@[simp ↓] theorem readAcc_met (a : Vector Word 16) (s : State) : ((readAcc a s).s).met = s.met := by
  unfold readAcc
  repeat' first | (simp; done) | split | (dsimp only; split)

@[simp ↓] theorem freeWords_met (place n : Nat) (s : State) : ((freeWords place n s).2).met = s.met := by simp [freeWords]

@[simp ↓] theorem readPq_met (a : Vector Word 16) (s : State) : ((readPq a s).s).met = s.met := by
  unfold readPq
  repeat' first | (simp; done) | split | (dsimp only; split)

@[simp ↓] theorem readHarm_met (a : Vector Word 16) (s : State) : ((readHarm a s).s).met = s.met := by
  unfold readHarm
  repeat' first | (simp; done) | split | (dsimp only; split)

@[simp ↓] theorem readBalance_met (a : Vector Word 16) (s : State) : ((readBalance a s).s).met = s.met := by
  unfold readBalance
  repeat' first | (simp; done) | split | (dsimp only; split)

/-! ### Machine/DispReq.lean -/

@[simp ↓] theorem State.putRequest_met (s : State) (r : Fin 16) (q : PendUpd) :
    (State.putRequest s r q).met = s.met := by
  unfold State.putRequest
  repeat' first | (simp; done) | split | (dsimp only; split)

@[simp ↓] theorem State.legalReq_met (s : State) (n : Port) : (State.legalReq s n).met = s.met := by
  unfold State.legalReq
  repeat' first | (simp; done) | split | (dsimp only; split)

/-! ### Machine/TimeBase.lean -/

@[simp ↓] theorem rtcMove_met (n : Int) (s : State) : (rtcMove n s).met = s.met := by simp [rtcMove]

@[simp ↓] theorem rtcRun_met (n : Nat) (s : State) : (rtcRun n s).met = s.met := by simp [rtcRun]

@[simp ↓] theorem rtcTick_met (s : State) : (rtcTick s).met = s.met := by simp [rtcTick]

@[simp ↓] theorem refPeriod_met (s : State) : (refPeriod s).met = s.met := by simp [refPeriod]

@[simp ↓] theorem rtcLoad_met (s : State) : (rtcLoad s).met = s.met := by simp [rtcLoad]

@[simp ↓] theorem rtcReading_met (t : BitVec 12) (n : Nat) (s : State) :
    (rtcReading t n s).met = s.met := by simp [rtcReading]

@[simp ↓] theorem refdevMeasure_met (dev : BitVec 16) (s : State) : (refdevMeasure dev s).met = s.met := by simp [refdevMeasure]

@[simp ↓] theorem vbakMeasure_met (v : Byte) (s : State) : (vbakMeasure v s).met = s.met := by simp [vbakMeasure]

@[simp ↓] theorem evlDropSecond_met (s : State) : (evlDropSecond s).met = s.met := by simp [evlDropSecond]

@[simp ↓] theorem evlClrcnt_met (s : State) : (evlClrcnt s).met = s.met := by simp [evlClrcnt]

/-! ### Machine/Billing.lean -/

@[simp ↓] theorem State.pushRecord_met (s : State) (rtype : Nat) (flags : BitVec 16) (port : Option Port) (body : List Byte) :
    (State.pushRecord s rtype flags port body).met = s.met := by simp [State.pushRecord]

@[simp ↓] theorem State.journal_met (s : State) (save : Bool) : (State.journal s save).met = s.met := by simp [State.journal]

@[simp ↓] theorem closeSlice_met (m : MeterId) (s : State) : (closeSlice m s).met = s.met := by simp [closeSlice]

@[simp ↓] theorem closeSlices_met (s : State) : (closeSlices s).met = s.met := by simp [closeSlices]

@[simp ↓] theorem meterEnable_met (m : MeterId) (reason : Nat) (s : State) :
    (meterEnable m reason s).met = s.met := by simp [meterEnable]

@[simp ↓] theorem setTariff_met (s : State) : (setTariff s).met = s.met := by simp [setTariff]

@[simp ↓] theorem writeDemand_met (c : ClosedPart) (count : Nat) (s : State) :
    (writeDemand c count s).met = s.met := by simp [writeDemand]

@[simp ↓] theorem writePeriod_met (at_ : Int) (m : MeterId) (s : State) :
    (writePeriod at_ m s).met = s.met := by simp [writePeriod]

@[simp ↓] theorem periodClose_met (at_ : Int) (s : State) : (periodClose at_ s).met = s.met := by simp [periodClose]

@[simp ↓] theorem tariffSwitch_met (ms : Int) (s : State) : (tariffSwitch ms s).met = s.met := by simp [tariffSwitch]

@[simp ↓] theorem writeHeld_met (s : State) : (writeHeld s).met = s.met := by simp [writeHeld]

@[simp ↓] theorem outageBoundaries_met (t0 t1 : Int) (s : State) : (outageBoundaries t0 t1 s).met = s.met := by simp [outageBoundaries]

@[simp ↓] theorem cancelSession_met (n : Port) (cause : Nat) (s : State) :
    (cancelSession n cause s).met = s.met := by
  unfold cancelSession
  repeat' first | (simp; done) | split | (dsimp only; split)

@[simp ↓] theorem openSession_met (n : Port) (m : MeterId) (auth : Nat) (ext : List Byte) (token : Option Token) (s : State) :
    (openSession n m auth ext token s).met = s.met := by
  unfold openSession
  repeat' first | (simp; done) | split | (dsimp only; split)

@[simp ↓] theorem sessionOpen_met (a : Vector Word 16) (s : State) : ((sessionOpen a s).s).met = s.met := by
  unfold sessionOpen
  repeat' first | (simp; done) | split | (dsimp only; split)

@[simp ↓] theorem sessionCancel_met (a : Vector Word 16) (s : State) : ((sessionCancel a s).s).met = s.met := by
  unfold sessionCancel
  repeat' first | (simp; done) | split | (dsimp only; split)

@[simp ↓] theorem sessionStatus_met (a : Vector Word 16) (s : State) : ((sessionStatus a s).s).met = s.met := by
  unfold sessionStatus
  repeat' first | (simp; done) | split | (dsimp only; split)

@[simp ↓] theorem markStart_met (n : Port) (s : State) : (markStart n s).met = s.met := by simp [markStart]

@[simp ↓] theorem markStop_met (n : Port) (reason : Byte) (s : State) :
    (markStop n reason s).met = s.met := by simp [markStop]

@[simp ↓] theorem writeStop_met (n : Port) (s : State) : (writeStop n s).met = s.met := by
  unfold writeStop
  repeat' first | (simp; done) | split | (dsimp only; split)

@[simp ↓] theorem markShift_met (s : State) : (markShift s).met = s.met := by simp [markShift]

@[simp ↓] theorem backCut_met (new : Nat) (s : State) : (backCut new s).met = s.met := by simp [backCut]

@[simp ↓] theorem keepBound_met (s t : State) : (keepBound s t).met = t.met := by
  unfold keepBound
  split <;> simp

@[simp ↓] theorem asOf_met (b : Bound) (f : State → State) (s : State) (hf : ∀ s, (f s).met = s.met) :
    (asOf b f s).met = s.met := by simp [asOf, hf]

@[simp ↓] theorem storeRecord_met (r : Record) (s : State) : (storeRecord r s).met = s.met := by
  unfold storeRecord
  repeat' first | (simp; done) | split | (dsimp only; split)

@[simp ↓] theorem afterSign_met (r : Record) (s : State) : (afterSign r s).met = s.met := by
  unfold afterSign
  repeat' first | (simp; done) | split | (dsimp only; split)

@[simp ↓] theorem signDone_met (s : State) : (signDone s).met = s.met := by
  unfold signDone
  repeat' first | (simp; done) | split | (dsimp only; split)

/-! ### Machine/Records.lean -/

@[simp ↓] theorem readRecord_met (a : Vector Word 16) (s : State) : ((readRecord a s).s).met = s.met := by
  unfold readRecord
  repeat' first | (simp; done) | split | (dsimp only; split)

@[simp ↓] theorem ackRecord_met (a : Vector Word 16) (s : State) : ((ackRecord a s).s).met = s.met := by simp [ackRecord]

@[simp ↓] theorem readDemand_met (a : Vector Word 16) (s : State) : ((readDemand a s).s).met = s.met := by
  unfold readDemand
  repeat' first | (simp; done) | split | (dsimp only; split)

@[simp ↓] theorem readOcmf_met (a : Vector Word 16) (s : State) : ((readOcmf a s).s).met = s.met := by simp [readOcmf]

@[simp ↓] theorem ocmfDone_met (s : State) : (ocmfDone s).met = s.met := by
  unfold ocmfDone
  repeat' first | (simp; done) | split | (dsimp only; split)

@[simp ↓] theorem readAudit_met (a : Vector Word 16) (s : State) : ((readAudit a s).s).met = s.met := by
  unfold readAudit
  repeat' first | (simp; done) | split | (dsimp only; split)

@[simp ↓] theorem archiveBegin_met (a : Vector Word 16) (s : State) : ((archiveBegin a s).s).met = s.met := by
  unfold archiveBegin
  repeat' first | (simp; done) | split | (dsimp only; split)

@[simp ↓] theorem sealDone_met (s : State) : (sealDone s).met = s.met := by
  unfold sealDone
  repeat' first | (simp; done) | split | (dsimp only; split)

@[simp ↓] theorem archiveCommit_met (a : Vector Word 16) (s : State) : ((archiveCommit a s).s).met = s.met := by
  unfold archiveCommit
  repeat' first | (simp; done) | split | (dsimp only; split)

@[simp ↓] theorem creditCheck_met (n : Port) (s : State) : (creditCheck n s).met = s.met := by
  unfold creditCheck
  repeat' first | (simp; done) | split | (dsimp only; split)

/-! ### Machine/Tokens.lean -/

@[simp ↓] theorem State.modTok_met (s : State) (f : Tokens → Tokens) : (State.modTok s f).met = s.met := by simp [State.modTok]

@[simp ↓] theorem endEntry_met (port : Option Port) (code : Byte) (t : Option Token) (s : State) :
    (endEntry port code t s).met = s.met := by
  unfold endEntry
  repeat' first | (simp; done) | split | (dsimp only; split)

@[simp ↓] theorem countInvalid_met (s : State) : (countInvalid s).met = s.met := by
  unfold countInvalid
  repeat' first | (simp; done) | split | (dsimp only; split)

@[simp ↓] theorem tokenDecode_met (keys : List (BitVec 4)) (s : State) : (tokenDecode keys s).met = s.met := by
  unfold tokenDecode
  repeat' first | (simp; done) | split | (dsimp only; split)

@[simp ↓] theorem tokenKey_met (k : BitVec 4) (s : State) : (tokenKey k s).met = s.met := by
  unfold tokenKey
  repeat' first | (simp; done) | split | (dsimp only; split)

@[simp ↓] theorem tokenStart_met (s : State) : (tokenStart s).met = s.met := by simp [tokenStart]

@[simp ↓] theorem discardTokens_met (s : State) : (discardTokens s).met = s.met := by simp [discardTokens]

@[simp ↓] theorem tokenResult_met (a_ : Vector Word 16) (s : State) : ((tokenResult a_ s).s).met = s.met := by
  unfold tokenResult
  repeat' first | (simp; done) | split | (dsimp only; split)

@[simp ↓] theorem denyCode_met (s : State) (code : Word) : ((denyCode s code).s).met = s.met := by simp [denyCode]

@[simp ↓] theorem bindToken_met (n : Port) (m : MeterId) (t : Token) (ext : List Byte) (s : State) :
    ((bindToken n m t ext s).s).met = s.met := by simp [bindToken]

@[simp ↓] theorem tokenOpen_met (a : Vector Word 16) (s : State) : ((tokenOpen a s).s).met = s.met := by
  unfold tokenOpen
  repeat' first | (simp; done) | split | (dsimp only; split)

@[simp ↓] theorem tokenDiscard_met (a : Vector Word 16) (s : State) : ((tokenDiscard a s).s).met = s.met := by
  unfold tokenDiscard
  repeat' first | (simp; done) | split | (dsimp only; split)

@[simp ↓] theorem ledgerRead_met (a : Vector Word 16) (s : State) : ((ledgerRead a s).s).met = s.met := by simp [ledgerRead]

@[simp ↓] theorem tokenKeyLoad_met (a : Vector Word 16) (s : State) : ((tokenKeyLoad a s).s).met = s.met := by
  unfold tokenKeyLoad
  repeat' first | (simp; done) | split | (dsimp only; split)

@[simp ↓] theorem tokenKeyInfo_met (a : Vector Word 16) (s : State) : ((tokenKeyInfo a s).s).met = s.met := by
  unfold tokenKeyInfo
  repeat' first | (simp; done) | split | (dsimp only; split)

/-! ### Machine/LoadSw.lean -/

@[simp ↓] theorem genPeriod_met (g : Fin 2) (start : BitVec 64) (s : State) :
    (genPeriod g start s).met = s.met := by simp [genPeriod]

@[simp ↓] theorem genSync_met (s : State) : (genSync s).met = s.met := by simp [genSync]

@[simp ↓] theorem openWindow_met (n : Fin 10) (s : State) : (openWindow n s).met = s.met := by simp [openWindow]

@[simp ↓] theorem pulseStep_met (s : State) : (pulseStep s).met = s.met := by simp [pulseStep]

@[simp ↓] theorem loadOne_met (s : State) (n : Fin 10) : (loadOne s n).met = s.met := by simp [loadOne]

@[simp ↓] theorem loadAll_met (s : State) : (loadAll s).met = s.met := by simp [loadAll]

@[simp ↓] theorem loadAt_met (c : Nat) (s : State) : (loadAt c s).met = s.met := by
  unfold loadAt
  repeat' first | (simp; done) | split | (dsimp only; split)

@[simp ↓] theorem shedCh_met (n : Fin 10) (s : State) : (shedCh n s).met = s.met := by simp [shedCh]

@[simp ↓] theorem shedOne_met (s : State) : (shedOne s).met = s.met := by
  unfold shedOne
  repeat' first | (simp; done) | split | (dsimp only; split)

@[simp ↓] theorem budgetShed_met (avg : BitVec 16) (s : State) : (budgetShed avg s).met = s.met := by simp [budgetShed]

@[simp ↓] theorem shedReenable_met (s : State) : (shedReenable s).met = s.met := by
  unfold shedReenable
  repeat' first | (simp; done) | split | (dsimp only; split)

@[simp ↓] theorem shedAgain_met (n : Fin 10) (was : Bool) (s : State) :
    (shedAgain n was s).met = s.met := by simp [shedAgain]

@[simp ↓] theorem loadCmd_met (n : Fin 10) (cmd : BitVec 2) (s : State) : (loadCmd n cmd s).met = s.met := by simp [loadCmd]

@[simp ↓] theorem loadClrLatch_met (n : Fin 10) (cool : Bool) (s : State) :
    (loadClrLatch n cool s).met = s.met := by simp [loadClrLatch]

@[simp ↓] theorem loadThermal_met (n : Fin 10) (guard : Bool) (temp : BitVec 16) (s : State) :
    (loadThermal n guard temp s).met = s.met := by simp [loadThermal]

@[simp ↓] theorem loadRestart_met (n : Fin 10) (s : State) : (loadRestart n s).met = s.met := by simp [loadRestart]

@[simp ↓] theorem deferredTurnOn_met (s : State) : (deferredTurnOn s).met = s.met := by
  unfold deferredTurnOn
  repeat' first | (simp; done) | split | (dsimp only; split)

@[simp ↓] theorem loadSense_met (ch : BitVec 4) (s : State) : (loadSense ch s).met = s.met := by simp [loadSense]

@[simp ↓] theorem senseTest_met (s : State) : (senseTest s).met = s.met := by simp [senseTest]

@[simp ↓] theorem loadWdStart_met (s : State) : (loadWdStart s).met = s.met := by simp [loadWdStart]

@[simp ↓] theorem loadWdExpire_met (cause : BitVec 2) (s : State) : (loadWdExpire cause s).met = s.met := by simp [loadWdExpire]

@[simp ↓] theorem loadService_met (resp : BitVec 16) (s : State) : (loadService resp s).met = s.met := by simp [loadService]

@[simp ↓] theorem loadWdrel_met (s : State) : (loadWdrel s).met = s.met := by simp [loadWdrel]

@[simp ↓] theorem loadClrcnt_met (s : State) : (loadClrcnt s).met = s.met := by simp [loadClrcnt]

/-! ### Machine/Pilot.lean -/

@[simp ↓] theorem linkLost_met (s : State) (n : Port) : (linkLost s n).met = s.met := by simp [linkLost]

@[simp ↓] theorem setPState_met (s : State) (n : Port) (st : PState) : (setPState s n st).met = s.met := by simp [setPState]

@[simp ↓] theorem imposeOverride_met (s : State) (n : Port) : (imposeOverride s n).met = s.met := by
  unfold imposeOverride
  repeat' first | (simp; done) | split | (dsimp only; split)

@[simp ↓] theorem showState_met (s : State) (n : Port) : (showState s n).met = s.met := by simp [showState]

@[simp ↓] theorem setClass_met (s : State) (n : Port) (k : PState) : (setClass s n k).met = s.met := by simp [setClass]

@[simp ↓] theorem pilotsStart_met (s : State) : (pilotsStart s).met = s.met := by simp [pilotsStart]

@[simp ↓] theorem classify_met (s : State) (n : Port) (vh : Option Int) : (classify s n vh).met = s.met := by
  unfold classify
  repeat' first | (simp; done) | split | (dsimp only; split)

@[simp ↓] theorem measurePeriod_met (s : State) (n : Port) (samples : List (BitVec 12)) :
    (measurePeriod s n samples).met = s.met := by
  unfold measurePeriod
  repeat' first | (simp; done) | split | (dsimp only; split)

@[simp ↓] theorem nextPeriod_met (s : State) (n : Port) : (nextPeriod s n).met = s.met := by simp [nextPeriod]

@[simp ↓] theorem pilotPeriodEnd_met (n : Port) (samples : List (BitVec 12)) (s : State) :
    (pilotPeriodEnd n samples s).met = s.met := by simp [pilotPeriodEnd]

@[simp ↓] theorem pilotCtl_met (n : Port) (w : Word) (s : State) : (pilotCtl n w s).met = s.met := by simp [pilotCtl]

@[simp ↓] theorem pevtClrcnt_met (n : Port) (s : State) : (pevtClrcnt n s).met = s.met := by simp [pevtClrcnt]

/-! ### Machine/Link.lean -/

@[simp ↓] theorem mmeLimit_met (s : State) (n : Port) : ((mmeLimit s n).2).met = s.met := by
  unfold mmeLimit
  repeat' first | (simp; done) | split | (dsimp only; split)

@[simp ↓] theorem hearMme_met (n : Port) (f : State → State) (s : State) (hf : ∀ s, (f s).met = s.met) :
    (hearMme n f s).met = s.met := by simp [hearMme, hf]

@[simp ↓] theorem startAtten_met (n : Port) (mac : BitVec 48) (run : BitVec 64) (announced : Nat) (s : State) :
    (startAtten n mac run announced s).met = s.met := by simp [startAtten]

@[simp ↓] theorem sounding_met (n : Port) (mac : BitVec 48) (run : BitVec 64) (groups : List Nat) (s : State) :
    (sounding n mac run groups s).met = s.met := by simp [sounding]

@[simp ↓] theorem soundInd_met (n : Port) (mac : BitVec 48) (run : BitVec 64) (groups : List Nat) (s : State) :
    (soundInd n mac run groups s).met = s.met := by simp [soundInd]

@[simp ↓] theorem windowClose_met (mac : BitVec 48) (run : BitVec 64) (s : State) :
    (windowClose mac run s).met = s.met := by
  unfold windowClose
  repeat' first | (simp; done) | split | (dsimp only; split)

@[simp ↓] theorem slacMatch_met (n : Port) (mac : BitVec 48) (run : BitVec 64) (s : State) :
    (slacMatch n mac run s).met = s.met := by simp [slacMatch]

@[simp ↓] theorem slacRearm_met (n : Port) (s : State) : (slacRearm n s).met = s.met := by simp [slacRearm]

@[simp ↓] theorem announce_met (src : Fin 4) (at_ : Nat) (s : State) : (announce src at_ s).met = s.met := by simp [announce]

@[simp ↓] theorem storeFrame_met (n : Port) (frame : List Byte) (erased blanked : Nat) (xr6 : Bool) (s : State) :
    (storeFrame n frame erased blanked xr6 s).met = s.met := by simp [storeFrame]

@[simp ↓] theorem t1sUp_met (n : Port) (s : State) : (t1sUp n s).met = s.met := by simp [t1sUp]

@[simp ↓] theorem takeFrame_met (n : Port) (own xr6 : Bool) (frame : List Byte) (erased blanked : Nat) (s : State) :
    (takeFrame n own xr6 frame erased blanked s).met = s.met := by simp [takeFrame]

@[simp ↓] theorem frameReceive_met (n : Port) (kind : FrameKind) (frame : List Byte) (samples : List Int) (s : State) :
    (frameReceive n kind frame samples s).met = s.met := by
  unfold frameReceive
  repeat' first | (simp; done) | split | (dsimp only; split)

@[simp ↓] theorem txPush_met (n : Port) (w : Word) (s : State) : (txPush n w s).met = s.met := by simp [txPush]

@[simp ↓] theorem frameSent_met (n : Port) (air : Nat) (s : State) : (frameSent n air s).met = s.met := by
  unfold frameSent
  repeat' first | (simp; done) | split | (dsimp only; split)

@[simp ↓] theorem levtClrcnt_met (n : Port) (s : State) : (levtClrcnt n s).met = s.met := by simp [levtClrcnt]

@[simp ↓] theorem tlsKeyWord_met (n : Port) (w : Word) (s : State) : (tlsKeyWord n w s).met = s.met := by simp [tlsKeyWord]

@[simp ↓] theorem tlsInstall_met (rx : Bool) (n : Port) (s : State) : (tlsInstall rx n s).met = s.met := by simp [tlsInstall]

@[simp ↓] theorem tlsClear_met (n : Port) (s : State) : (tlsClear n s).met = s.met := by simp [tlsClear]

@[simp ↓] theorem tlsQueue_met (n : Port) (rx : Bool) (ctype : Byte) (len : Nat) (s : State) :
    (tlsQueue n rx ctype len s).met = s.met := by simp [tlsQueue]

/-! ### Machine/Caldera.lean -/

@[simp ↓] theorem setLims_met (n : Port) (vEv iEv : Nat) (s : State) : (setLims n vEv iEv s).met = s.met := by simp [setLims]

@[simp ↓] theorem formLims_met (s : State) :
    (formLims s).met = s.met := by
  refine forAll_met _ _ _ fun s n => ?_
  split <;> simp

@[simp ↓] theorem leaveUnproven_met (s : State) :
    (leaveUnproven s).met = s.met := by simp [leaveUnproven]

@[simp ↓] theorem State.slogPut_met (s : State) (typ source : Nat) (d0 d1 : Word) (prot : Bool) :
    (State.slogPut s typ source d0 d1 prot).met = s.met := by simp [State.slogPut]

@[simp ↓] theorem State.sfEvt_met (s : State) (bit : Nat) : (State.sfEvt s bit).met = s.met := by simp [State.sfEvt]

@[simp ↓] theorem State.poolEvt_met (s : State) (bit : Nat) : (State.poolEvt s bit).met = s.met := by simp [State.poolEvt]

@[simp ↓] theorem State.siEvt_met (s : State) (bit : Nat) : (State.siEvt s bit).met = s.met := by simp [State.siEvt]

@[simp ↓] theorem releaseModule_met (m : Fin 48) (s : State) : (releaseModule m s).met = s.met := by simp [releaseModule]

@[simp ↓] theorem releaseOutlet_met (n : Port) (s : State) : (releaseOutlet n s).met = s.met := by simp [releaseOutlet]

@[simp ↓] theorem endClose_met (c : Fin 12) (st : Status) (s : State) : (endClose c st s).met = s.met := by simp [endClose]

@[simp ↓] theorem countEm_met (c : Fin 12) (amps : Nat) (s : State) : (countEm c amps s).met = s.met := by simp [countEm]

@[simp ↓] theorem coilOff_met (c : Fin 12) (emergency : Bool) (s : State) :
    (coilOff c emergency s).met = s.met := by simp [coilOff]

@[simp ↓] theorem announceOpen_met (c : Fin 12) (s : State) : (announceOpen c s).met = s.met := by simp [announceOpen]

@[simp ↓] theorem startRamp_met (n : Port) (c : Fin 12) (s : State) : (startRamp n c s).met = s.met := by simp [startRamp]

@[simp ↓] theorem actStop_met (n : Port) (c : Fin 12) (cat : Nat) (s : State) :
    (actStop n c cat s).met = s.met := by
  unfold actStop
  repeat' first | (simp; done) | split | (dsimp only; split)

@[simp ↓] theorem endDemands_met (n : Port) (s : State) : (endDemands n s).met = s.met := by simp [endDemands]

@[simp ↓] theorem seqCheck_met (s : State) : (seqCheck s).met = s.met := by simp [seqCheck]

@[simp ↓] theorem dropTies_met (n : Port) (s : State) : (dropTies n s).met = s.met := by
  unfold dropTies
  split
  · rfl
  · rw [seqCheck_met]
    refine forAll_met _ _ _ fun s c => ?_
    split
    · split <;> simp
    · rfl

@[simp ↓] theorem accept_met (r : Raise) (s : State) : (accept r s).met = s.met := by
  unfold accept
  repeat' first | (simp; done) | split | (dsimp only; split)

@[simp ↓] theorem acceptAll_met (s : State) : (acceptAll s).met = s.met := by simp [acceptAll]

@[simp ↓] theorem pilotHold_met (n : Port) (on : Bool) (s : State) : (pilotHold n on s).met = s.met := by simp [pilotHold]

/-! ### Machine/CanBus.lean -/

@[simp ↓] theorem canReceive_met (b : Fin 3) (f : CanFrame) (s : State) : (canReceive b f s).met = s.met := by simp [canReceive]

@[simp ↓] theorem canTransmit_met (b : Fin 3) (sent : Bool) (s : State) :
    (canTransmit b sent s).met = s.met := by
  unfold canTransmit
  repeat' first | (simp; done) | split | (dsimp only; split)

@[simp ↓] theorem canTimeout_met (b : Fin 3) (s : State) : (canTimeout b s).met = s.met := by simp [canTimeout]

@[simp ↓] theorem sfLoad_met (b : Fin 3) (e : Fin 16) (s : State) : (sfLoad b e s).met = s.met := by simp [sfLoad]

@[simp ↓] theorem sfClear_met (b : Fin 3) (e : Fin 16) (s : State) : (sfClear b e s).met = s.met := by simp [sfClear]

@[simp ↓] theorem sfEntry_met (b : Fin 3) (e : Fin 16) (s : State) : (sfEntry b e s).met = s.met := by simp [sfEntry]

@[simp ↓] theorem canRecov_met (b : Fin 3) (s : State) : (canRecov b s).met = s.met := by simp [canRecov]

@[simp ↓] theorem canState_met (b : Fin 3) (st : CanState) (s : State) : (canState b st s).met = s.met := by simp [canState]

@[simp ↓] theorem canRecovered_met (b : Fin 3) (s : State) : (canRecovered b s).met = s.met := by simp [canRecovered]

@[simp ↓] theorem canErrors_met (b : Fin 3) (tec rcc : Byte) (s : State) :
    (canErrors b tec rcc s).met = s.met := by simp [canErrors]

@[simp ↓] theorem canBusOff_met (b : Fin 3) (s : State) : (canBusOff b s).met = s.met := by simp [canBusOff]

@[simp ↓] theorem canClrcnt_met (b : Fin 3) (s : State) : (canClrcnt b s).met = s.met := by simp [canClrcnt]

@[simp ↓] theorem gpioSet_met (f : Gpio → Gpio) (s : State) : (gpioSet f s).met = s.met := by simp [gpioSet]

/-! ### Machine/Irq.lean -/

@[simp ↓] theorem plicClaim_met (ctx : Fin 8) (s : State) : (plicClaim ctx s).met = s.met := by simp [plicClaim]

@[simp ↓] theorem plicComplete_met (ctx : Fin 8) (src : Word) (s : State) :
    (plicComplete ctx src s).met = s.met := by simp [plicComplete]

/-! ### Machine/Mem.lean -/

@[simp ↓] theorem State.ramWrite_met (s : State) (a : Nat) (bs : List Byte) :
    (State.ramWrite s a bs).met = s.met := by simp [State.ramWrite]

@[simp ↓] theorem State.norWrite_met (s : State) (o : Nat) (bs : List Byte) :
    (State.norWrite s o bs).met = s.met := by simp [State.norWrite]

@[simp ↓] theorem State.norErase_met (s : State) (o n : Nat) : (State.norErase s o n).met = s.met := by simp [State.norErase]

@[simp ↓] theorem State.eccErrs_met (s : State) (k a req : Nat) :
    (State.eccErrs s k a req).met = s.met := by simp [State.eccErrs]

@[simp ↓] theorem State.eccErr_met (s : State) (a : Nat) (req : Nat) : (State.eccErr s a req).met = s.met := by simp [State.eccErr]

@[simp ↓] theorem State.eccRun_met (s : State) (a n req : Nat) :
    (State.eccRun s a n req).met = s.met := by simp [State.eccRun]

@[simp ↓] theorem parRecord_met (req : Nat) (a : Word) (onResponse : Bool) (s : State) :
    (parRecord req a onResponse s).met = s.met := by simp [parRecord]

@[simp ↓] theorem State.mark_met (s : State) (a : Nat) : (State.mark s a).met = s.met := by simp [State.mark]

@[simp ↓] theorem State.srcBytes_met (s : State) (req a n : Nat) : (State.srcBytes s req a n).2.met = s.met := by
  unfold State.srcBytes
  repeat' first | (simp; done) | split | (dsimp only; split)

theorem ramStore_met (s t : State) (a : Nat) (bs : List Byte) (h : ramStore s a bs = some t) : t.met = s.met := by
  unfold ramStore at h
  dsimp only at h
  split at h
  · cases h
  · cases h; simp

@[simp] theorem ramStore_getD_met (s : State) (a : Nat) (bs : List Byte) : ((ramStore s a bs).getD s).met = s.met := by
  cases h : ramStore s a bs with
  | none => rfl
  | some t => exact ramStore_met s t a bs h

@[simp ↓] theorem State.appWrite_met (s : State) (req a : Nat) (bs : List Byte) :
    (State.appWrite s req a bs).met = s.met := by
  unfold State.appWrite
  dsimp only
  split
  · split
    · rename_i h; rw [ramStore_met _ _ _ _ h, State.tagged_met]
    · simp
  · simp

/-! ### Machine/Tls.lean -/

@[simp ↓] theorem tlsEnd_met (n : Port) (rx : Bool) (res olen : Nat) (itype : Option Byte) (s : State) :
    (tlsEnd n rx res olen itype s).met = s.met := by simp [tlsEnd]

@[simp ↓] theorem tlsOk_met (n : Port) (rx : Bool) (dst : Word) (out : List Byte) (itype : Option Byte) (s : State) :
    (tlsOk n rx dst out itype s).met = s.met := by simp [tlsOk]

@[simp ↓] theorem tlsTxDone_met (n : Port) (o : TlsOp) (suite : Nat) (k : TlsKeys) (seq : Nat) (s : State) :
    (tlsTxDone n o suite k seq s).met = s.met := by simp [tlsTxDone]

@[simp ↓] theorem tlsRxDone_met (n : Port) (o : TlsOp) (suite : Nat) (k : TlsKeys) (seq : Nat) (s : State) :
    (tlsRxDone n o suite k seq s).met = s.met := by
  unfold tlsRxDone
  repeat' first | (simp; done) | split | (dsimp only; split)

@[simp ↓] theorem tlsServe_met (n : Port) (rx : Bool) (s : State) : (tlsServe n rx s).met = s.met := by
  unfold tlsServe
  repeat' first | (simp; done) | split | (dsimp only; split)

@[simp ↓] theorem tlsComplete_met (n : Port) (rx : Bool) (s : State) : (tlsComplete n rx s).met = s.met := by
  unfold tlsComplete
  repeat' first | (simp; done) | split | (dsimp only; split)

/-! ### Machine/Checks.lean -/

@[simp ↓] theorem State.withParams_met (s : State) (b : List (Nat × Word)) :
    (State.withParams s b).met = s.met := by simp [State.withParams]

/-! ### Machine/Fabric.lean -/

@[simp ↓] theorem restartParts_met (ps : List (Fin 8)) (s : State) :
    (restartParts ps s).met = s.met := by simp [restartParts]

@[simp ↓] theorem recheck_met (s : State) : (recheck s).met = s.met := by simp [recheck]

/-! ### Machine/DmaCtl.lean -/

@[simp ↓] theorem State.modDma_met (s : State) (c : Fin 32) (f : DmaCh → DmaCh) :
    (State.modDma s c f).met = s.met := by simp [State.modDma]

@[simp ↓] theorem settleReq_met (c : Fin 32) (s : State) : (settleReq c s).met = s.met := by simp [settleReq]

@[simp ↓] theorem requestAssert_met (r : Fin 32) (s : State) : (requestAssert r s).met = s.met := by simp [requestAssert]

@[simp ↓] theorem requestWithdraw_met (r : Fin 32) (s : State) : (requestWithdraw r s).met = s.met := by simp [requestWithdraw]

@[simp ↓] theorem delivered_met (r : Nat) (s : State) : (delivered r s).met = s.met := by
  unfold delivered
  repeat' first | (simp; done) | split | (dsimp only; split)

@[simp ↓] theorem writeStatus_met (c : Fin 32) (addr : Nat) (irq : Bool) (res : DmaResult) (bytes : Nat) (s : State) :
    (writeStatus c addr irq res bytes s).met = s.met := by simp [writeStatus]

@[simp ↓] theorem dmaHalt_met (c : Fin 32) (s : State) : (dmaHalt c s).met = s.met := by simp [dmaHalt]

@[simp ↓] theorem dropRest_met (r : Nat) (s : State) :
    (dropRest r s).met = s.met := by
  unfold dropRest
  repeat' first | (simp; done) | split | (dsimp only; split)

@[simp ↓] theorem dmaStop_met (c : Fin 32) (s : State) : (dmaStop c s).met = s.met := by simp [dmaStop]

@[simp ↓] theorem fetchDesc_met (a : Nat) (hit : Option Bool) (s : State) :
    ((fetchDesc a hit s).2.2).met = s.met := by
  unfold fetchDesc
  dsimp only
  split <;> simp

@[simp ↓] theorem loadDesc_met (c : Fin 32) (hit : Option Bool) (s : State) : (loadDesc c hit s).met = s.met := by
  unfold loadDesc
  repeat' first | (simp; done) | split | (dsimp only; split)

@[simp ↓] theorem dmaFinish_met (c : Fin 32) (hit : Option Bool) (s : State) :
    (dmaFinish c hit s).met = s.met := by
  unfold dmaFinish
  repeat' first | (simp; done) | split | (dsimp only; split)

@[simp ↓] theorem selectRequest_met (c : Fin 32) (sel : BitVec 5) (stays : Bool) (s : State) :
    (selectRequest c sel stays s).met = s.met := by simp [selectRequest]

@[simp ↓] theorem setPrio_met (c : Fin 32) (p : BitVec 2) (s : State) : (setPrio c p s).met = s.met := by simp [setPrio]

@[simp ↓] theorem dmaEnable_met (c : Fin 32) (hit : Option Bool) (s : State) :
    (dmaEnable c hit s).met = s.met := by simp [dmaEnable]

@[simp ↓] theorem dmaDisable_met (c : Fin 32) (s : State) : (dmaDisable c s).met = s.met := by
  unfold dmaDisable
  repeat' first | (simp; done) | split | (dsimp only; split)

@[simp ↓] theorem dmaAllOff_met (s : State) : (dmaAllOff s).met = s.met := by simp [dmaAllOff]

@[simp ↓] theorem dmaAbort_met (c : Fin 32) (s : State) : (dmaAbort c s).met = s.met := by
  unfold dmaAbort
  repeat' first | (simp; done) | split | (dsimp only; split)

@[simp ↓] theorem dmaKick_met (c : Fin 32) (hit : Option Bool) (s : State) :
    (dmaKick c hit s).met = s.met := by simp [dmaKick]

@[simp ↓] theorem dmaClear_met (s : State) : (dmaClear s).met = s.met := by simp [dmaClear]

/-! ### Machine/Modes.lean -/

@[simp ↓] theorem abandonTie_met (c : Fin 12) (s : State) : (abandonTie c s).met = s.met := by
  unfold abandonTie
  repeat' first | (simp; done) | split | (dsimp only; split)

@[simp ↓] theorem abandonCloses_met (s : State) : (abandonCloses s).met = s.met := by simp [abandonCloses]

@[simp ↓] theorem endOos_met (st : Status) (s : State) : (endOos st s).met = s.met := by
  unfold endOos
  repeat' first | (simp; done) | split | (dsimp only; split)

@[simp ↓] theorem rollbackDom_met (d : Fin 6) (s : State) : (rollbackDom d s).met = s.met := by simp [rollbackDom]

@[simp ↓] theorem rollbackOpen_met (s : State) : (rollbackOpen s).met = s.met := by simp [rollbackOpen]

@[simp ↓] theorem setMode_met (m : Mode) (s : State) : (setMode m s).met = s.met := by simp [setMode]

@[simp ↓] theorem endPending_met (cause : Nat) (s : State) : (endPending cause s).met = s.met := by simp [endPending]

@[simp ↓] theorem degradedStops_met (s : State) : (degradedStops s).met = s.met := by simp [degradedStops]

@[simp ↓] theorem portsSilent_met (s : State) : (portsSilent s).met = s.met := by simp [portsSilent]

@[simp ↓] theorem trialFails_met (s : State) : (trialFails s).met = s.met := by simp [trialFails]

@[simp ↓] theorem degradedEntry_met (s : State) : (degradedEntry s).met = s.met := by simp [degradedEntry]

@[simp ↓] theorem enterDegraded_met (c : DegCause) (s : State) : (enterDegraded c s).met = s.met := by simp [enterDegraded]

@[simp ↓] theorem degTrigger_met (c : DegCause) (s : State) : (degTrigger c s).met = s.met := by
  unfold degTrigger
  repeat' first | (simp; done) | split | (dsimp only; split)

@[simp ↓] theorem enterLockout_met (s : State) : (enterLockout s).met = s.met := by
  unfold enterLockout
  repeat' first | (simp; done) | split | (dsimp only; split)

@[simp ↓] theorem safeState_met (s : State) : (safeState s).met = s.met := by simp [safeState]

@[simp ↓] theorem latchStops_met (code : Nat) (s : State) : (latchStops code s).met = s.met := by simp [latchStops]

@[simp ↓] theorem latchFault_met (code : Fin 10) (s : State) : (latchFault code s).met = s.met := by simp [latchFault]

@[simp ↓] theorem leaveLockout_met (s : State) : (leaveLockout s).met = s.met := by simp [leaveLockout]

@[simp ↓] theorem oosStops_met (set : BitVec 8) (s : State) : (oosStops set s).met = s.met := by simp [oosStops]

@[simp ↓] theorem oosDone_met (s : State) : (oosDone s).met = s.met := by
  unfold oosDone
  repeat' first | (simp; done) | split | (dsimp only; split)

/-! ### Machine/Sec.lean -/

@[simp ↓] theorem secQueue_met (op : BitVec 6) (port : BitVec 4) (key : BitVec 6) (len : BitVec 16) (s : State) :
    (secQueue op port key len s).met = s.met := by simp [secQueue]

@[simp ↓] theorem gcmAux_met (a : Word) (s : State) : ((gcmAux a s).2.2).met = s.met := by simp [gcmAux]

@[simp ↓] theorem putKey_met (k : BitVec 6) (x : HostKey) (s : State) : (putKey k x s).met = s.met := by simp [putKey]

@[simp] theorem secFail_met (r : SecRes) (s : State) : (SecOut.fail r s).s.met = s.met := rfl
@[simp] theorem secGenkey_met (o : SecOp) (s : State) : (secGenkey o s).s.met = s.met := by
  unfold secGenkey
  (repeat' (first | with_reducible rfl | (simp; done) | split | (dsimp only; split) | refine (forAll_met _ _ _ (fun _ _ => ?_)).trans ?_ | (dsimp only; refine (forAll_met _ _ _ (fun _ _ => ?_)).trans ?_)))
@[simp] theorem secAes_met (o : SecOp) (src : List Byte) (k : HostKey) (s : State) : (secAes o src k s).s.met = s.met := by
  unfold secAes
  (repeat' (first | with_reducible rfl | (simp; done) | split | (dsimp only; split) | refine (forAll_met _ _ _ (fun _ _ => ?_)).trans ?_ | (dsimp only; refine (forAll_met _ _ _ (fun _ _ => ?_)).trans ?_)))
@[simp] theorem secEc_met (o : SecOp) (src : List Byte) (k : HostKey) (s : State) : (secEc o src k s).s.met = s.met := by
  unfold secEc
  (repeat' (first | with_reducible rfl | (simp; done) | split | (dsimp only; split) | refine (forAll_met _ _ _ (fun _ _ => ?_)).trans ?_ | (dsimp only; refine (forAll_met _ _ _ (fun _ _ => ?_)).trans ?_)))
@[simp] theorem secVerify_met (o : SecOp) (src : List Byte) (s : State) : (secVerify o src s).s.met = s.met := by
  unfold secVerify
  (repeat' (first | with_reducible rfl | (simp; done) | split | (dsimp only; split) | refine (forAll_met _ _ _ (fun _ _ => ?_)).trans ?_ | (dsimp only; refine (forAll_met _ _ _ (fun _ _ => ?_)).trans ?_)))
@[simp] theorem secImport_met (o : SecOp) (src : List Byte) (s : State) : (secImport o src s).s.met = s.met := by
  unfold secImport
  (repeat' (first | with_reducible rfl | (simp; done) | split | (dsimp only; split) | refine (forAll_met _ _ _ (fun _ _ => ?_)).trans ?_ | (dsimp only; refine (forAll_met _ _ _ (fun _ _ => ?_)).trans ?_)))
@[simp] theorem secAttest_met (src : List Byte) (s : State) : (secAttest src s).s.met = s.met := by
  unfold secAttest
  (repeat' (first | with_reducible rfl | (simp; done) | split | (dsimp only; split) | refine (forAll_met _ _ _ (fun _ _ => ?_)).trans ?_ | (dsimp only; refine (forAll_met _ _ _ (fun _ _ => ?_)).trans ?_)))
@[simp] theorem secRun_met (o : SecOp) (s : State) : (secRun o s).s.met = s.met := by
  unfold secRun
  (repeat' (first | with_reducible rfl | (simp; done) | split | (dsimp only; split) | refine (forAll_met _ _ _ (fun _ _ => ?_)).trans ?_ | (dsimp only; refine (forAll_met _ _ _ (fun _ _ => ?_)).trans ?_)))

@[simp ↓] theorem secComplete_met (s : State) : (secComplete s).met = s.met := by
  unfold secComplete
  repeat' first | (simp; done) | split | (dsimp only; split)

@[simp ↓] theorem auditTamper_met (s : State) : (auditTamper s).met = s.met := by
  unfold auditTamper
  repeat' first | (simp; done) | split | (dsimp only; split)

@[simp ↓] theorem tamper_met (det : Word) (s : State) : (tamper det s).met = s.met := by simp [tamper]

/-! ### Machine/Upd.lean -/

@[simp ↓] theorem beginNew_met (man : List Byte) (s : State) : (beginNew man s).met = s.met := by simp [beginNew]

@[simp ↓] theorem updBegin_met (a : Vector Word 16) (s : State) : ((updBegin a s).s).met = s.met := by simp [updBegin]

@[simp ↓] theorem eraseStaging_met (s : State) : (eraseStaging s).met = s.met := by simp [eraseStaging]

@[simp ↓] theorem beginDone_met (ok : Bool) (s : State) : (beginDone ok s).met = s.met := by simp [beginDone]

@[simp ↓] theorem repairSector_met (base size per : Nat) (sector : Nat) (s : State) :
    (repairSector base size per sector s).met = s.met := by simp [repairSector]

@[simp ↓] theorem repair_met (k : Nat) (s : State) : (repair k s).met = s.met := by simp [repair]

@[simp ↓] theorem updSpore_met (a : Vector Word 16) (s : State) : ((updSpore a s).s).met = s.met := by simp [updSpore]

@[simp ↓] theorem updMissing_met (a : Vector Word 16) (s : State) : ((updMissing a s).s).met = s.met := by simp [updMissing]

@[simp ↓] theorem updVerify_met (a_ : Vector Word 16) (s : State) : ((updVerify a_ s).s).met = s.met := by simp [updVerify]

@[simp ↓] theorem verifyDone_met (ok : Bool) (s : State) : (verifyDone ok s).met = s.met := by simp [verifyDone]

@[simp ↓] theorem updActivate_met (a : Vector Word 16) (s : State) : ((updActivate a s).s).met = s.met := by simp [updActivate]

@[simp ↓] theorem updCancel_met (a : Vector Word 16) (s : State) : ((updCancel a s).s).met = s.met := by simp [updCancel]

@[simp ↓] theorem updConfirm_met (a_ : Vector Word 16) (s : State) : ((updConfirm a_ s).s).met = s.met := by simp [updConfirm]

@[simp ↓] theorem reject_met (reason hostcode : Nat) (s : State) : (reject reason hostcode s).met = s.met := by simp [reject]

@[simp ↓] theorem updReport_met (a : Vector Word 16) (s : State) : ((updReport a s).s).met = s.met := by simp [updReport]

@[simp ↓] theorem updStatus_met (a_ : Vector Word 16) (s : State) : ((updStatus a_ s).s).met = s.met := by simp [updStatus]

@[simp ↓] theorem windowWarning_met (s : State) : (windowWarning s).met = s.met := by simp [windowWarning]

@[simp ↓] theorem windowExpiry_met (s : State) : (windowExpiry s).met = s.met := by simp [windowExpiry]

@[simp ↓] theorem setOpen_met (a_ : Vector Word 16) (s : State) : ((setOpen a_ s).s).met = s.met := by simp [setOpen]

@[simp ↓] theorem setOpenDone_met (ok : Bool) (s : State) : (setOpenDone ok s).met = s.met := by simp [setOpenDone]

@[simp ↓] theorem State.norProgram_met (s : State) (o : Nat) (l : List Byte) :
    (State.norProgram s o l).met = s.met := by simp [State.norProgram]

@[simp ↓] theorem setWrite_met (a : Vector Word 16) (s : State) : ((setWrite a s).s).met = s.met := by
  unfold setWrite
  repeat' first | (simp; done) | split | (dsimp only; split)

@[simp ↓] theorem setCommit_met (a : Vector Word 16) (s : State) : ((setCommit a s).s).met = s.met := by
  unfold setCommit
  repeat' first | (simp; done) | split | (dsimp only; split)

@[simp ↓] theorem keyRotate_met (a : Vector Word 16) (s : State) : ((keyRotate a s).s).met = s.met := by simp [keyRotate]

@[simp ↓] theorem updClear_met (s : State) : (updClear s).met = s.met := by simp [updClear]

/-! ### Machine/Display.lean -/

@[simp ↓] theorem railStep_met (s : State) : (railStep s).met = s.met := by
  unfold railStep
  repeat' first | (simp; done) | split | (dsimp only; split)

@[simp ↓] theorem lowerRails_met (s : State) : (lowerRails s).met = s.met := by
  unfold lowerRails
  repeat' first | (simp; done) | split | (dsimp only; split)

@[simp ↓] theorem fetchTarget_met (r : Fin 16) (u : RunUpd) (s : State) : (fetchTarget r u s).2.met = s.met := by
  unfold fetchTarget
  repeat' first | (simp; done) | split | (dsimp only; split)

@[simp ↓] theorem beginUpdate_met (r : Fin 16) (u : RunUpd) (s : State) : (beginUpdate r u s).met = s.met := by simp [beginUpdate]

@[simp ↓] theorem noteTemp_met (s : State) : (noteTemp s).met = s.met := by simp [noteTemp]

@[simp ↓] theorem raiseRails_met (s : State) : (raiseRails s).met = s.met := by simp [raiseRails]

@[simp ↓] theorem startPending_met (r : Fin 16) (q : PendUpd) (band : Nat) (s : State) :
    (startPending r q band s).met = s.met := by simp [startPending]

@[simp ↓] theorem updateStart_met (slot : Fin 4) (s : State) : (updateStart slot s).met = s.met := by
  unfold updateStart
  repeat' first | (simp; done) | split | (dsimp only; split)

@[simp ↓] theorem setPermit_met (on : Bool) (s : State) : (setPermit on s).met = s.met := by
  unfold setPermit
  repeat' first | (simp; done) | split | (dsimp only; split)

@[simp ↓] theorem permitCheck_met (s : State) : (permitCheck s).met = s.met := by simp [permitCheck]

@[simp ↓] theorem finishUpdate_met (r : Fin 16) (u : RunUpd) (s : State) :
    (finishUpdate r u s).met = s.met := by simp [finishUpdate]

@[simp ↓] theorem followLater_met (r : Fin 16) (m : BitVec 3) (u : RunUpd) (s : State) :
    (followLater r m u s).met = s.met := by simp [followLater]

@[simp ↓] theorem updateEnd_met (r : Fin 16) (s : State) : (updateEnd r s).met = s.met := by
  unfold updateEnd
  repeat' first | (simp; done) | split | (dsimp only; split)

@[simp ↓] theorem updateRequest_met (r : Fin 16) (mode : BitVec 3) (s : State) :
    (updateRequest r mode s).met = s.met := by simp [updateRequest]

@[simp ↓] theorem queueRedraw_met (s : State) (r : Fin 16) : (queueRedraw s r).met = s.met := by simp [queueRedraw]

@[simp ↓] theorem queueRedraws_met (s : State) : (queueRedraws s).met = s.met := by simp [queueRedraws]

@[simp ↓] theorem railFault_met (rail : Fin 5) (s : State) : (railFault rail s).met = s.met := by simp [railFault]

@[simp ↓] theorem railRetry_met (s : State) : (railRetry s).met = s.met := by simp [railRetry]

@[simp ↓] theorem dispClrcnt_met (s : State) : (dispClrcnt s).met = s.met := by simp [dispClrcnt]

/-! ### Machine/SafeFunctions.lean -/

@[simp ↓] theorem pairTick_met (j : Fin 8) (s : State) : (pairTick j s).met = s.met := by simp [pairTick]

@[simp ↓] theorem connTick_met (k : Fin 16) (s : State) : (connTick k s).met = s.met := by simp [connTick]

@[simp ↓] theorem tickInputs_met (lv : BitVec 16) (lorst : Bool) (s : State) :
    (tickInputs lv lorst s).met = s.met := by simp [tickInputs]

@[simp ↓] theorem tickChecks_met (spDiff rcBad : Bool) (s : State) :
    (tickChecks spDiff rcBad s).met = s.met := by simp [tickChecks]

@[simp ↓] theorem sf01_met (n : Port) (s : State) : (sf01 n s).met = s.met := by simp [sf01]

@[simp ↓] theorem sf07_met (n : Port) (s : State) : (sf07 n s).met = s.met := by
  unfold sf07
  repeat' first | (simp; done) | split | (dsimp only; split)

@[simp ↓] theorem outCounts_met (n : Port) (s : State) : (outCounts n s).met = s.met := by simp [outCounts]

@[simp ↓] theorem pilotFault_met (n : Port) (s : State) : (pilotFault n s).met = s.met := by simp [pilotFault]

@[simp ↓] theorem sf09_met (n : Port) (s : State) : (sf09 n s).met = s.met := by
  unfold sf09
  repeat' first | (simp; done) | split | (dsimp only; split)

@[simp ↓] theorem outTick_met (n : Port) (s : State) : (outTick n s).met = s.met := by simp [outTick]

@[simp ↓] theorem setImd_met (g : Fin 6) (st : ImdState) (s : State) : (setImd g st s).met = s.met := by simp [setImd]

@[simp ↓] theorem imdRestart_met (g : Fin 6) (s : State) : (imdRestart g s).met = s.met := by simp [imdRestart]

@[simp ↓] theorem preCheck_met (g : Fin 6) (s : State) : (preCheck g s).met = s.met := by simp [preCheck]

@[simp ↓] theorem imdSync_met (s : State) : (imdSync s).met = s.met := by simp [imdSync]

@[simp ↓] theorem askPreCheck_met (g : Fin 6) (s : State) : (askPreCheck g s).met = s.met := by simp [askPreCheck]

@[simp ↓] theorem imdTick_met (g : Fin 6) (s : State) : (imdTick g s).met = s.met := by simp [imdTick]

@[simp ↓] theorem rampTick_met (n : Port) (s : State) : (rampTick n s).met = s.met := by
  unfold rampTick
  repeat' first | (simp; done) | split | (dsimp only; split)

@[simp ↓] theorem weldTick_met (c : Fin 12) (s : State) : (weldTick c s).met = s.met := by
  unfold weldTick
  repeat' first | (simp; done) | split | (dsimp only; split)

@[simp ↓] theorem prepareTie_met (c : Fin 12) (s : State) : (prepareTie c s).met = s.met := by
  unfold prepareTie
  repeat' first | (simp; done) | split | (dsimp only; split)

@[simp ↓] theorem fallBack_met (c : Fin 12) (s : State) : (fallBack c s).met = s.met := by simp [fallBack]

@[simp ↓] theorem closeTick_met (c : Fin 12) (s : State) : (closeTick c s).met = s.met := by
  unfold closeTick
  repeat' first | (simp; done) | split | (dsimp only; split)

@[simp ↓] theorem tieOpenReq_met (c : Fin 12) (commit : Bool) (s : State) :
    (tieOpenReq c commit s).met = s.met := by simp [tieOpenReq]

@[simp ↓] theorem autoOpen_met (s : State) : (autoOpen s).met = s.met := by simp [autoOpen]

@[simp ↓] theorem openTick_met (c : Fin 12) (s : State) : (openTick c s).met = s.met := by
  unfold openTick
  repeat' first | (simp; done) | split | (dsimp only; split)

@[simp ↓] theorem enqueue_met (c : Fin 12) (s : State) : (enqueue c s).met = s.met := by simp [enqueue]

@[simp ↓] theorem numberReq_met (c : Fin 12) (s : State) : (numberReq c s).met = s.met := by simp [numberReq]

@[simp] theorem serveQueue_met (f : Nat) (s : State) : (serveQueue f s).met = s.met := by
  induction f generalizing s with
  | zero => rfl
  | succ f ih =>
    unfold serveQueue
    (repeat' (first | with_reducible rfl | (simp [ih]; done) | split | (dsimp only; split) | refine (forAll_met _ _ _ (fun _ _ => ?_)).trans ?_ | (dsimp only; refine (forAll_met _ _ _ (fun _ _ => ?_)).trans ?_)))

/-! ### Machine/SafeCoils.lean -/

@[simp ↓] theorem announceExpiry_met (c : Fin 12) (s : State) : (announceExpiry c s).met = s.met := by
  unfold announceExpiry
  repeat' first | (simp; done) | split | (dsimp only; split)

@[simp ↓] theorem closeMet_met (c : Fin 12) (s : State) : (closeMet c s).met = s.met := by
  unfold closeMet
  repeat' first | (simp; done) | split | (dsimp only; split)

@[simp ↓] theorem pullInEnd_met (c : Fin 12) (s : State) : (pullInEnd c s).met = s.met := by simp [pullInEnd]

@[simp ↓] theorem coilFault_met (c : Fin 12) (s : State) : (coilFault c s).met = s.met := by simp [coilFault]

@[simp ↓] theorem pulseTest_met (c : Fin 12) (high pass : Bool) (s : State) :
    (pulseTest c high pass s).met = s.met := by simp [pulseTest]

@[simp ↓] theorem lockoutRetest_met (c : Fin 12) (high pass : Bool) (s : State) :
    (lockoutRetest c high pass s).met = s.met := by simp [lockoutRetest]

@[simp ↓] theorem pulseInput_met (i : Fin 16) (low : Bool) (s : State) : (pulseInput i low s).met = s.met := by simp [pulseInput]

@[simp ↓] theorem testPulse_met (b : Bool) (low : BitVec 16) (s : State) : (testPulse b low s).met = s.met := by simp [testPulse]

@[simp ↓] theorem discrepancy_met (j : Fin 8) (s : State) : (discrepancy j s).met = s.met := by simp [discrepancy]

@[simp ↓] theorem rearmEdge_met (s : State) : (rearmEdge s).met = s.met := by
  unfold rearmEdge
  repeat' first | (simp; done) | split | (dsimp only; split)

@[simp ↓] theorem splitCheck_met (g : Fin 6) (s : State) : (splitCheck g s).met = s.met := by simp [splitCheck]

@[simp ↓] theorem tieFail_met (c : Fin 12) (s : State) : (tieFail c s).met = s.met := by simp [tieFail]

@[simp ↓] theorem fbCloseTimeout_met (c : Fin 12) (s : State) : (fbCloseTimeout c s).met = s.met := by simp [fbCloseTimeout]

@[simp ↓] theorem tieTimeout_met (c : Fin 12) (s : State) : (tieTimeout c s).met = s.met := by
  unfold tieTimeout
  repeat' first | (simp; done) | split | (dsimp only; split)

@[simp ↓] theorem grantTimeout_met (c : Fin 12) (s : State) : (grantTimeout c s).met = s.met := by simp [grantTimeout]

/-! ### Machine/SafeMonitors.lean -/

@[simp ↓] theorem nextDwell_met (g : Fin 6) (s : State) : (nextDwell g s).met = s.met := by simp [nextDwell]

@[simp ↓] theorem imdInvalid_met (g : Fin 6) (d p : Dwell) (s : State) :
    (imdInvalid g d p s).met = s.met := by simp [imdInvalid]

@[simp ↓] theorem imdValue_met (g : Fin 6) (r : Rat) (s : State) : (imdValue g r s).met = s.met := by
  unfold imdValue
  repeat' first | (simp; done) | split | (dsimp only; split)

@[simp ↓] theorem imdDwellEnd_met (g : Fin 6) (s : State) : (imdDwellEnd g s).met = s.met := by
  unfold imdDwellEnd
  repeat' first | (simp; done) | split | (dsimp only; split)

@[simp ↓] theorem imdUnknown_met (g : Fin 6) (s : State) : (imdUnknown g s).met = s.met := by simp [imdUnknown]

@[simp ↓] theorem tempStale_met (n : Port) (k : Fin 2) (s : State) : (tempStale n k s).met = s.met := by simp [tempStale]

@[simp ↓] theorem hoursLimit_met (s : State) : (hoursLimit s).met = s.met := by simp [hoursLimit]

/-! ### Machine/SafeFast.lean -/

@[simp ↓] theorem fastComps_met (g : Fin 2) (n : Port) (s : State) : (fastComps g n s).met = s.met := by
  unfold fastComps
  repeat' first | (simp; done) | split | (dsimp only; split)

@[simp ↓] theorem fastTrip_met (n : Port) (s : State) : (fastTrip n s).met = s.met := by
  unfold fastTrip
  repeat' first | (simp; done) | split | (dsimp only; split)

@[simp ↓] theorem fastOutlet_met (g : Fin 2) (n : Port) (s : State) : (fastOutlet g n s).met = s.met := by simp [fastOutlet]

/-! ### Machine/SysCtl.lean -/

@[simp ↓] theorem wdogKick_met (v : Word) (s : State) : (wdogKick v s).met = s.met := by simp [wdogKick]

@[simp ↓] theorem sramFetch_met (core : Fin 4) (a : Word) (s : State) : (sramFetch core a s).met = s.met := by simp [sramFetch]

@[simp ↓] theorem thermal1_met (s : State) : (thermal1 s).met = s.met := by simp [thermal1]

@[simp ↓] theorem thermal2_met (s : State) : (thermal2 s).met = s.met := by simp [thermal2]

@[simp ↓] theorem degcfgWrite_met (v : Word) (s : State) : (degcfgWrite v s).met = s.met := by simp [degcfgWrite]

@[simp ↓] theorem vcoreWrite_met (v : Word) (s : State) : (vcoreWrite v s).met = s.met := by simp [vcoreWrite]

@[simp ↓] theorem capMeasured_met (t : Nat) (vsup : BitVec 12) (s : State) :
    (capMeasured t vsup s).met = s.met := by simp [capMeasured]

@[simp ↓] theorem holdReady_met (vsup vhold : BitVec 12) (s : State) :
    (holdReady vsup vhold s).met = s.met := by simp [holdReady]

@[simp ↓] theorem coreResume_met (s : State) : (coreResume s).met = s.met := by simp [coreResume]

@[simp ↓] theorem meshPar_met (req : Nat) (a : Word) (onResponse : Bool) (s : State) :
    (meshPar req a onResponse s).met = s.met := by simp [meshPar]

@[simp ↓] theorem meshClear_met (s : State) : (meshClear s).met = s.met := by simp [meshClear]

/-! ### Machine/SafeReset.lean -/

@[simp ↓] theorem slogSelftest_met (step : Byte) (s : State) : (slogSelftest step s).met = s.met := by simp [slogSelftest]

@[simp ↓] theorem restartSelftest_met (step : Byte) (s : State) : (restartSelftest step s).met = s.met := by simp [restartSelftest]

@[simp ↓] theorem tieSplit_met (ties : List (Fin 12)) (s : State) : (tieSplit ties s).met = s.met := by simp [tieSplit]

@[simp ↓] theorem resetAccepted_met (len : Nat) (link : Option (Fin 16)) (step : Byte) (s : State) :
    (resetAccepted len link step s).met = s.met := by simp [resetAccepted]

@[simp ↓] theorem deliberateReset_met (len rise : Nat) (link : Option (Fin 16)) (step : Byte) (s : State) :
    (deliberateReset len rise link step s).met = s.met := by simp [deliberateReset]

@[simp ↓] theorem lorstPulse_met (step : Byte) (s : State) : (lorstPulse step s).met = s.met := by
  unfold lorstPulse
  repeat' first | (simp; done) | split | (dsimp only; split)

/-! ### Machine/SafeCalls.lean -/

@[simp ↓] theorem safeBody_met (inLockout outlet : Bool) (body : Vector Word 16 → State → Reply) (a : Vector Word 16) (s : State) (hbody : ∀ x0 s, ((body x0 s).s).met = s.met) :
    ((safeBody inLockout outlet body a s).s).met = s.met := by simp [safeBody, hbody]

@[simp ↓] theorem safeCall_met (cmd : Nat) (inLockout outlet : Bool) (c : Call) (body : Vector Word 16 → State → Reply) (s : State) (hbody : ∀ x0 s, ((body x0 s).s).met = s.met) :
    (safeCall cmd inLockout outlet c body s).met = s.met := by simp [safeCall, hbody]

@[simp ↓] theorem startClose_met (n : Port) (c : Fin 12) (vEv iEv : Nat) (s : State) :
    (startClose n c vEv iEv s).met = s.met := by
  unfold startClose
  repeat' first | (simp; done) | split | (dsimp only; split)

@[simp ↓] theorem closeReq_met (a : Vector Word 16) (s : State) : ((closeReq a s).s).met = s.met := by
  unfold closeReq
  repeat' first | (simp; done) | split | (dsimp only; split)

@[simp ↓] theorem stopCall_met (a : Vector Word 16) (s : State) : ((stopCall a s).s).met = s.met := by simp [stopCall]

@[simp ↓] theorem setLimits_met (a : Vector Word 16) (s : State) : ((setLimits a s).s).met = s.met := by
  unfold setLimits
  repeat' first | (simp; done) | split | (dsimp only; split)

@[simp ↓] theorem rearmPort_met (n : Port) (s : State) : (rearmPort n s).met = s.met := by
  unfold rearmPort
  repeat' first | (simp; done) | split | (dsimp only; split)

@[simp ↓] theorem rearmPorts_met (mask : Nat) (s : State) : ((rearmPorts mask s).2.2).met = s.met := by simp [rearmPorts]

@[simp ↓] theorem rearmCall_met (a : Vector Word 16) (s : State) : ((rearmCall a s).s).met = s.met := by simp [rearmCall]

@[simp ↓] theorem setOos_met (a : Vector Word 16) (s : State) : ((setOos a s).s).met = s.met := by simp [setOos]

@[simp ↓] theorem contactorReplaced_met (a : Vector Word 16) (s : State) :
    ((contactorReplaced a s).s).met = s.met := by
  unfold contactorReplaced
  repeat' first | (simp; done) | split | (dsimp only; split)

@[simp ↓] theorem readChkval_met (a_ : Vector Word 16) (s : State) : ((readChkval a_ s).s).met = s.met := by simp [readChkval]

@[simp ↓] theorem linkKeyLoad_met (a : Vector Word 16) (s : State) : ((linkKeyLoad a s).s).met = s.met := by
  unfold linkKeyLoad
  repeat' first | (simp; done) | split | (dsimp only; split)

@[simp ↓] theorem tripTest_met (pass : BitVec 4) (a : Vector Word 16) (s : State) :
    ((tripTest pass a s).s).met = s.met := by
  unfold tripTest
  repeat' first | (simp; done) | split | (dsimp only; split)

@[simp ↓] theorem readSlog_met (a : Vector Word 16) (s : State) : ((readSlog a s).s).met = s.met := by simp [readSlog]

@[simp ↓] theorem slogRelease_met (a : Vector Word 16) (s : State) : ((slogRelease a s).s).met = s.met := by
  unfold slogRelease
  repeat' first | (simp; done) | split | (dsimp only; split)

@[simp ↓] theorem confirmResult_met (source : Nat) (exact : Bool) (value : Word) (s : State) :
    (confirmResult source exact value s).met = s.met := by simp [confirmResult]

@[simp ↓] theorem entryEnd_met (e : Entry) (s : State) : (entryEnd e s).met = s.met := by simp [entryEnd]

@[simp ↓] theorem confirmKey_met (e : Entry) (k : BitVec 4) (s : State) : (confirmKey e k s).met = s.met := by simp [confirmKey]

/-! ### Machine/SafeLink.lean -/

@[simp ↓] theorem linkReport_met (k : Fin 16) (s : State) : (linkReport k s).met = s.met := by simp [linkReport]

@[simp ↓] theorem setLink_met (k : Fin 16) (st : LinkState) (s : State) : (setLink k st s).met = s.met := by simp [setLink]

@[simp ↓] theorem linkDemand_met (n : Port) (cat : Nat) (why : Why) (s : State) :
    (linkDemand n cat why s).met = s.met := by simp [linkDemand]

@[simp ↓] theorem linkFail_met (k : Fin 16) (s : State) : (linkFail k s).met = s.met := by simp [linkFail]

@[simp ↓] theorem linkConnect_met (k : Fin 16) (s : State) : (linkConnect k s).met = s.met := by simp [linkConnect]

@[simp ↓] theorem sendPdu_met (k : Fin 16) (ack : Bool) (payload : List Byte) (s : State) :
    (sendPdu k ack payload s).met = s.met := by simp [sendPdu]

@[simp ↓] theorem sendConnect_met (k : Fin 16) (ack : Bool) (s : State) :
    (sendConnect k ack s).met = s.met := by simp [sendConnect]

@[simp ↓] theorem sendData_met (k : Fin 16) (s : State) : (sendData k s).met = s.met := by simp [sendData]

@[simp ↓] theorem linkCycle_met (k : Fin 16) (s : State) : (linkCycle k s).met = s.met := by
  unfold linkCycle
  repeat' first | (simp; done) | split | (dsimp only; split)

@[simp ↓] theorem linkWatchdog_met (k : Fin 16) (s : State) : (linkWatchdog k s).met = s.met := by simp [linkWatchdog]

@[simp ↓] theorem dualMiss_met (k : Fin 16) (x : Copy) (s : State) : (dualMiss k x s).met = s.met := by simp [dualMiss]

@[simp ↓] theorem dualPair_met (k : Fin 16) (x : Copy) (s : State) : (dualPair k x s).met = s.met := by simp [dualPair]

@[simp ↓] theorem dualExpiry_met (k : Fin 16) (s : State) : (dualExpiry k s).met = s.met := by
  unfold dualExpiry
  repeat' first | (simp; done) | split | (dsimp only; split)

@[simp ↓] theorem dualFirst_met (k : Fin 16) (p : LinkPdu) (l : List Byte) (s : State) :
    (dualFirst k p l s).met = s.met := by simp [dualFirst]

@[simp ↓] theorem dualSecond_met (k : Fin 16) (x : Copy) (l : List Byte) (s : State) :
    (dualSecond k x l s).met = s.met := by simp [dualSecond]

@[simp ↓] theorem acceptPdu_met (k : Fin 16) (p : LinkPdu) (s : State) : ((acceptPdu k p s).2).met = s.met := by
  unfold acceptPdu
  repeat' first | (simp; done) | split | (dsimp only; split)

@[simp ↓] theorem firstCopy_met (ty : Byte) (k : Fin 16) (p : LinkPdu) (conn open_ : Fin 16 → State → State) (s : State)
    (hconn : ∀ x0 s, (conn x0 s).met = s.met) (hopen_ : ∀ x0 s, (open_ x0 s).met = s.met) :
    (firstCopy ty k p conn open_ s).met = s.met := by
  unfold firstCopy
  repeat' first | (simp [hconn, hopen_]; done) | split | (dsimp only; split)

@[simp ↓] theorem receivePdu_met (ty : Byte) (p : LinkPdu) (conn open_ : Fin 16 → State → State) (s : State) (hconn : ∀ x0 s, (conn x0 s).met = s.met) (hopen_ : ∀ x0 s, (open_ x0 s).met = s.met) :
    (receivePdu ty p conn open_ s).met = s.met := by
  unfold receivePdu
  repeat' first | (simp [hconn, hopen_]; done) | split | (dsimp only; split)

@[simp ↓] theorem takeSeq_met (p : LinkPdu) (k : Fin 16) (s : State) : (takeSeq p k s).met = s.met := by simp [takeSeq]

@[simp ↓] theorem onConnect_met (p : LinkPdu) (k : Fin 16) (s : State) : (onConnect p k s).met = s.met := by simp [onConnect]

@[simp ↓] theorem onData_met (p : LinkPdu) (k : Fin 16) (s : State) : (onData p k s).met = s.met := by simp [onData]

@[simp ↓] theorem onPress_met (k : Fin 16) (s : State) : (onPress k s).met = s.met := by simp [onPress]

@[simp ↓] theorem onRelease_met (step : Byte) (k : Fin 16) (s : State) : (onRelease step k s).met = s.met := by
  unfold onRelease
  repeat' first | (simp; done) | split | (dsimp only; split)

@[simp ↓] theorem onRearm_met (p : LinkPdu) (k : Fin 16) (s : State) : (onRearm p k s).met = s.met := by simp [onRearm]

@[simp ↓] theorem onConfirm_met (p : LinkPdu) (k : Fin 16) (s : State) : (onConfirm p k s).met = s.met := by simp [onConfirm]

/-! ### Machine/Thl.lean -/

@[simp ↓] theorem slotStart_met (cmd : SlotCmd) (allowed : Bool) (k : Fin 2) (s : State) :
    (slotStart cmd allowed k s).met = s.met := by simp [slotStart]

@[simp ↓] theorem slotWriteCmd_met (k : Fin 2) (s : State) : (slotWriteCmd k s).met = s.met := by simp [slotWriteCmd]

@[simp ↓] theorem slotSwitchCmd_met (k : Fin 2) (s : State) : (slotSwitchCmd k s).met = s.met := by simp [slotSwitchCmd]

@[simp ↓] theorem State.freeBytes_met (s : State) (n : Nat) : ((State.freeBytes s n).2).met = s.met := by simp [State.freeBytes]

@[simp ↓] theorem slotErased_met (k : Fin 2) (ok : Bool) (s : State) : ((slotErased k ok s).1).met = s.met := by
  unfold slotErased
  repeat' first | (simp; done) | split | (dsimp only; split)

@[simp ↓] theorem slotWritten_met (k : Fin 2) (ok : Bool) (s : State) :
    ((slotWritten k ok s).1).met = s.met := by
  unfold slotWritten
  repeat' first | (simp; done) | split | (dsimp only; split)

@[simp ↓] theorem slotVerified_met (k : Fin 2) (ok : Bool) (s : State) :
    ((slotVerified k ok s).1).met = s.met := by simp [slotVerified]

@[simp ↓] theorem slotCommandDone_met (ok : Bool) (s : State) : (slotCommandDone ok s).met = s.met := by
  unfold slotCommandDone
  repeat' first | (simp; done) | split | (dsimp only; split)

@[simp ↓] theorem stageEnd_met (r : Nat) (c : List Byte) (s : State) : (stageEnd r c s).met = s.met := by simp [stageEnd]

@[simp ↓] theorem prStage_met (s : State) : (prStage s).met = s.met := by simp [prStage]

@[simp ↓] theorem stagingDone_met (s : State) : (stagingDone s).met = s.met := by simp [stagingDone]

@[simp ↓] theorem prDiscard_met (s : State) : (prDiscard s).met = s.met := by simp [prDiscard]

@[simp ↓] theorem writeIn_met (s : State) : (writeIn s).met = s.met := by simp [writeIn]

@[simp ↓] theorem State.modPart_met (s : State) (p : Fin 8) (f : PartCnt → PartCnt) :
    (State.modPart s p f).met = s.met := by simp [State.modPart]

@[simp ↓] theorem scrubCorrect_met (p : Fin 8) (s : State) : (scrubCorrect p s).met = s.met := by simp [scrubCorrect]

@[simp ↓] theorem fabricParity_met (p : Fin 8) (s : State) : (fabricParity p s).met = s.met := by simp [fabricParity]

@[simp ↓] theorem thlClear_met (s : State) : (thlClear s).met = s.met := by simp [thlClear]

@[simp ↓] theorem gSignal_met (g : GSignal) (s : State) : (gSignal g s).met = s.met := by
  unfold gSignal
  repeat' first | (simp; done) | split | (dsimp only; split)

/-! ### Machine/Txn.lean -/

@[simp ↓] theorem place_met (d : Fin 6) (a : Nat) (v : Word) (s : State) : (place d a v s).met = s.met := by
  unfold place
  repeat' first | (simp; done) | split | (dsimp only; split)

@[simp ↓] theorem rwtWrite_met (a : Nat) (v : Word) (s : State) : (rwtWrite a v s).met = s.met := by
  unfold rwtWrite
  repeat' first | (simp; done) | split | (dsimp only; split)

@[simp ↓] theorem txnBody_met (body : Vector Word 16 → State → Reply) (a : Vector Word 16) (s : State) (hbody : ∀ x0 s, ((body x0 s).s).met = s.met) :
    ((txnBody body a s).s).met = s.met := by simp [txnBody, hbody]

@[simp ↓] theorem txnBegin_met (a : Vector Word 16) (s : State) : ((txnBegin a s).s).met = s.met := by
  unfold txnBegin
  repeat' first | (simp; done) | split | (dsimp only; split)

@[simp] theorem txnNamed_met (s : State) (a : Vector Word 16) (f : Fin 6 → Reply)
    (hf : ∀ d, (f d).s.met = s.met) : (txnNamed s a f).s.met = s.met := by
  unfold txnNamed
  split
  · rfl
  · exact checks_met _ _ _ (hf _)

@[simp ↓] theorem txnCommit_met (a : Vector Word 16) (s : State) : ((txnCommit a s).s).met = s.met := by simp [txnCommit]

@[simp ↓] theorem txnRollback_met (a : Vector Word 16) (s : State) : ((txnRollback a s).s).met = s.met := by simp [txnRollback]

@[simp ↓] theorem txnRenew_met (a : Vector Word 16) (s : State) : ((txnRenew a s).s).met = s.met := by simp [txnRenew]

@[simp ↓] theorem txnPut_met (a : Vector Word 16) (s : State) : ((txnPut a s).s).met = s.met := by
  unfold txnPut
  repeat' first | (simp; done) | split | (dsimp only; split)

@[simp ↓] theorem leaseExpiry_met (d : Fin 6) (s : State) : (leaseExpiry d s).met = s.met := by simp [leaseExpiry]

@[simp ↓] theorem journalChanges_met (l : List (Nat × Word × Word)) (s : State) :
    (journalChanges l s).met = s.met := by simp [journalChanges]

@[simp ↓] theorem auditChanges_met (window : Nat) (reason : Byte) (l : List (Nat × Word × Word)) (s : State) :
    (auditChanges window reason l s).met = s.met := by simp [auditChanges]

@[simp ↓] theorem commitTokenKeys_met (reason : Byte) (ks : List (Nat × Option (BitVec 128))) (s : State) :
    (commitTokenKeys reason ks s).met = s.met := by simp [commitTokenKeys]

@[simp ↓] theorem tieCloseReq_met (c : Fin 12) (s : State) : (tieCloseReq c s).met = s.met := by simp [tieCloseReq]

@[simp ↓] theorem siteSequence_met (was : List (Fin 48 × Nat)) (s : State) :
    (siteSequence was s).met = s.met := by simp [siteSequence]

@[simp ↓] theorem commitSite_met (l : List (Nat × Word × Word)) (s : State) : (commitSite l s).met = s.met := by simp [commitSite]

@[simp ↓] theorem commitThl_met (agree : Bool) (reason : Byte) (s : State) :
    ((commitThl agree reason s).2).met = s.met := by
  unfold commitThl
  repeat' first | (simp; done) | split | (dsimp only; split)

@[simp ↓] theorem frontLight_met (old : Nat) (s : State) : (frontLight old s).met = s.met := by simp [frontLight]

@[simp ↓] theorem endCommit_met (d : Fin 6) (st : Status) (s : State) : (endCommit d st s).met = s.met := by
  unfold endCommit
  repeat' first | (simp; done) | split | (dsimp only; split)

@[simp ↓] theorem txnClear_met (s : State) : (txnClear s).met = s.met := by simp [txnClear]

@[simp ↓] theorem compatWrite_met (i : Fin 28) (req : BitVec 16) (s : State) :
    (compatWrite i req s).met = s.met := by
  unfold compatWrite
  repeat' first | (simp; done) | split | (dsimp only; split)

/-! ### Machine/Keys.lean -/

@[simp ↓] theorem freeKey_met (k : BitVec 4) (s : State) : (freeKey k s).met = s.met := by simp [freeKey]

@[simp ↓] theorem keyPress_met (row col : Fin 4) (twin : Bool) (s : State) : (keyPress row col twin s).met = s.met := by
  unfold keyPress
  repeat' first | (simp; done) | split | (dsimp only; split)

@[simp ↓] theorem keyFifoRead_met (s : State) : (keyFifoRead s).met = s.met := by
  unfold keyFifoRead
  repeat' first | (simp; done) | split | (dsimp only; split)

/-! ### Machine/RegRead.lean -/

@[simp ↓] theorem multiWrap_met (s : State) (req a : Nat) (m : MeterId) (exp : Bool) :
    ((multiWrap s req a m exp).2).met = s.met := by simp [multiWrap]

@[simp ↓] theorem rosLatch_met (req a : Nat) (k : BlkKind) (n base o : Nat) (s : State) :
    (rosLatch req a k n base o s).met = s.met := by
  unfold rosLatch
  repeat' first | (simp; done) | split | (dsimp only; split)

@[simp ↓] theorem regRead_met (req a : Nat) (s : State) : (regRead req a s).met = s.met := by
  unfold regRead
  repeat' first | (simp; done) | split | (dsimp only; split)

@[simp ↓] theorem memWordRead_met (req a n : Nat) (s : State) : (memWordRead req a n s).met = s.met := by
  unfold memWordRead
  repeat' first | (simp; done) | split | (dsimp only; split)

@[simp ↓] theorem busRead_met (req a : Nat) (size : AccSize) (s : State) :
    (busRead req a size s).met = s.met := by simp [busRead]

/-! ### Machine/EthMac.lean -/

@[simp ↓] theorem ethStore_met (m : Fin 2) (f : List Byte) (s : State) : (ethStore m f s).met = s.met := by simp [ethStore]

@[simp ↓] theorem safeReceive_met (m : Fin 2) (f : List Byte) (step : Byte) (s : State) :
    (safeReceive m f step s).met = s.met := by
  unfold safeReceive
  repeat' first | (simp; done) | split | (dsimp only; split)

@[simp ↓] theorem ethReceive_met (m : Fin 2) (f : List Byte) (good : Bool) (step : Byte) (s : State) :
    (ethReceive m f good step s).met = s.met := by simp [ethReceive]

@[simp ↓] theorem ethTransmit_met (m : Fin 2) (s : State) : (ethTransmit m s).met = s.met := by
  unfold ethTransmit
  repeat' first | (simp; done) | split | (dsimp only; split)

@[simp ↓] theorem ethLink_met (m : Fin 2) (up : Bool) (speed : Fin 3) (full : Bool) (s : State) :
    (ethLink m up speed full s).met = s.met := by simp [ethLink]

@[simp ↓] theorem ethClrcnt_met (m : Fin 2) (s : State) : (ethClrcnt m s).met = s.met := by simp [ethClrcnt]

/-! ### Machine/TimeSet.lean -/

@[simp ↓] theorem setLegal_met (ms : Nat) (s : State) : (setLegal ms s).met = s.met := by simp [setLegal]

@[simp ↓] theorem adjustNote_met (adj : Int) (reason : Nat) (s : State) :
    (adjustNote adj reason s).met = s.met := by simp [adjustNote]

@[simp ↓] theorem readTime_met (a_ : Vector Word 16) (s : State) : ((readTime a_ s).s).met = s.met := by simp [readTime]

@[simp ↓] theorem rtcTrim_met (a : Vector Word 16) (s : State) : ((rtcTrim a s).s).met = s.met := by simp [rtcTrim]

/-! ### Machine/RegWrite.lean -/

@[simp ↓] theorem billCalls_met (cmd : Nat) (a : Vector Word 16) (s : State) :
    ((billCalls cmd a s).s).met = s.met := by
  unfold billCalls
  repeat' first | (simp; done) | split | (dsimp only; split)

@[simp ↓] theorem safeCalls_met (cmd : Nat) (a : Vector Word 16) (s : State) :
    ((safeCalls cmd a s).s).met = s.met := by
  unfold safeCalls
  repeat' first | (simp; done) | split | (dsimp only; split)

@[simp ↓] theorem txnCalls_met (cmd : Nat) (a : Vector Word 16) (s : State) :
    ((txnCalls cmd a s).s).met = s.met := by
  unfold txnCalls
  repeat' first | (simp; done) | split | (dsimp only; split)

@[simp ↓] theorem updCalls_met (cmd : Nat) (a : Vector Word 16) (s : State) :
    ((updCalls cmd a s).s).met = s.met := by
  unfold updCalls
  repeat' first | (simp; done) | split | (dsimp only; split)

@[simp] theorem writeMbxIn_met (i : MbxId) (o : Nat) (v : Word) (s : State) : (writeMbxIn i o v s).met = s.met := by
  have h (k : Nat) : (match i with
    | .bill => { s with bill.mbxin := putWord s.bill.mbxin k v }
    | .safe => { s with safe.mbxin := putWord s.safe.mbxin k v }
    | .upd => { s with upd.mbxin := putWord s.upd.mbxin k v }
    | _ => s).met = s.met := by cases i <;> rfl
  exact h _

@[simp ↓] theorem safeW1c_met (o : Nat) (v : Word) (s : State) : (safeW1c o v s).met = s.met := by simp [safeW1c]

@[simp ↓] theorem writeSys_met (o : Nat) (v : Word) (s : State) : (writeSys o v s).met = s.met := by
  unfold writeSys
  repeat' first | (simp; done) | split | (dsimp only; split)

@[simp ↓] theorem writeTime_met (o : Nat) (v : Word) (s : State) : (writeTime o v s).met = s.met := by
  unfold writeTime
  repeat' first | (simp; done) | split | (dsimp only; split)

@[simp ↓] theorem writeChcfg_met (c : Fin 32) (v : Word) (s : State) : (writeChcfg c v s).met = s.met := by simp [writeChcfg]

@[simp ↓] theorem writeDma_met (o : Nat) (v : Word) (s : State) : (writeDma o v s).met = s.met := by
  unfold writeDma
  repeat' first | (simp; done) | split | (dsimp only; split)

@[simp ↓] theorem writeSec_met (o : Nat) (v : Word) (s : State) : (writeSec o v s).met = s.met := by
  unfold writeSec
  repeat' first | (simp; done) | split | (dsimp only; split)

@[simp ↓] theorem writeSlotctl_met (v : Word) (s : State) : (writeSlotctl v s).met = s.met := by
  unfold writeSlotctl
  repeat' first | (simp; done) | split | (dsimp only; split)

@[simp ↓] theorem writeThl_met (o : Nat) (v : Word) (s : State) : (writeThl o v s).met = s.met := by
  unfold writeThl
  repeat' first | (simp; done) | split | (dsimp only; split)

@[simp ↓] theorem writeEth_met (m : Fin 2) (o : Nat) (v : Word) (s : State) :
    (writeEth m o v s).met = s.met := by simp [writeEth]

@[simp ↓] theorem writeCan_met (b : Fin 3) (o : Nat) (v : Word) (s : State) :
    (writeCan b o v s).met = s.met := by simp [writeCan]

@[simp ↓] theorem setPar_met (a mask : Nat) (v : Word) (s : State) : (setPar a mask v s).met = s.met := by simp [setPar]

@[simp ↓] theorem writeLoad_met (o : Nat) (v : Word) (s : State) : (writeLoad o v s).met = s.met := by
  unfold writeLoad
  repeat' first | (simp; done) | split | (dsimp only; split)

@[simp ↓] theorem writeGpio_met (o : Nat) (v : Word) (s : State) : (writeGpio o v s).met = s.met := by
  unfold writeGpio
  repeat' first | (simp; done) | split | (dsimp only; split)

@[simp ↓] theorem writeMesh_met (o : Nat) (v : Word) (s : State) : (writeMesh o v s).met = s.met := by simp [writeMesh]

@[simp ↓] theorem writeIntc_met (o : Nat) (v : Word) (s : State) : (writeIntc o v s).met = s.met := by simp [writeIntc]

@[simp ↓] theorem writePevt_met (n : Port) (v : Word) (s : State) : (writePevt n v s).met = s.met := by simp [writePevt]

@[simp ↓] theorem writeLevt_met (n : Port) (v : Word) (s : State) : (writeLevt n v s).met = s.met := by simp [writeLevt]

@[simp ↓] theorem writeTlscfg_met (n : Port) (v : Word) (s : State) : (writeTlscfg n v s).met = s.met := by simp [writeTlscfg]

@[simp ↓] theorem writeVp_met (n : Port) (o : Nat) (v : Word) (s : State) : (writeVp n o v s).met = s.met := by
  unfold writeVp
  repeat' first | (simp; done) | split | (dsimp only; split)

@[simp ↓] theorem writeDisp_met (base o : Nat) (v : Word) (s : State) : (writeDisp base o v s).met = s.met := by
  unfold writeDisp
  repeat' first | (simp; done) | split | (dsimp only; split)

@[simp] theorem memWrite_met (req a : Nat) (bs : List Byte) (s : State) : (memWrite req a bs s).met = s.met := by
  unfold memWrite
  split
  · split
    · rename_i t h; rw [State.busOk_met]; exact ramStore_met s t a bs h
    · simp
  · split <;> simp

/-! ### Machine/Dma.lean -/

@[simp] theorem regWords_met (a : Nat) (fixed : Bool) (n : Nat) (s : State) :
    (regWords a fixed n s).2.1.met = s.met := by
  induction n generalizing a s with
  | zero => rfl
  | succ n ih =>
    unfold regWords
    repeat' first | with_reducible rfl | (simp [ih]; done) | split | (dsimp only; split)

@[simp ↓] theorem regTail_met (a len : Nat) (t : List Byte × State × Option DmaResult) :
    (regTail a len t).2.1.met = t.2.1.met := by
  unfold regTail
  split <;> simp

@[simp ↓] theorem readSource_met (a len : Nat) (fixed : Bool) (s : State) : (readSource a len fixed s).2.1.met = s.met := by
  unfold readSource
  repeat' first | (simp; done) | split | (dsimp only; split)

@[simp ↓] theorem indexAt_met (w : Vector Word 8) (i : Nat) (s : State) :
    (indexAt w i s).2.1.met = s.met := by simp [indexAt]

@[simp ↓] theorem indexRead_met (w : Vector Word 8) (i : Nat) (hit : Option Bool) (s : State) :
    (indexRead w i hit s).2.1.met = s.met := by
  unfold indexRead parRead
  split <;> simp

@[simp ↓] theorem srcAddr_met (w : Vector Word 8) (off : Nat) (hit : Option Bool) (s : State) :
    (srcAddr w off hit s).2.1.met = s.met := by
  unfold srcAddr
  repeat' first | (simp; done) | split | (dsimp only; split)

@[simp ↓] theorem dstAddr_met (w : Vector Word 8) (off : Nat) (hit : Option Bool) (s : State) :
    (dstAddr w off hit s).2.1.met = s.met := by
  unfold dstAddr
  repeat' first | (simp; done) | split | (dsimp only; split)

@[simp ↓] theorem periphTake_met (r n : Nat) (s : State) : ((periphTake r n s).2).met = s.met := by
  unfold periphTake
  repeat' first | (simp; done) | split | (dsimp only; split)

@[simp ↓] theorem periphPut_met (r : Nat) (bs : List Byte) (s : State) : (periphPut r bs s).met = s.met := by simp [periphPut]

@[simp ↓] theorem burstData_met (w : Vector Word 8) (r off len src : Nat) (s : State) :
    ((burstData w r off len src s).2.1).met = s.met := by
  unfold burstData
  repeat' first | (simp; done) | split | (dsimp only; split)

@[simp ↓] theorem dmaAge_met (g : Fin 32) (s : State) : (dmaAge g s).met = s.met := by simp [dmaAge]

@[simp ↓] theorem State.modRun_met (s : State) (c : Fin 32) (f : DmaRun → DmaRun) :
    (State.modRun s c f).met = s.met := by simp [State.modRun]

@[simp ↓] theorem burstFails_met (c : Fin 32) (e : DmaResult) (s : State) : (burstFails c e s).met = s.met := by simp [burstFails]

@[simp ↓] theorem dmaPrefetch_met (c : Fin 32) (hit : Option Bool) (s : State) :
    (dmaPrefetch c hit s).met = s.met := by simp [dmaPrefetch]

@[simp ↓] theorem sidePar_met (fifo : Bool) (q a : Nat) (onResponse : Bool) (s : State) :
    (sidePar fifo q a onResponse s).met = s.met := by simp [sidePar]

@[simp ↓] theorem burstRead_met (c : Fin 32) (r : DmaRun) (b : Nat × Nat) (src dst : Nat) (ecc : Bool) (hit : Option Bool)
    (s : State) :
    (burstRead c r b src dst ecc hit s).met = s.met := by
  unfold burstRead
  repeat' first | (simp; done) | split | (dsimp only; split)

@[simp ↓] theorem burstStart_met (c : Fin 32) (ecc : Bool) (par : Option (DmaReq × Bool)) (s : State) :
    (burstStart c ecc par s).met = s.met := by
  unfold burstStart
  repeat' first | (simp; done) | split | (dsimp only; split)

@[simp ↓] theorem burstGrant_met (prefetch ecc : Bool) (par : Option (DmaReq × Bool)) (s : State) :
    (burstGrant prefetch ecc par s).met = s.met := by
  unfold burstGrant
  repeat' first | (simp; done) | split | (dsimp only; split)

/-! ### Machine/SafeTick.lean -/

@[simp ↓] theorem releaseWaiting_met (s : State) : (releaseWaiting s).met = s.met := by simp [releaseWaiting]

@[simp ↓] theorem rampTimeout_met (n : Port) (s : State) : (rampTimeout n s).met = s.met := by
  unfold rampTimeout
  repeat' first | (simp; done) | split | (dsimp only; split)

/-! ### Machine/Save.lean -/

@[simp ↓] theorem tornSlot_met (s : State) : (tornSlot s).met = s.met := by
  unfold tornSlot
  repeat' first | (simp; done) | split | (dsimp only; split)

@[simp ↓] theorem tornErase_met (s : State) : (tornErase s).met = s.met := by simp [tornErase]

@[simp ↓] theorem tornSettings_met (s : State) : (tornSettings s).met = s.met := by simp [tornSettings]

@[simp ↓] theorem tornFlash_met (s : State) : (tornFlash s).met = s.met := by simp [tornFlash]

@[simp ↓] theorem powerFailAudits_met (s : State) : (powerFailAudits s).met = s.met := by simp [powerFailAudits]

@[simp ↓] theorem meetFate_met (s : State) (x : Fin 16 × Fate) : (meetFate s x).met = s.met := by
  unfold meetFate
  repeat' first | (simp; done) | split | (dsimp only; split)

@[simp ↓] theorem saveDisplay_met (vhold : BitVec 12) (s : State) : (saveDisplay vhold s).met = s.met := by simp [saveDisplay]

@[simp ↓] theorem endEntries_met (s : State) : (endEntries s).met = s.met := by simp [endEntries]

@[simp ↓] theorem portsErased_met (s : State) : (portsErased s).met = s.met := by simp [portsErased]

@[simp ↓] theorem pilotsOff_met (s : State) : (pilotsOff s).met = s.met := by simp [pilotsOff]

@[simp ↓] theorem loseTail_met (s : State) : (loseTail s).met = s.met := by simp [loseTail]

/-! ### Machine/StartUp.lean -/

@[simp ↓] theorem atNs_met (n : Nat) (s : State) : (atNs n s).met = s.met := by simp [atNs]

@[simp ↓] theorem causeBit_met (n : Nat) (s : State) : (causeBit n s).met = s.met := by simp [causeBit]

@[simp ↓] theorem bootSupply_met (u : StartUp) (s : State) : (bootSupply u s).met = s.met := by simp [bootSupply]

@[simp ↓] theorem bootTime_met (old : Mode) (u : StartUp) (s : State) : (bootTime old u s).met = s.met := by simp [bootTime]

@[simp ↓] theorem bootSelftest_met (u : StartUp) (s : State) : (bootSelftest u s).met = s.met := by simp [bootSelftest]

@[simp ↓] theorem swapAreas_met (s : State) : (swapAreas s).met = s.met := by simp [swapAreas]

@[simp ↓] theorem inActivate_met (f : State → State) (s : State) (hf : ∀ s, (f s).met = s.met) :
    (inActivate f s).met = s.met := by simp [inActivate, hf]

@[simp ↓] theorem activate_met (s : State) : (activate s).met = s.met := by simp [activate]

@[simp ↓] theorem swapBack_met (s : State) : (swapBack s).met = s.met := by simp [swapBack]

@[simp ↓] theorem provisionFkd_met (s : State) : (provisionFkd s).met = s.met := by simp [provisionFkd]

@[simp ↓] theorem bootConfirmed_met (s : State) : (bootConfirmed s).met = s.met := by simp [bootConfirmed]

@[simp ↓] theorem bootTrial_met (s : State) : (bootTrial s).met = s.met := by simp [bootTrial]

@[simp ↓] theorem bootManager_met (u : StartUp) (s : State) : (bootManager u s).met = s.met := by simp [bootManager]

@[simp ↓] theorem provisionSkd_met (k : Fin 2) (s : State) : (provisionSkd k s).met = s.met := by simp [provisionSkd]

@[simp ↓] theorem journalFs_met (s : State) : (journalFs s).met = s.met := by simp [journalFs]

@[simp ↓] theorem gapEntries_met (s : State) : (gapEntries s).met = s.met := by simp [gapEntries]

@[simp ↓] theorem restartSlices_met (s : State) : (restartSlices s).met = s.met := by simp [restartSlices]

@[simp ↓] theorem bootBoundaries_met (s : State) : (bootBoundaries s).met = s.met := by simp [bootBoundaries]

@[simp ↓] theorem bootStops_met (s : State) : (bootStops s).met = s.met := by simp [bootStops]

@[simp ↓] theorem lossEntries_met (l : List SinterArea) (s : State) : (lossEntries l s).met = s.met := by simp [lossEntries]

@[simp ↓] theorem releaseCores_met (s : State) : (releaseCores s).met = s.met := by simp [releaseCores]

@[simp ↓] theorem startWindow_met (s : State) : (startWindow s).met = s.met := by simp [startWindow]

@[simp ↓] theorem portsListen_met (s : State) : (portsListen s).met = s.met := by simp [portsListen]

@[simp ↓] theorem bootMode_met (s : State) : (bootMode s).met = s.met := by simp [bootMode]

end Sys2Proof.Machine
end

