-- ==== Sys2Proof/Laws/KeepParams.lean ====
section
/-! SUPPORT. The operations that leave the parameter registers in effect as it is. -/

namespace Sys2Proof.Machine

@[simp ↓] theorem forAll_params {α : Type} (l : List α) (f : State → α → State) (s : State)
    (h : ∀ s x, (f s x).params = s.params) : (forAll l f s).params = s.params := forAll_keeps State.params l f s h

@[simp ↓] theorem ite_params (c : Prop) [Decidable c] (a b : State) :
    (if c then a else b).params = if c then a.params else b.params := apply_ite State.params c a b

@[simp ↓] theorem checks_params (s : State) (l : List (Bool × Status)) (k : Reply) (h : k.s.params = s.params) :
    (checks s l k).s.params = s.params := by
  induction l with
  | nil => exact h
  | cons x r ih => obtain ⟨b, st⟩ := x; cases b <;> simp [checks, ih]

/-! ### Machine/Ops.lean -/

@[simp ↓] theorem State.busOk_params (s : State) (v : Word) : (State.busOk s v).params = s.params := by simp [State.busOk]

@[simp ↓] theorem State.busErr_params (s : State) : (State.busErr s).params = s.params := by simp [State.busErr]

@[simp ↓] theorem State.decodeErr_params (s : State) (a : Word) (req kind : Nat) :
    (State.decodeErr s a req kind).params = s.params := by simp [State.decodeErr]

@[simp ↓] theorem State.tagged_params (s : State) : (State.tagged s).params = s.params := by simp [State.tagged]

@[simp ↓] theorem State.holeErr_params (s : State) (req a n : Nat) : (State.holeErr s req a n).params = s.params := by
  unfold State.holeErr
  split <;> simp

@[simp ↓] theorem holdEngine_params (s : State) : (holdEngine s).params = s.params := by simp [holdEngine]

@[simp ↓] theorem onBlock_params (k : BlkKind) (n : Nat) (s : State) (f : State → State) (hf : ∀ s, (f s).params = s.params) :
    (onBlock k n s f).params = s.params := by simp [onBlock, hf]

@[simp ↓] theorem State.modVp_params (s : State) (n : Port) (f : Vp → Vp) :
    (State.modVp s n f).params = s.params := by simp [State.modVp]

@[simp ↓] theorem State.modPilot_params (s : State) (n : Port) (f : Pilot → Pilot) :
    (State.modPilot s n f).params = s.params := by simp [State.modPilot]

@[simp ↓] theorem State.modLink_params (s : State) (n : Port) (f : Link → Link) :
    (State.modLink s n f).params = s.params := by simp [State.modLink]

@[simp ↓] theorem State.modTls_params (s : State) (n : Port) (f : Tls → Tls) :
    (State.modTls s n f).params = s.params := by simp [State.modTls]

@[simp ↓] theorem State.modRgn_params (s : State) (r : Fin 16) (f : Region → Region) :
    (State.modRgn s r f).params = s.params := by simp [State.modRgn]

@[simp ↓] theorem State.modCh_params (s : State) (n : ChanId) (f : Chan → Chan) :
    (State.modCh s n f).params = s.params := by simp [State.modCh]

@[simp ↓] theorem State.modM_params (s : State) (m : MeterId) (f : Meter → Meter) :
    (State.modM s m f).params = s.params := by simp [State.modM]

@[simp ↓] theorem State.modEth_params (s : State) (n : Fin 2) (f : Eth → Eth) :
    (State.modEth s n f).params = s.params := by simp [State.modEth]

@[simp ↓] theorem State.modCan_params (s : State) (n : Fin 3) (f : Can → Can) :
    (State.modCan s n f).params = s.params := by simp [State.modCan]

@[simp ↓] theorem State.modLoad_params (s : State) (n : Fin 10) (f : LoadCh → LoadCh) :
    (State.modLoad s n f).params = s.params := by simp [State.modLoad]

@[simp ↓] theorem State.modCoil_params (s : State) (c : Fin 12) (f : Coil → Coil) :
    (State.modCoil s c f).params = s.params := by simp [State.modCoil]

@[simp ↓] theorem State.modOut_params (s : State) (n : Port) (f : Outlet → Outlet) :
    (State.modOut s n f).params = s.params := by simp [State.modOut]

@[simp ↓] theorem State.modImd_params (s : State) (g : Fin 6) (f : Imd → Imd) :
    (State.modImd s g f).params = s.params := by simp [State.modImd]

@[simp ↓] theorem State.modConn_params (s : State) (k : Fin 16) (f : Conn → Conn) :
    (State.modConn s k f).params = s.params := by simp [State.modConn]

@[simp ↓] theorem State.modPair_params (s : State) (j : Fin 8) (f : StopPair → StopPair) :
    (State.modPair s j f).params = s.params := by simp [State.modPair]

@[simp ↓] theorem State.modTxn_params (s : State) (d : Fin 6) (f : TxnDom → TxnDom) :
    (State.modTxn s d f).params = s.params := by simp [State.modTxn]

@[simp ↓] theorem State.modCore_params (s : State) (f : BillCore → BillCore) :
    (State.modCore s f).params = s.params := by simp [State.modCore]

@[simp ↓] theorem State.setSess_params (s : State) (n : Port) (x : Option Session) :
    (State.setSess s n x).params = s.params := by simp [State.setSess]

@[simp ↓] theorem State.modSess_params (s : State) (n : Port) (f : Session → Session) :
    (State.modSess s n f).params = s.params := by simp [State.modSess]

@[simp ↓] theorem State.setLofs_params (s : State) (ms : Nat) :
    (State.setLofs s ms).params = s.params := by simp [State.setLofs]

@[simp ↓] theorem State.draw_params (s : State) : ((State.draw s).2).params = s.params := by simp [State.draw]

@[simp ↓] theorem State.raise_params (s : State) (n : Nat) : (State.raise s n).params = s.params := by simp [State.raise]

@[simp ↓] theorem State.evPut_params (s : State) (typ source : Nat) (d0 d1 d2 : Word) :
    (State.evPut s typ source d0 d1 d2).params = s.params := by simp [State.evPut]

@[simp ↓] theorem State.evRoll_params (s : State) : (State.evRoll s).params = s.params := by simp [State.evRoll]

@[simp ↓] theorem State.evSecond_params (s : State) :
    (State.evSecond s).params = s.params := by simp [State.evSecond]

@[simp ↓] theorem State.evlog_params (s : State) (typ source : Nat) (d0 d1 d2 : Word) :
    (State.evlog s typ source d0 d1 d2).params = s.params := by simp [State.evlog]

@[simp ↓] theorem State.statsCleared_params (s : State) (block mask : Nat) :
    (State.statsCleared s block mask).params = s.params := by simp [State.statsCleared]

@[simp ↓] theorem State.audit_params (s : State) (typ source reason : Nat) (item old new : Word) :
    (State.audit s typ source reason item old new).params = s.params := by simp [State.audit]

@[simp ↓] theorem State.raiseDem_params (s : State) (n : Port) (cat cause : Nat) (reason : Byte) (why : Why) :
    (State.raiseDem s n cat cause reason why).params = s.params := by simp [State.raiseDem]

@[simp ↓] theorem State.demand_params (s : State) (n : Port) (cat cause : Nat) (reason : Byte) :
    (State.demand s n cat cause reason).params = s.params := by simp [State.demand]

@[simp ↓] theorem State.setLedger_params (s : State) (l : List (Option LedgerEntry)) :
    (State.setLedger s l).params = s.params := by simp [State.setLedger]

@[simp ↓] theorem State.flagSpan_params (s : State) (n : Port) (bits : BitVec 16) :
    (State.flagSpan s n bits).params = s.params := by simp [State.flagSpan]

@[simp ↓] theorem State.flagSess_params (s : State) (n : Port) (bits : BitVec 16) :
    (State.flagSess s n bits).params = s.params := by simp [State.flagSess]

@[simp ↓] theorem Reply.ok_params (s : State) (res : List Word) : ((Reply.ok s res).s).params = s.params := by simp

@[simp ↓] theorem Reply.deny_params (s : State) (st : Status) : ((Reply.deny s st).s).params = s.params := by simp

@[simp ↓] theorem Reply.later_params (s : State) (p : Pending) : ((Reply.later s p).s).params = s.params := by simp

@[simp ↓] theorem State.setBox_params (s : State) (i : MbxId) (x : Mailbox) :
    (State.setBox s i x).params = s.params := by simp [State.setBox]

@[simp ↓] theorem versions_params (i : MbxId) (s : State) : ((versions i s).s).params = s.params := by simp [versions]

@[simp ↓] theorem answered_params (i : MbxId) (r : Reply) : (answered i r).params = r.s.params := by
  unfold answered
  dsimp only
  split <;> simp

@[simp ↓] theorem ring_params (i : MbxId) (body : Nat → Vector Word 16 → State → Reply) (s : State) (hbody : ∀ x0 x1 s, ((body x0 x1 s).s).params = s.params) :
    (ring i body s).params = s.params := by simp [ring, hbody]

@[simp ↓] theorem mbxCall_params (i : MbxId) (cmd : Nat) (c : Call) (body : Vector Word 16 → State → Reply) (s : State) (hbody : ∀ x0 s, ((body x0 s).s).params = s.params) :
    (mbxCall i cmd c body s).params = s.params := by simp [mbxCall, hbody]

@[simp ↓] theorem mbxDone_params (i : MbxId) (st : Status) (res : List Word) (s : State) :
    (mbxDone i st res s).params = s.params := by simp [mbxDone]

/-! ### Machine/Sampling.lean -/

@[simp ↓] theorem fastSample_params (g : Fin 2) (bits miss : Vector (BitVec 16) 32) (s : State) :
    (fastSample g bits miss s).params = s.params := by simp [fastSample]

@[simp ↓] theorem selfCheck_params (p : Fin 8) (s : State) : (selfCheck p s).params = s.params := by
  unfold selfCheck
  repeat' first | (simp; done) | split | (dsimp only; split) | refine (forAll_params _ _ _ (fun _ _ => ?_)).trans ?_ |
    (dsimp only; refine (forAll_params _ _ _ (fun _ _ => ?_)).trans ?_)

@[simp ↓] theorem tempTake_params (s : State) : (tempTake s).params = s.params := by simp [tempTake]

@[simp ↓] theorem gainAll_params (s : State) : (gainAll s).params = s.params := by simp [gainAll]

@[simp ↓] theorem resample_params (g : Fin 2) (idx : Nat) (s : State) :
    (resample g idx s).params = s.params := by simp [resample]

@[simp ↓] theorem refFine_params (g : Fin 2) (idx : Nat) (ref : ChanId) (s : State) :
    (refFine g idx ref s).params = s.params := by simp [refFine]

@[simp ↓] theorem resampFine_params (g : Fin 2) (idx : Nat) (s : State) :
    (resampFine g idx s).params = s.params := by simp [resampFine]

@[simp ↓] theorem fineChannels_params (g : Fin 2) (s : State) : (fineChannels g s).params = s.params := by simp [fineChannels]

@[simp ↓] theorem State.modAdc_params (s : State) (a : Fin 4) (f : Adc → Adc) :
    (State.modAdc s a f).params = s.params := by simp [State.modAdc]

@[simp ↓] theorem rcFeed_params (src : Nat) (v : Int) (w : Nat) (s : State) :
    (rcFeed src v w s).params = s.params := by simp [rcFeed]

@[simp ↓] theorem freshTemp_params (src : Nat) (s : State) : (freshTemp src s).params = s.params := by simp [freshTemp]

@[simp ↓] theorem adcCoarse_params (a : Fin 4) (bits : BitVec 16) (s : State) :
    (adcCoarse a bits s).params = s.params := by simp [adcCoarse]

@[simp ↓] theorem takeTemp_params (src : Nat) (v : BitVec 24) (s : State) :
    (takeTemp src v s).params = s.params := by simp [takeTemp]

@[simp ↓] theorem adcFine_params (a : Fin 4) (s : State) : (adcFine a s).params = s.params := by simp [adcFine]

@[simp ↓] theorem dwellStart_params (a : Fin 4) (k : Nat) (s : State) :
    (dwellStart a k s).params = s.params := by simp [dwellStart]

@[simp ↓] theorem calibrate_params (a : Fin 4) (s : State) : (calibrate a s).params = s.params := by simp [calibrate]

@[simp ↓] theorem storeGain_params (a : Fin 4) (s : State) : (storeGain a s).params = s.params := by simp [storeGain]

@[simp ↓] theorem slotEnd_params (a : Fin 4) (s : State) : (slotEnd a s).params = s.params := by simp [slotEnd]

@[simp ↓] theorem slotResync_params (a : Fin 4) (changed : Nat → Bool) (s : State) :
    (slotResync a changed s).params = s.params := by simp [slotResync]

/-! ### Machine/Meters.lean -/

@[simp ↓] theorem rgwAll_params (m : MeterId) (s : State) : (rgwAll m s).params = s.params := by simp [rgwAll]

@[simp ↓] theorem cutBounds_params (m : MeterId) (inst : BitVec 64) (s : State) :
    (cutBounds m inst s).params = s.params := by simp [cutBounds]

@[simp ↓] theorem gapNow_params (m : MeterId) (s : State) : (gapNow m s).params = s.params := by simp [gapNow]

@[simp ↓] theorem markGap_params (m : MeterId) (s : State) : (markGap m s).params = s.params := by simp [markGap]

@[simp ↓] theorem validAgain_params (m : MeterId) (s : State) : (validAgain m s).params = s.params := by simp [validAgain]

@[simp ↓] theorem rollover_params (m : MeterId) (exp : Bool) (old : BitVec 160) (s : State) :
    (rollover m exp old s).params = s.params := by simp [rollover]

@[simp ↓] theorem pulseQueue_params (m : MeterId) (s : State) : (pulseQueue m s).params = s.params := by simp [pulseQueue]

@[simp ↓] theorem pulseRestart_params (q : Fin 8) (s : State) : (pulseRestart q s).params = s.params := by simp [pulseRestart]

@[simp ↓] theorem setPhseq_params (m : MeterId) (v : BitVec 2) (s : State) :
    (setPhseq m v s).params = s.params := by simp [setPhseq]

@[simp ↓] theorem phaseStep_params (m : MeterId) (s : State) : (phaseStep m s).params = s.params := by
  unfold phaseStep
  repeat' first | (simp; done) | split | (dsimp only; split)

@[simp ↓] theorem secondSums_params (m : MeterId) (q : Int) (s : State) :
    (secondSums m q s).params = s.params := by simp [secondSums]

@[simp ↓] theorem bookQ_params (m : MeterId) (s : State) : ((bookQ m s).2).params = s.params := by
  unfold bookQ
  repeat' first | (simp; done) | split | (dsimp only; split)

@[simp ↓] theorem snapTake_params (m : MeterId) (inst : BitVec 64) (s : State) :
    (snapTake m inst s).params = s.params := by simp [snapTake]

@[simp ↓] theorem snapDone_params (w : SnapWait) (s : State) :
    (snapDone w s).params = s.params := by simp [snapDone]

@[simp ↓] theorem snapEnd_params (s : State) :
    (snapEnd s).params = s.params := by
  unfold snapEnd
  repeat' first | (simp; done) | split | (dsimp only; split)

@[simp ↓] theorem meterFine_params (g : Fin 2) (m : MeterId) (s : State) :
    (meterFine g m s).params = s.params := by simp [meterFine]

@[simp ↓] theorem fineSample_params (g : Fin 2) (s : State) : (fineSample g s).params = s.params := by simp [fineSample]

@[simp ↓] theorem powerCheck_params (m : MeterId) (s : State) : (powerCheck m s).params = s.params := by simp [powerCheck]

@[simp ↓] theorem neutralCheck_params (m : MeterId) (s : State) : (neutralCheck m s).params = s.params := by simp [neutralCheck]

@[simp ↓] theorem neutralFlags_params (m : MeterId) (s : State) : (neutralFlags m s).params = s.params := by simp [neutralFlags]

@[simp ↓] theorem readAcc_params (a : Vector Word 16) (s : State) : ((readAcc a s).s).params = s.params := by
  unfold readAcc
  repeat' first | (simp; done) | split | (dsimp only; split)

@[simp ↓] theorem freeWords_params (place n : Nat) (s : State) :
    ((freeWords place n s).2).params = s.params := by simp [freeWords]

@[simp ↓] theorem readPq_params (a : Vector Word 16) (s : State) : ((readPq a s).s).params = s.params := by
  unfold readPq
  repeat' first | (simp; done) | split | (dsimp only; split)

@[simp ↓] theorem readHarm_params (a : Vector Word 16) (s : State) : ((readHarm a s).s).params = s.params := by
  unfold readHarm
  repeat' first | (simp; done) | split | (dsimp only; split)

@[simp ↓] theorem readBalance_params (a : Vector Word 16) (s : State) :
    ((readBalance a s).s).params = s.params := by
  unfold readBalance
  repeat' first | (simp; done) | split | (dsimp only; split)

@[simp ↓] theorem clearStats_params (mask : BitVec 6) (s : State) : (clearStats mask s).params = s.params := by simp [clearStats]

@[simp ↓] theorem clearStatsCall_params (a : Vector Word 16) (s : State) :
    ((clearStatsCall a s).s).params = s.params := by simp [clearStatsCall]

/-! ### Machine/DispReq.lean -/

@[simp ↓] theorem State.putRequest_params (s : State) (r : Fin 16) (q : PendUpd) :
    (State.putRequest s r q).params = s.params := by
  unfold State.putRequest
  repeat' first | (simp; done) | split | (dsimp only; split)

@[simp ↓] theorem State.legalReq_params (s : State) (n : Port) : (State.legalReq s n).params = s.params := by
  unfold State.legalReq
  repeat' first | (simp; done) | split | (dsimp only; split)

/-! ### Machine/TimeBase.lean -/

@[simp ↓] theorem rtcMove_params (n : Int) (s : State) : (rtcMove n s).params = s.params := by simp [rtcMove]

@[simp ↓] theorem rtcRun_params (n : Nat) (s : State) : (rtcRun n s).params = s.params := by simp [rtcRun]

@[simp ↓] theorem rtcTick_params (s : State) : (rtcTick s).params = s.params := by simp [rtcTick]

@[simp ↓] theorem refPeriod_params (s : State) : (refPeriod s).params = s.params := by simp [refPeriod]

@[simp ↓] theorem rtcLoad_params (s : State) : (rtcLoad s).params = s.params := by simp [rtcLoad]

@[simp ↓] theorem rtcReading_params (t : BitVec 12) (n : Nat) (s : State) :
    (rtcReading t n s).params = s.params := by simp [rtcReading]

@[simp ↓] theorem refdevMeasure_params (dev : BitVec 16) (s : State) :
    (refdevMeasure dev s).params = s.params := by simp [refdevMeasure]

@[simp ↓] theorem vbakMeasure_params (v : Byte) (s : State) : (vbakMeasure v s).params = s.params := by simp [vbakMeasure]

@[simp ↓] theorem evlDropSecond_params (s : State) : (evlDropSecond s).params = s.params := by simp [evlDropSecond]

@[simp ↓] theorem evlClrcnt_params (s : State) : (evlClrcnt s).params = s.params := by simp [evlClrcnt]

/-! ### Machine/Billing.lean -/

@[simp ↓] theorem State.pushRecord_params (s : State) (rtype : Nat) (flags : BitVec 16) (port : Option Port) (body : List Byte) :
    (State.pushRecord s rtype flags port body).params = s.params := by simp [State.pushRecord]

@[simp ↓] theorem State.journal_params (s : State) (save : Bool) :
    (State.journal s save).params = s.params := by simp [State.journal]

@[simp ↓] theorem closeSlice_params (m : MeterId) (s : State) : (closeSlice m s).params = s.params := by simp [closeSlice]

@[simp ↓] theorem closeSlices_params (s : State) : (closeSlices s).params = s.params := by simp [closeSlices]

@[simp ↓] theorem meterEnable_params (m : MeterId) (reason : Nat) (s : State) :
    (meterEnable m reason s).params = s.params := by simp [meterEnable]

@[simp ↓] theorem setTariff_params (s : State) : (setTariff s).params = s.params := by simp [setTariff]

@[simp ↓] theorem balance_params (durNs : Nat) (outage split : Bool) (s : State) :
    ((balance durNs outage split s).2.2).params = s.params := by
  unfold balance
  repeat' first | (simp; done) | split | (dsimp only; split)

@[simp ↓] theorem endPart_params (bits : BitVec 16) (s : State) : ((endPart bits s).2).params = s.params := by simp [endPart]

@[simp ↓] theorem writeDemand_params (c : ClosedPart) (count : Nat) (s : State) :
    (writeDemand c count s).params = s.params := by simp [writeDemand]

@[simp ↓] theorem openPart_params (lt : Int) (bits : BitVec 16) (s : State) :
    (openPart lt bits s).params = s.params := by simp [openPart]

@[simp ↓] theorem closePart_params (bits : BitVec 16) (next : Int) (s : State) :
    (closePart bits next s).params = s.params := by simp [closePart]

@[simp ↓] theorem demandClose_params (at_ : Int) (s : State) : (demandClose at_ s).params = s.params := by simp [demandClose]

@[simp ↓] theorem writePeriod_params (at_ : Int) (m : MeterId) (s : State) :
    (writePeriod at_ m s).params = s.params := by simp [writePeriod]

@[simp ↓] theorem periodClose_params (at_ : Int) (s : State) : (periodClose at_ s).params = s.params := by simp [periodClose]

@[simp ↓] theorem tariffSwitch_params (ms : Int) (s : State) : (tariffSwitch ms s).params = s.params := by simp [tariffSwitch]

@[simp ↓] theorem minuteBoundaries_params (min : Int) (s : State) :
    (minuteBoundaries min s).params = s.params := by simp [minuteBoundaries]

@[simp ↓] theorem passBoundaries_params (t0 t1 : Int) (s : State) :
    (passBoundaries t0 t1 s).params = s.params := by simp [passBoundaries]

@[simp ↓] theorem writeHeld_params (s : State) : (writeHeld s).params = s.params := by simp [writeHeld]

@[simp ↓] theorem outageBoundaries_params (t0 t1 : Int) (s : State) :
    (outageBoundaries t0 t1 s).params = s.params := by simp [outageBoundaries]

@[simp ↓] theorem dueDemand_params (s : State) : (dueDemand s).params = s.params := by
  unfold dueDemand
  repeat' first | (simp; done) | split | (dsimp only; split)

@[simp ↓] theorem duePeriod_params (s : State) : (duePeriod s).params = s.params := by
  unfold duePeriod
  repeat' first | (simp; done) | split | (dsimp only; split)

@[simp ↓] theorem dueBoundaries_params (s : State) : (dueBoundaries s).params = s.params := by simp [dueBoundaries]

@[simp ↓] theorem cancelSession_params (n : Port) (cause : Nat) (s : State) :
    (cancelSession n cause s).params = s.params := by
  unfold cancelSession
  repeat' first | (simp; done) | split | (dsimp only; split)

@[simp ↓] theorem openSession_params (n : Port) (m : MeterId) (auth : Nat) (ext : List Byte) (token : Option Token) (s : State) :
    (openSession n m auth ext token s).params = s.params := by
  unfold openSession
  repeat' first | (simp; done) | split | (dsimp only; split)

@[simp ↓] theorem sessionOpen_params (a : Vector Word 16) (s : State) :
    ((sessionOpen a s).s).params = s.params := by
  unfold sessionOpen
  repeat' first | (simp; done) | split | (dsimp only; split)

@[simp ↓] theorem sessionCancel_params (a : Vector Word 16) (s : State) :
    ((sessionCancel a s).s).params = s.params := by
  unfold sessionCancel
  repeat' first | (simp; done) | split | (dsimp only; split)

@[simp ↓] theorem sessionStatus_params (a : Vector Word 16) (s : State) :
    ((sessionStatus a s).s).params = s.params := by
  unfold sessionStatus
  repeat' first | (simp; done) | split | (dsimp only; split)

@[simp ↓] theorem markStart_params (n : Port) (s : State) : (markStart n s).params = s.params := by simp [markStart]

@[simp ↓] theorem startCut_params (n : Port) (s : State) : (startCut n s).params = s.params := by
  unfold startCut
  repeat' first | (simp; done) | split | (dsimp only; split)

@[simp ↓] theorem markStop_params (n : Port) (reason : Byte) (s : State) :
    (markStop n reason s).params = s.params := by simp [markStop]

@[simp ↓] theorem stopValues_params (n : Port) (s : State) : (stopValues n s).params = s.params := by
  unfold stopValues
  repeat' first | (simp; done) | split | (dsimp only; split)

@[simp ↓] theorem freezeStop_params (n : Port) (reason : Byte) (s : State) :
    (freezeStop n reason s).params = s.params := by
  unfold freezeStop
  repeat' first | (simp; done) | split | (dsimp only; split)

@[simp ↓] theorem writeStop_params (n : Port) (s : State) : (writeStop n s).params = s.params := by
  unfold writeStop
  repeat' first | (simp; done) | split | (dsimp only; split)

@[simp ↓] theorem stopCut_params (n : Port) (s : State) : (stopCut n s).params = s.params := by simp [stopCut]

@[simp ↓] theorem markShift_params (s : State) : (markShift s).params = s.params := by simp [markShift]

@[simp ↓] theorem adjustCut_params (old : Nat) (adj : Int) (new : Nat) (s : State) :
    (adjustCut old adj new s).params = s.params := by simp [adjustCut]

@[simp ↓] theorem firstCut_params (new : Nat) (s : State) : (firstCut new s).params = s.params := by simp [firstCut]

@[simp ↓] theorem backCut_params (new : Nat) (s : State) : (backCut new s).params = s.params := by simp [backCut]

@[simp ↓] theorem commitCut_params (cal part bp : Bool) (s : State) :
    (commitCut cal part bp s).params = s.params := by simp [commitCut]

@[simp ↓] theorem atBound_params (k : BoundKind) (s : State) : (atBound k s).params = s.params := by
  unfold atBound
  repeat' first | (simp; done) | split | (dsimp only; split)

@[simp ↓] theorem keepBound_params (s t : State) : (keepBound s t).params = t.params := by
  unfold keepBound
  split <;> simp

@[simp ↓] theorem asOf_params (b : Bound) (f : State → State) (s : State) (hf : ∀ s, (f s).params = s.params) :
    (asOf b f s).params = s.params := by simp [asOf, hf]

@[simp ↓] theorem endBound_params (b : Bound) (s : State) : (endBound b s).params = s.params := by simp [endBound]

@[simp ↓] theorem runBounds_params (all : Bool) (n : Nat) (s : State) : (runBounds all n s).params = s.params := by
  induction n generalizing s with
  | zero => rfl
  | succ n ih =>
    unfold runBounds
    split
    · rfl
    · split <;> simp [ih]

@[simp ↓] theorem settleBounds_params (s : State) : (settleBounds s).params = s.params := by simp [settleBounds]

@[simp ↓] theorem flushBounds_params (s : State) : (flushBounds s).params = s.params := by simp [flushBounds]

@[simp ↓] theorem boundary_params (k : BoundKind) (s : State) : (boundary k s).params = s.params := by simp [boundary]

@[simp ↓] theorem sessionStart_params (n : Port) (s : State) : (sessionStart n s).params = s.params := by
  unfold sessionStart
  repeat' first | (simp; done) | split | (dsimp only; split)

@[simp ↓] theorem sessionStop_params (n : Port) (reason : Byte) (s : State) :
    (sessionStop n reason s).params = s.params := by
  unfold sessionStop
  repeat' first | (simp; done) | split | (dsimp only; split)

@[simp ↓] theorem snapshot_params (a : Vector Word 16) (s : State) : ((snapshot a s).s).params = s.params := by simp [snapshot]

@[simp ↓] theorem storeRecord_params (r : Record) (s : State) : (storeRecord r s).params = s.params := by
  unfold storeRecord
  repeat' first | (simp; done) | split | (dsimp only; split)

@[simp ↓] theorem afterSign_params (r : Record) (s : State) : (afterSign r s).params = s.params := by
  unfold afterSign
  repeat' first | (simp; done) | split | (dsimp only; split)

@[simp ↓] theorem signDone_params (s : State) : (signDone s).params = s.params := by
  unfold signDone
  repeat' first | (simp; done) | split | (dsimp only; split)

/-! ### Machine/Records.lean -/

@[simp ↓] theorem readRecord_params (a : Vector Word 16) (s : State) :
    ((readRecord a s).s).params = s.params := by
  unfold readRecord
  repeat' first | (simp; done) | split | (dsimp only; split)

@[simp ↓] theorem ackRecord_params (a : Vector Word 16) (s : State) :
    ((ackRecord a s).s).params = s.params := by simp [ackRecord]

@[simp ↓] theorem readDemand_params (a : Vector Word 16) (s : State) :
    ((readDemand a s).s).params = s.params := by
  unfold readDemand
  repeat' first | (simp; done) | split | (dsimp only; split)

@[simp ↓] theorem readOcmf_params (a : Vector Word 16) (s : State) : ((readOcmf a s).s).params = s.params := by simp [readOcmf]

@[simp ↓] theorem ocmfDone_params (s : State) : (ocmfDone s).params = s.params := by
  unfold ocmfDone
  repeat' first | (simp; done) | split | (dsimp only; split)

@[simp ↓] theorem readAudit_params (a : Vector Word 16) (s : State) :
    ((readAudit a s).s).params = s.params := by
  unfold readAudit
  repeat' first | (simp; done) | split | (dsimp only; split)

@[simp ↓] theorem archiveBegin_params (a : Vector Word 16) (s : State) :
    ((archiveBegin a s).s).params = s.params := by
  unfold archiveBegin
  repeat' first | (simp; done) | split | (dsimp only; split)

@[simp ↓] theorem sealDone_params (s : State) : (sealDone s).params = s.params := by
  unfold sealDone
  repeat' first | (simp; done) | split | (dsimp only; split)

@[simp ↓] theorem archiveCommit_params (a : Vector Word 16) (s : State) :
    ((archiveCommit a s).s).params = s.params := by
  unfold archiveCommit
  repeat' first | (simp; done) | split | (dsimp only; split)

@[simp ↓] theorem creditCheck_params (n : Port) (s : State) : (creditCheck n s).params = s.params := by
  unfold creditCheck
  repeat' first | (simp; done) | split | (dsimp only; split)

/-! ### Machine/Tokens.lean -/

@[simp ↓] theorem State.modTok_params (s : State) (f : Tokens → Tokens) :
    (State.modTok s f).params = s.params := by simp [State.modTok]

@[simp ↓] theorem endEntry_params (port : Option Port) (code : Byte) (t : Option Token) (s : State) :
    (endEntry port code t s).params = s.params := by
  unfold endEntry
  repeat' first | (simp; done) | split | (dsimp only; split)

@[simp ↓] theorem countInvalid_params (s : State) : (countInvalid s).params = s.params := by
  unfold countInvalid
  repeat' first | (simp; done) | split | (dsimp only; split)

@[simp ↓] theorem tokenDecode_params (keys : List (BitVec 4)) (s : State) :
    (tokenDecode keys s).params = s.params := by
  unfold tokenDecode
  repeat' first | (simp; done) | split | (dsimp only; split)

@[simp ↓] theorem tokenKey_params (k : BitVec 4) (s : State) : (tokenKey k s).params = s.params := by
  unfold tokenKey
  repeat' first | (simp; done) | split | (dsimp only; split)

@[simp ↓] theorem tokenStart_params (s : State) : (tokenStart s).params = s.params := by simp [tokenStart]

@[simp ↓] theorem discardTokens_params (s : State) : (discardTokens s).params = s.params := by simp [discardTokens]

@[simp ↓] theorem tokenResult_params (a_ : Vector Word 16) (s : State) :
    ((tokenResult a_ s).s).params = s.params := by
  unfold tokenResult
  repeat' first | (simp; done) | split | (dsimp only; split)

@[simp ↓] theorem denyCode_params (s : State) (code : Word) : ((denyCode s code).s).params = s.params := by simp [denyCode]

@[simp ↓] theorem bindToken_params (n : Port) (m : MeterId) (t : Token) (ext : List Byte) (s : State) :
    ((bindToken n m t ext s).s).params = s.params := by simp [bindToken]

@[simp ↓] theorem tokenOpen_params (a : Vector Word 16) (s : State) :
    ((tokenOpen a s).s).params = s.params := by
  unfold tokenOpen
  repeat' first | (simp; done) | split | (dsimp only; split)

@[simp ↓] theorem tokenDiscard_params (a : Vector Word 16) (s : State) :
    ((tokenDiscard a s).s).params = s.params := by
  unfold tokenDiscard
  repeat' first | (simp; done) | split | (dsimp only; split)

@[simp ↓] theorem ledgerRead_params (a : Vector Word 16) (s : State) :
    ((ledgerRead a s).s).params = s.params := by simp [ledgerRead]

@[simp ↓] theorem tokenKeyLoad_params (a : Vector Word 16) (s : State) :
    ((tokenKeyLoad a s).s).params = s.params := by
  unfold tokenKeyLoad
  repeat' first | (simp; done) | split | (dsimp only; split)

@[simp ↓] theorem tokenKeyInfo_params (a : Vector Word 16) (s : State) :
    ((tokenKeyInfo a s).s).params = s.params := by
  unfold tokenKeyInfo
  repeat' first | (simp; done) | split | (dsimp only; split)

/-! ### Machine/LoadSw.lean -/

@[simp ↓] theorem genPeriod_params (g : Fin 2) (start : BitVec 64) (s : State) :
    (genPeriod g start s).params = s.params := by simp [genPeriod]

@[simp ↓] theorem genSync_params (s : State) : (genSync s).params = s.params := by simp [genSync]

@[simp ↓] theorem openWindow_params (n : Fin 10) (s : State) : (openWindow n s).params = s.params := by simp [openWindow]

@[simp ↓] theorem pulseStep_params (s : State) : (pulseStep s).params = s.params := by simp [pulseStep]

@[simp ↓] theorem loadOne_params (s : State) (n : Fin 10) : (loadOne s n).params = s.params := by simp [loadOne]

@[simp ↓] theorem loadAll_params (s : State) : (loadAll s).params = s.params := by simp [loadAll]

@[simp ↓] theorem loadAt_params (c : Nat) (s : State) : (loadAt c s).params = s.params := by
  unfold loadAt
  repeat' first | (simp; done) | split | (dsimp only; split)

@[simp ↓] theorem shedCh_params (n : Fin 10) (s : State) : (shedCh n s).params = s.params := by simp [shedCh]

@[simp ↓] theorem shedOne_params (s : State) : (shedOne s).params = s.params := by
  unfold shedOne
  repeat' first | (simp; done) | split | (dsimp only; split)

@[simp ↓] theorem budgetShed_params (avg : BitVec 16) (s : State) : (budgetShed avg s).params = s.params := by simp [budgetShed]

@[simp ↓] theorem shedReenable_params (s : State) : (shedReenable s).params = s.params := by
  unfold shedReenable
  repeat' first | (simp; done) | split | (dsimp only; split)

@[simp ↓] theorem shedAgain_params (n : Fin 10) (was : Bool) (s : State) :
    (shedAgain n was s).params = s.params := by simp [shedAgain]

@[simp ↓] theorem loadCmd_params (n : Fin 10) (cmd : BitVec 2) (s : State) :
    (loadCmd n cmd s).params = s.params := by simp [loadCmd]

@[simp ↓] theorem loadClrLatch_params (n : Fin 10) (cool : Bool) (s : State) :
    (loadClrLatch n cool s).params = s.params := by simp [loadClrLatch]

@[simp ↓] theorem loadThermal_params (n : Fin 10) (guard : Bool) (temp : BitVec 16) (s : State) :
    (loadThermal n guard temp s).params = s.params := by simp [loadThermal]

@[simp ↓] theorem loadRestart_params (n : Fin 10) (s : State) : (loadRestart n s).params = s.params := by simp [loadRestart]

@[simp ↓] theorem deferredTurnOn_params (s : State) : (deferredTurnOn s).params = s.params := by
  unfold deferredTurnOn
  repeat' first | (simp; done) | split | (dsimp only; split)

@[simp ↓] theorem loadSense_params (ch : BitVec 4) (s : State) : (loadSense ch s).params = s.params := by simp [loadSense]

@[simp ↓] theorem senseTest_params (s : State) : (senseTest s).params = s.params := by simp [senseTest]

@[simp ↓] theorem loadWdStart_params (s : State) : (loadWdStart s).params = s.params := by simp [loadWdStart]

@[simp ↓] theorem loadWdExpire_params (cause : BitVec 2) (s : State) :
    (loadWdExpire cause s).params = s.params := by simp [loadWdExpire]

@[simp ↓] theorem loadService_params (resp : BitVec 16) (s : State) :
    (loadService resp s).params = s.params := by simp [loadService]

@[simp ↓] theorem loadWdrel_params (s : State) : (loadWdrel s).params = s.params := by simp [loadWdrel]

@[simp ↓] theorem loadClrcnt_params (s : State) : (loadClrcnt s).params = s.params := by simp [loadClrcnt]

/-! ### Machine/Pilot.lean -/

@[simp ↓] theorem linkLost_params (s : State) (n : Port) : (linkLost s n).params = s.params := by simp [linkLost]

@[simp ↓] theorem setPState_params (s : State) (n : Port) (st : PState) :
    (setPState s n st).params = s.params := by simp [setPState]

@[simp ↓] theorem imposeOverride_params (s : State) (n : Port) : (imposeOverride s n).params = s.params := by
  unfold imposeOverride
  repeat' first | (simp; done) | split | (dsimp only; split)

@[simp ↓] theorem showState_params (s : State) (n : Port) : (showState s n).params = s.params := by simp [showState]

@[simp ↓] theorem setClass_params (s : State) (n : Port) (k : PState) :
    (setClass s n k).params = s.params := by simp [setClass]

@[simp ↓] theorem pilotsStart_params (s : State) : (pilotsStart s).params = s.params := by simp [pilotsStart]

@[simp ↓] theorem classify_params (s : State) (n : Port) (vh : Option Int) : (classify s n vh).params = s.params := by
  unfold classify
  repeat' first | (simp; done) | split | (dsimp only; split)

@[simp ↓] theorem measurePeriod_params (s : State) (n : Port) (samples : List (BitVec 12)) :
    (measurePeriod s n samples).params = s.params := by
  unfold measurePeriod
  repeat' first | (simp; done) | split | (dsimp only; split)

@[simp ↓] theorem nextPeriod_params (s : State) (n : Port) : (nextPeriod s n).params = s.params := by simp [nextPeriod]

@[simp ↓] theorem pilotPeriodEnd_params (n : Port) (samples : List (BitVec 12)) (s : State) :
    (pilotPeriodEnd n samples s).params = s.params := by simp [pilotPeriodEnd]

@[simp ↓] theorem pilotCtl_params (n : Port) (w : Word) (s : State) : (pilotCtl n w s).params = s.params := by simp [pilotCtl]

@[simp ↓] theorem pevtClrcnt_params (n : Port) (s : State) : (pevtClrcnt n s).params = s.params := by simp [pevtClrcnt]

/-! ### Machine/Link.lean -/

@[simp ↓] theorem mmeLimit_params (s : State) (n : Port) : ((mmeLimit s n).2).params = s.params := by
  unfold mmeLimit
  repeat' first | (simp; done) | split | (dsimp only; split)

@[simp ↓] theorem hearMme_params (n : Port) (f : State → State) (s : State) (hf : ∀ s, (f s).params = s.params) :
    (hearMme n f s).params = s.params := by simp [hearMme, hf]

@[simp ↓] theorem startAtten_params (n : Port) (mac : BitVec 48) (run : BitVec 64) (announced : Nat) (s : State) :
    (startAtten n mac run announced s).params = s.params := by simp [startAtten]

@[simp ↓] theorem sounding_params (n : Port) (mac : BitVec 48) (run : BitVec 64) (groups : List Nat) (s : State) :
    (sounding n mac run groups s).params = s.params := by simp [sounding]

@[simp ↓] theorem soundInd_params (n : Port) (mac : BitVec 48) (run : BitVec 64) (groups : List Nat) (s : State) :
    (soundInd n mac run groups s).params = s.params := by simp [soundInd]

@[simp ↓] theorem windowClose_params (mac : BitVec 48) (run : BitVec 64) (s : State) :
    (windowClose mac run s).params = s.params := by
  unfold windowClose
  repeat' first | (simp; done) | split | (dsimp only; split)

@[simp ↓] theorem slacMatch_params (n : Port) (mac : BitVec 48) (run : BitVec 64) (s : State) :
    (slacMatch n mac run s).params = s.params := by simp [slacMatch]

@[simp ↓] theorem slacRearm_params (n : Port) (s : State) : (slacRearm n s).params = s.params := by simp [slacRearm]

@[simp ↓] theorem announce_params (src : Fin 4) (at_ : Nat) (s : State) :
    (announce src at_ s).params = s.params := by simp [announce]

@[simp ↓] theorem storeFrame_params (n : Port) (frame : List Byte) (erased blanked : Nat) (xr6 : Bool) (s : State) :
    (storeFrame n frame erased blanked xr6 s).params = s.params := by simp [storeFrame]

@[simp ↓] theorem t1sUp_params (n : Port) (s : State) : (t1sUp n s).params = s.params := by simp [t1sUp]

@[simp ↓] theorem takeFrame_params (n : Port) (own xr6 : Bool) (frame : List Byte) (erased blanked : Nat) (s : State) :
    (takeFrame n own xr6 frame erased blanked s).params = s.params := by simp [takeFrame]

@[simp ↓] theorem frameReceive_params (n : Port) (kind : FrameKind) (frame : List Byte) (samples : List Int) (s : State) :
    (frameReceive n kind frame samples s).params = s.params := by
  unfold frameReceive
  repeat' first | (simp; done) | split | (dsimp only; split)

@[simp ↓] theorem txPush_params (n : Port) (w : Word) (s : State) : (txPush n w s).params = s.params := by simp [txPush]

@[simp ↓] theorem frameSent_params (n : Port) (air : Nat) (s : State) : (frameSent n air s).params = s.params := by
  unfold frameSent
  repeat' first | (simp; done) | split | (dsimp only; split)

@[simp ↓] theorem levtClrcnt_params (n : Port) (s : State) : (levtClrcnt n s).params = s.params := by simp [levtClrcnt]

@[simp ↓] theorem tlsKeyWord_params (n : Port) (w : Word) (s : State) :
    (tlsKeyWord n w s).params = s.params := by simp [tlsKeyWord]

@[simp ↓] theorem tlsInstall_params (rx : Bool) (n : Port) (s : State) :
    (tlsInstall rx n s).params = s.params := by simp [tlsInstall]

@[simp ↓] theorem tlsClear_params (n : Port) (s : State) : (tlsClear n s).params = s.params := by simp [tlsClear]

@[simp ↓] theorem tlsQueue_params (n : Port) (rx : Bool) (ctype : Byte) (len : Nat) (s : State) :
    (tlsQueue n rx ctype len s).params = s.params := by simp [tlsQueue]

/-! ### Machine/Caldera.lean -/

@[simp ↓] theorem setLims_params (n : Port) (vEv iEv : Nat) (s : State) :
    (setLims n vEv iEv s).params = s.params := by simp [setLims]

@[simp ↓] theorem formLims_params (s : State) :
    (formLims s).params = s.params := by
  refine forAll_params _ _ _ fun s n => ?_
  split <;> simp

@[simp ↓] theorem leaveUnproven_params (s : State) :
    (leaveUnproven s).params = s.params := by simp [leaveUnproven]

@[simp ↓] theorem State.slogPut_params (s : State) (typ source : Nat) (d0 d1 : Word) (prot : Bool) :
    (State.slogPut s typ source d0 d1 prot).params = s.params := by simp [State.slogPut]

@[simp ↓] theorem State.sfEvt_params (s : State) (bit : Nat) : (State.sfEvt s bit).params = s.params := by simp [State.sfEvt]

@[simp ↓] theorem State.poolEvt_params (s : State) (bit : Nat) : (State.poolEvt s bit).params = s.params := by simp [State.poolEvt]

@[simp ↓] theorem State.siEvt_params (s : State) (bit : Nat) : (State.siEvt s bit).params = s.params := by simp [State.siEvt]

@[simp ↓] theorem releaseModule_params (m : Fin 48) (s : State) : (releaseModule m s).params = s.params := by simp [releaseModule]

@[simp ↓] theorem releaseOutlet_params (n : Port) (s : State) : (releaseOutlet n s).params = s.params := by simp [releaseOutlet]

@[simp ↓] theorem endClose_params (c : Fin 12) (st : Status) (s : State) :
    (endClose c st s).params = s.params := by simp [endClose]

@[simp ↓] theorem countEm_params (c : Fin 12) (amps : Nat) (s : State) :
    (countEm c amps s).params = s.params := by simp [countEm]

@[simp ↓] theorem coilOff_params (c : Fin 12) (emergency : Bool) (s : State) :
    (coilOff c emergency s).params = s.params := by simp [coilOff]

@[simp ↓] theorem announceOpen_params (c : Fin 12) (s : State) : (announceOpen c s).params = s.params := by simp [announceOpen]

@[simp ↓] theorem startRamp_params (n : Port) (c : Fin 12) (s : State) :
    (startRamp n c s).params = s.params := by simp [startRamp]

@[simp ↓] theorem actStop_params (n : Port) (c : Fin 12) (cat : Nat) (s : State) :
    (actStop n c cat s).params = s.params := by
  unfold actStop
  repeat' first | (simp; done) | split | (dsimp only; split)

@[simp ↓] theorem endDemands_params (n : Port) (s : State) : (endDemands n s).params = s.params := by simp [endDemands]

@[simp ↓] theorem seqCheck_params (s : State) : (seqCheck s).params = s.params := by simp [seqCheck]

@[simp ↓] theorem dropTies_params (n : Port) (s : State) : (dropTies n s).params = s.params := by
  unfold dropTies
  split
  · rfl
  · rw [seqCheck_params]
    refine forAll_params _ _ _ fun s c => ?_
    split
    · split <;> simp
    · rfl

@[simp ↓] theorem accept_params (r : Raise) (s : State) : (accept r s).params = s.params := by
  unfold accept
  repeat' first | (simp; done) | split | (dsimp only; split)

@[simp ↓] theorem acceptAll_params (s : State) : (acceptAll s).params = s.params := by simp [acceptAll]

@[simp ↓] theorem pilotHold_params (n : Port) (on : Bool) (s : State) :
    (pilotHold n on s).params = s.params := by simp [pilotHold]

/-! ### Machine/CanBus.lean -/

@[simp ↓] theorem canReceive_params (b : Fin 3) (f : CanFrame) (s : State) :
    (canReceive b f s).params = s.params := by simp [canReceive]

@[simp ↓] theorem canTransmit_params (b : Fin 3) (sent : Bool) (s : State) :
    (canTransmit b sent s).params = s.params := by
  unfold canTransmit
  repeat' first | (simp; done) | split | (dsimp only; split)

@[simp ↓] theorem canTimeout_params (b : Fin 3) (s : State) : (canTimeout b s).params = s.params := by simp [canTimeout]

@[simp ↓] theorem sfLoad_params (b : Fin 3) (e : Fin 16) (s : State) : (sfLoad b e s).params = s.params := by simp [sfLoad]

@[simp ↓] theorem sfClear_params (b : Fin 3) (e : Fin 16) (s : State) : (sfClear b e s).params = s.params := by simp [sfClear]

@[simp ↓] theorem sfEntry_params (b : Fin 3) (e : Fin 16) (s : State) : (sfEntry b e s).params = s.params := by simp [sfEntry]

@[simp ↓] theorem canRecov_params (b : Fin 3) (s : State) : (canRecov b s).params = s.params := by simp [canRecov]

@[simp ↓] theorem canState_params (b : Fin 3) (st : CanState) (s : State) :
    (canState b st s).params = s.params := by simp [canState]

@[simp ↓] theorem canRecovered_params (b : Fin 3) (s : State) : (canRecovered b s).params = s.params := by simp [canRecovered]

@[simp ↓] theorem canErrors_params (b : Fin 3) (tec rcc : Byte) (s : State) :
    (canErrors b tec rcc s).params = s.params := by simp [canErrors]

@[simp ↓] theorem canBusOff_params (b : Fin 3) (s : State) : (canBusOff b s).params = s.params := by simp [canBusOff]

@[simp ↓] theorem canClrcnt_params (b : Fin 3) (s : State) : (canClrcnt b s).params = s.params := by simp [canClrcnt]

@[simp ↓] theorem gpioSet_params (f : Gpio → Gpio) (s : State) : (gpioSet f s).params = s.params := by simp [gpioSet]

/-! ### Machine/Irq.lean -/

@[simp ↓] theorem plicClaim_params (ctx : Fin 8) (s : State) : (plicClaim ctx s).params = s.params := by simp [plicClaim]

@[simp ↓] theorem plicComplete_params (ctx : Fin 8) (src : Word) (s : State) :
    (plicComplete ctx src s).params = s.params := by simp [plicComplete]

/-! ### Machine/Mem.lean -/

@[simp ↓] theorem State.ramWrite_params (s : State) (a : Nat) (bs : List Byte) :
    (State.ramWrite s a bs).params = s.params := by simp [State.ramWrite]

@[simp ↓] theorem State.norWrite_params (s : State) (o : Nat) (bs : List Byte) :
    (State.norWrite s o bs).params = s.params := by simp [State.norWrite]

@[simp ↓] theorem State.norErase_params (s : State) (o n : Nat) : (State.norErase s o n).params = s.params := by simp [State.norErase]

@[simp ↓] theorem State.eccErrs_params (s : State) (k a req : Nat) :
    (State.eccErrs s k a req).params = s.params := by simp [State.eccErrs]

@[simp ↓] theorem State.eccErr_params (s : State) (a : Nat) (req : Nat) :
    (State.eccErr s a req).params = s.params := by simp [State.eccErr]

@[simp ↓] theorem State.eccRun_params (s : State) (a n req : Nat) :
    (State.eccRun s a n req).params = s.params := by simp [State.eccRun]

@[simp ↓] theorem parRecord_params (req : Nat) (a : Word) (onResponse : Bool) (s : State) :
    (parRecord req a onResponse s).params = s.params := by simp [parRecord]

@[simp ↓] theorem State.mark_params (s : State) (a : Nat) : (State.mark s a).params = s.params := by simp [State.mark]

@[simp ↓] theorem State.srcBytes_params (s : State) (req a n : Nat) : (State.srcBytes s req a n).2.params = s.params := by
  unfold State.srcBytes
  repeat' first | (simp; done) | split | (dsimp only; split)

theorem ramStore_params (s t : State) (a : Nat) (bs : List Byte) (h : ramStore s a bs = some t) : t.params = s.params := by
  unfold ramStore at h
  dsimp only at h
  split at h
  · cases h
  · cases h; simp

@[simp] theorem ramStore_getD_params (s : State) (a : Nat) (bs : List Byte) : ((ramStore s a bs).getD s).params = s.params := by
  cases h : ramStore s a bs with
  | none => rfl
  | some t => exact ramStore_params s t a bs h

@[simp ↓] theorem State.appWrite_params (s : State) (req a : Nat) (bs : List Byte) :
    (State.appWrite s req a bs).params = s.params := by
  unfold State.appWrite
  dsimp only
  split
  · split
    · rename_i h; rw [ramStore_params _ _ _ _ h, State.tagged_params]
    · simp
  · simp

/-! ### Machine/Tls.lean -/

@[simp ↓] theorem tlsEnd_params (n : Port) (rx : Bool) (res olen : Nat) (itype : Option Byte) (s : State) :
    (tlsEnd n rx res olen itype s).params = s.params := by simp [tlsEnd]

@[simp ↓] theorem tlsOk_params (n : Port) (rx : Bool) (dst : Word) (out : List Byte) (itype : Option Byte) (s : State) :
    (tlsOk n rx dst out itype s).params = s.params := by simp [tlsOk]

@[simp ↓] theorem tlsTxDone_params (n : Port) (o : TlsOp) (suite : Nat) (k : TlsKeys) (seq : Nat) (s : State) :
    (tlsTxDone n o suite k seq s).params = s.params := by simp [tlsTxDone]

@[simp ↓] theorem tlsRxDone_params (n : Port) (o : TlsOp) (suite : Nat) (k : TlsKeys) (seq : Nat) (s : State) :
    (tlsRxDone n o suite k seq s).params = s.params := by
  unfold tlsRxDone
  repeat' first | (simp; done) | split | (dsimp only; split)

@[simp ↓] theorem tlsServe_params (n : Port) (rx : Bool) (s : State) : (tlsServe n rx s).params = s.params := by
  unfold tlsServe
  repeat' first | (simp; done) | split | (dsimp only; split)

@[simp ↓] theorem tlsComplete_params (n : Port) (rx : Bool) (s : State) :
    (tlsComplete n rx s).params = s.params := by
  unfold tlsComplete
  repeat' first | (simp; done) | split | (dsimp only; split)

/-! ### Machine/Fabric.lean -/

@[simp ↓] theorem restartParts_params (ps : List (Fin 8)) (s : State) :
    (restartParts ps s).params = s.params := by simp [restartParts]

@[simp ↓] theorem recheck_params (s : State) : (recheck s).params = s.params := by simp [recheck]

/-! ### Machine/DmaCtl.lean -/

@[simp ↓] theorem State.modDma_params (s : State) (c : Fin 32) (f : DmaCh → DmaCh) :
    (State.modDma s c f).params = s.params := by simp [State.modDma]

@[simp ↓] theorem settleReq_params (c : Fin 32) (s : State) : (settleReq c s).params = s.params := by simp [settleReq]

@[simp ↓] theorem requestAssert_params (r : Fin 32) (s : State) : (requestAssert r s).params = s.params := by simp [requestAssert]

@[simp ↓] theorem requestWithdraw_params (r : Fin 32) (s : State) :
    (requestWithdraw r s).params = s.params := by simp [requestWithdraw]

@[simp ↓] theorem delivered_params (r : Nat) (s : State) : (delivered r s).params = s.params := by
  unfold delivered
  repeat' first | (simp; done) | split | (dsimp only; split)

@[simp ↓] theorem writeStatus_params (c : Fin 32) (addr : Nat) (irq : Bool) (res : DmaResult) (bytes : Nat) (s : State) :
    (writeStatus c addr irq res bytes s).params = s.params := by simp [writeStatus]

@[simp ↓] theorem dmaHalt_params (c : Fin 32) (s : State) : (dmaHalt c s).params = s.params := by simp [dmaHalt]

@[simp ↓] theorem dropRest_params (r : Nat) (s : State) :
    (dropRest r s).params = s.params := by
  unfold dropRest
  repeat' first | (simp; done) | split | (dsimp only; split)

@[simp ↓] theorem dmaStop_params (c : Fin 32) (s : State) : (dmaStop c s).params = s.params := by simp [dmaStop]

@[simp ↓] theorem fetchDesc_params (a : Nat) (hit : Option Bool) (s : State) :
    ((fetchDesc a hit s).2.2).params = s.params := by
  unfold fetchDesc
  dsimp only
  split <;> simp

@[simp ↓] theorem loadDesc_params (c : Fin 32) (hit : Option Bool) (s : State) : (loadDesc c hit s).params = s.params := by
  unfold loadDesc
  repeat' first | (simp; done) | split | (dsimp only; split)

@[simp ↓] theorem dmaFinish_params (c : Fin 32) (hit : Option Bool) (s : State) :
    (dmaFinish c hit s).params = s.params := by
  unfold dmaFinish
  repeat' first | (simp; done) | split | (dsimp only; split)

@[simp ↓] theorem selectRequest_params (c : Fin 32) (sel : BitVec 5) (stays : Bool) (s : State) :
    (selectRequest c sel stays s).params = s.params := by simp [selectRequest]

@[simp ↓] theorem setPrio_params (c : Fin 32) (p : BitVec 2) (s : State) :
    (setPrio c p s).params = s.params := by simp [setPrio]

@[simp ↓] theorem dmaEnable_params (c : Fin 32) (hit : Option Bool) (s : State) :
    (dmaEnable c hit s).params = s.params := by simp [dmaEnable]

@[simp ↓] theorem dmaDisable_params (c : Fin 32) (s : State) : (dmaDisable c s).params = s.params := by
  unfold dmaDisable
  repeat' first | (simp; done) | split | (dsimp only; split)

@[simp ↓] theorem dmaAllOff_params (s : State) : (dmaAllOff s).params = s.params := by simp [dmaAllOff]

@[simp ↓] theorem dmaAbort_params (c : Fin 32) (s : State) : (dmaAbort c s).params = s.params := by
  unfold dmaAbort
  repeat' first | (simp; done) | split | (dsimp only; split)

@[simp ↓] theorem dmaKick_params (c : Fin 32) (hit : Option Bool) (s : State) :
    (dmaKick c hit s).params = s.params := by simp [dmaKick]

@[simp ↓] theorem dmaClear_params (s : State) : (dmaClear s).params = s.params := by simp [dmaClear]

/-! ### Machine/Modes.lean -/

@[simp ↓] theorem abandonTie_params (c : Fin 12) (s : State) : (abandonTie c s).params = s.params := by
  unfold abandonTie
  repeat' first | (simp; done) | split | (dsimp only; split)

@[simp ↓] theorem abandonCloses_params (s : State) : (abandonCloses s).params = s.params := by simp [abandonCloses]

@[simp ↓] theorem endOos_params (st : Status) (s : State) : (endOos st s).params = s.params := by
  unfold endOos
  repeat' first | (simp; done) | split | (dsimp only; split)

@[simp ↓] theorem rollbackDom_params (d : Fin 6) (s : State) : (rollbackDom d s).params = s.params := by simp [rollbackDom]

@[simp ↓] theorem rollbackOpen_params (s : State) : (rollbackOpen s).params = s.params := by simp [rollbackOpen]

@[simp ↓] theorem setMode_params (m : Mode) (s : State) : (setMode m s).params = s.params := by simp [setMode]

@[simp ↓] theorem endPending_params (cause : Nat) (s : State) : (endPending cause s).params = s.params := by simp [endPending]

@[simp ↓] theorem degradedStops_params (s : State) : (degradedStops s).params = s.params := by simp [degradedStops]

@[simp ↓] theorem portsSilent_params (s : State) : (portsSilent s).params = s.params := by simp [portsSilent]

@[simp ↓] theorem trialFails_params (s : State) : (trialFails s).params = s.params := by simp [trialFails]

@[simp ↓] theorem degradedEntry_params (s : State) : (degradedEntry s).params = s.params := by simp [degradedEntry]

@[simp ↓] theorem enterDegraded_params (c : DegCause) (s : State) : (enterDegraded c s).params = s.params := by simp [enterDegraded]

@[simp ↓] theorem degTrigger_params (c : DegCause) (s : State) : (degTrigger c s).params = s.params := by
  unfold degTrigger
  repeat' first | (simp; done) | split | (dsimp only; split)

@[simp ↓] theorem enterLockout_params (s : State) : (enterLockout s).params = s.params := by
  unfold enterLockout
  repeat' first | (simp; done) | split | (dsimp only; split)

@[simp ↓] theorem safeState_params (s : State) : (safeState s).params = s.params := by simp [safeState]

@[simp ↓] theorem latchStops_params (code : Nat) (s : State) : (latchStops code s).params = s.params := by simp [latchStops]

@[simp ↓] theorem latchFault_params (code : Fin 10) (s : State) : (latchFault code s).params = s.params := by simp [latchFault]

@[simp ↓] theorem leaveLockout_params (s : State) : (leaveLockout s).params = s.params := by simp [leaveLockout]

@[simp ↓] theorem confirmClosed_params (n : Port) (s : State) : (confirmClosed n s).params = s.params := by simp [confirmClosed]

@[simp ↓] theorem oosStops_params (set : BitVec 8) (s : State) : (oosStops set s).params = s.params := by simp [oosStops]

@[simp ↓] theorem oosDone_params (s : State) : (oosDone s).params = s.params := by
  unfold oosDone
  repeat' first | (simp; done) | split | (dsimp only; split)

@[simp ↓] theorem confirmOpen_params (n : Port) (s : State) : (confirmOpen n s).params = s.params := by simp [confirmOpen]

/-! ### Machine/Sec.lean -/

@[simp ↓] theorem secQueue_params (op : BitVec 6) (port : BitVec 4) (key : BitVec 6) (len : BitVec 16) (s : State) :
    (secQueue op port key len s).params = s.params := by simp [secQueue]

@[simp ↓] theorem gcmAux_params (a : Word) (s : State) : ((gcmAux a s).2.2).params = s.params := by simp [gcmAux]

@[simp ↓] theorem putKey_params (k : BitVec 6) (x : HostKey) (s : State) :
    (putKey k x s).params = s.params := by simp [putKey]

@[simp] theorem secFail_params (r : SecRes) (s : State) : (SecOut.fail r s).s.params = s.params := rfl
@[simp] theorem secGenkey_params (o : SecOp) (s : State) : (secGenkey o s).s.params = s.params := by
  unfold secGenkey
  (repeat' (first | with_reducible rfl | (simp; done) | split | (dsimp only; split) | refine (forAll_params _ _ _ (fun _ _ => ?_)).trans ?_ | (dsimp only; refine (forAll_params _ _ _ (fun _ _ => ?_)).trans ?_)))
@[simp] theorem secAes_params (o : SecOp) (src : List Byte) (k : HostKey) (s : State) : (secAes o src k s).s.params = s.params := by
  unfold secAes
  (repeat' (first | with_reducible rfl | (simp; done) | split | (dsimp only; split) | refine (forAll_params _ _ _ (fun _ _ => ?_)).trans ?_ | (dsimp only; refine (forAll_params _ _ _ (fun _ _ => ?_)).trans ?_)))
@[simp] theorem secEc_params (o : SecOp) (src : List Byte) (k : HostKey) (s : State) : (secEc o src k s).s.params = s.params := by
  unfold secEc
  (repeat' (first | with_reducible rfl | (simp; done) | split | (dsimp only; split) | refine (forAll_params _ _ _ (fun _ _ => ?_)).trans ?_ | (dsimp only; refine (forAll_params _ _ _ (fun _ _ => ?_)).trans ?_)))
@[simp] theorem secVerify_params (o : SecOp) (src : List Byte) (s : State) : (secVerify o src s).s.params = s.params := by
  unfold secVerify
  (repeat' (first | with_reducible rfl | (simp; done) | split | (dsimp only; split) | refine (forAll_params _ _ _ (fun _ _ => ?_)).trans ?_ | (dsimp only; refine (forAll_params _ _ _ (fun _ _ => ?_)).trans ?_)))
@[simp] theorem secImport_params (o : SecOp) (src : List Byte) (s : State) : (secImport o src s).s.params = s.params := by
  unfold secImport
  (repeat' (first | with_reducible rfl | (simp; done) | split | (dsimp only; split) | refine (forAll_params _ _ _ (fun _ _ => ?_)).trans ?_ | (dsimp only; refine (forAll_params _ _ _ (fun _ _ => ?_)).trans ?_)))
@[simp] theorem secAttest_params (src : List Byte) (s : State) : (secAttest src s).s.params = s.params := by
  unfold secAttest
  (repeat' (first | with_reducible rfl | (simp; done) | split | (dsimp only; split) | refine (forAll_params _ _ _ (fun _ _ => ?_)).trans ?_ | (dsimp only; refine (forAll_params _ _ _ (fun _ _ => ?_)).trans ?_)))
@[simp] theorem secRun_params (o : SecOp) (s : State) : (secRun o s).s.params = s.params := by
  unfold secRun
  (repeat' (first | with_reducible rfl | (simp; done) | split | (dsimp only; split) | refine (forAll_params _ _ _ (fun _ _ => ?_)).trans ?_ | (dsimp only; refine (forAll_params _ _ _ (fun _ _ => ?_)).trans ?_)))

@[simp ↓] theorem secComplete_params (s : State) : (secComplete s).params = s.params := by
  unfold secComplete
  repeat' first | (simp; done) | split | (dsimp only; split)

@[simp ↓] theorem auditTamper_params (s : State) : (auditTamper s).params = s.params := by
  unfold auditTamper
  repeat' first | (simp; done) | split | (dsimp only; split)

@[simp ↓] theorem tamper_params (det : Word) (s : State) : (tamper det s).params = s.params := by simp [tamper]

/-! ### Machine/Upd.lean -/

@[simp ↓] theorem beginNew_params (man : List Byte) (s : State) : (beginNew man s).params = s.params := by simp [beginNew]

@[simp ↓] theorem updBegin_params (a : Vector Word 16) (s : State) : ((updBegin a s).s).params = s.params := by simp [updBegin]

@[simp ↓] theorem eraseStaging_params (s : State) : (eraseStaging s).params = s.params := by simp [eraseStaging]

@[simp ↓] theorem beginDone_params (ok : Bool) (s : State) : (beginDone ok s).params = s.params := by simp [beginDone]

@[simp ↓] theorem repairSector_params (base size per : Nat) (sector : Nat) (s : State) :
    (repairSector base size per sector s).params = s.params := by simp [repairSector]

@[simp ↓] theorem repair_params (k : Nat) (s : State) : (repair k s).params = s.params := by simp [repair]

@[simp ↓] theorem updSpore_params (a : Vector Word 16) (s : State) : ((updSpore a s).s).params = s.params := by simp [updSpore]

@[simp ↓] theorem updMissing_params (a : Vector Word 16) (s : State) :
    ((updMissing a s).s).params = s.params := by simp [updMissing]

@[simp ↓] theorem updVerify_params (a_ : Vector Word 16) (s : State) :
    ((updVerify a_ s).s).params = s.params := by simp [updVerify]

@[simp ↓] theorem verifyDone_params (ok : Bool) (s : State) : (verifyDone ok s).params = s.params := by simp [verifyDone]

@[simp ↓] theorem updActivate_params (a : Vector Word 16) (s : State) :
    ((updActivate a s).s).params = s.params := by simp [updActivate]

@[simp ↓] theorem updCancel_params (a : Vector Word 16) (s : State) :
    ((updCancel a s).s).params = s.params := by simp [updCancel]

@[simp ↓] theorem updConfirm_params (a_ : Vector Word 16) (s : State) :
    ((updConfirm a_ s).s).params = s.params := by simp [updConfirm]

@[simp ↓] theorem reject_params (reason hostcode : Nat) (s : State) :
    (reject reason hostcode s).params = s.params := by simp [reject]

@[simp ↓] theorem updReport_params (a : Vector Word 16) (s : State) :
    ((updReport a s).s).params = s.params := by simp [updReport]

@[simp ↓] theorem updStatus_params (a_ : Vector Word 16) (s : State) :
    ((updStatus a_ s).s).params = s.params := by simp [updStatus]

@[simp ↓] theorem windowWarning_params (s : State) : (windowWarning s).params = s.params := by simp [windowWarning]

@[simp ↓] theorem windowExpiry_params (s : State) : (windowExpiry s).params = s.params := by simp [windowExpiry]

@[simp ↓] theorem setOpen_params (a_ : Vector Word 16) (s : State) : ((setOpen a_ s).s).params = s.params := by simp [setOpen]

@[simp ↓] theorem setOpenDone_params (ok : Bool) (s : State) : (setOpenDone ok s).params = s.params := by simp [setOpenDone]

@[simp ↓] theorem State.norProgram_params (s : State) (o : Nat) (l : List Byte) :
    (State.norProgram s o l).params = s.params := by simp [State.norProgram]

@[simp ↓] theorem setWrite_params (a : Vector Word 16) (s : State) : ((setWrite a s).s).params = s.params := by
  unfold setWrite
  repeat' first | (simp; done) | split | (dsimp only; split)

@[simp ↓] theorem setCommit_params (a : Vector Word 16) (s : State) :
    ((setCommit a s).s).params = s.params := by
  unfold setCommit
  repeat' first | (simp; done) | split | (dsimp only; split)

@[simp ↓] theorem keyRotate_params (a : Vector Word 16) (s : State) :
    ((keyRotate a s).s).params = s.params := by simp [keyRotate]

@[simp ↓] theorem updClear_params (s : State) : (updClear s).params = s.params := by simp [updClear]

/-! ### Machine/Display.lean -/

@[simp ↓] theorem railStep_params (s : State) : (railStep s).params = s.params := by
  unfold railStep
  repeat' first | (simp; done) | split | (dsimp only; split)

@[simp ↓] theorem lowerRails_params (s : State) : (lowerRails s).params = s.params := by
  unfold lowerRails
  repeat' first | (simp; done) | split | (dsimp only; split)

@[simp ↓] theorem fetchTarget_params (r : Fin 16) (u : RunUpd) (s : State) : (fetchTarget r u s).2.params = s.params := by
  unfold fetchTarget
  repeat' first | (simp; done) | split | (dsimp only; split)

@[simp ↓] theorem beginUpdate_params (r : Fin 16) (u : RunUpd) (s : State) :
    (beginUpdate r u s).params = s.params := by simp [beginUpdate]

@[simp ↓] theorem noteTemp_params (s : State) : (noteTemp s).params = s.params := by simp [noteTemp]

@[simp ↓] theorem raiseRails_params (s : State) : (raiseRails s).params = s.params := by simp [raiseRails]

@[simp ↓] theorem startPending_params (r : Fin 16) (q : PendUpd) (band : Nat) (s : State) :
    (startPending r q band s).params = s.params := by simp [startPending]

@[simp ↓] theorem updateStart_params (slot : Fin 4) (s : State) : (updateStart slot s).params = s.params := by
  unfold updateStart
  repeat' first | (simp; done) | split | (dsimp only; split)

@[simp ↓] theorem setPermit_params (on : Bool) (s : State) : (setPermit on s).params = s.params := by
  unfold setPermit
  repeat' first | (simp; done) | split | (dsimp only; split)

@[simp ↓] theorem permitCheck_params (s : State) : (permitCheck s).params = s.params := by simp [permitCheck]

@[simp ↓] theorem finishUpdate_params (r : Fin 16) (u : RunUpd) (s : State) :
    (finishUpdate r u s).params = s.params := by simp [finishUpdate]

@[simp ↓] theorem followLater_params (r : Fin 16) (m : BitVec 3) (u : RunUpd) (s : State) :
    (followLater r m u s).params = s.params := by simp [followLater]

@[simp ↓] theorem updateEnd_params (r : Fin 16) (s : State) : (updateEnd r s).params = s.params := by
  unfold updateEnd
  repeat' first | (simp; done) | split | (dsimp only; split)

@[simp ↓] theorem updateRequest_params (r : Fin 16) (mode : BitVec 3) (s : State) :
    (updateRequest r mode s).params = s.params := by simp [updateRequest]

@[simp ↓] theorem queueRedraw_params (s : State) (r : Fin 16) : (queueRedraw s r).params = s.params := by simp [queueRedraw]

@[simp ↓] theorem queueRedraws_params (s : State) : (queueRedraws s).params = s.params := by simp [queueRedraws]

@[simp ↓] theorem railFault_params (rail : Fin 5) (s : State) : (railFault rail s).params = s.params := by simp [railFault]

@[simp ↓] theorem railRetry_params (s : State) : (railRetry s).params = s.params := by simp [railRetry]

@[simp ↓] theorem dispClrcnt_params (s : State) : (dispClrcnt s).params = s.params := by simp [dispClrcnt]

/-! ### Machine/SafeFunctions.lean -/

@[simp ↓] theorem pairTick_params (j : Fin 8) (s : State) : (pairTick j s).params = s.params := by simp [pairTick]

@[simp ↓] theorem connTick_params (k : Fin 16) (s : State) : (connTick k s).params = s.params := by simp [connTick]

@[simp ↓] theorem tickInputs_params (lv : BitVec 16) (lorst : Bool) (s : State) :
    (tickInputs lv lorst s).params = s.params := by simp [tickInputs]

@[simp ↓] theorem tickMeans_params (s : State) : (tickMeans s).params = s.params := by simp [tickMeans]

@[simp ↓] theorem tickChecks_params (spDiff rcBad : Bool) (s : State) :
    (tickChecks spDiff rcBad s).params = s.params := by simp [tickChecks]

@[simp ↓] theorem sf01_params (n : Port) (s : State) : (sf01 n s).params = s.params := by simp [sf01]

@[simp ↓] theorem sf07_params (n : Port) (s : State) : (sf07 n s).params = s.params := by
  unfold sf07
  repeat' first | (simp; done) | split | (dsimp only; split)

@[simp ↓] theorem outCounts_params (n : Port) (s : State) : (outCounts n s).params = s.params := by simp [outCounts]

@[simp ↓] theorem pilotFault_params (n : Port) (s : State) : (pilotFault n s).params = s.params := by simp [pilotFault]

@[simp ↓] theorem sf09_params (n : Port) (s : State) : (sf09 n s).params = s.params := by
  unfold sf09
  repeat' first | (simp; done) | split | (dsimp only; split)

@[simp ↓] theorem outTick_params (n : Port) (s : State) : (outTick n s).params = s.params := by simp [outTick]

@[simp ↓] theorem setImd_params (g : Fin 6) (st : ImdState) (s : State) :
    (setImd g st s).params = s.params := by simp [setImd]

@[simp ↓] theorem imdRestart_params (g : Fin 6) (s : State) : (imdRestart g s).params = s.params := by simp [imdRestart]

@[simp ↓] theorem preCheck_params (g : Fin 6) (s : State) : (preCheck g s).params = s.params := by simp [preCheck]

@[simp ↓] theorem imdSync_params (s : State) : (imdSync s).params = s.params := by simp [imdSync]

@[simp ↓] theorem askPreCheck_params (g : Fin 6) (s : State) : (askPreCheck g s).params = s.params := by simp [askPreCheck]

@[simp ↓] theorem imdTick_params (g : Fin 6) (s : State) : (imdTick g s).params = s.params := by simp [imdTick]

@[simp ↓] theorem rampTick_params (n : Port) (s : State) : (rampTick n s).params = s.params := by
  unfold rampTick
  repeat' first | (simp; done) | split | (dsimp only; split)

@[simp ↓] theorem weldTick_params (c : Fin 12) (s : State) : (weldTick c s).params = s.params := by
  unfold weldTick
  repeat' first | (simp; done) | split | (dsimp only; split)

@[simp ↓] theorem prepareTie_params (c : Fin 12) (s : State) : (prepareTie c s).params = s.params := by
  unfold prepareTie
  repeat' first | (simp; done) | split | (dsimp only; split)

@[simp ↓] theorem fallBack_params (c : Fin 12) (s : State) : (fallBack c s).params = s.params := by simp [fallBack]

@[simp ↓] theorem closeTick_params (c : Fin 12) (s : State) : (closeTick c s).params = s.params := by
  unfold closeTick
  repeat' first | (simp; done) | split | (dsimp only; split)

@[simp ↓] theorem tieOpenReq_params (c : Fin 12) (commit : Bool) (s : State) :
    (tieOpenReq c commit s).params = s.params := by simp [tieOpenReq]

@[simp ↓] theorem autoOpen_params (s : State) : (autoOpen s).params = s.params := by simp [autoOpen]

@[simp ↓] theorem openTick_params (c : Fin 12) (s : State) : (openTick c s).params = s.params := by
  unfold openTick
  repeat' first | (simp; done) | split | (dsimp only; split)

@[simp ↓] theorem enqueue_params (c : Fin 12) (s : State) : (enqueue c s).params = s.params := by simp [enqueue]

@[simp ↓] theorem numberReq_params (c : Fin 12) (s : State) : (numberReq c s).params = s.params := by simp [numberReq]

@[simp] theorem serveQueue_params (f : Nat) (s : State) : (serveQueue f s).params = s.params := by
  induction f generalizing s with
  | zero => rfl
  | succ f ih =>
    unfold serveQueue
    (repeat' (first | with_reducible rfl | (simp [ih]; done) | split | (dsimp only; split) | refine (forAll_params _ _ _ (fun _ _ => ?_)).trans ?_ | (dsimp only; refine (forAll_params _ _ _ (fun _ _ => ?_)).trans ?_)))

/-! ### Machine/SafeCoils.lean -/

@[simp ↓] theorem announceExpiry_params (c : Fin 12) (s : State) : (announceExpiry c s).params = s.params := by
  unfold announceExpiry
  repeat' first | (simp; done) | split | (dsimp only; split)

@[simp ↓] theorem closeMet_params (c : Fin 12) (s : State) : (closeMet c s).params = s.params := by
  unfold closeMet
  repeat' first | (simp; done) | split | (dsimp only; split)

@[simp ↓] theorem pullInEnd_params (c : Fin 12) (s : State) : (pullInEnd c s).params = s.params := by simp [pullInEnd]

@[simp ↓] theorem coilFault_params (c : Fin 12) (s : State) : (coilFault c s).params = s.params := by simp [coilFault]

@[simp ↓] theorem pulseTest_params (c : Fin 12) (high pass : Bool) (s : State) :
    (pulseTest c high pass s).params = s.params := by simp [pulseTest]

@[simp ↓] theorem lockoutRetest_params (c : Fin 12) (high pass : Bool) (s : State) :
    (lockoutRetest c high pass s).params = s.params := by simp [lockoutRetest]

@[simp ↓] theorem pulseInput_params (i : Fin 16) (low : Bool) (s : State) :
    (pulseInput i low s).params = s.params := by simp [pulseInput]

@[simp ↓] theorem testPulse_params (b : Bool) (low : BitVec 16) (s : State) :
    (testPulse b low s).params = s.params := by simp [testPulse]

@[simp ↓] theorem discrepancy_params (j : Fin 8) (s : State) : (discrepancy j s).params = s.params := by simp [discrepancy]

@[simp ↓] theorem rearmEdge_params (s : State) : (rearmEdge s).params = s.params := by
  unfold rearmEdge
  repeat' first | (simp; done) | split | (dsimp only; split)

@[simp ↓] theorem weld_params (c : Fin 12) (s : State) : (weld c s).params = s.params := by simp [weld]

@[simp ↓] theorem splitCheck_params (g : Fin 6) (s : State) : (splitCheck g s).params = s.params := by simp [splitCheck]

@[simp ↓] theorem openConfirmed_params (c : Fin 12) (s : State) : (openConfirmed c s).params = s.params := by simp [openConfirmed]

@[simp ↓] theorem closedConfirmed_params (c : Fin 12) (s : State) :
    (closedConfirmed c s).params = s.params := by simp [closedConfirmed]

@[simp ↓] theorem dropOut_params (c : Fin 12) (s : State) : (dropOut c s).params = s.params := by simp [dropOut]

@[simp ↓] theorem fbCheck_params (c : Fin 12) (s : State) : (fbCheck c s).params = s.params := by
  unfold fbCheck
  repeat' first | (simp; done) | split | (dsimp only; split)

@[simp ↓] theorem feedbackChange_params (i : Fin 16) (s : State) : (feedbackChange i s).params = s.params := by simp [feedbackChange]

@[simp ↓] theorem tieFail_params (c : Fin 12) (s : State) : (tieFail c s).params = s.params := by simp [tieFail]

@[simp ↓] theorem fbCloseTimeout_params (c : Fin 12) (s : State) : (fbCloseTimeout c s).params = s.params := by simp [fbCloseTimeout]

@[simp ↓] theorem fbOpenTimeout_params (c : Fin 12) (s : State) : (fbOpenTimeout c s).params = s.params := by simp [fbOpenTimeout]

@[simp ↓] theorem weldWindowEnd_params (c : Fin 12) (s : State) : (weldWindowEnd c s).params = s.params := by
  unfold weldWindowEnd
  repeat' first | (simp; done) | split | (dsimp only; split)

@[simp ↓] theorem tieTimeout_params (c : Fin 12) (s : State) : (tieTimeout c s).params = s.params := by
  unfold tieTimeout
  repeat' first | (simp; done) | split | (dsimp only; split)

@[simp ↓] theorem grantTimeout_params (c : Fin 12) (s : State) : (grantTimeout c s).params = s.params := by simp [grantTimeout]

/-! ### Machine/SafeMonitors.lean -/

@[simp ↓] theorem nextDwell_params (g : Fin 6) (s : State) : (nextDwell g s).params = s.params := by simp [nextDwell]

@[simp ↓] theorem imdInvalid_params (g : Fin 6) (d p : Dwell) (s : State) :
    (imdInvalid g d p s).params = s.params := by simp [imdInvalid]

@[simp ↓] theorem imdValue_params (g : Fin 6) (r : Rat) (s : State) : (imdValue g r s).params = s.params := by
  unfold imdValue
  repeat' first | (simp; done) | split | (dsimp only; split)

@[simp ↓] theorem imdDwellEnd_params (g : Fin 6) (s : State) : (imdDwellEnd g s).params = s.params := by
  unfold imdDwellEnd
  repeat' first | (simp; done) | split | (dsimp only; split)

@[simp ↓] theorem imdUnknown_params (g : Fin 6) (s : State) : (imdUnknown g s).params = s.params := by simp [imdUnknown]

@[simp ↓] theorem tempStale_params (n : Port) (k : Fin 2) (s : State) :
    (tempStale n k s).params = s.params := by simp [tempStale]

@[simp ↓] theorem hoursLimit_params (s : State) : (hoursLimit s).params = s.params := by simp [hoursLimit]

/-! ### Machine/SafeFast.lean -/

@[simp ↓] theorem fastComps_params (g : Fin 2) (n : Port) (s : State) :
    (fastComps g n s).params = s.params := by
  unfold fastComps
  repeat' first | (simp; done) | split | (dsimp only; split)

@[simp ↓] theorem fastTrip_params (n : Port) (s : State) : (fastTrip n s).params = s.params := by
  unfold fastTrip
  repeat' first | (simp; done) | split | (dsimp only; split)

@[simp ↓] theorem fastOutlet_params (g : Fin 2) (n : Port) (s : State) :
    (fastOutlet g n s).params = s.params := by simp [fastOutlet]

/-! ### Machine/SysCtl.lean -/

@[simp ↓] theorem wdogKick_params (v : Word) (s : State) : (wdogKick v s).params = s.params := by simp [wdogKick]

@[simp ↓] theorem sramFetch_params (core : Fin 4) (a : Word) (s : State) :
    (sramFetch core a s).params = s.params := by simp [sramFetch]

@[simp ↓] theorem thermal1_params (s : State) : (thermal1 s).params = s.params := by simp [thermal1]

@[simp ↓] theorem thermal2_params (s : State) : (thermal2 s).params = s.params := by simp [thermal2]

@[simp ↓] theorem degcfgWrite_params (v : Word) (s : State) : (degcfgWrite v s).params = s.params := by simp [degcfgWrite]

@[simp ↓] theorem vcoreWrite_params (v : Word) (s : State) : (vcoreWrite v s).params = s.params := by simp [vcoreWrite]

@[simp ↓] theorem capMeasured_params (t : Nat) (vsup : BitVec 12) (s : State) :
    (capMeasured t vsup s).params = s.params := by simp [capMeasured]

@[simp ↓] theorem holdReady_params (vsup vhold : BitVec 12) (s : State) :
    (holdReady vsup vhold s).params = s.params := by simp [holdReady]

@[simp ↓] theorem coreResume_params (s : State) : (coreResume s).params = s.params := by simp [coreResume]

@[simp ↓] theorem meshPar_params (req : Nat) (a : Word) (onResponse : Bool) (s : State) :
    (meshPar req a onResponse s).params = s.params := by simp [meshPar]

@[simp ↓] theorem meshClear_params (s : State) : (meshClear s).params = s.params := by simp [meshClear]

/-! ### Machine/SafeReset.lean -/

@[simp ↓] theorem slogSelftest_params (step : Byte) (s : State) : (slogSelftest step s).params = s.params := by simp [slogSelftest]

@[simp ↓] theorem restartSelftest_params (step : Byte) (s : State) :
    (restartSelftest step s).params = s.params := by simp [restartSelftest]

@[simp ↓] theorem tieSplit_params (ties : List (Fin 12)) (s : State) :
    (tieSplit ties s).params = s.params := by simp [tieSplit]

@[simp ↓] theorem resetAccepted_params (len : Nat) (link : Option (Fin 16)) (step : Byte) (s : State) :
    (resetAccepted len link step s).params = s.params := by simp [resetAccepted]

@[simp ↓] theorem deliberateReset_params (len rise : Nat) (link : Option (Fin 16)) (step : Byte) (s : State) :
    (deliberateReset len rise link step s).params = s.params := by simp [deliberateReset]

@[simp ↓] theorem lorstPulse_params (step : Byte) (s : State) : (lorstPulse step s).params = s.params := by
  unfold lorstPulse
  repeat' first | (simp; done) | split | (dsimp only; split)

/-! ### Machine/SafeCalls.lean -/

@[simp ↓] theorem safeBody_params (inLockout outlet : Bool) (body : Vector Word 16 → State → Reply) (a : Vector Word 16) (s : State) (hbody : ∀ x0 s, ((body x0 s).s).params = s.params) :
    ((safeBody inLockout outlet body a s).s).params = s.params := by simp [safeBody, hbody]

@[simp ↓] theorem safeCall_params (cmd : Nat) (inLockout outlet : Bool) (c : Call) (body : Vector Word 16 → State → Reply) (s : State) (hbody : ∀ x0 s, ((body x0 s).s).params = s.params) :
    (safeCall cmd inLockout outlet c body s).params = s.params := by simp [safeCall, hbody]

@[simp ↓] theorem startClose_params (n : Port) (c : Fin 12) (vEv iEv : Nat) (s : State) :
    (startClose n c vEv iEv s).params = s.params := by
  unfold startClose
  repeat' first | (simp; done) | split | (dsimp only; split)

@[simp ↓] theorem closeReq_params (a : Vector Word 16) (s : State) : ((closeReq a s).s).params = s.params := by
  unfold closeReq
  repeat' first | (simp; done) | split | (dsimp only; split)

@[simp ↓] theorem stopCall_params (a : Vector Word 16) (s : State) : ((stopCall a s).s).params = s.params := by simp [stopCall]

@[simp ↓] theorem setLimits_params (a : Vector Word 16) (s : State) :
    ((setLimits a s).s).params = s.params := by
  unfold setLimits
  repeat' first | (simp; done) | split | (dsimp only; split)

@[simp ↓] theorem rearmPort_params (n : Port) (s : State) : (rearmPort n s).params = s.params := by
  unfold rearmPort
  repeat' first | (simp; done) | split | (dsimp only; split)

@[simp ↓] theorem rearmPorts_params (mask : Nat) (s : State) : ((rearmPorts mask s).2.2).params = s.params := by simp [rearmPorts]

@[simp ↓] theorem rearmCall_params (a : Vector Word 16) (s : State) :
    ((rearmCall a s).s).params = s.params := by simp [rearmCall]

@[simp ↓] theorem setOos_params (a : Vector Word 16) (s : State) : ((setOos a s).s).params = s.params := by simp [setOos]

@[simp ↓] theorem contactorReplaced_params (a : Vector Word 16) (s : State) :
    ((contactorReplaced a s).s).params = s.params := by
  unfold contactorReplaced
  repeat' first | (simp; done) | split | (dsimp only; split)

@[simp ↓] theorem readChkval_params (a_ : Vector Word 16) (s : State) :
    ((readChkval a_ s).s).params = s.params := by simp [readChkval]

@[simp ↓] theorem linkKeyLoad_params (a : Vector Word 16) (s : State) :
    ((linkKeyLoad a s).s).params = s.params := by
  unfold linkKeyLoad
  repeat' first | (simp; done) | split | (dsimp only; split)

@[simp ↓] theorem tripTest_params (pass : BitVec 4) (a : Vector Word 16) (s : State) :
    ((tripTest pass a s).s).params = s.params := by
  unfold tripTest
  repeat' first | (simp; done) | split | (dsimp only; split)

@[simp ↓] theorem readSlog_params (a : Vector Word 16) (s : State) : ((readSlog a s).s).params = s.params := by simp [readSlog]

@[simp ↓] theorem slogRelease_params (a : Vector Word 16) (s : State) :
    ((slogRelease a s).s).params = s.params := by
  unfold slogRelease
  repeat' first | (simp; done) | split | (dsimp only; split)

@[simp ↓] theorem confirmResult_params (source : Nat) (exact : Bool) (value : Word) (s : State) :
    (confirmResult source exact value s).params = s.params := by simp [confirmResult]

@[simp ↓] theorem entryEnd_params (e : Entry) (s : State) : (entryEnd e s).params = s.params := by simp [entryEnd]

@[simp ↓] theorem confirmKey_params (e : Entry) (k : BitVec 4) (s : State) :
    (confirmKey e k s).params = s.params := by simp [confirmKey]

/-! ### Machine/SafeLink.lean -/

@[simp ↓] theorem linkReport_params (k : Fin 16) (s : State) : (linkReport k s).params = s.params := by simp [linkReport]

@[simp ↓] theorem setLink_params (k : Fin 16) (st : LinkState) (s : State) :
    (setLink k st s).params = s.params := by simp [setLink]

@[simp ↓] theorem linkDemand_params (n : Port) (cat : Nat) (why : Why) (s : State) :
    (linkDemand n cat why s).params = s.params := by simp [linkDemand]

@[simp ↓] theorem linkFail_params (k : Fin 16) (s : State) : (linkFail k s).params = s.params := by simp [linkFail]

@[simp ↓] theorem linkConnect_params (k : Fin 16) (s : State) : (linkConnect k s).params = s.params := by simp [linkConnect]

@[simp ↓] theorem sendPdu_params (k : Fin 16) (ack : Bool) (payload : List Byte) (s : State) :
    (sendPdu k ack payload s).params = s.params := by simp [sendPdu]

@[simp ↓] theorem sendConnect_params (k : Fin 16) (ack : Bool) (s : State) :
    (sendConnect k ack s).params = s.params := by simp [sendConnect]

@[simp ↓] theorem sendData_params (k : Fin 16) (s : State) : (sendData k s).params = s.params := by simp [sendData]

@[simp ↓] theorem linkCycle_params (k : Fin 16) (s : State) : (linkCycle k s).params = s.params := by
  unfold linkCycle
  repeat' first | (simp; done) | split | (dsimp only; split)

@[simp ↓] theorem linkWatchdog_params (k : Fin 16) (s : State) : (linkWatchdog k s).params = s.params := by simp [linkWatchdog]

@[simp ↓] theorem dualMiss_params (k : Fin 16) (x : Copy) (s : State) :
    (dualMiss k x s).params = s.params := by simp [dualMiss]

@[simp ↓] theorem dualPair_params (k : Fin 16) (x : Copy) (s : State) :
    (dualPair k x s).params = s.params := by simp [dualPair]

@[simp ↓] theorem dualExpiry_params (k : Fin 16) (s : State) : (dualExpiry k s).params = s.params := by
  unfold dualExpiry
  repeat' first | (simp; done) | split | (dsimp only; split)

@[simp ↓] theorem dualFirst_params (k : Fin 16) (p : LinkPdu) (l : List Byte) (s : State) :
    (dualFirst k p l s).params = s.params := by simp [dualFirst]

@[simp ↓] theorem dualSecond_params (k : Fin 16) (x : Copy) (l : List Byte) (s : State) :
    (dualSecond k x l s).params = s.params := by simp [dualSecond]

@[simp ↓] theorem acceptPdu_params (k : Fin 16) (p : LinkPdu) (s : State) :
    ((acceptPdu k p s).2).params = s.params := by
  unfold acceptPdu
  repeat' first | (simp; done) | split | (dsimp only; split)

@[simp ↓] theorem firstCopy_params (ty : Byte) (k : Fin 16) (p : LinkPdu) (conn open_ : Fin 16 → State → State) (s : State)
    (hconn : ∀ x0 s, (conn x0 s).params = s.params) (hopen_ : ∀ x0 s, (open_ x0 s).params = s.params) :
    (firstCopy ty k p conn open_ s).params = s.params := by
  unfold firstCopy
  repeat' first | (simp [hconn, hopen_]; done) | split | (dsimp only; split)

@[simp ↓] theorem receivePdu_params (ty : Byte) (p : LinkPdu) (conn open_ : Fin 16 → State → State) (s : State) (hconn : ∀ x0 s, (conn x0 s).params = s.params) (hopen_ : ∀ x0 s, (open_ x0 s).params = s.params) :
    (receivePdu ty p conn open_ s).params = s.params := by
  unfold receivePdu
  repeat' first | (simp [hconn, hopen_]; done) | split | (dsimp only; split)

@[simp ↓] theorem takeSeq_params (p : LinkPdu) (k : Fin 16) (s : State) :
    (takeSeq p k s).params = s.params := by simp [takeSeq]

@[simp ↓] theorem onConnect_params (p : LinkPdu) (k : Fin 16) (s : State) :
    (onConnect p k s).params = s.params := by simp [onConnect]

@[simp ↓] theorem onData_params (p : LinkPdu) (k : Fin 16) (s : State) : (onData p k s).params = s.params := by simp [onData]

@[simp ↓] theorem onPress_params (k : Fin 16) (s : State) : (onPress k s).params = s.params := by simp [onPress]

@[simp ↓] theorem onRelease_params (step : Byte) (k : Fin 16) (s : State) :
    (onRelease step k s).params = s.params := by
  unfold onRelease
  repeat' first | (simp; done) | split | (dsimp only; split)

@[simp ↓] theorem onRearm_params (p : LinkPdu) (k : Fin 16) (s : State) :
    (onRearm p k s).params = s.params := by simp [onRearm]

@[simp ↓] theorem onConfirm_params (p : LinkPdu) (k : Fin 16) (s : State) :
    (onConfirm p k s).params = s.params := by simp [onConfirm]

/-! ### Machine/Thl.lean -/

@[simp ↓] theorem slotStart_params (cmd : SlotCmd) (allowed : Bool) (k : Fin 2) (s : State) :
    (slotStart cmd allowed k s).params = s.params := by simp [slotStart]

@[simp ↓] theorem slotWriteCmd_params (k : Fin 2) (s : State) : (slotWriteCmd k s).params = s.params := by simp [slotWriteCmd]

@[simp ↓] theorem slotSwitchCmd_params (k : Fin 2) (s : State) : (slotSwitchCmd k s).params = s.params := by simp [slotSwitchCmd]

@[simp ↓] theorem State.freeBytes_params (s : State) (n : Nat) :
    ((State.freeBytes s n).2).params = s.params := by simp [State.freeBytes]

@[simp ↓] theorem slotErased_params (k : Fin 2) (ok : Bool) (s : State) :
    ((slotErased k ok s).1).params = s.params := by
  unfold slotErased
  repeat' first | (simp; done) | split | (dsimp only; split)

@[simp ↓] theorem slotWritten_params (k : Fin 2) (ok : Bool) (s : State) :
    ((slotWritten k ok s).1).params = s.params := by
  unfold slotWritten
  repeat' first | (simp; done) | split | (dsimp only; split)

@[simp ↓] theorem slotVerified_params (k : Fin 2) (ok : Bool) (s : State) :
    ((slotVerified k ok s).1).params = s.params := by
  unfold slotVerified
  repeat' first | (simp; done) | split | (dsimp only; split)

@[simp ↓] theorem slotCommandDone_params (ok : Bool) (s : State) : (slotCommandDone ok s).params = s.params := by
  unfold slotCommandDone
  repeat' first | (simp; done) | split | (dsimp only; split)

@[simp ↓] theorem stageEnd_params (r : Nat) (c : List Byte) (s : State) :
    (stageEnd r c s).params = s.params := by simp [stageEnd]

@[simp ↓] theorem prStage_params (s : State) : (prStage s).params = s.params := by simp [prStage]

@[simp ↓] theorem stagingDone_params (s : State) : (stagingDone s).params = s.params := by simp [stagingDone]

@[simp ↓] theorem prDiscard_params (s : State) : (prDiscard s).params = s.params := by simp [prDiscard]

@[simp ↓] theorem writeIn_params (s : State) : (writeIn s).params = s.params := by simp [writeIn]

@[simp ↓] theorem State.modPart_params (s : State) (p : Fin 8) (f : PartCnt → PartCnt) :
    (State.modPart s p f).params = s.params := by simp [State.modPart]

@[simp ↓] theorem scrubCorrect_params (p : Fin 8) (s : State) : (scrubCorrect p s).params = s.params := by simp [scrubCorrect]

@[simp ↓] theorem configUncorrectable_params (p : Fin 8) (chans : BitVec 32) (s : State) :
    (configUncorrectable p chans s).params = s.params := by simp [configUncorrectable]

@[simp ↓] theorem fabricParity_params (p : Fin 8) (s : State) : (fabricParity p s).params = s.params := by simp [fabricParity]

@[simp ↓] theorem thlClear_params (s : State) : (thlClear s).params = s.params := by simp [thlClear]

@[simp ↓] theorem gSignal_params (g : GSignal) (s : State) : (gSignal g s).params = s.params := by
  unfold gSignal
  repeat' first | (simp; done) | split | (dsimp only; split)

/-! ### Machine/Txn.lean -/

@[simp ↓] theorem place_params (d : Fin 6) (a : Nat) (v : Word) (s : State) :
    (place d a v s).params = s.params := by
  unfold place
  repeat' first | (simp; done) | split | (dsimp only; split)

@[simp ↓] theorem rwtWrite_params (a : Nat) (v : Word) (s : State) : (rwtWrite a v s).params = s.params := by
  unfold rwtWrite
  repeat' first | (simp; done) | split | (dsimp only; split)

@[simp ↓] theorem txnBody_params (body : Vector Word 16 → State → Reply) (a : Vector Word 16) (s : State) (hbody : ∀ x0 s, ((body x0 s).s).params = s.params) :
    ((txnBody body a s).s).params = s.params := by simp [txnBody, hbody]

@[simp ↓] theorem txnBegin_params (a : Vector Word 16) (s : State) : ((txnBegin a s).s).params = s.params := by
  unfold txnBegin
  repeat' first | (simp; done) | split | (dsimp only; split)

@[simp] theorem txnNamed_params (s : State) (a : Vector Word 16) (f : Fin 6 → Reply)
    (hf : ∀ d, (f d).s.params = s.params) : (txnNamed s a f).s.params = s.params := by
  unfold txnNamed
  split
  · rfl
  · exact checks_params _ _ _ (hf _)

@[simp ↓] theorem txnCommit_params (a : Vector Word 16) (s : State) :
    ((txnCommit a s).s).params = s.params := by simp [txnCommit]

@[simp ↓] theorem txnRollback_params (a : Vector Word 16) (s : State) :
    ((txnRollback a s).s).params = s.params := by simp [txnRollback]

@[simp ↓] theorem txnRenew_params (a : Vector Word 16) (s : State) : ((txnRenew a s).s).params = s.params := by simp [txnRenew]

@[simp ↓] theorem txnPut_params (a : Vector Word 16) (s : State) : ((txnPut a s).s).params = s.params := by
  unfold txnPut
  repeat' first | (simp; done) | split | (dsimp only; split)

@[simp ↓] theorem leaseExpiry_params (d : Fin 6) (s : State) : (leaseExpiry d s).params = s.params := by simp [leaseExpiry]

@[simp ↓] theorem journalChanges_params (l : List (Nat × Word × Word)) (s : State) :
    (journalChanges l s).params = s.params := by simp [journalChanges]

@[simp ↓] theorem auditChanges_params (window : Nat) (reason : Byte) (l : List (Nat × Word × Word)) (s : State) :
    (auditChanges window reason l s).params = s.params := by simp [auditChanges]

@[simp ↓] theorem commitSlots_params (l : List (Nat × Word × Word)) (s : State) :
    (commitSlots l s).params = s.params := by simp [commitSlots]

@[simp ↓] theorem commitChannels_params (l : List (Nat × Word × Word)) (s : State) :
    (commitChannels l s).params = s.params := by simp [commitChannels]

@[simp ↓] theorem commitMeters_params (reason : Byte) (l : List (Nat × Word × Word)) (s : State) :
    (commitMeters reason l s).params = s.params := by simp [commitMeters]

@[simp ↓] theorem commitTokenKeys_params (reason : Byte) (ks : List (Nat × Option (BitVec 128))) (s : State) :
    (commitTokenKeys reason ks s).params = s.params := by simp [commitTokenKeys]

@[simp ↓] theorem tieCloseReq_params (c : Fin 12) (s : State) : (tieCloseReq c s).params = s.params := by simp [tieCloseReq]

@[simp ↓] theorem siteSequence_params (was : List (Fin 48 × Nat)) (s : State) :
    (siteSequence was s).params = s.params := by simp [siteSequence]

@[simp ↓] theorem commitThl_params (agree : Bool) (reason : Byte) (s : State) :
    ((commitThl agree reason s).2).params = s.params := by
  unfold commitThl
  repeat' first | (simp; done) | split | (dsimp only; split)

@[simp ↓] theorem frontLight_params (old : Nat) (s : State) : (frontLight old s).params = s.params := by simp [frontLight]

@[simp ↓] theorem endCommit_params (d : Fin 6) (st : Status) (s : State) :
    (endCommit d st s).params = s.params := by
  unfold endCommit
  repeat' first | (simp; done) | split | (dsimp only; split)

@[simp ↓] theorem txnClear_params (s : State) : (txnClear s).params = s.params := by simp [txnClear]

@[simp ↓] theorem compatWrite_params (i : Fin 28) (req : BitVec 16) (s : State) :
    (compatWrite i req s).params = s.params := by
  unfold compatWrite
  repeat' first | (simp; done) | split | (dsimp only; split)

/-! ### Machine/Keys.lean -/

@[simp ↓] theorem freeKey_params (k : BitVec 4) (s : State) : (freeKey k s).params = s.params := by simp [freeKey]

@[simp ↓] theorem keyPress_params (row col : Fin 4) (twin : Bool) (s : State) :
    (keyPress row col twin s).params = s.params := by
  unfold keyPress
  repeat' first | (simp; done) | split | (dsimp only; split)

@[simp ↓] theorem keyFifoRead_params (s : State) : (keyFifoRead s).params = s.params := by
  unfold keyFifoRead
  repeat' first | (simp; done) | split | (dsimp only; split)

/-! ### Machine/RegRead.lean -/

@[simp ↓] theorem multiWrap_params (s : State) (req a : Nat) (m : MeterId) (exp : Bool) :
    ((multiWrap s req a m exp).2).params = s.params := by simp [multiWrap]

@[simp ↓] theorem rosLatch_params (req a : Nat) (k : BlkKind) (n base o : Nat) (s : State) :
    (rosLatch req a k n base o s).params = s.params := by
  unfold rosLatch
  repeat' first | (simp; done) | split | (dsimp only; split)

@[simp ↓] theorem regRead_params (req a : Nat) (s : State) : (regRead req a s).params = s.params := by
  unfold regRead
  repeat' first | (simp; done) | split | (dsimp only; split)

@[simp ↓] theorem memWordRead_params (req a n : Nat) (s : State) : (memWordRead req a n s).params = s.params := by
  unfold memWordRead
  repeat' first | (simp; done) | split | (dsimp only; split)

@[simp ↓] theorem busRead_params (req a : Nat) (size : AccSize) (s : State) :
    (busRead req a size s).params = s.params := by simp [busRead]

/-! ### Machine/EthMac.lean -/

@[simp ↓] theorem ethStore_params (m : Fin 2) (f : List Byte) (s : State) :
    (ethStore m f s).params = s.params := by simp [ethStore]

@[simp ↓] theorem safeReceive_params (m : Fin 2) (f : List Byte) (step : Byte) (s : State) :
    (safeReceive m f step s).params = s.params := by
  unfold safeReceive
  repeat' first | (simp; done) | split | (dsimp only; split)

@[simp ↓] theorem ethReceive_params (m : Fin 2) (f : List Byte) (good : Bool) (step : Byte) (s : State) :
    (ethReceive m f good step s).params = s.params := by simp [ethReceive]

@[simp ↓] theorem ethTransmit_params (m : Fin 2) (s : State) : (ethTransmit m s).params = s.params := by
  unfold ethTransmit
  repeat' first | (simp; done) | split | (dsimp only; split)

@[simp ↓] theorem ethLink_params (m : Fin 2) (up : Bool) (speed : Fin 3) (full : Bool) (s : State) :
    (ethLink m up speed full s).params = s.params := by simp [ethLink]

@[simp ↓] theorem ethClrcnt_params (m : Fin 2) (s : State) : (ethClrcnt m s).params = s.params := by simp [ethClrcnt]

/-! ### Machine/TimeSet.lean -/

@[simp ↓] theorem setLegal_params (ms : Nat) (s : State) : (setLegal ms s).params = s.params := by simp [setLegal]

@[simp ↓] theorem adjustSmall_params (old : Nat) (adj : Int) (new : Nat) (reason : Nat) (s : State) :
    (adjustSmall old adj new reason s).params = s.params := by simp [adjustSmall]

@[simp ↓] theorem adjustNote_params (adj : Int) (reason : Nat) (s : State) :
    (adjustNote adj reason s).params = s.params := by simp [adjustNote]

@[simp ↓] theorem adjustBig_params (old : Nat) (adj : Int) (new : Nat) (reason : Nat) (s : State) :
    (adjustBig old adj new reason s).params = s.params := by simp [adjustBig]

@[simp ↓] theorem adjustFirst_params (adj : Int) (new : Nat) (reason : Nat) (s : State) :
    (adjustFirst adj new reason s).params = s.params := by simp [adjustFirst]

@[simp] theorem setTime_params (a : Vector Word 16) (s : State) : (setTime a s).s.params = s.params := by
  unfold setTime
  refine checks_params _ _ _ ?_
  (repeat' (first | with_reducible rfl | (simp; done) | split | (dsimp only; split) | refine (forAll_params _ _ _ (fun _ _ => ?_)).trans ?_ | (dsimp only; refine (forAll_params _ _ _ (fun _ _ => ?_)).trans ?_)))

@[simp ↓] theorem readTime_params (a_ : Vector Word 16) (s : State) :
    ((readTime a_ s).s).params = s.params := by simp [readTime]

@[simp ↓] theorem rtcTrim_params (a : Vector Word 16) (s : State) : ((rtcTrim a s).s).params = s.params := by simp [rtcTrim]

/-! ### Machine/RegWrite.lean -/

@[simp ↓] theorem metCalls_params (cmd : Nat) (a : Vector Word 16) (s : State) :
    ((metCalls cmd a s).s).params = s.params := by
  unfold metCalls
  repeat' first | (simp; done) | split | (dsimp only; split)

@[simp ↓] theorem billCalls_params (cmd : Nat) (a : Vector Word 16) (s : State) :
    ((billCalls cmd a s).s).params = s.params := by
  unfold billCalls
  repeat' first | (simp; done) | split | (dsimp only; split)

@[simp ↓] theorem safeCalls_params (cmd : Nat) (a : Vector Word 16) (s : State) :
    ((safeCalls cmd a s).s).params = s.params := by
  unfold safeCalls
  repeat' first | (simp; done) | split | (dsimp only; split)

@[simp ↓] theorem txnCalls_params (cmd : Nat) (a : Vector Word 16) (s : State) :
    ((txnCalls cmd a s).s).params = s.params := by
  unfold txnCalls
  repeat' first | (simp; done) | split | (dsimp only; split)

@[simp ↓] theorem updCalls_params (cmd : Nat) (a : Vector Word 16) (s : State) :
    ((updCalls cmd a s).s).params = s.params := by
  unfold updCalls
  repeat' first | (simp; done) | split | (dsimp only; split)

@[simp ↓] theorem doorbell_params (i : MbxId) (s : State) : (doorbell i s).params = s.params := by
  unfold doorbell
  repeat' first | (simp; done) | split | (dsimp only; split)

@[simp ↓] theorem writeMbx_params (i : MbxId) (o : Nat) (v : Word) (s : State) :
    (writeMbx i o v s).params = s.params := by simp [writeMbx]

@[simp] theorem writeMbxIn_params (i : MbxId) (o : Nat) (v : Word) (s : State) : (writeMbxIn i o v s).params = s.params := by
  have h (k : Nat) : (match i with
    | .bill => { s with bill.mbxin := putWord s.bill.mbxin k v }
    | .safe => { s with safe.mbxin := putWord s.safe.mbxin k v }
    | .upd => { s with upd.mbxin := putWord s.upd.mbxin k v }
    | _ => s).params = s.params := by cases i <;> rfl
  exact h _

@[simp ↓] theorem safeW1c_params (o : Nat) (v : Word) (s : State) : (safeW1c o v s).params = s.params := by simp [safeW1c]

theorem writeWindow_params (k : BlkKind) (base o : Nat) (v : Word) (s t : State)
    (h : writeWindow k base o v s = some t) : t.params = s.params := by
  unfold writeWindow at h
  split at h
  · repeat' split at h
    all_goals first | (cases h; simp; done) | cases h
  · cases h

@[simp] theorem writeWindow_getD_params (k : BlkKind) (base o : Nat) (v : Word) (s : State) :
    ((writeWindow k base o v s).getD s).params = s.params := by
  cases h : writeWindow k base o v s with
  | none => rfl
  | some t => exact writeWindow_params k base o v s t h

@[simp ↓] theorem writeSys_params (o : Nat) (v : Word) (s : State) : (writeSys o v s).params = s.params := by
  unfold writeSys
  repeat' first | (simp; done) | split | (dsimp only; split)

@[simp ↓] theorem writeTime_params (o : Nat) (v : Word) (s : State) : (writeTime o v s).params = s.params := by
  unfold writeTime
  repeat' first | (simp; done) | split | (dsimp only; split)

@[simp ↓] theorem writeChcfg_params (c : Fin 32) (v : Word) (s : State) :
    (writeChcfg c v s).params = s.params := by simp [writeChcfg]

@[simp ↓] theorem writeDma_params (o : Nat) (v : Word) (s : State) : (writeDma o v s).params = s.params := by
  unfold writeDma
  repeat' first | (simp; done) | split | (dsimp only; split)

@[simp ↓] theorem writeTxn_params (o : Nat) (v : Word) (s : State) : (writeTxn o v s).params = s.params := by simp [writeTxn]

@[simp ↓] theorem writeSec_params (o : Nat) (v : Word) (s : State) : (writeSec o v s).params = s.params := by
  unfold writeSec
  repeat' first | (simp; done) | split | (dsimp only; split)

@[simp ↓] theorem writeUpd_params (o : Nat) (v : Word) (s : State) : (writeUpd o v s).params = s.params := by simp [writeUpd]

@[simp ↓] theorem writeSlotctl_params (v : Word) (s : State) : (writeSlotctl v s).params = s.params := by
  unfold writeSlotctl
  repeat' first | (simp; done) | split | (dsimp only; split)

@[simp ↓] theorem writeThl_params (o : Nat) (v : Word) (s : State) : (writeThl o v s).params = s.params := by
  unfold writeThl
  repeat' first | (simp; done) | split | (dsimp only; split)

@[simp ↓] theorem writeEth_params (m : Fin 2) (o : Nat) (v : Word) (s : State) :
    (writeEth m o v s).params = s.params := by simp [writeEth]

@[simp ↓] theorem writeCan_params (b : Fin 3) (o : Nat) (v : Word) (s : State) :
    (writeCan b o v s).params = s.params := by simp [writeCan]

@[simp ↓] theorem writeGpio_params (o : Nat) (v : Word) (s : State) : (writeGpio o v s).params = s.params := by
  unfold writeGpio
  repeat' first | (simp; done) | split | (dsimp only; split)

@[simp ↓] theorem writeMesh_params (o : Nat) (v : Word) (s : State) : (writeMesh o v s).params = s.params := by simp [writeMesh]

@[simp ↓] theorem writeIntc_params (o : Nat) (v : Word) (s : State) : (writeIntc o v s).params = s.params := by simp [writeIntc]

@[simp ↓] theorem writePevt_params (n : Port) (v : Word) (s : State) : (writePevt n v s).params = s.params := by simp [writePevt]

@[simp ↓] theorem writeLevt_params (n : Port) (v : Word) (s : State) : (writeLevt n v s).params = s.params := by simp [writeLevt]

@[simp ↓] theorem writeTlscfg_params (n : Port) (v : Word) (s : State) :
    (writeTlscfg n v s).params = s.params := by simp [writeTlscfg]

@[simp ↓] theorem writeVp_params (n : Port) (o : Nat) (v : Word) (s : State) :
    (writeVp n o v s).params = s.params := by
  unfold writeVp
  repeat' first | (simp; done) | split | (dsimp only; split)

@[simp ↓] theorem writeDisp_params (base o : Nat) (v : Word) (s : State) :
    (writeDisp base o v s).params = s.params := by
  unfold writeDisp
  repeat' first | (simp; done) | split | (dsimp only; split)

@[simp] theorem memWrite_params (req a : Nat) (bs : List Byte) (s : State) : (memWrite req a bs s).params = s.params := by
  unfold memWrite
  split
  · split
    · rename_i t h; rw [State.busOk_params]; exact ramStore_params s t a bs h
    · simp
  · split <;> simp

/-! ### Machine/Dma.lean -/

@[simp] theorem regWords_params (a : Nat) (fixed : Bool) (n : Nat) (s : State) :
    (regWords a fixed n s).2.1.params = s.params := by
  induction n generalizing a s with
  | zero => rfl
  | succ n ih =>
    unfold regWords
    repeat' first | with_reducible rfl | (simp [ih]; done) | split | (dsimp only; split)

@[simp ↓] theorem regTail_params (a len : Nat) (t : List Byte × State × Option DmaResult) :
    (regTail a len t).2.1.params = t.2.1.params := by
  unfold regTail
  split <;> simp

@[simp ↓] theorem readSource_params (a len : Nat) (fixed : Bool) (s : State) :
    (readSource a len fixed s).2.1.params = s.params := by
  unfold readSource
  repeat' first | (simp; done) | split | (dsimp only; split)

@[simp ↓] theorem indexAt_params (w : Vector Word 8) (i : Nat) (s : State) :
    (indexAt w i s).2.1.params = s.params := by simp [indexAt]

@[simp ↓] theorem indexRead_params (w : Vector Word 8) (i : Nat) (hit : Option Bool) (s : State) :
    (indexRead w i hit s).2.1.params = s.params := by
  unfold indexRead parRead
  split <;> simp

@[simp ↓] theorem srcAddr_params (w : Vector Word 8) (off : Nat) (hit : Option Bool) (s : State) :
    (srcAddr w off hit s).2.1.params = s.params := by
  unfold srcAddr
  repeat' first | (simp; done) | split | (dsimp only; split)

@[simp ↓] theorem dstAddr_params (w : Vector Word 8) (off : Nat) (hit : Option Bool) (s : State) :
    (dstAddr w off hit s).2.1.params = s.params := by
  unfold dstAddr
  repeat' first | (simp; done) | split | (dsimp only; split)

@[simp ↓] theorem periphTake_params (r n : Nat) (s : State) : ((periphTake r n s).2).params = s.params := by
  unfold periphTake
  repeat' first | (simp; done) | split | (dsimp only; split)

@[simp ↓] theorem periphPut_params (r : Nat) (bs : List Byte) (s : State) :
    (periphPut r bs s).params = s.params := by simp [periphPut]

@[simp ↓] theorem burstData_params (w : Vector Word 8) (r off len src : Nat) (s : State) :
    ((burstData w r off len src s).2.1).params = s.params := by
  unfold burstData
  repeat' first | (simp; done) | split | (dsimp only; split)

@[simp ↓] theorem dmaAge_params (g : Fin 32) (s : State) : (dmaAge g s).params = s.params := by simp [dmaAge]

@[simp ↓] theorem State.modRun_params (s : State) (c : Fin 32) (f : DmaRun → DmaRun) :
    (State.modRun s c f).params = s.params := by simp [State.modRun]

@[simp ↓] theorem burstFails_params (c : Fin 32) (e : DmaResult) (s : State) :
    (burstFails c e s).params = s.params := by simp [burstFails]

@[simp ↓] theorem dmaPrefetch_params (c : Fin 32) (hit : Option Bool) (s : State) :
    (dmaPrefetch c hit s).params = s.params := by simp [dmaPrefetch]

@[simp ↓] theorem sidePar_params (fifo : Bool) (q a : Nat) (onResponse : Bool) (s : State) :
    (sidePar fifo q a onResponse s).params = s.params := by simp [sidePar]

@[simp ↓] theorem burstRead_params (c : Fin 32) (r : DmaRun) (b : Nat × Nat) (src dst : Nat) (ecc : Bool)
    (hit : Option Bool) (s : State) :
    (burstRead c r b src dst ecc hit s).params = s.params := by
  unfold burstRead
  repeat' first | (simp; done) | split | (dsimp only; split)

@[simp ↓] theorem burstStart_params (c : Fin 32) (ecc : Bool) (par : Option (DmaReq × Bool)) (s : State) :
    (burstStart c ecc par s).params = s.params := by
  unfold burstStart
  repeat' first | (simp; done) | split | (dsimp only; split)

@[simp ↓] theorem burstGrant_params (prefetch ecc : Bool) (par : Option (DmaReq × Bool)) (s : State) :
    (burstGrant prefetch ecc par s).params = s.params := by
  unfold burstGrant
  repeat' first | (simp; done) | split | (dsimp only; split)

/-! ### Machine/SafeTick.lean -/

@[simp ↓] theorem releaseWaiting_params (s : State) : (releaseWaiting s).params = s.params := by simp [releaseWaiting]

@[simp ↓] theorem safetyTick_params (lv : BitVec 16) (lorst spDiff : Bool) (s : State) :
    (safetyTick lv lorst spDiff s).params = s.params := by simp [safetyTick]

@[simp ↓] theorem rampTimeout_params (n : Port) (s : State) : (rampTimeout n s).params = s.params := by
  unfold rampTimeout
  repeat' first | (simp; done) | split | (dsimp only; split)

/-! ### Machine/Save.lean -/

@[simp ↓] theorem dropCalls_params (s : State) : (dropCalls s).params = s.params := by simp [dropCalls]

@[simp ↓] theorem tornSlot_params (s : State) : (tornSlot s).params = s.params := by
  unfold tornSlot
  repeat' first | (simp; done) | split | (dsimp only; split)

@[simp ↓] theorem tornErase_params (s : State) : (tornErase s).params = s.params := by simp [tornErase]

@[simp ↓] theorem tornSettings_params (s : State) : (tornSettings s).params = s.params := by simp [tornSettings]

@[simp ↓] theorem tornFlash_params (s : State) : (tornFlash s).params = s.params := by simp [tornFlash]

@[simp ↓] theorem dropOutputs_params (s : State) : (dropOutputs s).params = s.params := by simp [dropOutputs]

@[simp ↓] theorem stopRunning_params (s : State) : (stopRunning s).params = s.params := by simp [stopRunning]

@[simp ↓] theorem holdPart_params (bits : BitVec 16) (s : State) : (holdPart bits s).params = s.params := by simp [holdPart]

@[simp ↓] theorem powerFailAudits_params (s : State) : (powerFailAudits s).params = s.params := by simp [powerFailAudits]

@[simp ↓] theorem lastFine_params (w : BitVec 64) (g : Fin 2) (s : State) :
    (lastFine w g s).params = s.params := by simp [lastFine]

@[simp ↓] theorem lastBits_params (w : BitVec 64) (s : State) (b : FastBits) :
    (lastBits w s b).params = s.params := by simp [lastBits]

@[simp ↓] theorem lastSamples_params (tail : List FastBits) (s : State) :
    (lastSamples tail s).params = s.params := by simp [lastSamples]

@[simp ↓] theorem lastBoundaries_params (tail : List FastBits) (s : State) :
    (lastBoundaries tail s).params = s.params := by simp [lastBoundaries]

@[simp ↓] theorem saveMetering_params (tail : List FastBits) (s : State) :
    (saveMetering tail s).params = s.params := by simp [saveMetering]

@[simp ↓] theorem meetFate_params (s : State) (x : Fin 16 × Fate) : (meetFate s x).params = s.params := by
  unfold meetFate
  repeat' first | (simp; done) | split | (dsimp only; split)

@[simp ↓] theorem saveDisplay_params (vhold : BitVec 12) (s : State) :
    (saveDisplay vhold s).params = s.params := by simp [saveDisplay]

@[simp ↓] theorem endEntries_params (s : State) : (endEntries s).params = s.params := by simp [endEntries]

@[simp ↓] theorem dropPulses_params (s : State) : (dropPulses s).params = s.params := by simp [dropPulses]

@[simp ↓] theorem portsErased_params (s : State) : (portsErased s).params = s.params := by simp [portsErased]

@[simp ↓] theorem pilotsOff_params (s : State) : (pilotsOff s).params = s.params := by simp [pilotsOff]

@[simp ↓] theorem powerFailSave_params (vhold : BitVec 12) (tail : List FastBits) (s : State) :
    (powerFailSave vhold tail s).params = s.params := by simp [powerFailSave]

@[simp ↓] theorem powerFailWarning_params (src : PfwSource) (vhold : BitVec 12) (tail : List FastBits) (s : State) :
    (powerFailWarning src vhold tail s).params = s.params := by
  unfold powerFailWarning
  repeat' first | (simp; done) | split | (dsimp only; split)

@[simp ↓] theorem cutClose_params (s : State) : (cutClose s).params = s.params := by simp [cutClose]

@[simp ↓] theorem settle_params (s : State) : (settle s).params = s.params := by simp [settle]

@[simp ↓] theorem loseTail_params (s : State) : (loseTail s).params = s.params := by simp [loseTail]

@[simp ↓] theorem cutWithoutSave_params (steps : Fin 7) (tail : List FastBits) (s : State) :
    (cutWithoutSave steps tail s).params = s.params := by simp [cutWithoutSave]

/-! ### Machine/StartUp.lean -/

@[simp ↓] theorem atNs_params (n : Nat) (s : State) : (atNs n s).params = s.params := by simp [atNs]

@[simp ↓] theorem causeBit_params (n : Nat) (s : State) : (causeBit n s).params = s.params := by simp [causeBit]

@[simp ↓] theorem bootSupply_params (u : StartUp) (s : State) : (bootSupply u s).params = s.params := by simp [bootSupply]

@[simp ↓] theorem bootTime_params (old : Mode) (u : StartUp) (s : State) :
    (bootTime old u s).params = s.params := by simp [bootTime]

@[simp ↓] theorem bootSelftest_params (u : StartUp) (s : State) : (bootSelftest u s).params = s.params := by simp [bootSelftest]

@[simp ↓] theorem swapAreas_params (s : State) : (swapAreas s).params = s.params := by simp [swapAreas]

@[simp ↓] theorem inActivate_params (f : State → State) (s : State) (hf : ∀ s, (f s).params = s.params) :
    (inActivate f s).params = s.params := by simp [inActivate, hf]

@[simp ↓] theorem activate_params (s : State) : (activate s).params = s.params := by simp [activate]

@[simp ↓] theorem swapBack_params (s : State) : (swapBack s).params = s.params := by simp [swapBack]

@[simp ↓] theorem provisionFkd_params (s : State) : (provisionFkd s).params = s.params := by simp [provisionFkd]

@[simp ↓] theorem bootConfirmed_params (s : State) : (bootConfirmed s).params = s.params := by simp [bootConfirmed]

@[simp ↓] theorem bootTrial_params (s : State) : (bootTrial s).params = s.params := by simp [bootTrial]

@[simp ↓] theorem bootManager_params (u : StartUp) (s : State) : (bootManager u s).params = s.params := by simp [bootManager]

@[simp ↓] theorem olderArea_params (s : State) (a : SinterArea) : (olderArea s a).params = s.params := by
  unfold olderArea
  repeat' first | (simp; done) | split | (dsimp only; split)

@[simp ↓] theorem loseArea_params (s : State) (a : SinterArea) : (loseArea s a).params = s.params := by
  unfold loseArea
  repeat' first | (simp; done) | split | (dsimp only; split)

@[simp ↓] theorem recovery_params (u : StartUp) (rolled : Nat) (s : State) :
    (recovery u rolled s).params = s.params := by simp [recovery]

@[simp ↓] theorem provisionSkd_params (k : Fin 2) (s : State) : (provisionSkd k s).params = s.params := by simp [provisionSkd]

@[simp ↓] theorem journalFs_params (s : State) : (journalFs s).params = s.params := by simp [journalFs]

@[simp ↓] theorem gapEntries_params (s : State) : (gapEntries s).params = s.params := by simp [gapEntries]

@[simp ↓] theorem restartSlices_params (s : State) : (restartSlices s).params = s.params := by simp [restartSlices]

@[simp ↓] theorem bootBoundaries_params (s : State) : (bootBoundaries s).params = s.params := by simp [bootBoundaries]

@[simp ↓] theorem bootStops_params (s : State) : (bootStops s).params = s.params := by simp [bootStops]

@[simp ↓] theorem bootPart_params (s : State) : (bootPart s).params = s.params := by simp [bootPart]

@[simp ↓] theorem lossEntries_params (l : List SinterArea) (s : State) :
    (lossEntries l s).params = s.params := by simp [lossEntries]

@[simp ↓] theorem kernelStart_params (u : StartUp) (s : State) : (kernelStart u s).params = s.params := by simp [kernelStart]

@[simp ↓] theorem bootKernel_params (u : StartUp) (s : State) : (bootKernel u s).params = s.params := by simp [bootKernel]

@[simp ↓] theorem releaseCores_params (s : State) : (releaseCores s).params = s.params := by simp [releaseCores]

@[simp ↓] theorem startWindow_params (s : State) : (startWindow s).params = s.params := by simp [startWindow]

@[simp ↓] theorem portsListen_params (s : State) : (portsListen s).params = s.params := by simp [portsListen]

@[simp ↓] theorem bootMode_params (s : State) : (bootMode s).params = s.params := by simp [bootMode]

/-! ### Machine/Idle.lean -/

@[simp ↓] theorem idle_params (s : State) : (idle s).params = s.params := by simp [idle]

end Sys2Proof.Machine
end

