-- ==== Sys2Proof/Laws/KeepBill.lean ====
section
/-! SUPPORT. The operations that leave BILL: sessions, records, the audit log, tokens as it is. -/

namespace Sys2Proof.Machine

@[simp ↓] theorem forAll_bill {α : Type} (l : List α) (f : State → α → State) (s : State)
    (h : ∀ s x, (f s x).bill = s.bill) : (forAll l f s).bill = s.bill := forAll_keeps State.bill l f s h

@[simp ↓] theorem ite_bill (c : Prop) [Decidable c] (a b : State) :
    (if c then a else b).bill = if c then a.bill else b.bill := apply_ite State.bill c a b

@[simp ↓] theorem checks_bill (s : State) (l : List (Bool × Status)) (k : Reply) (h : k.s.bill = s.bill) :
    (checks s l k).s.bill = s.bill := by
  induction l with
  | nil => exact h
  | cons x r ih => obtain ⟨b, st⟩ := x; cases b <;> simp [checks, ih]

/-! ### Machine/Ops.lean -/

@[simp ↓] theorem State.busOk_bill (s : State) (v : Word) : (State.busOk s v).bill = s.bill := by simp [State.busOk]

@[simp ↓] theorem State.busErr_bill (s : State) : (State.busErr s).bill = s.bill := by simp [State.busErr]

@[simp ↓] theorem State.decodeErr_bill (s : State) (a : Word) (req kind : Nat) :
    (State.decodeErr s a req kind).bill = s.bill := by simp [State.decodeErr]

@[simp ↓] theorem State.tagged_bill (s : State) : (State.tagged s).bill = s.bill := by simp [State.tagged]

@[simp ↓] theorem State.holeErr_bill (s : State) (req a n : Nat) : (State.holeErr s req a n).bill = s.bill := by
  unfold State.holeErr
  split <;> simp

@[simp ↓] theorem holdEngine_bill (s : State) : (holdEngine s).bill = s.bill := by simp [holdEngine]

@[simp ↓] theorem onBlock_bill (k : BlkKind) (n : Nat) (s : State) (f : State → State) (hf : ∀ s, (f s).bill = s.bill) :
    (onBlock k n s f).bill = s.bill := by simp [onBlock, hf]

@[simp ↓] theorem State.modVp_bill (s : State) (n : Port) (f : Vp → Vp) :
    (State.modVp s n f).bill = s.bill := by simp [State.modVp]

@[simp ↓] theorem State.modPilot_bill (s : State) (n : Port) (f : Pilot → Pilot) :
    (State.modPilot s n f).bill = s.bill := by simp [State.modPilot]

@[simp ↓] theorem State.modLink_bill (s : State) (n : Port) (f : Link → Link) :
    (State.modLink s n f).bill = s.bill := by simp [State.modLink]

@[simp ↓] theorem State.modTls_bill (s : State) (n : Port) (f : Tls → Tls) :
    (State.modTls s n f).bill = s.bill := by simp [State.modTls]

@[simp ↓] theorem State.modRgn_bill (s : State) (r : Fin 16) (f : Region → Region) :
    (State.modRgn s r f).bill = s.bill := by simp [State.modRgn]

@[simp ↓] theorem State.modCh_bill (s : State) (n : ChanId) (f : Chan → Chan) :
    (State.modCh s n f).bill = s.bill := by simp [State.modCh]

@[simp ↓] theorem State.modM_bill (s : State) (m : MeterId) (f : Meter → Meter) :
    (State.modM s m f).bill = s.bill := by simp [State.modM]

@[simp ↓] theorem State.modEth_bill (s : State) (n : Fin 2) (f : Eth → Eth) :
    (State.modEth s n f).bill = s.bill := by simp [State.modEth]

@[simp ↓] theorem State.modCan_bill (s : State) (n : Fin 3) (f : Can → Can) :
    (State.modCan s n f).bill = s.bill := by simp [State.modCan]

@[simp ↓] theorem State.modLoad_bill (s : State) (n : Fin 10) (f : LoadCh → LoadCh) :
    (State.modLoad s n f).bill = s.bill := by simp [State.modLoad]

@[simp ↓] theorem State.modCoil_bill (s : State) (c : Fin 12) (f : Coil → Coil) :
    (State.modCoil s c f).bill = s.bill := by simp [State.modCoil]

@[simp ↓] theorem State.modOut_bill (s : State) (n : Port) (f : Outlet → Outlet) :
    (State.modOut s n f).bill = s.bill := by simp [State.modOut]

@[simp ↓] theorem State.modImd_bill (s : State) (g : Fin 6) (f : Imd → Imd) :
    (State.modImd s g f).bill = s.bill := by simp [State.modImd]

@[simp ↓] theorem State.modConn_bill (s : State) (k : Fin 16) (f : Conn → Conn) :
    (State.modConn s k f).bill = s.bill := by simp [State.modConn]

@[simp ↓] theorem State.modPair_bill (s : State) (j : Fin 8) (f : StopPair → StopPair) :
    (State.modPair s j f).bill = s.bill := by simp [State.modPair]

@[simp ↓] theorem State.modTxn_bill (s : State) (d : Fin 6) (f : TxnDom → TxnDom) :
    (State.modTxn s d f).bill = s.bill := by simp [State.modTxn]

@[simp ↓] theorem State.setLofs_bill (s : State) (ms : Nat) : (State.setLofs s ms).bill = s.bill := by simp [State.setLofs]

@[simp ↓] theorem State.draw_bill (s : State) : ((State.draw s).2).bill = s.bill := by simp [State.draw]

@[simp ↓] theorem State.raise_bill (s : State) (n : Nat) : (State.raise s n).bill = s.bill := by simp [State.raise]

@[simp ↓] theorem State.evPut_bill (s : State) (typ source : Nat) (d0 d1 d2 : Word) :
    (State.evPut s typ source d0 d1 d2).bill = s.bill := by simp [State.evPut]

@[simp ↓] theorem State.evRoll_bill (s : State) : (State.evRoll s).bill = s.bill := by simp [State.evRoll]

@[simp ↓] theorem State.evSecond_bill (s : State) :
    (State.evSecond s).bill = s.bill := by simp [State.evSecond]

@[simp ↓] theorem State.evlog_bill (s : State) (typ source : Nat) (d0 d1 d2 : Word) :
    (State.evlog s typ source d0 d1 d2).bill = s.bill := by simp [State.evlog]

@[simp ↓] theorem State.statsCleared_bill (s : State) (block mask : Nat) :
    (State.statsCleared s block mask).bill = s.bill := by simp [State.statsCleared]

@[simp ↓] theorem State.raiseDem_bill (s : State) (n : Port) (cat cause : Nat) (reason : Byte) (why : Why) :
    (State.raiseDem s n cat cause reason why).bill = s.bill := by simp [State.raiseDem]

@[simp ↓] theorem State.demand_bill (s : State) (n : Port) (cat cause : Nat) (reason : Byte) :
    (State.demand s n cat cause reason).bill = s.bill := by simp [State.demand]

@[simp ↓] theorem Reply.ok_bill (s : State) (res : List Word) : ((Reply.ok s res).s).bill = s.bill := by simp

@[simp ↓] theorem Reply.deny_bill (s : State) (st : Status) : ((Reply.deny s st).s).bill = s.bill := by simp

@[simp ↓] theorem Reply.later_bill (s : State) (p : Pending) : ((Reply.later s p).s).bill = s.bill := by simp

@[simp ↓] theorem State.setBox_bill (s : State) (i : MbxId) (x : Mailbox) :
    (State.setBox s i x).bill = s.bill := by simp [State.setBox]

@[simp ↓] theorem versions_bill (i : MbxId) (s : State) : ((versions i s).s).bill = s.bill := by simp [versions]

@[simp ↓] theorem answered_bill (i : MbxId) (r : Reply) : (answered i r).bill = r.s.bill := by
  unfold answered
  dsimp only
  split <;> simp

@[simp ↓] theorem ring_bill (i : MbxId) (body : Nat → Vector Word 16 → State → Reply) (s : State) (hbody : ∀ x0 x1 s, ((body x0 x1 s).s).bill = s.bill) :
    (ring i body s).bill = s.bill := by simp [ring, hbody]

@[simp ↓] theorem mbxCall_bill (i : MbxId) (cmd : Nat) (c : Call) (body : Vector Word 16 → State → Reply) (s : State) (hbody : ∀ x0 s, ((body x0 s).s).bill = s.bill) :
    (mbxCall i cmd c body s).bill = s.bill := by simp [mbxCall, hbody]

@[simp ↓] theorem mbxDone_bill (i : MbxId) (st : Status) (res : List Word) (s : State) :
    (mbxDone i st res s).bill = s.bill := by simp [mbxDone]

/-! ### Machine/Sampling.lean -/

@[simp ↓] theorem fastSample_bill (g : Fin 2) (bits miss : Vector (BitVec 16) 32) (s : State) :
    (fastSample g bits miss s).bill = s.bill := by simp [fastSample]

@[simp ↓] theorem tempTake_bill (s : State) : (tempTake s).bill = s.bill := by simp [tempTake]

@[simp ↓] theorem gainAll_bill (s : State) : (gainAll s).bill = s.bill := by simp [gainAll]

@[simp ↓] theorem resample_bill (g : Fin 2) (idx : Nat) (s : State) : (resample g idx s).bill = s.bill := by simp [resample]

@[simp ↓] theorem refFine_bill (g : Fin 2) (idx : Nat) (ref : ChanId) (s : State) :
    (refFine g idx ref s).bill = s.bill := by simp [refFine]

@[simp ↓] theorem resampFine_bill (g : Fin 2) (idx : Nat) (s : State) : (resampFine g idx s).bill = s.bill := by simp [resampFine]

@[simp ↓] theorem fineChannels_bill (g : Fin 2) (s : State) : (fineChannels g s).bill = s.bill := by simp [fineChannels]

@[simp ↓] theorem State.modAdc_bill (s : State) (a : Fin 4) (f : Adc → Adc) :
    (State.modAdc s a f).bill = s.bill := by simp [State.modAdc]

@[simp ↓] theorem rcFeed_bill (src : Nat) (v : Int) (w : Nat) (s : State) :
    (rcFeed src v w s).bill = s.bill := by simp [rcFeed]

@[simp ↓] theorem freshTemp_bill (src : Nat) (s : State) : (freshTemp src s).bill = s.bill := by simp [freshTemp]

@[simp ↓] theorem adcCoarse_bill (a : Fin 4) (bits : BitVec 16) (s : State) :
    (adcCoarse a bits s).bill = s.bill := by simp [adcCoarse]

@[simp ↓] theorem takeTemp_bill (src : Nat) (v : BitVec 24) (s : State) :
    (takeTemp src v s).bill = s.bill := by simp [takeTemp]

@[simp ↓] theorem adcFine_bill (a : Fin 4) (s : State) : (adcFine a s).bill = s.bill := by simp [adcFine]

@[simp ↓] theorem dwellStart_bill (a : Fin 4) (k : Nat) (s : State) :
    (dwellStart a k s).bill = s.bill := by simp [dwellStart]

@[simp ↓] theorem calibrate_bill (a : Fin 4) (s : State) : (calibrate a s).bill = s.bill := by simp [calibrate]

@[simp ↓] theorem storeGain_bill (a : Fin 4) (s : State) : (storeGain a s).bill = s.bill := by simp [storeGain]

@[simp ↓] theorem slotEnd_bill (a : Fin 4) (s : State) : (slotEnd a s).bill = s.bill := by simp [slotEnd]

@[simp ↓] theorem slotResync_bill (a : Fin 4) (changed : Nat → Bool) (s : State) :
    (slotResync a changed s).bill = s.bill := by simp [slotResync]

/-! ### Machine/Meters.lean -/

@[simp ↓] theorem rgwAll_bill (m : MeterId) (s : State) : (rgwAll m s).bill = s.bill := by simp [rgwAll]

@[simp ↓] theorem pulseQueue_bill (m : MeterId) (s : State) : (pulseQueue m s).bill = s.bill := by simp [pulseQueue]

@[simp ↓] theorem pulseRestart_bill (q : Fin 8) (s : State) : (pulseRestart q s).bill = s.bill := by simp [pulseRestart]

@[simp ↓] theorem secondSums_bill (m : MeterId) (q : Int) (s : State) : (secondSums m q s).bill = s.bill := by simp [secondSums]

@[simp ↓] theorem readAcc_bill (a : Vector Word 16) (s : State) : ((readAcc a s).s).bill = s.bill := by
  unfold readAcc
  repeat' first | (simp; done) | split | (dsimp only; split)

@[simp ↓] theorem freeWords_bill (place n : Nat) (s : State) : ((freeWords place n s).2).bill = s.bill := by simp [freeWords]

@[simp ↓] theorem readPq_bill (a : Vector Word 16) (s : State) : ((readPq a s).s).bill = s.bill := by
  unfold readPq
  repeat' first | (simp; done) | split | (dsimp only; split)

@[simp ↓] theorem readHarm_bill (a : Vector Word 16) (s : State) : ((readHarm a s).s).bill = s.bill := by
  unfold readHarm
  repeat' first | (simp; done) | split | (dsimp only; split)

@[simp ↓] theorem readBalance_bill (a : Vector Word 16) (s : State) : ((readBalance a s).s).bill = s.bill := by
  unfold readBalance
  repeat' first | (simp; done) | split | (dsimp only; split)

/-! ### Machine/DispReq.lean -/

@[simp ↓] theorem State.putRequest_bill (s : State) (r : Fin 16) (q : PendUpd) :
    (State.putRequest s r q).bill = s.bill := by
  unfold State.putRequest
  repeat' first | (simp; done) | split | (dsimp only; split)

@[simp ↓] theorem State.legalReq_bill (s : State) (n : Port) : (State.legalReq s n).bill = s.bill := by
  unfold State.legalReq
  repeat' first | (simp; done) | split | (dsimp only; split)

/-! ### Machine/TimeBase.lean -/

@[simp ↓] theorem rtcMove_bill (n : Int) (s : State) : (rtcMove n s).bill = s.bill := by simp [rtcMove]

@[simp ↓] theorem rtcRun_bill (n : Nat) (s : State) : (rtcRun n s).bill = s.bill := by simp [rtcRun]

@[simp ↓] theorem rtcTick_bill (s : State) : (rtcTick s).bill = s.bill := by simp [rtcTick]

@[simp ↓] theorem refPeriod_bill (s : State) : (refPeriod s).bill = s.bill := by simp [refPeriod]

@[simp ↓] theorem rtcLoad_bill (s : State) : (rtcLoad s).bill = s.bill := by simp [rtcLoad]

@[simp ↓] theorem rtcReading_bill (t : BitVec 12) (n : Nat) (s : State) :
    (rtcReading t n s).bill = s.bill := by simp [rtcReading]

@[simp ↓] theorem refdevMeasure_bill (dev : BitVec 16) (s : State) : (refdevMeasure dev s).bill = s.bill := by simp [refdevMeasure]

@[simp ↓] theorem vbakMeasure_bill (v : Byte) (s : State) : (vbakMeasure v s).bill = s.bill := by simp [vbakMeasure]

@[simp ↓] theorem evlDropSecond_bill (s : State) : (evlDropSecond s).bill = s.bill := by simp [evlDropSecond]

@[simp ↓] theorem evlClrcnt_bill (s : State) : (evlClrcnt s).bill = s.bill := by simp [evlClrcnt]

/-! ### Machine/Billing.lean -/

@[simp ↓] theorem State.journal_bill (s : State) (save : Bool) : (State.journal s save).bill = s.bill := by simp [State.journal]

@[simp ↓] theorem sessionStatus_bill (a : Vector Word 16) (s : State) :
    ((sessionStatus a s).s).bill = s.bill := by
  unfold sessionStatus
  repeat' first | (simp; done) | split | (dsimp only; split)

@[simp ↓] theorem keepBound_bill (s t : State) : (keepBound s t).bill = t.bill := by
  unfold keepBound
  split <;> simp

@[simp ↓] theorem asOf_bill (b : Bound) (f : State → State) (s : State) (hf : ∀ s, (f s).bill = s.bill) :
    (asOf b f s).bill = s.bill := by simp [asOf, hf]

/-! ### Machine/Records.lean -/

@[simp ↓] theorem creditCheck_bill (n : Port) (s : State) : (creditCheck n s).bill = s.bill := by
  unfold creditCheck
  repeat' first | (simp; done) | split | (dsimp only; split)

/-! ### Machine/Tokens.lean -/

@[simp ↓] theorem tokenResult_bill (a_ : Vector Word 16) (s : State) :
    ((tokenResult a_ s).s).bill = s.bill := by
  unfold tokenResult
  repeat' first | (simp; done) | split | (dsimp only; split)

@[simp ↓] theorem denyCode_bill (s : State) (code : Word) : ((denyCode s code).s).bill = s.bill := by simp [denyCode]

@[simp ↓] theorem tokenKeyLoad_bill (a : Vector Word 16) (s : State) :
    ((tokenKeyLoad a s).s).bill = s.bill := by
  unfold tokenKeyLoad
  repeat' first | (simp; done) | split | (dsimp only; split)

@[simp ↓] theorem tokenKeyInfo_bill (a : Vector Word 16) (s : State) :
    ((tokenKeyInfo a s).s).bill = s.bill := by
  unfold tokenKeyInfo
  repeat' first | (simp; done) | split | (dsimp only; split)

/-! ### Machine/LoadSw.lean -/

@[simp ↓] theorem genPeriod_bill (g : Fin 2) (start : BitVec 64) (s : State) :
    (genPeriod g start s).bill = s.bill := by simp [genPeriod]

@[simp ↓] theorem genSync_bill (s : State) : (genSync s).bill = s.bill := by simp [genSync]

@[simp ↓] theorem openWindow_bill (n : Fin 10) (s : State) : (openWindow n s).bill = s.bill := by simp [openWindow]

@[simp ↓] theorem pulseStep_bill (s : State) : (pulseStep s).bill = s.bill := by simp [pulseStep]

@[simp ↓] theorem loadOne_bill (s : State) (n : Fin 10) : (loadOne s n).bill = s.bill := by simp [loadOne]

@[simp ↓] theorem loadAll_bill (s : State) : (loadAll s).bill = s.bill := by simp [loadAll]

@[simp ↓] theorem loadAt_bill (c : Nat) (s : State) : (loadAt c s).bill = s.bill := by
  unfold loadAt
  repeat' first | (simp; done) | split | (dsimp only; split)

@[simp ↓] theorem shedCh_bill (n : Fin 10) (s : State) : (shedCh n s).bill = s.bill := by simp [shedCh]

@[simp ↓] theorem shedOne_bill (s : State) : (shedOne s).bill = s.bill := by
  unfold shedOne
  repeat' first | (simp; done) | split | (dsimp only; split)

@[simp ↓] theorem budgetShed_bill (avg : BitVec 16) (s : State) : (budgetShed avg s).bill = s.bill := by simp [budgetShed]

@[simp ↓] theorem shedReenable_bill (s : State) : (shedReenable s).bill = s.bill := by
  unfold shedReenable
  repeat' first | (simp; done) | split | (dsimp only; split)

@[simp ↓] theorem shedAgain_bill (n : Fin 10) (was : Bool) (s : State) :
    (shedAgain n was s).bill = s.bill := by simp [shedAgain]

@[simp ↓] theorem loadCmd_bill (n : Fin 10) (cmd : BitVec 2) (s : State) : (loadCmd n cmd s).bill = s.bill := by simp [loadCmd]

@[simp ↓] theorem loadClrLatch_bill (n : Fin 10) (cool : Bool) (s : State) :
    (loadClrLatch n cool s).bill = s.bill := by simp [loadClrLatch]

@[simp ↓] theorem loadThermal_bill (n : Fin 10) (guard : Bool) (temp : BitVec 16) (s : State) :
    (loadThermal n guard temp s).bill = s.bill := by simp [loadThermal]

@[simp ↓] theorem loadRestart_bill (n : Fin 10) (s : State) : (loadRestart n s).bill = s.bill := by simp [loadRestart]

@[simp ↓] theorem deferredTurnOn_bill (s : State) : (deferredTurnOn s).bill = s.bill := by
  unfold deferredTurnOn
  repeat' first | (simp; done) | split | (dsimp only; split)

@[simp ↓] theorem loadSense_bill (ch : BitVec 4) (s : State) : (loadSense ch s).bill = s.bill := by simp [loadSense]

@[simp ↓] theorem senseTest_bill (s : State) : (senseTest s).bill = s.bill := by simp [senseTest]

@[simp ↓] theorem loadWdStart_bill (s : State) : (loadWdStart s).bill = s.bill := by simp [loadWdStart]

@[simp ↓] theorem loadWdExpire_bill (cause : BitVec 2) (s : State) : (loadWdExpire cause s).bill = s.bill := by simp [loadWdExpire]

@[simp ↓] theorem loadService_bill (resp : BitVec 16) (s : State) : (loadService resp s).bill = s.bill := by simp [loadService]

@[simp ↓] theorem loadWdrel_bill (s : State) : (loadWdrel s).bill = s.bill := by simp [loadWdrel]

@[simp ↓] theorem loadClrcnt_bill (s : State) : (loadClrcnt s).bill = s.bill := by simp [loadClrcnt]

/-! ### Machine/Pilot.lean -/

@[simp ↓] theorem linkLost_bill (s : State) (n : Port) : (linkLost s n).bill = s.bill := by simp [linkLost]

@[simp ↓] theorem setPState_bill (s : State) (n : Port) (st : PState) : (setPState s n st).bill = s.bill := by simp [setPState]

@[simp ↓] theorem imposeOverride_bill (s : State) (n : Port) : (imposeOverride s n).bill = s.bill := by
  unfold imposeOverride
  repeat' first | (simp; done) | split | (dsimp only; split)

@[simp ↓] theorem showState_bill (s : State) (n : Port) : (showState s n).bill = s.bill := by simp [showState]

@[simp ↓] theorem setClass_bill (s : State) (n : Port) (k : PState) : (setClass s n k).bill = s.bill := by simp [setClass]

@[simp ↓] theorem pilotsStart_bill (s : State) : (pilotsStart s).bill = s.bill := by simp [pilotsStart]

@[simp ↓] theorem classify_bill (s : State) (n : Port) (vh : Option Int) : (classify s n vh).bill = s.bill := by
  unfold classify
  repeat' first | (simp; done) | split | (dsimp only; split)

@[simp ↓] theorem measurePeriod_bill (s : State) (n : Port) (samples : List (BitVec 12)) :
    (measurePeriod s n samples).bill = s.bill := by
  unfold measurePeriod
  repeat' first | (simp; done) | split | (dsimp only; split)

@[simp ↓] theorem nextPeriod_bill (s : State) (n : Port) : (nextPeriod s n).bill = s.bill := by simp [nextPeriod]

@[simp ↓] theorem pilotPeriodEnd_bill (n : Port) (samples : List (BitVec 12)) (s : State) :
    (pilotPeriodEnd n samples s).bill = s.bill := by simp [pilotPeriodEnd]

@[simp ↓] theorem pilotCtl_bill (n : Port) (w : Word) (s : State) : (pilotCtl n w s).bill = s.bill := by simp [pilotCtl]

@[simp ↓] theorem pevtClrcnt_bill (n : Port) (s : State) : (pevtClrcnt n s).bill = s.bill := by simp [pevtClrcnt]

/-! ### Machine/Link.lean -/

@[simp ↓] theorem mmeLimit_bill (s : State) (n : Port) : ((mmeLimit s n).2).bill = s.bill := by
  unfold mmeLimit
  repeat' first | (simp; done) | split | (dsimp only; split)

@[simp ↓] theorem hearMme_bill (n : Port) (f : State → State) (s : State) (hf : ∀ s, (f s).bill = s.bill) :
    (hearMme n f s).bill = s.bill := by simp [hearMme, hf]

@[simp ↓] theorem startAtten_bill (n : Port) (mac : BitVec 48) (run : BitVec 64) (announced : Nat) (s : State) :
    (startAtten n mac run announced s).bill = s.bill := by simp [startAtten]

@[simp ↓] theorem sounding_bill (n : Port) (mac : BitVec 48) (run : BitVec 64) (groups : List Nat) (s : State) :
    (sounding n mac run groups s).bill = s.bill := by simp [sounding]

@[simp ↓] theorem soundInd_bill (n : Port) (mac : BitVec 48) (run : BitVec 64) (groups : List Nat) (s : State) :
    (soundInd n mac run groups s).bill = s.bill := by simp [soundInd]

@[simp ↓] theorem windowClose_bill (mac : BitVec 48) (run : BitVec 64) (s : State) :
    (windowClose mac run s).bill = s.bill := by
  unfold windowClose
  repeat' first | (simp; done) | split | (dsimp only; split)

@[simp ↓] theorem slacMatch_bill (n : Port) (mac : BitVec 48) (run : BitVec 64) (s : State) :
    (slacMatch n mac run s).bill = s.bill := by simp [slacMatch]

@[simp ↓] theorem slacRearm_bill (n : Port) (s : State) : (slacRearm n s).bill = s.bill := by simp [slacRearm]

@[simp ↓] theorem announce_bill (src : Fin 4) (at_ : Nat) (s : State) : (announce src at_ s).bill = s.bill := by simp [announce]

@[simp ↓] theorem storeFrame_bill (n : Port) (frame : List Byte) (erased blanked : Nat) (xr6 : Bool) (s : State) :
    (storeFrame n frame erased blanked xr6 s).bill = s.bill := by simp [storeFrame]

@[simp ↓] theorem t1sUp_bill (n : Port) (s : State) : (t1sUp n s).bill = s.bill := by simp [t1sUp]

@[simp ↓] theorem takeFrame_bill (n : Port) (own xr6 : Bool) (frame : List Byte) (erased blanked : Nat) (s : State) :
    (takeFrame n own xr6 frame erased blanked s).bill = s.bill := by simp [takeFrame]

@[simp ↓] theorem frameReceive_bill (n : Port) (kind : FrameKind) (frame : List Byte) (samples : List Int) (s : State) :
    (frameReceive n kind frame samples s).bill = s.bill := by
  unfold frameReceive
  repeat' first | (simp; done) | split | (dsimp only; split)

@[simp ↓] theorem txPush_bill (n : Port) (w : Word) (s : State) : (txPush n w s).bill = s.bill := by simp [txPush]

@[simp ↓] theorem frameSent_bill (n : Port) (air : Nat) (s : State) : (frameSent n air s).bill = s.bill := by
  unfold frameSent
  repeat' first | (simp; done) | split | (dsimp only; split)

@[simp ↓] theorem levtClrcnt_bill (n : Port) (s : State) : (levtClrcnt n s).bill = s.bill := by simp [levtClrcnt]

@[simp ↓] theorem tlsKeyWord_bill (n : Port) (w : Word) (s : State) : (tlsKeyWord n w s).bill = s.bill := by simp [tlsKeyWord]

@[simp ↓] theorem tlsInstall_bill (rx : Bool) (n : Port) (s : State) : (tlsInstall rx n s).bill = s.bill := by simp [tlsInstall]

@[simp ↓] theorem tlsClear_bill (n : Port) (s : State) : (tlsClear n s).bill = s.bill := by simp [tlsClear]

@[simp ↓] theorem tlsQueue_bill (n : Port) (rx : Bool) (ctype : Byte) (len : Nat) (s : State) :
    (tlsQueue n rx ctype len s).bill = s.bill := by simp [tlsQueue]

/-! ### Machine/Caldera.lean -/

@[simp ↓] theorem setLims_bill (n : Port) (vEv iEv : Nat) (s : State) :
    (setLims n vEv iEv s).bill = s.bill := by simp [setLims]

@[simp ↓] theorem formLims_bill (s : State) :
    (formLims s).bill = s.bill := by
  refine forAll_bill _ _ _ fun s n => ?_
  split <;> simp

@[simp ↓] theorem leaveUnproven_bill (s : State) :
    (leaveUnproven s).bill = s.bill := by simp [leaveUnproven]

@[simp ↓] theorem State.slogPut_bill (s : State) (typ source : Nat) (d0 d1 : Word) (prot : Bool) :
    (State.slogPut s typ source d0 d1 prot).bill = s.bill := by simp [State.slogPut]

@[simp ↓] theorem State.sfEvt_bill (s : State) (bit : Nat) : (State.sfEvt s bit).bill = s.bill := by simp [State.sfEvt]

@[simp ↓] theorem State.poolEvt_bill (s : State) (bit : Nat) : (State.poolEvt s bit).bill = s.bill := by simp [State.poolEvt]

@[simp ↓] theorem State.siEvt_bill (s : State) (bit : Nat) : (State.siEvt s bit).bill = s.bill := by simp [State.siEvt]

@[simp ↓] theorem releaseModule_bill (m : Fin 48) (s : State) : (releaseModule m s).bill = s.bill := by simp [releaseModule]

@[simp ↓] theorem releaseOutlet_bill (n : Port) (s : State) : (releaseOutlet n s).bill = s.bill := by simp [releaseOutlet]

@[simp ↓] theorem endClose_bill (c : Fin 12) (st : Status) (s : State) : (endClose c st s).bill = s.bill := by simp [endClose]

@[simp ↓] theorem countEm_bill (c : Fin 12) (amps : Nat) (s : State) : (countEm c amps s).bill = s.bill := by simp [countEm]

@[simp ↓] theorem coilOff_bill (c : Fin 12) (emergency : Bool) (s : State) :
    (coilOff c emergency s).bill = s.bill := by simp [coilOff]

@[simp ↓] theorem announceOpen_bill (c : Fin 12) (s : State) : (announceOpen c s).bill = s.bill := by simp [announceOpen]

@[simp ↓] theorem startRamp_bill (n : Port) (c : Fin 12) (s : State) : (startRamp n c s).bill = s.bill := by simp [startRamp]

@[simp ↓] theorem actStop_bill (n : Port) (c : Fin 12) (cat : Nat) (s : State) :
    (actStop n c cat s).bill = s.bill := by
  unfold actStop
  repeat' first | (simp; done) | split | (dsimp only; split)

@[simp ↓] theorem endDemands_bill (n : Port) (s : State) : (endDemands n s).bill = s.bill := by simp [endDemands]

@[simp ↓] theorem seqCheck_bill (s : State) : (seqCheck s).bill = s.bill := by simp [seqCheck]

@[simp ↓] theorem dropTies_bill (n : Port) (s : State) : (dropTies n s).bill = s.bill := by
  unfold dropTies
  split
  · rfl
  · rw [seqCheck_bill]
    refine forAll_bill _ _ _ fun s c => ?_
    split
    · split <;> simp
    · rfl

@[simp ↓] theorem pilotHold_bill (n : Port) (on : Bool) (s : State) : (pilotHold n on s).bill = s.bill := by simp [pilotHold]

/-! ### Machine/CanBus.lean -/

@[simp ↓] theorem canReceive_bill (b : Fin 3) (f : CanFrame) (s : State) :
    (canReceive b f s).bill = s.bill := by simp [canReceive]

@[simp ↓] theorem canTransmit_bill (b : Fin 3) (sent : Bool) (s : State) :
    (canTransmit b sent s).bill = s.bill := by
  unfold canTransmit
  repeat' first | (simp; done) | split | (dsimp only; split)

@[simp ↓] theorem canTimeout_bill (b : Fin 3) (s : State) : (canTimeout b s).bill = s.bill := by simp [canTimeout]

@[simp ↓] theorem sfLoad_bill (b : Fin 3) (e : Fin 16) (s : State) : (sfLoad b e s).bill = s.bill := by simp [sfLoad]

@[simp ↓] theorem sfClear_bill (b : Fin 3) (e : Fin 16) (s : State) : (sfClear b e s).bill = s.bill := by simp [sfClear]

@[simp ↓] theorem sfEntry_bill (b : Fin 3) (e : Fin 16) (s : State) : (sfEntry b e s).bill = s.bill := by simp [sfEntry]

@[simp ↓] theorem canRecov_bill (b : Fin 3) (s : State) : (canRecov b s).bill = s.bill := by simp [canRecov]

@[simp ↓] theorem canState_bill (b : Fin 3) (st : CanState) (s : State) : (canState b st s).bill = s.bill := by simp [canState]

@[simp ↓] theorem canRecovered_bill (b : Fin 3) (s : State) : (canRecovered b s).bill = s.bill := by simp [canRecovered]

@[simp ↓] theorem canErrors_bill (b : Fin 3) (tec rcc : Byte) (s : State) :
    (canErrors b tec rcc s).bill = s.bill := by simp [canErrors]

@[simp ↓] theorem canBusOff_bill (b : Fin 3) (s : State) : (canBusOff b s).bill = s.bill := by simp [canBusOff]

@[simp ↓] theorem canClrcnt_bill (b : Fin 3) (s : State) : (canClrcnt b s).bill = s.bill := by simp [canClrcnt]

@[simp ↓] theorem gpioSet_bill (f : Gpio → Gpio) (s : State) : (gpioSet f s).bill = s.bill := by simp [gpioSet]

/-! ### Machine/Irq.lean -/

@[simp ↓] theorem plicClaim_bill (ctx : Fin 8) (s : State) : (plicClaim ctx s).bill = s.bill := by simp [plicClaim]

@[simp ↓] theorem plicComplete_bill (ctx : Fin 8) (src : Word) (s : State) :
    (plicComplete ctx src s).bill = s.bill := by simp [plicComplete]

/-! ### Machine/Mem.lean -/

@[simp ↓] theorem State.ramWrite_bill (s : State) (a : Nat) (bs : List Byte) :
    (State.ramWrite s a bs).bill = s.bill := by simp [State.ramWrite]

@[simp ↓] theorem State.norWrite_bill (s : State) (o : Nat) (bs : List Byte) :
    (State.norWrite s o bs).bill = s.bill := by simp [State.norWrite]

@[simp ↓] theorem State.norErase_bill (s : State) (o n : Nat) : (State.norErase s o n).bill = s.bill := by simp [State.norErase]

@[simp ↓] theorem State.eccErrs_bill (s : State) (k a req : Nat) :
    (State.eccErrs s k a req).bill = s.bill := by simp [State.eccErrs]

@[simp ↓] theorem State.eccErr_bill (s : State) (a : Nat) (req : Nat) :
    (State.eccErr s a req).bill = s.bill := by simp [State.eccErr]

@[simp ↓] theorem State.eccRun_bill (s : State) (a n req : Nat) :
    (State.eccRun s a n req).bill = s.bill := by simp [State.eccRun]

@[simp ↓] theorem parRecord_bill (req : Nat) (a : Word) (onResponse : Bool) (s : State) :
    (parRecord req a onResponse s).bill = s.bill := by simp [parRecord]

@[simp ↓] theorem State.mark_bill (s : State) (a : Nat) : (State.mark s a).bill = s.bill := by simp [State.mark]

@[simp ↓] theorem State.srcBytes_bill (s : State) (req a n : Nat) : (State.srcBytes s req a n).2.bill = s.bill := by
  unfold State.srcBytes
  repeat' first | (simp; done) | split | (dsimp only; split)

theorem ramStore_bill (s t : State) (a : Nat) (bs : List Byte) (h : ramStore s a bs = some t) : t.bill = s.bill := by
  unfold ramStore at h
  dsimp only at h
  split at h
  · cases h
  · cases h; simp

@[simp] theorem ramStore_getD_bill (s : State) (a : Nat) (bs : List Byte) : ((ramStore s a bs).getD s).bill = s.bill := by
  cases h : ramStore s a bs with
  | none => rfl
  | some t => exact ramStore_bill s t a bs h

@[simp ↓] theorem State.appWrite_bill (s : State) (req a : Nat) (bs : List Byte) :
    (State.appWrite s req a bs).bill = s.bill := by
  unfold State.appWrite
  dsimp only
  split
  · split
    · rename_i h; rw [ramStore_bill _ _ _ _ h, State.tagged_bill]
    · simp
  · simp

/-! ### Machine/Tls.lean -/

@[simp ↓] theorem tlsEnd_bill (n : Port) (rx : Bool) (res olen : Nat) (itype : Option Byte) (s : State) :
    (tlsEnd n rx res olen itype s).bill = s.bill := by simp [tlsEnd]

@[simp ↓] theorem tlsOk_bill (n : Port) (rx : Bool) (dst : Word) (out : List Byte) (itype : Option Byte) (s : State) :
    (tlsOk n rx dst out itype s).bill = s.bill := by simp [tlsOk]

@[simp ↓] theorem tlsTxDone_bill (n : Port) (o : TlsOp) (suite : Nat) (k : TlsKeys) (seq : Nat) (s : State) :
    (tlsTxDone n o suite k seq s).bill = s.bill := by simp [tlsTxDone]

@[simp ↓] theorem tlsRxDone_bill (n : Port) (o : TlsOp) (suite : Nat) (k : TlsKeys) (seq : Nat) (s : State) :
    (tlsRxDone n o suite k seq s).bill = s.bill := by
  unfold tlsRxDone
  repeat' first | (simp; done) | split | (dsimp only; split)

@[simp ↓] theorem tlsServe_bill (n : Port) (rx : Bool) (s : State) : (tlsServe n rx s).bill = s.bill := by
  unfold tlsServe
  repeat' first | (simp; done) | split | (dsimp only; split)

@[simp ↓] theorem tlsComplete_bill (n : Port) (rx : Bool) (s : State) : (tlsComplete n rx s).bill = s.bill := by
  unfold tlsComplete
  repeat' first | (simp; done) | split | (dsimp only; split)

/-! ### Machine/Checks.lean -/

@[simp ↓] theorem State.withParams_bill (s : State) (b : List (Nat × Word)) :
    (State.withParams s b).bill = s.bill := by simp [State.withParams]

/-! ### Machine/Fabric.lean -/

@[simp ↓] theorem restartParts_bill (ps : List (Fin 8)) (s : State) :
    (restartParts ps s).bill = s.bill := by simp [restartParts]

@[simp ↓] theorem recheck_bill (s : State) : (recheck s).bill = s.bill := by simp [recheck]

/-! ### Machine/DmaCtl.lean -/

@[simp ↓] theorem State.modDma_bill (s : State) (c : Fin 32) (f : DmaCh → DmaCh) :
    (State.modDma s c f).bill = s.bill := by simp [State.modDma]

@[simp ↓] theorem settleReq_bill (c : Fin 32) (s : State) : (settleReq c s).bill = s.bill := by simp [settleReq]

@[simp ↓] theorem requestAssert_bill (r : Fin 32) (s : State) : (requestAssert r s).bill = s.bill := by simp [requestAssert]

@[simp ↓] theorem requestWithdraw_bill (r : Fin 32) (s : State) : (requestWithdraw r s).bill = s.bill := by simp [requestWithdraw]

@[simp ↓] theorem delivered_bill (r : Nat) (s : State) : (delivered r s).bill = s.bill := by
  unfold delivered
  repeat' first | (simp; done) | split | (dsimp only; split)

@[simp ↓] theorem writeStatus_bill (c : Fin 32) (addr : Nat) (irq : Bool) (res : DmaResult) (bytes : Nat) (s : State) :
    (writeStatus c addr irq res bytes s).bill = s.bill := by simp [writeStatus]

@[simp ↓] theorem dmaHalt_bill (c : Fin 32) (s : State) : (dmaHalt c s).bill = s.bill := by simp [dmaHalt]

@[simp ↓] theorem dropRest_bill (r : Nat) (s : State) :
    (dropRest r s).bill = s.bill := by
  unfold dropRest
  repeat' first | (simp; done) | split | (dsimp only; split)

@[simp ↓] theorem dmaStop_bill (c : Fin 32) (s : State) : (dmaStop c s).bill = s.bill := by simp [dmaStop]

@[simp ↓] theorem fetchDesc_bill (a : Nat) (hit : Option Bool) (s : State) :
    ((fetchDesc a hit s).2.2).bill = s.bill := by
  unfold fetchDesc
  dsimp only
  split <;> simp

@[simp ↓] theorem loadDesc_bill (c : Fin 32) (hit : Option Bool) (s : State) : (loadDesc c hit s).bill = s.bill := by
  unfold loadDesc
  repeat' first | (simp; done) | split | (dsimp only; split)

@[simp ↓] theorem dmaFinish_bill (c : Fin 32) (hit : Option Bool) (s : State) :
    (dmaFinish c hit s).bill = s.bill := by
  unfold dmaFinish
  repeat' first | (simp; done) | split | (dsimp only; split)

@[simp ↓] theorem selectRequest_bill (c : Fin 32) (sel : BitVec 5) (stays : Bool) (s : State) :
    (selectRequest c sel stays s).bill = s.bill := by simp [selectRequest]

@[simp ↓] theorem setPrio_bill (c : Fin 32) (p : BitVec 2) (s : State) : (setPrio c p s).bill = s.bill := by simp [setPrio]

@[simp ↓] theorem dmaEnable_bill (c : Fin 32) (hit : Option Bool) (s : State) :
    (dmaEnable c hit s).bill = s.bill := by simp [dmaEnable]

@[simp ↓] theorem dmaDisable_bill (c : Fin 32) (s : State) : (dmaDisable c s).bill = s.bill := by
  unfold dmaDisable
  repeat' first | (simp; done) | split | (dsimp only; split)

@[simp ↓] theorem dmaAllOff_bill (s : State) : (dmaAllOff s).bill = s.bill := by simp [dmaAllOff]

@[simp ↓] theorem dmaAbort_bill (c : Fin 32) (s : State) : (dmaAbort c s).bill = s.bill := by
  unfold dmaAbort
  repeat' first | (simp; done) | split | (dsimp only; split)

@[simp ↓] theorem dmaKick_bill (c : Fin 32) (hit : Option Bool) (s : State) :
    (dmaKick c hit s).bill = s.bill := by simp [dmaKick]

@[simp ↓] theorem dmaClear_bill (s : State) : (dmaClear s).bill = s.bill := by simp [dmaClear]

/-! ### Machine/Modes.lean -/

@[simp ↓] theorem abandonTie_bill (c : Fin 12) (s : State) : (abandonTie c s).bill = s.bill := by
  unfold abandonTie
  repeat' first | (simp; done) | split | (dsimp only; split)

@[simp ↓] theorem abandonCloses_bill (s : State) : (abandonCloses s).bill = s.bill := by simp [abandonCloses]

@[simp ↓] theorem endOos_bill (st : Status) (s : State) : (endOos st s).bill = s.bill := by
  unfold endOos
  repeat' first | (simp; done) | split | (dsimp only; split)

@[simp ↓] theorem rollbackDom_bill (d : Fin 6) (s : State) : (rollbackDom d s).bill = s.bill := by simp [rollbackDom]

@[simp ↓] theorem rollbackOpen_bill (s : State) : (rollbackOpen s).bill = s.bill := by simp [rollbackOpen]

@[simp ↓] theorem setMode_bill (m : Mode) (s : State) : (setMode m s).bill = s.bill := by simp [setMode]

@[simp ↓] theorem degradedStops_bill (s : State) : (degradedStops s).bill = s.bill := by simp [degradedStops]

@[simp ↓] theorem portsSilent_bill (s : State) : (portsSilent s).bill = s.bill := by simp [portsSilent]

@[simp ↓] theorem trialFails_bill (s : State) : (trialFails s).bill = s.bill := by simp [trialFails]

@[simp ↓] theorem safeState_bill (s : State) : (safeState s).bill = s.bill := by simp [safeState]

@[simp ↓] theorem oosStops_bill (set : BitVec 8) (s : State) : (oosStops set s).bill = s.bill := by simp [oosStops]

@[simp ↓] theorem oosDone_bill (s : State) : (oosDone s).bill = s.bill := by
  unfold oosDone
  repeat' first | (simp; done) | split | (dsimp only; split)

/-! ### Machine/Sec.lean -/

@[simp ↓] theorem secQueue_bill (op : BitVec 6) (port : BitVec 4) (key : BitVec 6) (len : BitVec 16) (s : State) :
    (secQueue op port key len s).bill = s.bill := by simp [secQueue]

@[simp ↓] theorem gcmAux_bill (a : Word) (s : State) : ((gcmAux a s).2.2).bill = s.bill := by simp [gcmAux]

@[simp ↓] theorem putKey_bill (k : BitVec 6) (x : HostKey) (s : State) : (putKey k x s).bill = s.bill := by simp [putKey]

@[simp] theorem secFail_bill (r : SecRes) (s : State) : (SecOut.fail r s).s.bill = s.bill := rfl
@[simp] theorem secGenkey_bill (o : SecOp) (s : State) : (secGenkey o s).s.bill = s.bill := by
  unfold secGenkey
  (repeat' (first | with_reducible rfl | (simp; done) | split | (dsimp only; split) | refine (forAll_bill _ _ _ (fun _ _ => ?_)).trans ?_ | (dsimp only; refine (forAll_bill _ _ _ (fun _ _ => ?_)).trans ?_)))
@[simp] theorem secAes_bill (o : SecOp) (src : List Byte) (k : HostKey) (s : State) : (secAes o src k s).s.bill = s.bill := by
  unfold secAes
  (repeat' (first | with_reducible rfl | (simp; done) | split | (dsimp only; split) | refine (forAll_bill _ _ _ (fun _ _ => ?_)).trans ?_ | (dsimp only; refine (forAll_bill _ _ _ (fun _ _ => ?_)).trans ?_)))
@[simp] theorem secEc_bill (o : SecOp) (src : List Byte) (k : HostKey) (s : State) : (secEc o src k s).s.bill = s.bill := by
  unfold secEc
  (repeat' (first | with_reducible rfl | (simp; done) | split | (dsimp only; split) | refine (forAll_bill _ _ _ (fun _ _ => ?_)).trans ?_ | (dsimp only; refine (forAll_bill _ _ _ (fun _ _ => ?_)).trans ?_)))
@[simp] theorem secVerify_bill (o : SecOp) (src : List Byte) (s : State) : (secVerify o src s).s.bill = s.bill := by
  unfold secVerify
  (repeat' (first | with_reducible rfl | (simp; done) | split | (dsimp only; split) | refine (forAll_bill _ _ _ (fun _ _ => ?_)).trans ?_ | (dsimp only; refine (forAll_bill _ _ _ (fun _ _ => ?_)).trans ?_)))
@[simp] theorem secImport_bill (o : SecOp) (src : List Byte) (s : State) : (secImport o src s).s.bill = s.bill := by
  unfold secImport
  (repeat' (first | with_reducible rfl | (simp; done) | split | (dsimp only; split) | refine (forAll_bill _ _ _ (fun _ _ => ?_)).trans ?_ | (dsimp only; refine (forAll_bill _ _ _ (fun _ _ => ?_)).trans ?_)))
@[simp] theorem secAttest_bill (src : List Byte) (s : State) : (secAttest src s).s.bill = s.bill := by
  unfold secAttest
  (repeat' (first | with_reducible rfl | (simp; done) | split | (dsimp only; split) | refine (forAll_bill _ _ _ (fun _ _ => ?_)).trans ?_ | (dsimp only; refine (forAll_bill _ _ _ (fun _ _ => ?_)).trans ?_)))
@[simp] theorem secRun_bill (o : SecOp) (s : State) : (secRun o s).s.bill = s.bill := by
  unfold secRun
  (repeat' (first | with_reducible rfl | (simp; done) | split | (dsimp only; split) | refine (forAll_bill _ _ _ (fun _ _ => ?_)).trans ?_ | (dsimp only; refine (forAll_bill _ _ _ (fun _ _ => ?_)).trans ?_)))

@[simp ↓] theorem secComplete_bill (s : State) : (secComplete s).bill = s.bill := by
  unfold secComplete
  repeat' first | (simp; done) | split | (dsimp only; split)

/-! ### Machine/Upd.lean -/

@[simp ↓] theorem beginNew_bill (man : List Byte) (s : State) : (beginNew man s).bill = s.bill := by simp [beginNew]

@[simp ↓] theorem updBegin_bill (a : Vector Word 16) (s : State) : ((updBegin a s).s).bill = s.bill := by simp [updBegin]

@[simp ↓] theorem eraseStaging_bill (s : State) : (eraseStaging s).bill = s.bill := by simp [eraseStaging]

@[simp ↓] theorem beginDone_bill (ok : Bool) (s : State) : (beginDone ok s).bill = s.bill := by simp [beginDone]

@[simp ↓] theorem repairSector_bill (base size per : Nat) (sector : Nat) (s : State) :
    (repairSector base size per sector s).bill = s.bill := by simp [repairSector]

@[simp ↓] theorem repair_bill (k : Nat) (s : State) : (repair k s).bill = s.bill := by simp [repair]

@[simp ↓] theorem updSpore_bill (a : Vector Word 16) (s : State) : ((updSpore a s).s).bill = s.bill := by simp [updSpore]

@[simp ↓] theorem updMissing_bill (a : Vector Word 16) (s : State) : ((updMissing a s).s).bill = s.bill := by simp [updMissing]

@[simp ↓] theorem updVerify_bill (a_ : Vector Word 16) (s : State) : ((updVerify a_ s).s).bill = s.bill := by simp [updVerify]

@[simp ↓] theorem verifyDone_bill (ok : Bool) (s : State) : (verifyDone ok s).bill = s.bill := by simp [verifyDone]

@[simp ↓] theorem updActivate_bill (a : Vector Word 16) (s : State) : ((updActivate a s).s).bill = s.bill := by simp [updActivate]

@[simp ↓] theorem updCancel_bill (a : Vector Word 16) (s : State) : ((updCancel a s).s).bill = s.bill := by simp [updCancel]

@[simp ↓] theorem updConfirm_bill (a_ : Vector Word 16) (s : State) : ((updConfirm a_ s).s).bill = s.bill := by simp [updConfirm]

@[simp ↓] theorem reject_bill (reason hostcode : Nat) (s : State) :
    (reject reason hostcode s).bill = s.bill := by simp [reject]

@[simp ↓] theorem updReport_bill (a : Vector Word 16) (s : State) : ((updReport a s).s).bill = s.bill := by simp [updReport]

@[simp ↓] theorem updStatus_bill (a_ : Vector Word 16) (s : State) : ((updStatus a_ s).s).bill = s.bill := by simp [updStatus]

@[simp ↓] theorem windowWarning_bill (s : State) : (windowWarning s).bill = s.bill := by simp [windowWarning]

@[simp ↓] theorem windowExpiry_bill (s : State) : (windowExpiry s).bill = s.bill := by simp [windowExpiry]

@[simp ↓] theorem setOpen_bill (a_ : Vector Word 16) (s : State) : ((setOpen a_ s).s).bill = s.bill := by simp [setOpen]

@[simp ↓] theorem setOpenDone_bill (ok : Bool) (s : State) : (setOpenDone ok s).bill = s.bill := by simp [setOpenDone]

@[simp ↓] theorem State.norProgram_bill (s : State) (o : Nat) (l : List Byte) :
    (State.norProgram s o l).bill = s.bill := by simp [State.norProgram]

@[simp ↓] theorem setWrite_bill (a : Vector Word 16) (s : State) : ((setWrite a s).s).bill = s.bill := by
  unfold setWrite
  repeat' first | (simp; done) | split | (dsimp only; split)

@[simp ↓] theorem setCommit_bill (a : Vector Word 16) (s : State) : ((setCommit a s).s).bill = s.bill := by
  unfold setCommit
  repeat' first | (simp; done) | split | (dsimp only; split)

@[simp ↓] theorem keyRotate_bill (a : Vector Word 16) (s : State) : ((keyRotate a s).s).bill = s.bill := by simp [keyRotate]

@[simp ↓] theorem updClear_bill (s : State) : (updClear s).bill = s.bill := by simp [updClear]

/-! ### Machine/Display.lean -/

@[simp ↓] theorem railStep_bill (s : State) : (railStep s).bill = s.bill := by
  unfold railStep
  repeat' first | (simp; done) | split | (dsimp only; split)

@[simp ↓] theorem lowerRails_bill (s : State) : (lowerRails s).bill = s.bill := by
  unfold lowerRails
  repeat' first | (simp; done) | split | (dsimp only; split)

@[simp ↓] theorem fetchTarget_bill (r : Fin 16) (u : RunUpd) (s : State) : (fetchTarget r u s).2.bill = s.bill := by
  unfold fetchTarget
  repeat' first | (simp; done) | split | (dsimp only; split)

@[simp ↓] theorem beginUpdate_bill (r : Fin 16) (u : RunUpd) (s : State) :
    (beginUpdate r u s).bill = s.bill := by simp [beginUpdate]

@[simp ↓] theorem noteTemp_bill (s : State) : (noteTemp s).bill = s.bill := by simp [noteTemp]

@[simp ↓] theorem raiseRails_bill (s : State) : (raiseRails s).bill = s.bill := by simp [raiseRails]

@[simp ↓] theorem startPending_bill (r : Fin 16) (q : PendUpd) (band : Nat) (s : State) :
    (startPending r q band s).bill = s.bill := by simp [startPending]

@[simp ↓] theorem updateStart_bill (slot : Fin 4) (s : State) : (updateStart slot s).bill = s.bill := by
  unfold updateStart
  repeat' first | (simp; done) | split | (dsimp only; split)

@[simp ↓] theorem setPermit_bill (on : Bool) (s : State) : (setPermit on s).bill = s.bill := by
  unfold setPermit
  repeat' first | (simp; done) | split | (dsimp only; split)

@[simp ↓] theorem permitCheck_bill (s : State) : (permitCheck s).bill = s.bill := by simp [permitCheck]

@[simp ↓] theorem finishUpdate_bill (r : Fin 16) (u : RunUpd) (s : State) :
    (finishUpdate r u s).bill = s.bill := by simp [finishUpdate]

@[simp ↓] theorem followLater_bill (r : Fin 16) (m : BitVec 3) (u : RunUpd) (s : State) :
    (followLater r m u s).bill = s.bill := by simp [followLater]

@[simp ↓] theorem updateEnd_bill (r : Fin 16) (s : State) : (updateEnd r s).bill = s.bill := by
  unfold updateEnd
  repeat' first | (simp; done) | split | (dsimp only; split)

@[simp ↓] theorem updateRequest_bill (r : Fin 16) (mode : BitVec 3) (s : State) :
    (updateRequest r mode s).bill = s.bill := by simp [updateRequest]

@[simp ↓] theorem queueRedraw_bill (s : State) (r : Fin 16) : (queueRedraw s r).bill = s.bill := by simp [queueRedraw]

@[simp ↓] theorem queueRedraws_bill (s : State) : (queueRedraws s).bill = s.bill := by simp [queueRedraws]

@[simp ↓] theorem railRetry_bill (s : State) : (railRetry s).bill = s.bill := by simp [railRetry]

@[simp ↓] theorem dispClrcnt_bill (s : State) : (dispClrcnt s).bill = s.bill := by simp [dispClrcnt]

/-! ### Machine/SafeFunctions.lean -/

@[simp ↓] theorem pairTick_bill (j : Fin 8) (s : State) : (pairTick j s).bill = s.bill := by simp [pairTick]

@[simp ↓] theorem connTick_bill (k : Fin 16) (s : State) : (connTick k s).bill = s.bill := by simp [connTick]

@[simp ↓] theorem tickInputs_bill (lv : BitVec 16) (lorst : Bool) (s : State) :
    (tickInputs lv lorst s).bill = s.bill := by simp [tickInputs]

@[simp ↓] theorem tickMeans_bill (s : State) : (tickMeans s).bill = s.bill := by simp [tickMeans]

@[simp ↓] theorem sf01_bill (n : Port) (s : State) : (sf01 n s).bill = s.bill := by simp [sf01]

@[simp ↓] theorem sf07_bill (n : Port) (s : State) : (sf07 n s).bill = s.bill := by
  unfold sf07
  repeat' first | (simp; done) | split | (dsimp only; split)

@[simp ↓] theorem outCounts_bill (n : Port) (s : State) : (outCounts n s).bill = s.bill := by simp [outCounts]

@[simp ↓] theorem pilotFault_bill (n : Port) (s : State) : (pilotFault n s).bill = s.bill := by simp [pilotFault]

@[simp ↓] theorem sf09_bill (n : Port) (s : State) : (sf09 n s).bill = s.bill := by
  unfold sf09
  repeat' first | (simp; done) | split | (dsimp only; split)

@[simp ↓] theorem outTick_bill (n : Port) (s : State) : (outTick n s).bill = s.bill := by simp [outTick]

@[simp ↓] theorem setImd_bill (g : Fin 6) (st : ImdState) (s : State) : (setImd g st s).bill = s.bill := by simp [setImd]

@[simp ↓] theorem imdRestart_bill (g : Fin 6) (s : State) : (imdRestart g s).bill = s.bill := by simp [imdRestart]

@[simp ↓] theorem preCheck_bill (g : Fin 6) (s : State) : (preCheck g s).bill = s.bill := by simp [preCheck]

@[simp ↓] theorem imdSync_bill (s : State) : (imdSync s).bill = s.bill := by simp [imdSync]

@[simp ↓] theorem askPreCheck_bill (g : Fin 6) (s : State) : (askPreCheck g s).bill = s.bill := by simp [askPreCheck]

@[simp ↓] theorem imdTick_bill (g : Fin 6) (s : State) : (imdTick g s).bill = s.bill := by simp [imdTick]

@[simp ↓] theorem rampTick_bill (n : Port) (s : State) : (rampTick n s).bill = s.bill := by
  unfold rampTick
  repeat' first | (simp; done) | split | (dsimp only; split)

@[simp ↓] theorem weldTick_bill (c : Fin 12) (s : State) : (weldTick c s).bill = s.bill := by
  unfold weldTick
  repeat' first | (simp; done) | split | (dsimp only; split)

@[simp ↓] theorem prepareTie_bill (c : Fin 12) (s : State) : (prepareTie c s).bill = s.bill := by
  unfold prepareTie
  repeat' first | (simp; done) | split | (dsimp only; split)

@[simp ↓] theorem fallBack_bill (c : Fin 12) (s : State) : (fallBack c s).bill = s.bill := by simp [fallBack]

@[simp ↓] theorem closeTick_bill (c : Fin 12) (s : State) : (closeTick c s).bill = s.bill := by
  unfold closeTick
  repeat' first | (simp; done) | split | (dsimp only; split)

@[simp ↓] theorem tieOpenReq_bill (c : Fin 12) (commit : Bool) (s : State) :
    (tieOpenReq c commit s).bill = s.bill := by simp [tieOpenReq]

@[simp ↓] theorem autoOpen_bill (s : State) : (autoOpen s).bill = s.bill := by simp [autoOpen]

@[simp ↓] theorem openTick_bill (c : Fin 12) (s : State) : (openTick c s).bill = s.bill := by
  unfold openTick
  repeat' first | (simp; done) | split | (dsimp only; split)

@[simp ↓] theorem enqueue_bill (c : Fin 12) (s : State) : (enqueue c s).bill = s.bill := by simp [enqueue]

@[simp ↓] theorem numberReq_bill (c : Fin 12) (s : State) : (numberReq c s).bill = s.bill := by simp [numberReq]

@[simp] theorem serveQueue_bill (f : Nat) (s : State) : (serveQueue f s).bill = s.bill := by
  induction f generalizing s with
  | zero => rfl
  | succ f ih =>
    unfold serveQueue
    (repeat' (first | with_reducible rfl | (simp [ih]; done) | split | (dsimp only; split) | refine (forAll_bill _ _ _ (fun _ _ => ?_)).trans ?_ | (dsimp only; refine (forAll_bill _ _ _ (fun _ _ => ?_)).trans ?_)))

/-! ### Machine/SafeCoils.lean -/

@[simp ↓] theorem announceExpiry_bill (c : Fin 12) (s : State) : (announceExpiry c s).bill = s.bill := by
  unfold announceExpiry
  repeat' first | (simp; done) | split | (dsimp only; split)

@[simp ↓] theorem closeMet_bill (c : Fin 12) (s : State) : (closeMet c s).bill = s.bill := by
  unfold closeMet
  repeat' first | (simp; done) | split | (dsimp only; split)

@[simp ↓] theorem pullInEnd_bill (c : Fin 12) (s : State) : (pullInEnd c s).bill = s.bill := by simp [pullInEnd]

@[simp ↓] theorem lockoutRetest_bill (c : Fin 12) (high pass : Bool) (s : State) :
    (lockoutRetest c high pass s).bill = s.bill := by simp [lockoutRetest]

@[simp ↓] theorem pulseInput_bill (i : Fin 16) (low : Bool) (s : State) :
    (pulseInput i low s).bill = s.bill := by simp [pulseInput]

@[simp ↓] theorem testPulse_bill (b : Bool) (low : BitVec 16) (s : State) :
    (testPulse b low s).bill = s.bill := by simp [testPulse]

@[simp ↓] theorem rearmEdge_bill (s : State) : (rearmEdge s).bill = s.bill := by
  unfold rearmEdge
  repeat' first | (simp; done) | split | (dsimp only; split)

@[simp ↓] theorem splitCheck_bill (g : Fin 6) (s : State) : (splitCheck g s).bill = s.bill := by simp [splitCheck]

@[simp ↓] theorem tieFail_bill (c : Fin 12) (s : State) : (tieFail c s).bill = s.bill := by simp [tieFail]

@[simp ↓] theorem fbCloseTimeout_bill (c : Fin 12) (s : State) : (fbCloseTimeout c s).bill = s.bill := by simp [fbCloseTimeout]

@[simp ↓] theorem tieTimeout_bill (c : Fin 12) (s : State) : (tieTimeout c s).bill = s.bill := by
  unfold tieTimeout
  repeat' first | (simp; done) | split | (dsimp only; split)

@[simp ↓] theorem grantTimeout_bill (c : Fin 12) (s : State) : (grantTimeout c s).bill = s.bill := by simp [grantTimeout]

/-! ### Machine/SafeMonitors.lean -/

@[simp ↓] theorem nextDwell_bill (g : Fin 6) (s : State) : (nextDwell g s).bill = s.bill := by simp [nextDwell]

@[simp ↓] theorem imdInvalid_bill (g : Fin 6) (d p : Dwell) (s : State) :
    (imdInvalid g d p s).bill = s.bill := by simp [imdInvalid]

@[simp ↓] theorem imdValue_bill (g : Fin 6) (r : Rat) (s : State) : (imdValue g r s).bill = s.bill := by
  unfold imdValue
  repeat' first | (simp; done) | split | (dsimp only; split)

@[simp ↓] theorem imdDwellEnd_bill (g : Fin 6) (s : State) : (imdDwellEnd g s).bill = s.bill := by
  unfold imdDwellEnd
  repeat' first | (simp; done) | split | (dsimp only; split)

@[simp ↓] theorem imdUnknown_bill (g : Fin 6) (s : State) : (imdUnknown g s).bill = s.bill := by simp [imdUnknown]

@[simp ↓] theorem tempStale_bill (n : Port) (k : Fin 2) (s : State) : (tempStale n k s).bill = s.bill := by simp [tempStale]

@[simp ↓] theorem hoursLimit_bill (s : State) : (hoursLimit s).bill = s.bill := by simp [hoursLimit]

/-! ### Machine/SafeFast.lean -/

@[simp ↓] theorem fastComps_bill (g : Fin 2) (n : Port) (s : State) : (fastComps g n s).bill = s.bill := by
  unfold fastComps
  repeat' first | (simp; done) | split | (dsimp only; split)

@[simp ↓] theorem fastTrip_bill (n : Port) (s : State) : (fastTrip n s).bill = s.bill := by
  unfold fastTrip
  repeat' first | (simp; done) | split | (dsimp only; split)

@[simp ↓] theorem fastOutlet_bill (g : Fin 2) (n : Port) (s : State) : (fastOutlet g n s).bill = s.bill := by simp [fastOutlet]

/-! ### Machine/SysCtl.lean -/

@[simp ↓] theorem thermal1_bill (s : State) : (thermal1 s).bill = s.bill := by simp [thermal1]

@[simp ↓] theorem degcfgWrite_bill (v : Word) (s : State) : (degcfgWrite v s).bill = s.bill := by simp [degcfgWrite]

@[simp ↓] theorem vcoreWrite_bill (v : Word) (s : State) : (vcoreWrite v s).bill = s.bill := by simp [vcoreWrite]

@[simp ↓] theorem capMeasured_bill (t : Nat) (vsup : BitVec 12) (s : State) :
    (capMeasured t vsup s).bill = s.bill := by simp [capMeasured]

@[simp ↓] theorem holdReady_bill (vsup vhold : BitVec 12) (s : State) :
    (holdReady vsup vhold s).bill = s.bill := by simp [holdReady]

@[simp ↓] theorem coreResume_bill (s : State) : (coreResume s).bill = s.bill := by simp [coreResume]

@[simp ↓] theorem meshClear_bill (s : State) : (meshClear s).bill = s.bill := by simp [meshClear]

/-! ### Machine/SafeReset.lean -/

@[simp ↓] theorem slogSelftest_bill (step : Byte) (s : State) : (slogSelftest step s).bill = s.bill := by simp [slogSelftest]

@[simp ↓] theorem restartSelftest_bill (step : Byte) (s : State) : (restartSelftest step s).bill = s.bill := by simp [restartSelftest]

@[simp ↓] theorem tieSplit_bill (ties : List (Fin 12)) (s : State) : (tieSplit ties s).bill = s.bill := by simp [tieSplit]

/-! ### Machine/SafeCalls.lean -/

@[simp ↓] theorem safeBody_bill (inLockout outlet : Bool) (body : Vector Word 16 → State → Reply) (a : Vector Word 16) (s : State) (hbody : ∀ x0 s, ((body x0 s).s).bill = s.bill) :
    ((safeBody inLockout outlet body a s).s).bill = s.bill := by simp [safeBody, hbody]

@[simp ↓] theorem safeCall_bill (cmd : Nat) (inLockout outlet : Bool) (c : Call) (body : Vector Word 16 → State → Reply) (s : State) (hbody : ∀ x0 s, ((body x0 s).s).bill = s.bill) :
    (safeCall cmd inLockout outlet c body s).bill = s.bill := by simp [safeCall, hbody]

@[simp ↓] theorem startClose_bill (n : Port) (c : Fin 12) (vEv iEv : Nat) (s : State) :
    (startClose n c vEv iEv s).bill = s.bill := by
  unfold startClose
  repeat' first | (simp; done) | split | (dsimp only; split)

@[simp ↓] theorem closeReq_bill (a : Vector Word 16) (s : State) : ((closeReq a s).s).bill = s.bill := by
  unfold closeReq
  repeat' first | (simp; done) | split | (dsimp only; split)

@[simp ↓] theorem stopCall_bill (a : Vector Word 16) (s : State) : ((stopCall a s).s).bill = s.bill := by simp [stopCall]

@[simp ↓] theorem setLimits_bill (a : Vector Word 16) (s : State) : ((setLimits a s).s).bill = s.bill := by
  unfold setLimits
  repeat' first | (simp; done) | split | (dsimp only; split)

@[simp ↓] theorem rearmPort_bill (n : Port) (s : State) : (rearmPort n s).bill = s.bill := by
  unfold rearmPort
  repeat' first | (simp; done) | split | (dsimp only; split)

@[simp ↓] theorem rearmPorts_bill (mask : Nat) (s : State) : ((rearmPorts mask s).2.2).bill = s.bill := by simp [rearmPorts]

@[simp ↓] theorem rearmCall_bill (a : Vector Word 16) (s : State) : ((rearmCall a s).s).bill = s.bill := by simp [rearmCall]

@[simp ↓] theorem setOos_bill (a : Vector Word 16) (s : State) : ((setOos a s).s).bill = s.bill := by simp [setOos]

@[simp ↓] theorem contactorReplaced_bill (a : Vector Word 16) (s : State) :
    ((contactorReplaced a s).s).bill = s.bill := by
  unfold contactorReplaced
  repeat' first | (simp; done) | split | (dsimp only; split)

@[simp ↓] theorem readChkval_bill (a_ : Vector Word 16) (s : State) : ((readChkval a_ s).s).bill = s.bill := by simp [readChkval]

@[simp ↓] theorem linkKeyLoad_bill (a : Vector Word 16) (s : State) : ((linkKeyLoad a s).s).bill = s.bill := by
  unfold linkKeyLoad
  repeat' first | (simp; done) | split | (dsimp only; split)

@[simp ↓] theorem tripTest_bill (pass : BitVec 4) (a : Vector Word 16) (s : State) :
    ((tripTest pass a s).s).bill = s.bill := by
  unfold tripTest
  repeat' first | (simp; done) | split | (dsimp only; split)

@[simp ↓] theorem readSlog_bill (a : Vector Word 16) (s : State) : ((readSlog a s).s).bill = s.bill := by simp [readSlog]

@[simp ↓] theorem slogRelease_bill (a : Vector Word 16) (s : State) : ((slogRelease a s).s).bill = s.bill := by
  unfold slogRelease
  repeat' first | (simp; done) | split | (dsimp only; split)

@[simp ↓] theorem confirmResult_bill (source : Nat) (exact : Bool) (value : Word) (s : State) :
    (confirmResult source exact value s).bill = s.bill := by simp [confirmResult]

@[simp ↓] theorem entryEnd_bill (e : Entry) (s : State) : (entryEnd e s).bill = s.bill := by simp [entryEnd]

@[simp ↓] theorem confirmKey_bill (e : Entry) (k : BitVec 4) (s : State) :
    (confirmKey e k s).bill = s.bill := by simp [confirmKey]

/-! ### Machine/SafeLink.lean -/

@[simp ↓] theorem linkReport_bill (k : Fin 16) (s : State) : (linkReport k s).bill = s.bill := by simp [linkReport]

@[simp ↓] theorem setLink_bill (k : Fin 16) (st : LinkState) (s : State) : (setLink k st s).bill = s.bill := by simp [setLink]

@[simp ↓] theorem linkDemand_bill (n : Port) (cat : Nat) (why : Why) (s : State) :
    (linkDemand n cat why s).bill = s.bill := by simp [linkDemand]

@[simp ↓] theorem linkFail_bill (k : Fin 16) (s : State) : (linkFail k s).bill = s.bill := by simp [linkFail]

@[simp ↓] theorem linkConnect_bill (k : Fin 16) (s : State) : (linkConnect k s).bill = s.bill := by simp [linkConnect]

@[simp ↓] theorem sendPdu_bill (k : Fin 16) (ack : Bool) (payload : List Byte) (s : State) :
    (sendPdu k ack payload s).bill = s.bill := by simp [sendPdu]

@[simp ↓] theorem sendConnect_bill (k : Fin 16) (ack : Bool) (s : State) :
    (sendConnect k ack s).bill = s.bill := by simp [sendConnect]

@[simp ↓] theorem sendData_bill (k : Fin 16) (s : State) : (sendData k s).bill = s.bill := by simp [sendData]

@[simp ↓] theorem linkCycle_bill (k : Fin 16) (s : State) : (linkCycle k s).bill = s.bill := by
  unfold linkCycle
  repeat' first | (simp; done) | split | (dsimp only; split)

@[simp ↓] theorem linkWatchdog_bill (k : Fin 16) (s : State) : (linkWatchdog k s).bill = s.bill := by simp [linkWatchdog]

@[simp ↓] theorem dualMiss_bill (k : Fin 16) (x : Copy) (s : State) : (dualMiss k x s).bill = s.bill := by simp [dualMiss]

@[simp ↓] theorem dualPair_bill (k : Fin 16) (x : Copy) (s : State) : (dualPair k x s).bill = s.bill := by simp [dualPair]

@[simp ↓] theorem dualExpiry_bill (k : Fin 16) (s : State) : (dualExpiry k s).bill = s.bill := by
  unfold dualExpiry
  repeat' first | (simp; done) | split | (dsimp only; split)

@[simp ↓] theorem dualFirst_bill (k : Fin 16) (p : LinkPdu) (l : List Byte) (s : State) :
    (dualFirst k p l s).bill = s.bill := by simp [dualFirst]

@[simp ↓] theorem dualSecond_bill (k : Fin 16) (x : Copy) (l : List Byte) (s : State) :
    (dualSecond k x l s).bill = s.bill := by simp [dualSecond]

@[simp ↓] theorem acceptPdu_bill (k : Fin 16) (p : LinkPdu) (s : State) :
    ((acceptPdu k p s).2).bill = s.bill := by
  unfold acceptPdu
  repeat' first | (simp; done) | split | (dsimp only; split)

@[simp ↓] theorem firstCopy_bill (ty : Byte) (k : Fin 16) (p : LinkPdu) (conn open_ : Fin 16 → State → State) (s : State)
    (hconn : ∀ x0 s, (conn x0 s).bill = s.bill) (hopen_ : ∀ x0 s, (open_ x0 s).bill = s.bill) :
    (firstCopy ty k p conn open_ s).bill = s.bill := by
  unfold firstCopy
  repeat' first | (simp [hconn, hopen_]; done) | split | (dsimp only; split)

@[simp ↓] theorem receivePdu_bill (ty : Byte) (p : LinkPdu) (conn open_ : Fin 16 → State → State) (s : State) (hconn : ∀ x0 s, (conn x0 s).bill = s.bill) (hopen_ : ∀ x0 s, (open_ x0 s).bill = s.bill) :
    (receivePdu ty p conn open_ s).bill = s.bill := by
  unfold receivePdu
  repeat' first | (simp [hconn, hopen_]; done) | split | (dsimp only; split)

@[simp ↓] theorem takeSeq_bill (p : LinkPdu) (k : Fin 16) (s : State) : (takeSeq p k s).bill = s.bill := by simp [takeSeq]

@[simp ↓] theorem onConnect_bill (p : LinkPdu) (k : Fin 16) (s : State) : (onConnect p k s).bill = s.bill := by simp [onConnect]

@[simp ↓] theorem onData_bill (p : LinkPdu) (k : Fin 16) (s : State) : (onData p k s).bill = s.bill := by simp [onData]

@[simp ↓] theorem onPress_bill (k : Fin 16) (s : State) : (onPress k s).bill = s.bill := by simp [onPress]

@[simp ↓] theorem onRearm_bill (p : LinkPdu) (k : Fin 16) (s : State) : (onRearm p k s).bill = s.bill := by simp [onRearm]

@[simp ↓] theorem onConfirm_bill (p : LinkPdu) (k : Fin 16) (s : State) : (onConfirm p k s).bill = s.bill := by simp [onConfirm]

/-! ### Machine/Thl.lean -/

@[simp ↓] theorem slotStart_bill (cmd : SlotCmd) (allowed : Bool) (k : Fin 2) (s : State) :
    (slotStart cmd allowed k s).bill = s.bill := by simp [slotStart]

@[simp ↓] theorem slotWriteCmd_bill (k : Fin 2) (s : State) : (slotWriteCmd k s).bill = s.bill := by simp [slotWriteCmd]

@[simp ↓] theorem slotSwitchCmd_bill (k : Fin 2) (s : State) : (slotSwitchCmd k s).bill = s.bill := by simp [slotSwitchCmd]

@[simp ↓] theorem State.freeBytes_bill (s : State) (n : Nat) : ((State.freeBytes s n).2).bill = s.bill := by simp [State.freeBytes]

@[simp ↓] theorem slotErased_bill (k : Fin 2) (ok : Bool) (s : State) :
    ((slotErased k ok s).1).bill = s.bill := by
  unfold slotErased
  repeat' first | (simp; done) | split | (dsimp only; split)

@[simp ↓] theorem slotWritten_bill (k : Fin 2) (ok : Bool) (s : State) :
    ((slotWritten k ok s).1).bill = s.bill := by
  unfold slotWritten
  repeat' first | (simp; done) | split | (dsimp only; split)

@[simp ↓] theorem slotVerified_bill (k : Fin 2) (ok : Bool) (s : State) :
    ((slotVerified k ok s).1).bill = s.bill := by simp [slotVerified]

@[simp ↓] theorem slotCommandDone_bill (ok : Bool) (s : State) : (slotCommandDone ok s).bill = s.bill := by
  unfold slotCommandDone
  repeat' first | (simp; done) | split | (dsimp only; split)

@[simp ↓] theorem stageEnd_bill (r : Nat) (c : List Byte) (s : State) : (stageEnd r c s).bill = s.bill := by simp [stageEnd]

@[simp ↓] theorem prStage_bill (s : State) : (prStage s).bill = s.bill := by simp [prStage]

@[simp ↓] theorem stagingDone_bill (s : State) : (stagingDone s).bill = s.bill := by simp [stagingDone]

@[simp ↓] theorem prDiscard_bill (s : State) : (prDiscard s).bill = s.bill := by simp [prDiscard]

@[simp ↓] theorem writeIn_bill (s : State) : (writeIn s).bill = s.bill := by simp [writeIn]

@[simp ↓] theorem State.modPart_bill (s : State) (p : Fin 8) (f : PartCnt → PartCnt) :
    (State.modPart s p f).bill = s.bill := by simp [State.modPart]

@[simp ↓] theorem scrubCorrect_bill (p : Fin 8) (s : State) : (scrubCorrect p s).bill = s.bill := by simp [scrubCorrect]

@[simp ↓] theorem thlClear_bill (s : State) : (thlClear s).bill = s.bill := by simp [thlClear]

@[simp ↓] theorem gSignal_bill (g : GSignal) (s : State) : (gSignal g s).bill = s.bill := by
  unfold gSignal
  repeat' first | (simp; done) | split | (dsimp only; split)

/-! ### Machine/Txn.lean -/

@[simp ↓] theorem place_bill (d : Fin 6) (a : Nat) (v : Word) (s : State) : (place d a v s).bill = s.bill := by
  unfold place
  repeat' first | (simp; done) | split | (dsimp only; split)

@[simp ↓] theorem rwtWrite_bill (a : Nat) (v : Word) (s : State) : (rwtWrite a v s).bill = s.bill := by
  unfold rwtWrite
  repeat' first | (simp; done) | split | (dsimp only; split)

@[simp ↓] theorem txnBody_bill (body : Vector Word 16 → State → Reply) (a : Vector Word 16) (s : State) (hbody : ∀ x0 s, ((body x0 s).s).bill = s.bill) :
    ((txnBody body a s).s).bill = s.bill := by simp [txnBody, hbody]

@[simp ↓] theorem txnBegin_bill (a : Vector Word 16) (s : State) : ((txnBegin a s).s).bill = s.bill := by
  unfold txnBegin
  repeat' first | (simp; done) | split | (dsimp only; split)

@[simp] theorem txnNamed_bill (s : State) (a : Vector Word 16) (f : Fin 6 → Reply)
    (hf : ∀ d, (f d).s.bill = s.bill) : (txnNamed s a f).s.bill = s.bill := by
  unfold txnNamed
  split
  · rfl
  · exact checks_bill _ _ _ (hf _)

@[simp ↓] theorem txnCommit_bill (a : Vector Word 16) (s : State) : ((txnCommit a s).s).bill = s.bill := by simp [txnCommit]

@[simp ↓] theorem txnRollback_bill (a : Vector Word 16) (s : State) : ((txnRollback a s).s).bill = s.bill := by simp [txnRollback]

@[simp ↓] theorem txnRenew_bill (a : Vector Word 16) (s : State) : ((txnRenew a s).s).bill = s.bill := by simp [txnRenew]

@[simp ↓] theorem txnPut_bill (a : Vector Word 16) (s : State) : ((txnPut a s).s).bill = s.bill := by
  unfold txnPut
  repeat' first | (simp; done) | split | (dsimp only; split)

@[simp ↓] theorem leaseExpiry_bill (d : Fin 6) (s : State) : (leaseExpiry d s).bill = s.bill := by simp [leaseExpiry]

@[simp ↓] theorem journalChanges_bill (l : List (Nat × Word × Word)) (s : State) :
    (journalChanges l s).bill = s.bill := by simp [journalChanges]

@[simp ↓] theorem commitSlots_bill (l : List (Nat × Word × Word)) (s : State) :
    (commitSlots l s).bill = s.bill := by simp [commitSlots]

@[simp ↓] theorem commitChannels_bill (l : List (Nat × Word × Word)) (s : State) :
    (commitChannels l s).bill = s.bill := by simp [commitChannels]

@[simp ↓] theorem commitSafe_bill (ks : List (Nat × Option (BitVec 128))) (l : List (Nat × Word × Word)) (s : State) :
    (commitSafe ks l s).bill = s.bill := by simp [commitSafe]

@[simp ↓] theorem tieCloseReq_bill (c : Fin 12) (s : State) : (tieCloseReq c s).bill = s.bill := by simp [tieCloseReq]

@[simp ↓] theorem siteSequence_bill (was : List (Fin 48 × Nat)) (s : State) :
    (siteSequence was s).bill = s.bill := by simp [siteSequence]

@[simp ↓] theorem commitSite_bill (l : List (Nat × Word × Word)) (s : State) :
    (commitSite l s).bill = s.bill := by simp [commitSite]

@[simp ↓] theorem frontLight_bill (old : Nat) (s : State) : (frontLight old s).bill = s.bill := by simp [frontLight]

@[simp ↓] theorem endCommit_bill (d : Fin 6) (st : Status) (s : State) : (endCommit d st s).bill = s.bill := by
  unfold endCommit
  repeat' first | (simp; done) | split | (dsimp only; split)

@[simp ↓] theorem txnClear_bill (s : State) : (txnClear s).bill = s.bill := by simp [txnClear]

@[simp ↓] theorem compatWrite_bill (i : Fin 28) (req : BitVec 16) (s : State) :
    (compatWrite i req s).bill = s.bill := by
  unfold compatWrite
  repeat' first | (simp; done) | split | (dsimp only; split)

/-! ### Machine/Keys.lean -/

@[simp ↓] theorem keyFifoRead_bill (s : State) : (keyFifoRead s).bill = s.bill := by
  unfold keyFifoRead
  repeat' first | (simp; done) | split | (dsimp only; split)

/-! ### Machine/RegRead.lean -/

@[simp ↓] theorem multiWrap_bill (s : State) (req a : Nat) (m : MeterId) (exp : Bool) :
    ((multiWrap s req a m exp).2).bill = s.bill := by simp [multiWrap]

@[simp ↓] theorem rosLatch_bill (req a : Nat) (k : BlkKind) (n base o : Nat) (s : State) :
    (rosLatch req a k n base o s).bill = s.bill := by
  unfold rosLatch
  repeat' first | (simp; done) | split | (dsimp only; split)

@[simp ↓] theorem regRead_bill (req a : Nat) (s : State) : (regRead req a s).bill = s.bill := by
  unfold regRead
  repeat' first | (simp; done) | split | (dsimp only; split)

/-! ### Machine/EthMac.lean -/

@[simp ↓] theorem ethStore_bill (m : Fin 2) (f : List Byte) (s : State) : (ethStore m f s).bill = s.bill := by simp [ethStore]

@[simp ↓] theorem ethTransmit_bill (m : Fin 2) (s : State) : (ethTransmit m s).bill = s.bill := by
  unfold ethTransmit
  repeat' first | (simp; done) | split | (dsimp only; split)

@[simp ↓] theorem ethLink_bill (m : Fin 2) (up : Bool) (speed : Fin 3) (full : Bool) (s : State) :
    (ethLink m up speed full s).bill = s.bill := by simp [ethLink]

@[simp ↓] theorem ethClrcnt_bill (m : Fin 2) (s : State) : (ethClrcnt m s).bill = s.bill := by simp [ethClrcnt]

/-! ### Machine/TimeSet.lean -/

@[simp ↓] theorem setLegal_bill (ms : Nat) (s : State) : (setLegal ms s).bill = s.bill := by simp [setLegal]

@[simp ↓] theorem readTime_bill (a_ : Vector Word 16) (s : State) : ((readTime a_ s).s).bill = s.bill := by simp [readTime]

/-! ### Machine/RegWrite.lean -/

@[simp ↓] theorem safeCalls_bill (cmd : Nat) (a : Vector Word 16) (s : State) :
    ((safeCalls cmd a s).s).bill = s.bill := by
  unfold safeCalls
  repeat' first | (simp; done) | split | (dsimp only; split)

@[simp ↓] theorem txnCalls_bill (cmd : Nat) (a : Vector Word 16) (s : State) :
    ((txnCalls cmd a s).s).bill = s.bill := by
  unfold txnCalls
  repeat' first | (simp; done) | split | (dsimp only; split)

@[simp ↓] theorem updCalls_bill (cmd : Nat) (a : Vector Word 16) (s : State) :
    ((updCalls cmd a s).s).bill = s.bill := by
  unfold updCalls
  repeat' first | (simp; done) | split | (dsimp only; split)

@[simp ↓] theorem safeW1c_bill (o : Nat) (v : Word) (s : State) : (safeW1c o v s).bill = s.bill := by simp [safeW1c]

@[simp ↓] theorem writeTime_bill (o : Nat) (v : Word) (s : State) : (writeTime o v s).bill = s.bill := by
  unfold writeTime
  repeat' first | (simp; done) | split | (dsimp only; split)

@[simp ↓] theorem writeChcfg_bill (c : Fin 32) (v : Word) (s : State) : (writeChcfg c v s).bill = s.bill := by simp [writeChcfg]

@[simp ↓] theorem writeDma_bill (o : Nat) (v : Word) (s : State) : (writeDma o v s).bill = s.bill := by
  unfold writeDma
  repeat' first | (simp; done) | split | (dsimp only; split)

@[simp ↓] theorem writeSec_bill (o : Nat) (v : Word) (s : State) : (writeSec o v s).bill = s.bill := by
  unfold writeSec
  repeat' first | (simp; done) | split | (dsimp only; split)

@[simp ↓] theorem writeSlotctl_bill (v : Word) (s : State) : (writeSlotctl v s).bill = s.bill := by
  unfold writeSlotctl
  repeat' first | (simp; done) | split | (dsimp only; split)

@[simp ↓] theorem writeThl_bill (o : Nat) (v : Word) (s : State) : (writeThl o v s).bill = s.bill := by
  unfold writeThl
  repeat' first | (simp; done) | split | (dsimp only; split)

@[simp ↓] theorem writeEth_bill (m : Fin 2) (o : Nat) (v : Word) (s : State) :
    (writeEth m o v s).bill = s.bill := by simp [writeEth]

@[simp ↓] theorem writeCan_bill (b : Fin 3) (o : Nat) (v : Word) (s : State) :
    (writeCan b o v s).bill = s.bill := by simp [writeCan]

@[simp ↓] theorem setPar_bill (a mask : Nat) (v : Word) (s : State) : (setPar a mask v s).bill = s.bill := by simp [setPar]

@[simp ↓] theorem writeLoad_bill (o : Nat) (v : Word) (s : State) : (writeLoad o v s).bill = s.bill := by
  unfold writeLoad
  repeat' first | (simp; done) | split | (dsimp only; split)

@[simp ↓] theorem writeGpio_bill (o : Nat) (v : Word) (s : State) : (writeGpio o v s).bill = s.bill := by
  unfold writeGpio
  repeat' first | (simp; done) | split | (dsimp only; split)

@[simp ↓] theorem writeMesh_bill (o : Nat) (v : Word) (s : State) : (writeMesh o v s).bill = s.bill := by simp [writeMesh]

@[simp ↓] theorem writeIntc_bill (o : Nat) (v : Word) (s : State) : (writeIntc o v s).bill = s.bill := by simp [writeIntc]

@[simp ↓] theorem writePevt_bill (n : Port) (v : Word) (s : State) : (writePevt n v s).bill = s.bill := by simp [writePevt]

@[simp ↓] theorem writeLevt_bill (n : Port) (v : Word) (s : State) : (writeLevt n v s).bill = s.bill := by simp [writeLevt]

@[simp ↓] theorem writeTlscfg_bill (n : Port) (v : Word) (s : State) : (writeTlscfg n v s).bill = s.bill := by simp [writeTlscfg]

@[simp ↓] theorem writeVp_bill (n : Port) (o : Nat) (v : Word) (s : State) :
    (writeVp n o v s).bill = s.bill := by
  unfold writeVp
  repeat' first | (simp; done) | split | (dsimp only; split)

@[simp ↓] theorem writeDisp_bill (base o : Nat) (v : Word) (s : State) :
    (writeDisp base o v s).bill = s.bill := by
  unfold writeDisp
  repeat' first | (simp; done) | split | (dsimp only; split)

@[simp] theorem memWrite_bill (req a : Nat) (bs : List Byte) (s : State) : (memWrite req a bs s).bill = s.bill := by
  unfold memWrite
  split
  · split
    · rename_i t h; rw [State.busOk_bill]; exact ramStore_bill s t a bs h
    · simp
  · split <;> simp

/-! ### Machine/Dma.lean -/

@[simp] theorem regWords_bill (a : Nat) (fixed : Bool) (n : Nat) (s : State) :
    (regWords a fixed n s).2.1.bill = s.bill := by
  induction n generalizing a s with
  | zero => rfl
  | succ n ih =>
    unfold regWords
    repeat' first | with_reducible rfl | (simp [ih]; done) | split | (dsimp only; split)

@[simp ↓] theorem regTail_bill (a len : Nat) (t : List Byte × State × Option DmaResult) :
    (regTail a len t).2.1.bill = t.2.1.bill := by
  unfold regTail
  split <;> simp

@[simp ↓] theorem readSource_bill (a len : Nat) (fixed : Bool) (s : State) :
    (readSource a len fixed s).2.1.bill = s.bill := by
  unfold readSource
  repeat' first | (simp; done) | split | (dsimp only; split)

@[simp ↓] theorem indexAt_bill (w : Vector Word 8) (i : Nat) (s : State) :
    (indexAt w i s).2.1.bill = s.bill := by simp [indexAt]

@[simp ↓] theorem periphTake_bill (r n : Nat) (s : State) : ((periphTake r n s).2).bill = s.bill := by
  unfold periphTake
  repeat' first | (simp; done) | split | (dsimp only; split)

@[simp ↓] theorem periphPut_bill (r : Nat) (bs : List Byte) (s : State) : (periphPut r bs s).bill = s.bill := by simp [periphPut]

@[simp ↓] theorem burstData_bill (w : Vector Word 8) (r off len src : Nat) (s : State) :
    ((burstData w r off len src s).2.1).bill = s.bill := by
  unfold burstData
  repeat' first | (simp; done) | split | (dsimp only; split)

@[simp ↓] theorem dmaAge_bill (g : Fin 32) (s : State) : (dmaAge g s).bill = s.bill := by simp [dmaAge]

@[simp ↓] theorem State.modRun_bill (s : State) (c : Fin 32) (f : DmaRun → DmaRun) :
    (State.modRun s c f).bill = s.bill := by simp [State.modRun]

@[simp ↓] theorem burstFails_bill (c : Fin 32) (e : DmaResult) (s : State) :
    (burstFails c e s).bill = s.bill := by simp [burstFails]

@[simp ↓] theorem dmaPrefetch_bill (c : Fin 32) (hit : Option Bool) (s : State) :
    (dmaPrefetch c hit s).bill = s.bill := by simp [dmaPrefetch]

/-! ### Machine/SafeTick.lean -/

@[simp ↓] theorem releaseWaiting_bill (s : State) : (releaseWaiting s).bill = s.bill := by simp [releaseWaiting]

@[simp ↓] theorem rampTimeout_bill (n : Port) (s : State) : (rampTimeout n s).bill = s.bill := by
  unfold rampTimeout
  repeat' first | (simp; done) | split | (dsimp only; split)

/-! ### Machine/Save.lean -/

@[simp ↓] theorem tornSlot_bill (s : State) : (tornSlot s).bill = s.bill := by
  unfold tornSlot
  repeat' first | (simp; done) | split | (dsimp only; split)

@[simp ↓] theorem tornErase_bill (s : State) : (tornErase s).bill = s.bill := by simp [tornErase]

@[simp ↓] theorem tornSettings_bill (s : State) : (tornSettings s).bill = s.bill := by simp [tornSettings]

@[simp ↓] theorem tornFlash_bill (s : State) : (tornFlash s).bill = s.bill := by simp [tornFlash]

@[simp ↓] theorem meetFate_bill (s : State) (x : Fin 16 × Fate) : (meetFate s x).bill = s.bill := by
  unfold meetFate
  repeat' first | (simp; done) | split | (dsimp only; split)

@[simp ↓] theorem saveDisplay_bill (vhold : BitVec 12) (s : State) : (saveDisplay vhold s).bill = s.bill := by simp [saveDisplay]

@[simp ↓] theorem dropPulses_bill (s : State) : (dropPulses s).bill = s.bill := by simp [dropPulses]

@[simp ↓] theorem portsErased_bill (s : State) : (portsErased s).bill = s.bill := by simp [portsErased]

@[simp ↓] theorem pilotsOff_bill (s : State) : (pilotsOff s).bill = s.bill := by simp [pilotsOff]

@[simp ↓] theorem loseTail_bill (s : State) : (loseTail s).bill = s.bill := by simp [loseTail]

/-! ### Machine/StartUp.lean -/

@[simp ↓] theorem atNs_bill (n : Nat) (s : State) : (atNs n s).bill = s.bill := by simp [atNs]

@[simp ↓] theorem causeBit_bill (n : Nat) (s : State) : (causeBit n s).bill = s.bill := by simp [causeBit]

@[simp ↓] theorem bootSupply_bill (u : StartUp) (s : State) : (bootSupply u s).bill = s.bill := by simp [bootSupply]

@[simp ↓] theorem bootTime_bill (old : Mode) (u : StartUp) (s : State) : (bootTime old u s).bill = s.bill := by simp [bootTime]

@[simp ↓] theorem swapAreas_bill (s : State) : (swapAreas s).bill = s.bill := by simp [swapAreas]

@[simp ↓] theorem inActivate_bill (f : State → State) (s : State) (hf : ∀ s, (f s).bill = s.bill) :
    (inActivate f s).bill = s.bill := by simp [inActivate, hf]

@[simp ↓] theorem activate_bill (s : State) : (activate s).bill = s.bill := by simp [activate]

@[simp ↓] theorem swapBack_bill (s : State) : (swapBack s).bill = s.bill := by simp [swapBack]

@[simp ↓] theorem provisionFkd_bill (s : State) : (provisionFkd s).bill = s.bill := by simp [provisionFkd]

@[simp ↓] theorem bootConfirmed_bill (s : State) : (bootConfirmed s).bill = s.bill := by simp [bootConfirmed]

@[simp ↓] theorem bootTrial_bill (s : State) : (bootTrial s).bill = s.bill := by simp [bootTrial]

@[simp ↓] theorem bootManager_bill (u : StartUp) (s : State) : (bootManager u s).bill = s.bill := by simp [bootManager]

@[simp ↓] theorem provisionSkd_bill (k : Fin 2) (s : State) : (provisionSkd k s).bill = s.bill := by simp [provisionSkd]

@[simp ↓] theorem journalFs_bill (s : State) : (journalFs s).bill = s.bill := by simp [journalFs]

@[simp ↓] theorem install_bill (k : Fin 2) (l : Loaded) (s : State) : (install k l s).bill = s.bill := by simp [install]

@[simp ↓] theorem loadRest_bill (k : Fin 2) (l : Loaded) (s : State) : (loadRest k l s).2.bill = s.bill := by
  unfold loadRest
  repeat' first | (simp; done) | split | (dsimp only; split)

@[simp ↓] theorem releaseCores_bill (s : State) : (releaseCores s).bill = s.bill := by simp [releaseCores]

@[simp ↓] theorem startWindow_bill (s : State) : (startWindow s).bill = s.bill := by simp [startWindow]

@[simp ↓] theorem portsListen_bill (s : State) : (portsListen s).bill = s.bill := by simp [portsListen]

@[simp ↓] theorem bootMode_bill (s : State) : (bootMode s).bill = s.bill := by simp [bootMode]

end Sys2Proof.Machine
end

