-- ==== Sys2Proof/Laws/KeepSafe.lean ====
section
/-! SUPPORT. The operations that leave SAFE: Caldera and its outputs as it is. -/

namespace Sys2Proof.Machine

@[simp ↓] theorem forAll_safe {α : Type} (l : List α) (f : State → α → State) (s : State)
    (h : ∀ s x, (f s x).safe = s.safe) : (forAll l f s).safe = s.safe := forAll_keeps State.safe l f s h

@[simp ↓] theorem ite_safe (c : Prop) [Decidable c] (a b : State) :
    (if c then a else b).safe = if c then a.safe else b.safe := apply_ite State.safe c a b

@[simp ↓] theorem checks_safe (s : State) (l : List (Bool × Status)) (k : Reply) (h : k.s.safe = s.safe) :
    (checks s l k).s.safe = s.safe := by
  induction l with
  | nil => exact h
  | cons x r ih => obtain ⟨b, st⟩ := x; cases b <;> simp [checks, ih]

/-! ### Machine/Ops.lean -/

@[simp ↓] theorem State.busOk_safe (s : State) (v : Word) : (State.busOk s v).safe = s.safe := by simp [State.busOk]

@[simp ↓] theorem State.busErr_safe (s : State) : (State.busErr s).safe = s.safe := by simp [State.busErr]

@[simp ↓] theorem State.decodeErr_safe (s : State) (a : Word) (req kind : Nat) :
    (State.decodeErr s a req kind).safe = s.safe := by simp [State.decodeErr]

@[simp ↓] theorem State.tagged_safe (s : State) : (State.tagged s).safe = s.safe := by simp [State.tagged]

@[simp ↓] theorem State.holeErr_safe (s : State) (req a n : Nat) : (State.holeErr s req a n).safe = s.safe := by
  unfold State.holeErr
  split <;> simp

@[simp ↓] theorem holdEngine_safe (s : State) : (holdEngine s).safe = s.safe := by simp [holdEngine]

@[simp ↓] theorem onBlock_safe (k : BlkKind) (n : Nat) (s : State) (f : State → State) (hf : ∀ s, (f s).safe = s.safe) :
    (onBlock k n s f).safe = s.safe := by simp [onBlock, hf]

@[simp ↓] theorem State.modVp_safe (s : State) (n : Port) (f : Vp → Vp) :
    (State.modVp s n f).safe = s.safe := by simp [State.modVp]

@[simp ↓] theorem State.modPilot_safe (s : State) (n : Port) (f : Pilot → Pilot) :
    (State.modPilot s n f).safe = s.safe := by simp [State.modPilot]

@[simp ↓] theorem State.modLink_safe (s : State) (n : Port) (f : Link → Link) :
    (State.modLink s n f).safe = s.safe := by simp [State.modLink]

@[simp ↓] theorem State.modTls_safe (s : State) (n : Port) (f : Tls → Tls) :
    (State.modTls s n f).safe = s.safe := by simp [State.modTls]

@[simp ↓] theorem State.modRgn_safe (s : State) (r : Fin 16) (f : Region → Region) :
    (State.modRgn s r f).safe = s.safe := by simp [State.modRgn]

@[simp ↓] theorem State.modCh_safe (s : State) (n : ChanId) (f : Chan → Chan) :
    (State.modCh s n f).safe = s.safe := by simp [State.modCh]

@[simp ↓] theorem State.modM_safe (s : State) (m : MeterId) (f : Meter → Meter) :
    (State.modM s m f).safe = s.safe := by simp [State.modM]

@[simp ↓] theorem State.modEth_safe (s : State) (n : Fin 2) (f : Eth → Eth) :
    (State.modEth s n f).safe = s.safe := by simp [State.modEth]

@[simp ↓] theorem State.modCan_safe (s : State) (n : Fin 3) (f : Can → Can) :
    (State.modCan s n f).safe = s.safe := by simp [State.modCan]

@[simp ↓] theorem State.modLoad_safe (s : State) (n : Fin 10) (f : LoadCh → LoadCh) :
    (State.modLoad s n f).safe = s.safe := by simp [State.modLoad]

@[simp ↓] theorem State.modTxn_safe (s : State) (d : Fin 6) (f : TxnDom → TxnDom) :
    (State.modTxn s d f).safe = s.safe := by simp [State.modTxn]

@[simp ↓] theorem State.modCore_safe (s : State) (f : BillCore → BillCore) :
    (State.modCore s f).safe = s.safe := by simp [State.modCore]

@[simp ↓] theorem State.setSess_safe (s : State) (n : Port) (x : Option Session) :
    (State.setSess s n x).safe = s.safe := by simp [State.setSess]

@[simp ↓] theorem State.modSess_safe (s : State) (n : Port) (f : Session → Session) :
    (State.modSess s n f).safe = s.safe := by simp [State.modSess]

@[simp ↓] theorem State.setLofs_safe (s : State) (ms : Nat) : (State.setLofs s ms).safe = s.safe := by simp [State.setLofs]

@[simp ↓] theorem State.draw_safe (s : State) : ((State.draw s).2).safe = s.safe := by simp [State.draw]

@[simp ↓] theorem State.raise_safe (s : State) (n : Nat) : (State.raise s n).safe = s.safe := by simp [State.raise]

@[simp ↓] theorem State.evPut_safe (s : State) (typ source : Nat) (d0 d1 d2 : Word) :
    (State.evPut s typ source d0 d1 d2).safe = s.safe := by simp [State.evPut]

@[simp ↓] theorem State.evRoll_safe (s : State) : (State.evRoll s).safe = s.safe := by simp [State.evRoll]

@[simp ↓] theorem State.evSecond_safe (s : State) :
    (State.evSecond s).safe = s.safe := by simp [State.evSecond]

@[simp ↓] theorem State.evlog_safe (s : State) (typ source : Nat) (d0 d1 d2 : Word) :
    (State.evlog s typ source d0 d1 d2).safe = s.safe := by simp [State.evlog]

@[simp ↓] theorem State.statsCleared_safe (s : State) (block mask : Nat) :
    (State.statsCleared s block mask).safe = s.safe := by simp [State.statsCleared]

@[simp ↓] theorem State.audit_safe (s : State) (typ source reason : Nat) (item old new : Word) :
    (State.audit s typ source reason item old new).safe = s.safe := by simp [State.audit]

@[simp ↓] theorem State.setLedger_safe (s : State) (l : List (Option LedgerEntry)) :
    (State.setLedger s l).safe = s.safe := by simp [State.setLedger]

@[simp ↓] theorem State.flagSpan_safe (s : State) (n : Port) (bits : BitVec 16) :
    (State.flagSpan s n bits).safe = s.safe := by simp [State.flagSpan]

@[simp ↓] theorem State.flagSess_safe (s : State) (n : Port) (bits : BitVec 16) :
    (State.flagSess s n bits).safe = s.safe := by simp [State.flagSess]

@[simp ↓] theorem Reply.ok_safe (s : State) (res : List Word) : ((Reply.ok s res).s).safe = s.safe := by simp

@[simp ↓] theorem Reply.deny_safe (s : State) (st : Status) : ((Reply.deny s st).s).safe = s.safe := by simp

@[simp ↓] theorem Reply.later_safe (s : State) (p : Pending) : ((Reply.later s p).s).safe = s.safe := by simp

@[simp ↓] theorem State.setBox_safe (s : State) (i : MbxId) (x : Mailbox) :
    (State.setBox s i x).safe = s.safe := by simp [State.setBox]

@[simp ↓] theorem versions_safe (i : MbxId) (s : State) : ((versions i s).s).safe = s.safe := by simp [versions]

@[simp ↓] theorem answered_safe (i : MbxId) (r : Reply) : (answered i r).safe = r.s.safe := by
  unfold answered
  dsimp only
  split <;> simp

@[simp ↓] theorem ring_safe (i : MbxId) (body : Nat → Vector Word 16 → State → Reply) (s : State) (hbody : ∀ x0 x1 s, ((body x0 x1 s).s).safe = s.safe) :
    (ring i body s).safe = s.safe := by simp [ring, hbody]

@[simp ↓] theorem mbxCall_safe (i : MbxId) (cmd : Nat) (c : Call) (body : Vector Word 16 → State → Reply) (s : State) (hbody : ∀ x0 s, ((body x0 s).s).safe = s.safe) :
    (mbxCall i cmd c body s).safe = s.safe := by simp [mbxCall, hbody]

@[simp ↓] theorem mbxDone_safe (i : MbxId) (st : Status) (res : List Word) (s : State) :
    (mbxDone i st res s).safe = s.safe := by simp [mbxDone]

/-! ### Machine/Sampling.lean -/

@[simp ↓] theorem fastSample_safe (g : Fin 2) (bits miss : Vector (BitVec 16) 32) (s : State) :
    (fastSample g bits miss s).safe = s.safe := by simp [fastSample]

@[simp ↓] theorem selfCheck_safe (p : Fin 8) (s : State) : (selfCheck p s).safe = s.safe := by
  unfold selfCheck
  repeat' first | (simp; done) | split | (dsimp only; split) | refine (forAll_safe _ _ _ (fun _ _ => ?_)).trans ?_ |
    (dsimp only; refine (forAll_safe _ _ _ (fun _ _ => ?_)).trans ?_)

@[simp ↓] theorem tempTake_safe (s : State) : (tempTake s).safe = s.safe := by simp [tempTake]

@[simp ↓] theorem gainAll_safe (s : State) : (gainAll s).safe = s.safe := by simp [gainAll]

@[simp ↓] theorem resample_safe (g : Fin 2) (idx : Nat) (s : State) : (resample g idx s).safe = s.safe := by simp [resample]

@[simp ↓] theorem refFine_safe (g : Fin 2) (idx : Nat) (ref : ChanId) (s : State) :
    (refFine g idx ref s).safe = s.safe := by simp [refFine]

@[simp ↓] theorem resampFine_safe (g : Fin 2) (idx : Nat) (s : State) : (resampFine g idx s).safe = s.safe := by simp [resampFine]

@[simp ↓] theorem fineChannels_safe (g : Fin 2) (s : State) : (fineChannels g s).safe = s.safe := by simp [fineChannels]

@[simp ↓] theorem State.modAdc_safe (s : State) (a : Fin 4) (f : Adc → Adc) :
    (State.modAdc s a f).safe = s.safe := by simp [State.modAdc]

@[simp ↓] theorem dwellStart_safe (a : Fin 4) (k : Nat) (s : State) :
    (dwellStart a k s).safe = s.safe := by simp [dwellStart]

@[simp ↓] theorem calibrate_safe (a : Fin 4) (s : State) : (calibrate a s).safe = s.safe := by simp [calibrate]

@[simp ↓] theorem storeGain_safe (a : Fin 4) (s : State) : (storeGain a s).safe = s.safe := by simp [storeGain]

@[simp ↓] theorem slotEnd_safe (a : Fin 4) (s : State) : (slotEnd a s).safe = s.safe := by simp [slotEnd]

@[simp ↓] theorem slotResync_safe (a : Fin 4) (changed : Nat → Bool) (s : State) :
    (slotResync a changed s).safe = s.safe := by simp [slotResync]

/-! ### Machine/Meters.lean -/

@[simp ↓] theorem rgwAll_safe (m : MeterId) (s : State) : (rgwAll m s).safe = s.safe := by simp [rgwAll]

@[simp ↓] theorem cutBounds_safe (m : MeterId) (inst : BitVec 64) (s : State) :
    (cutBounds m inst s).safe = s.safe := by simp [cutBounds]

@[simp ↓] theorem gapNow_safe (m : MeterId) (s : State) : (gapNow m s).safe = s.safe := by simp [gapNow]

@[simp ↓] theorem markGap_safe (m : MeterId) (s : State) : (markGap m s).safe = s.safe := by simp [markGap]

@[simp ↓] theorem validAgain_safe (m : MeterId) (s : State) : (validAgain m s).safe = s.safe := by simp [validAgain]

@[simp ↓] theorem rollover_safe (m : MeterId) (exp : Bool) (old : BitVec 160) (s : State) :
    (rollover m exp old s).safe = s.safe := by simp [rollover]

@[simp ↓] theorem pulseQueue_safe (m : MeterId) (s : State) : (pulseQueue m s).safe = s.safe := by simp [pulseQueue]

@[simp ↓] theorem pulseRestart_safe (q : Fin 8) (s : State) : (pulseRestart q s).safe = s.safe := by simp [pulseRestart]

@[simp ↓] theorem setPhseq_safe (m : MeterId) (v : BitVec 2) (s : State) : (setPhseq m v s).safe = s.safe := by simp [setPhseq]

@[simp ↓] theorem phaseStep_safe (m : MeterId) (s : State) : (phaseStep m s).safe = s.safe := by
  unfold phaseStep
  repeat' first | (simp; done) | split | (dsimp only; split)

@[simp ↓] theorem secondSums_safe (m : MeterId) (q : Int) (s : State) : (secondSums m q s).safe = s.safe := by simp [secondSums]

@[simp ↓] theorem bookQ_safe (m : MeterId) (s : State) : ((bookQ m s).2).safe = s.safe := by
  unfold bookQ
  repeat' first | (simp; done) | split | (dsimp only; split)

@[simp ↓] theorem snapTake_safe (m : MeterId) (inst : BitVec 64) (s : State) :
    (snapTake m inst s).safe = s.safe := by simp [snapTake]

@[simp ↓] theorem snapDone_safe (w : SnapWait) (s : State) :
    (snapDone w s).safe = s.safe := by simp [snapDone]

@[simp ↓] theorem snapEnd_safe (s : State) :
    (snapEnd s).safe = s.safe := by
  unfold snapEnd
  repeat' first | (simp; done) | split | (dsimp only; split)

@[simp ↓] theorem meterFine_safe (g : Fin 2) (m : MeterId) (s : State) : (meterFine g m s).safe = s.safe := by simp [meterFine]

@[simp ↓] theorem fineSample_safe (g : Fin 2) (s : State) : (fineSample g s).safe = s.safe := by simp [fineSample]

@[simp ↓] theorem powerCheck_safe (m : MeterId) (s : State) : (powerCheck m s).safe = s.safe := by simp [powerCheck]

@[simp ↓] theorem neutralCheck_safe (m : MeterId) (s : State) : (neutralCheck m s).safe = s.safe := by simp [neutralCheck]

@[simp ↓] theorem neutralFlags_safe (m : MeterId) (s : State) : (neutralFlags m s).safe = s.safe := by simp [neutralFlags]

@[simp ↓] theorem readAcc_safe (a : Vector Word 16) (s : State) : ((readAcc a s).s).safe = s.safe := by
  unfold readAcc
  repeat' first | (simp; done) | split | (dsimp only; split)

@[simp ↓] theorem freeWords_safe (place n : Nat) (s : State) : ((freeWords place n s).2).safe = s.safe := by simp [freeWords]

@[simp ↓] theorem readPq_safe (a : Vector Word 16) (s : State) : ((readPq a s).s).safe = s.safe := by
  unfold readPq
  repeat' first | (simp; done) | split | (dsimp only; split)

@[simp ↓] theorem readHarm_safe (a : Vector Word 16) (s : State) : ((readHarm a s).s).safe = s.safe := by
  unfold readHarm
  repeat' first | (simp; done) | split | (dsimp only; split)

@[simp ↓] theorem readBalance_safe (a : Vector Word 16) (s : State) : ((readBalance a s).s).safe = s.safe := by
  unfold readBalance
  repeat' first | (simp; done) | split | (dsimp only; split)

@[simp ↓] theorem clearStats_safe (mask : BitVec 6) (s : State) : (clearStats mask s).safe = s.safe := by simp [clearStats]

@[simp ↓] theorem clearStatsCall_safe (a : Vector Word 16) (s : State) :
    ((clearStatsCall a s).s).safe = s.safe := by simp [clearStatsCall]

/-! ### Machine/DispReq.lean -/

@[simp ↓] theorem State.putRequest_safe (s : State) (r : Fin 16) (q : PendUpd) :
    (State.putRequest s r q).safe = s.safe := by
  unfold State.putRequest
  repeat' first | (simp; done) | split | (dsimp only; split)

@[simp ↓] theorem State.legalReq_safe (s : State) (n : Port) : (State.legalReq s n).safe = s.safe := by
  unfold State.legalReq
  repeat' first | (simp; done) | split | (dsimp only; split)

/-! ### Machine/TimeBase.lean -/

@[simp ↓] theorem rtcMove_safe (n : Int) (s : State) : (rtcMove n s).safe = s.safe := by simp [rtcMove]

@[simp ↓] theorem rtcRun_safe (n : Nat) (s : State) : (rtcRun n s).safe = s.safe := by simp [rtcRun]

@[simp ↓] theorem rtcTick_safe (s : State) : (rtcTick s).safe = s.safe := by simp [rtcTick]

@[simp ↓] theorem refPeriod_safe (s : State) : (refPeriod s).safe = s.safe := by simp [refPeriod]

@[simp ↓] theorem rtcLoad_safe (s : State) : (rtcLoad s).safe = s.safe := by simp [rtcLoad]

@[simp ↓] theorem rtcReading_safe (t : BitVec 12) (n : Nat) (s : State) :
    (rtcReading t n s).safe = s.safe := by simp [rtcReading]

@[simp ↓] theorem refdevMeasure_safe (dev : BitVec 16) (s : State) : (refdevMeasure dev s).safe = s.safe := by simp [refdevMeasure]

@[simp ↓] theorem vbakMeasure_safe (v : Byte) (s : State) : (vbakMeasure v s).safe = s.safe := by simp [vbakMeasure]

@[simp ↓] theorem evlDropSecond_safe (s : State) : (evlDropSecond s).safe = s.safe := by simp [evlDropSecond]

@[simp ↓] theorem evlClrcnt_safe (s : State) : (evlClrcnt s).safe = s.safe := by simp [evlClrcnt]

/-! ### Machine/Billing.lean -/

@[simp ↓] theorem State.pushRecord_safe (s : State) (rtype : Nat) (flags : BitVec 16) (port : Option Port) (body : List Byte) :
    (State.pushRecord s rtype flags port body).safe = s.safe := by simp [State.pushRecord]

@[simp ↓] theorem State.journal_safe (s : State) (save : Bool) : (State.journal s save).safe = s.safe := by simp [State.journal]

@[simp ↓] theorem closeSlice_safe (m : MeterId) (s : State) : (closeSlice m s).safe = s.safe := by simp [closeSlice]

@[simp ↓] theorem closeSlices_safe (s : State) : (closeSlices s).safe = s.safe := by simp [closeSlices]

@[simp ↓] theorem meterEnable_safe (m : MeterId) (reason : Nat) (s : State) :
    (meterEnable m reason s).safe = s.safe := by simp [meterEnable]

@[simp ↓] theorem setTariff_safe (s : State) : (setTariff s).safe = s.safe := by simp [setTariff]

@[simp ↓] theorem balance_safe (durNs : Nat) (outage split : Bool) (s : State) :
    ((balance durNs outage split s).2.2).safe = s.safe := by
  unfold balance
  repeat' first | (simp; done) | split | (dsimp only; split)

@[simp ↓] theorem endPart_safe (bits : BitVec 16) (s : State) : ((endPart bits s).2).safe = s.safe := by simp [endPart]

@[simp ↓] theorem writeDemand_safe (c : ClosedPart) (count : Nat) (s : State) :
    (writeDemand c count s).safe = s.safe := by simp [writeDemand]

@[simp ↓] theorem openPart_safe (lt : Int) (bits : BitVec 16) (s : State) :
    (openPart lt bits s).safe = s.safe := by simp [openPart]

@[simp ↓] theorem closePart_safe (bits : BitVec 16) (next : Int) (s : State) :
    (closePart bits next s).safe = s.safe := by simp [closePart]

@[simp ↓] theorem demandClose_safe (at_ : Int) (s : State) : (demandClose at_ s).safe = s.safe := by simp [demandClose]

@[simp ↓] theorem writePeriod_safe (at_ : Int) (m : MeterId) (s : State) :
    (writePeriod at_ m s).safe = s.safe := by simp [writePeriod]

@[simp ↓] theorem periodClose_safe (at_ : Int) (s : State) : (periodClose at_ s).safe = s.safe := by simp [periodClose]

@[simp ↓] theorem tariffSwitch_safe (ms : Int) (s : State) : (tariffSwitch ms s).safe = s.safe := by simp [tariffSwitch]

@[simp ↓] theorem minuteBoundaries_safe (min : Int) (s : State) : (minuteBoundaries min s).safe = s.safe := by simp [minuteBoundaries]

@[simp ↓] theorem passBoundaries_safe (t0 t1 : Int) (s : State) : (passBoundaries t0 t1 s).safe = s.safe := by simp [passBoundaries]

@[simp ↓] theorem writeHeld_safe (s : State) : (writeHeld s).safe = s.safe := by simp [writeHeld]

@[simp ↓] theorem outageBoundaries_safe (t0 t1 : Int) (s : State) :
    (outageBoundaries t0 t1 s).safe = s.safe := by simp [outageBoundaries]

@[simp ↓] theorem dueDemand_safe (s : State) : (dueDemand s).safe = s.safe := by
  unfold dueDemand
  repeat' first | (simp; done) | split | (dsimp only; split)

@[simp ↓] theorem duePeriod_safe (s : State) : (duePeriod s).safe = s.safe := by
  unfold duePeriod
  repeat' first | (simp; done) | split | (dsimp only; split)

@[simp ↓] theorem dueBoundaries_safe (s : State) : (dueBoundaries s).safe = s.safe := by simp [dueBoundaries]

@[simp ↓] theorem cancelSession_safe (n : Port) (cause : Nat) (s : State) :
    (cancelSession n cause s).safe = s.safe := by
  unfold cancelSession
  repeat' first | (simp; done) | split | (dsimp only; split)

@[simp ↓] theorem openSession_safe (n : Port) (m : MeterId) (auth : Nat) (ext : List Byte) (token : Option Token) (s : State) :
    (openSession n m auth ext token s).safe = s.safe := by
  unfold openSession
  repeat' first | (simp; done) | split | (dsimp only; split)

@[simp ↓] theorem sessionOpen_safe (a : Vector Word 16) (s : State) : ((sessionOpen a s).s).safe = s.safe := by
  unfold sessionOpen
  repeat' first | (simp; done) | split | (dsimp only; split)

@[simp ↓] theorem sessionCancel_safe (a : Vector Word 16) (s : State) :
    ((sessionCancel a s).s).safe = s.safe := by
  unfold sessionCancel
  repeat' first | (simp; done) | split | (dsimp only; split)

@[simp ↓] theorem sessionStatus_safe (a : Vector Word 16) (s : State) :
    ((sessionStatus a s).s).safe = s.safe := by
  unfold sessionStatus
  repeat' first | (simp; done) | split | (dsimp only; split)

@[simp ↓] theorem markStart_safe (n : Port) (s : State) : (markStart n s).safe = s.safe := by simp [markStart]

@[simp ↓] theorem startCut_safe (n : Port) (s : State) : (startCut n s).safe = s.safe := by
  unfold startCut
  repeat' first | (simp; done) | split | (dsimp only; split)

@[simp ↓] theorem markStop_safe (n : Port) (reason : Byte) (s : State) :
    (markStop n reason s).safe = s.safe := by simp [markStop]

@[simp ↓] theorem stopValues_safe (n : Port) (s : State) : (stopValues n s).safe = s.safe := by
  unfold stopValues
  repeat' first | (simp; done) | split | (dsimp only; split)

@[simp ↓] theorem freezeStop_safe (n : Port) (reason : Byte) (s : State) :
    (freezeStop n reason s).safe = s.safe := by
  unfold freezeStop
  repeat' first | (simp; done) | split | (dsimp only; split)

@[simp ↓] theorem writeStop_safe (n : Port) (s : State) : (writeStop n s).safe = s.safe := by
  unfold writeStop
  repeat' first | (simp; done) | split | (dsimp only; split)

@[simp ↓] theorem stopCut_safe (n : Port) (s : State) : (stopCut n s).safe = s.safe := by simp [stopCut]

@[simp ↓] theorem markShift_safe (s : State) : (markShift s).safe = s.safe := by simp [markShift]

@[simp ↓] theorem adjustCut_safe (old : Nat) (adj : Int) (new : Nat) (s : State) :
    (adjustCut old adj new s).safe = s.safe := by simp [adjustCut]

@[simp ↓] theorem firstCut_safe (new : Nat) (s : State) : (firstCut new s).safe = s.safe := by simp [firstCut]

@[simp ↓] theorem backCut_safe (new : Nat) (s : State) : (backCut new s).safe = s.safe := by simp [backCut]

@[simp ↓] theorem commitCut_safe (cal part bp : Bool) (s : State) :
    (commitCut cal part bp s).safe = s.safe := by simp [commitCut]

@[simp ↓] theorem atBound_safe (k : BoundKind) (s : State) : (atBound k s).safe = s.safe := by
  unfold atBound
  repeat' first | (simp; done) | split | (dsimp only; split)

@[simp ↓] theorem keepBound_safe (s t : State) : (keepBound s t).safe = t.safe := by
  unfold keepBound
  split <;> simp

@[simp ↓] theorem asOf_safe (b : Bound) (f : State → State) (s : State) (hf : ∀ s, (f s).safe = s.safe) :
    (asOf b f s).safe = s.safe := by simp [asOf, hf]

@[simp ↓] theorem endBound_safe (b : Bound) (s : State) : (endBound b s).safe = s.safe := by simp [endBound]

@[simp ↓] theorem runBounds_safe (all : Bool) (n : Nat) (s : State) : (runBounds all n s).safe = s.safe := by
  induction n generalizing s with
  | zero => rfl
  | succ n ih =>
    unfold runBounds
    split
    · rfl
    · split <;> simp [ih]

@[simp ↓] theorem settleBounds_safe (s : State) : (settleBounds s).safe = s.safe := by simp [settleBounds]

@[simp ↓] theorem flushBounds_safe (s : State) : (flushBounds s).safe = s.safe := by simp [flushBounds]

@[simp ↓] theorem boundary_safe (k : BoundKind) (s : State) : (boundary k s).safe = s.safe := by simp [boundary]

@[simp ↓] theorem sessionStart_safe (n : Port) (s : State) : (sessionStart n s).safe = s.safe := by
  unfold sessionStart
  repeat' first | (simp; done) | split | (dsimp only; split)

@[simp ↓] theorem sessionStop_safe (n : Port) (reason : Byte) (s : State) :
    (sessionStop n reason s).safe = s.safe := by
  unfold sessionStop
  repeat' first | (simp; done) | split | (dsimp only; split)

@[simp ↓] theorem snapshot_safe (a : Vector Word 16) (s : State) : ((snapshot a s).s).safe = s.safe := by simp [snapshot]

@[simp ↓] theorem storeRecord_safe (r : Record) (s : State) : (storeRecord r s).safe = s.safe := by
  unfold storeRecord
  repeat' first | (simp; done) | split | (dsimp only; split)

@[simp ↓] theorem afterSign_safe (r : Record) (s : State) : (afterSign r s).safe = s.safe := by
  unfold afterSign
  repeat' first | (simp; done) | split | (dsimp only; split)

@[simp ↓] theorem signDone_safe (s : State) : (signDone s).safe = s.safe := by
  unfold signDone
  repeat' first | (simp; done) | split | (dsimp only; split)

/-! ### Machine/Records.lean -/

@[simp ↓] theorem readRecord_safe (a : Vector Word 16) (s : State) : ((readRecord a s).s).safe = s.safe := by
  unfold readRecord
  repeat' first | (simp; done) | split | (dsimp only; split)

@[simp ↓] theorem ackRecord_safe (a : Vector Word 16) (s : State) : ((ackRecord a s).s).safe = s.safe := by simp [ackRecord]

@[simp ↓] theorem readDemand_safe (a : Vector Word 16) (s : State) : ((readDemand a s).s).safe = s.safe := by
  unfold readDemand
  repeat' first | (simp; done) | split | (dsimp only; split)

@[simp ↓] theorem readOcmf_safe (a : Vector Word 16) (s : State) : ((readOcmf a s).s).safe = s.safe := by simp [readOcmf]

@[simp ↓] theorem ocmfDone_safe (s : State) : (ocmfDone s).safe = s.safe := by
  unfold ocmfDone
  repeat' first | (simp; done) | split | (dsimp only; split)

@[simp ↓] theorem readAudit_safe (a : Vector Word 16) (s : State) : ((readAudit a s).s).safe = s.safe := by
  unfold readAudit
  repeat' first | (simp; done) | split | (dsimp only; split)

@[simp ↓] theorem archiveBegin_safe (a : Vector Word 16) (s : State) :
    ((archiveBegin a s).s).safe = s.safe := by
  unfold archiveBegin
  repeat' first | (simp; done) | split | (dsimp only; split)

@[simp ↓] theorem sealDone_safe (s : State) : (sealDone s).safe = s.safe := by
  unfold sealDone
  repeat' first | (simp; done) | split | (dsimp only; split)

@[simp ↓] theorem archiveCommit_safe (a : Vector Word 16) (s : State) :
    ((archiveCommit a s).s).safe = s.safe := by
  unfold archiveCommit
  repeat' first | (simp; done) | split | (dsimp only; split)

/-! ### Machine/Tokens.lean -/

@[simp ↓] theorem State.modTok_safe (s : State) (f : Tokens → Tokens) : (State.modTok s f).safe = s.safe := by simp [State.modTok]

@[simp ↓] theorem endEntry_safe (port : Option Port) (code : Byte) (t : Option Token) (s : State) :
    (endEntry port code t s).safe = s.safe := by
  unfold endEntry
  repeat' first | (simp; done) | split | (dsimp only; split)

@[simp ↓] theorem countInvalid_safe (s : State) : (countInvalid s).safe = s.safe := by
  unfold countInvalid
  repeat' first | (simp; done) | split | (dsimp only; split)

@[simp ↓] theorem tokenDecode_safe (keys : List (BitVec 4)) (s : State) :
    (tokenDecode keys s).safe = s.safe := by
  unfold tokenDecode
  repeat' first | (simp; done) | split | (dsimp only; split)

@[simp ↓] theorem tokenKey_safe (k : BitVec 4) (s : State) : (tokenKey k s).safe = s.safe := by
  unfold tokenKey
  repeat' first | (simp; done) | split | (dsimp only; split)

@[simp ↓] theorem tokenStart_safe (s : State) : (tokenStart s).safe = s.safe := by simp [tokenStart]

@[simp ↓] theorem discardTokens_safe (s : State) : (discardTokens s).safe = s.safe := by simp [discardTokens]

@[simp ↓] theorem tokenResult_safe (a_ : Vector Word 16) (s : State) :
    ((tokenResult a_ s).s).safe = s.safe := by
  unfold tokenResult
  repeat' first | (simp; done) | split | (dsimp only; split)

@[simp ↓] theorem denyCode_safe (s : State) (code : Word) : ((denyCode s code).s).safe = s.safe := by simp [denyCode]

@[simp ↓] theorem bindToken_safe (n : Port) (m : MeterId) (t : Token) (ext : List Byte) (s : State) :
    ((bindToken n m t ext s).s).safe = s.safe := by simp [bindToken]

@[simp ↓] theorem tokenOpen_safe (a : Vector Word 16) (s : State) : ((tokenOpen a s).s).safe = s.safe := by
  unfold tokenOpen
  repeat' first | (simp; done) | split | (dsimp only; split)

@[simp ↓] theorem tokenDiscard_safe (a : Vector Word 16) (s : State) :
    ((tokenDiscard a s).s).safe = s.safe := by
  unfold tokenDiscard
  repeat' first | (simp; done) | split | (dsimp only; split)

@[simp ↓] theorem ledgerRead_safe (a : Vector Word 16) (s : State) : ((ledgerRead a s).s).safe = s.safe := by simp [ledgerRead]

@[simp ↓] theorem tokenKeyLoad_safe (a : Vector Word 16) (s : State) :
    ((tokenKeyLoad a s).s).safe = s.safe := by
  unfold tokenKeyLoad
  repeat' first | (simp; done) | split | (dsimp only; split)

@[simp ↓] theorem tokenKeyInfo_safe (a : Vector Word 16) (s : State) :
    ((tokenKeyInfo a s).s).safe = s.safe := by
  unfold tokenKeyInfo
  repeat' first | (simp; done) | split | (dsimp only; split)

/-! ### Machine/LoadSw.lean -/

@[simp ↓] theorem genPeriod_safe (g : Fin 2) (start : BitVec 64) (s : State) :
    (genPeriod g start s).safe = s.safe := by simp [genPeriod]

@[simp ↓] theorem genSync_safe (s : State) : (genSync s).safe = s.safe := by simp [genSync]

@[simp ↓] theorem openWindow_safe (n : Fin 10) (s : State) : (openWindow n s).safe = s.safe := by simp [openWindow]

@[simp ↓] theorem pulseStep_safe (s : State) : (pulseStep s).safe = s.safe := by simp [pulseStep]

@[simp ↓] theorem loadOne_safe (s : State) (n : Fin 10) : (loadOne s n).safe = s.safe := by simp [loadOne]

@[simp ↓] theorem loadAll_safe (s : State) : (loadAll s).safe = s.safe := by simp [loadAll]

@[simp ↓] theorem loadAt_safe (c : Nat) (s : State) : (loadAt c s).safe = s.safe := by
  unfold loadAt
  repeat' first | (simp; done) | split | (dsimp only; split)

@[simp ↓] theorem shedCh_safe (n : Fin 10) (s : State) : (shedCh n s).safe = s.safe := by simp [shedCh]

@[simp ↓] theorem shedOne_safe (s : State) : (shedOne s).safe = s.safe := by
  unfold shedOne
  repeat' first | (simp; done) | split | (dsimp only; split)

@[simp ↓] theorem budgetShed_safe (avg : BitVec 16) (s : State) : (budgetShed avg s).safe = s.safe := by simp [budgetShed]

@[simp ↓] theorem shedReenable_safe (s : State) : (shedReenable s).safe = s.safe := by
  unfold shedReenable
  repeat' first | (simp; done) | split | (dsimp only; split)

@[simp ↓] theorem shedAgain_safe (n : Fin 10) (was : Bool) (s : State) :
    (shedAgain n was s).safe = s.safe := by simp [shedAgain]

@[simp ↓] theorem loadCmd_safe (n : Fin 10) (cmd : BitVec 2) (s : State) : (loadCmd n cmd s).safe = s.safe := by simp [loadCmd]

@[simp ↓] theorem loadClrLatch_safe (n : Fin 10) (cool : Bool) (s : State) :
    (loadClrLatch n cool s).safe = s.safe := by simp [loadClrLatch]

@[simp ↓] theorem loadThermal_safe (n : Fin 10) (guard : Bool) (temp : BitVec 16) (s : State) :
    (loadThermal n guard temp s).safe = s.safe := by simp [loadThermal]

@[simp ↓] theorem loadRestart_safe (n : Fin 10) (s : State) : (loadRestart n s).safe = s.safe := by simp [loadRestart]

@[simp ↓] theorem deferredTurnOn_safe (s : State) : (deferredTurnOn s).safe = s.safe := by
  unfold deferredTurnOn
  repeat' first | (simp; done) | split | (dsimp only; split)

@[simp ↓] theorem loadSense_safe (ch : BitVec 4) (s : State) : (loadSense ch s).safe = s.safe := by simp [loadSense]

@[simp ↓] theorem senseTest_safe (s : State) : (senseTest s).safe = s.safe := by simp [senseTest]

@[simp ↓] theorem loadWdStart_safe (s : State) : (loadWdStart s).safe = s.safe := by simp [loadWdStart]

@[simp ↓] theorem loadWdExpire_safe (cause : BitVec 2) (s : State) : (loadWdExpire cause s).safe = s.safe := by simp [loadWdExpire]

@[simp ↓] theorem loadService_safe (resp : BitVec 16) (s : State) : (loadService resp s).safe = s.safe := by simp [loadService]

@[simp ↓] theorem loadWdrel_safe (s : State) : (loadWdrel s).safe = s.safe := by simp [loadWdrel]

@[simp ↓] theorem loadClrcnt_safe (s : State) : (loadClrcnt s).safe = s.safe := by simp [loadClrcnt]

/-! ### Machine/Pilot.lean -/

@[simp ↓] theorem linkLost_safe (s : State) (n : Port) : (linkLost s n).safe = s.safe := by simp [linkLost]

@[simp ↓] theorem setPState_safe (s : State) (n : Port) (st : PState) : (setPState s n st).safe = s.safe := by simp [setPState]

@[simp ↓] theorem imposeOverride_safe (s : State) (n : Port) : (imposeOverride s n).safe = s.safe := by
  unfold imposeOverride
  repeat' first | (simp; done) | split | (dsimp only; split)

@[simp ↓] theorem showState_safe (s : State) (n : Port) : (showState s n).safe = s.safe := by simp [showState]

@[simp ↓] theorem setClass_safe (s : State) (n : Port) (k : PState) : (setClass s n k).safe = s.safe := by simp [setClass]

@[simp ↓] theorem pilotsStart_safe (s : State) : (pilotsStart s).safe = s.safe := by simp [pilotsStart]

@[simp ↓] theorem classify_safe (s : State) (n : Port) (vh : Option Int) : (classify s n vh).safe = s.safe := by
  unfold classify
  repeat' first | (simp; done) | split | (dsimp only; split)

@[simp ↓] theorem measurePeriod_safe (s : State) (n : Port) (samples : List (BitVec 12)) :
    (measurePeriod s n samples).safe = s.safe := by
  unfold measurePeriod
  repeat' first | (simp; done) | split | (dsimp only; split)

@[simp ↓] theorem nextPeriod_safe (s : State) (n : Port) : (nextPeriod s n).safe = s.safe := by simp [nextPeriod]

@[simp ↓] theorem pilotPeriodEnd_safe (n : Port) (samples : List (BitVec 12)) (s : State) :
    (pilotPeriodEnd n samples s).safe = s.safe := by simp [pilotPeriodEnd]

@[simp ↓] theorem pilotCtl_safe (n : Port) (w : Word) (s : State) : (pilotCtl n w s).safe = s.safe := by simp [pilotCtl]

@[simp ↓] theorem pevtClrcnt_safe (n : Port) (s : State) : (pevtClrcnt n s).safe = s.safe := by simp [pevtClrcnt]

/-! ### Machine/Link.lean -/

@[simp ↓] theorem mmeLimit_safe (s : State) (n : Port) : ((mmeLimit s n).2).safe = s.safe := by
  unfold mmeLimit
  repeat' first | (simp; done) | split | (dsimp only; split)

@[simp ↓] theorem hearMme_safe (n : Port) (f : State → State) (s : State) (hf : ∀ s, (f s).safe = s.safe) :
    (hearMme n f s).safe = s.safe := by simp [hearMme, hf]

@[simp ↓] theorem startAtten_safe (n : Port) (mac : BitVec 48) (run : BitVec 64) (announced : Nat) (s : State) :
    (startAtten n mac run announced s).safe = s.safe := by simp [startAtten]

@[simp ↓] theorem sounding_safe (n : Port) (mac : BitVec 48) (run : BitVec 64) (groups : List Nat) (s : State) :
    (sounding n mac run groups s).safe = s.safe := by simp [sounding]

@[simp ↓] theorem soundInd_safe (n : Port) (mac : BitVec 48) (run : BitVec 64) (groups : List Nat) (s : State) :
    (soundInd n mac run groups s).safe = s.safe := by simp [soundInd]

@[simp ↓] theorem windowClose_safe (mac : BitVec 48) (run : BitVec 64) (s : State) :
    (windowClose mac run s).safe = s.safe := by
  unfold windowClose
  repeat' first | (simp; done) | split | (dsimp only; split)

@[simp ↓] theorem slacMatch_safe (n : Port) (mac : BitVec 48) (run : BitVec 64) (s : State) :
    (slacMatch n mac run s).safe = s.safe := by simp [slacMatch]

@[simp ↓] theorem slacRearm_safe (n : Port) (s : State) : (slacRearm n s).safe = s.safe := by simp [slacRearm]

@[simp ↓] theorem announce_safe (src : Fin 4) (at_ : Nat) (s : State) : (announce src at_ s).safe = s.safe := by simp [announce]

@[simp ↓] theorem storeFrame_safe (n : Port) (frame : List Byte) (erased blanked : Nat) (xr6 : Bool) (s : State) :
    (storeFrame n frame erased blanked xr6 s).safe = s.safe := by simp [storeFrame]

@[simp ↓] theorem t1sUp_safe (n : Port) (s : State) : (t1sUp n s).safe = s.safe := by simp [t1sUp]

@[simp ↓] theorem takeFrame_safe (n : Port) (own xr6 : Bool) (frame : List Byte) (erased blanked : Nat) (s : State) :
    (takeFrame n own xr6 frame erased blanked s).safe = s.safe := by simp [takeFrame]

@[simp ↓] theorem frameReceive_safe (n : Port) (kind : FrameKind) (frame : List Byte) (samples : List Int) (s : State) :
    (frameReceive n kind frame samples s).safe = s.safe := by
  unfold frameReceive
  repeat' first | (simp; done) | split | (dsimp only; split)

@[simp ↓] theorem txPush_safe (n : Port) (w : Word) (s : State) : (txPush n w s).safe = s.safe := by simp [txPush]

@[simp ↓] theorem frameSent_safe (n : Port) (air : Nat) (s : State) : (frameSent n air s).safe = s.safe := by
  unfold frameSent
  repeat' first | (simp; done) | split | (dsimp only; split)

@[simp ↓] theorem levtClrcnt_safe (n : Port) (s : State) : (levtClrcnt n s).safe = s.safe := by simp [levtClrcnt]

@[simp ↓] theorem tlsKeyWord_safe (n : Port) (w : Word) (s : State) : (tlsKeyWord n w s).safe = s.safe := by simp [tlsKeyWord]

@[simp ↓] theorem tlsInstall_safe (rx : Bool) (n : Port) (s : State) : (tlsInstall rx n s).safe = s.safe := by simp [tlsInstall]

@[simp ↓] theorem tlsClear_safe (n : Port) (s : State) : (tlsClear n s).safe = s.safe := by simp [tlsClear]

@[simp ↓] theorem tlsQueue_safe (n : Port) (rx : Bool) (ctype : Byte) (len : Nat) (s : State) :
    (tlsQueue n rx ctype len s).safe = s.safe := by simp [tlsQueue]

/-! ### Machine/Caldera.lean -/

@[simp ↓] theorem pilotHold_safe (n : Port) (on : Bool) (s : State) : (pilotHold n on s).safe = s.safe := by simp [pilotHold]

/-! ### Machine/CanBus.lean -/

@[simp ↓] theorem canReceive_safe (b : Fin 3) (f : CanFrame) (s : State) :
    (canReceive b f s).safe = s.safe := by simp [canReceive]

@[simp ↓] theorem canTransmit_safe (b : Fin 3) (sent : Bool) (s : State) :
    (canTransmit b sent s).safe = s.safe := by
  unfold canTransmit
  repeat' first | (simp; done) | split | (dsimp only; split)

@[simp ↓] theorem canTimeout_safe (b : Fin 3) (s : State) : (canTimeout b s).safe = s.safe := by simp [canTimeout]

@[simp ↓] theorem sfLoad_safe (b : Fin 3) (e : Fin 16) (s : State) : (sfLoad b e s).safe = s.safe := by simp [sfLoad]

@[simp ↓] theorem sfClear_safe (b : Fin 3) (e : Fin 16) (s : State) : (sfClear b e s).safe = s.safe := by simp [sfClear]

@[simp ↓] theorem sfEntry_safe (b : Fin 3) (e : Fin 16) (s : State) : (sfEntry b e s).safe = s.safe := by simp [sfEntry]

@[simp ↓] theorem canRecov_safe (b : Fin 3) (s : State) : (canRecov b s).safe = s.safe := by simp [canRecov]

@[simp ↓] theorem canState_safe (b : Fin 3) (st : CanState) (s : State) : (canState b st s).safe = s.safe := by simp [canState]

@[simp ↓] theorem canRecovered_safe (b : Fin 3) (s : State) : (canRecovered b s).safe = s.safe := by simp [canRecovered]

@[simp ↓] theorem canErrors_safe (b : Fin 3) (tec rcc : Byte) (s : State) :
    (canErrors b tec rcc s).safe = s.safe := by simp [canErrors]

@[simp ↓] theorem canClrcnt_safe (b : Fin 3) (s : State) : (canClrcnt b s).safe = s.safe := by simp [canClrcnt]

@[simp ↓] theorem gpioSet_safe (f : Gpio → Gpio) (s : State) : (gpioSet f s).safe = s.safe := by simp [gpioSet]

/-! ### Machine/Irq.lean -/

@[simp ↓] theorem plicClaim_safe (ctx : Fin 8) (s : State) : (plicClaim ctx s).safe = s.safe := by simp [plicClaim]

@[simp ↓] theorem plicComplete_safe (ctx : Fin 8) (src : Word) (s : State) :
    (plicComplete ctx src s).safe = s.safe := by simp [plicComplete]

/-! ### Machine/Mem.lean -/

@[simp ↓] theorem State.ramWrite_safe (s : State) (a : Nat) (bs : List Byte) :
    (State.ramWrite s a bs).safe = s.safe := by simp [State.ramWrite]

@[simp ↓] theorem State.norWrite_safe (s : State) (o : Nat) (bs : List Byte) :
    (State.norWrite s o bs).safe = s.safe := by simp [State.norWrite]

@[simp ↓] theorem State.norErase_safe (s : State) (o n : Nat) : (State.norErase s o n).safe = s.safe := by simp [State.norErase]

@[simp ↓] theorem State.eccErrs_safe (s : State) (k a req : Nat) :
    (State.eccErrs s k a req).safe = s.safe := by simp [State.eccErrs]

@[simp ↓] theorem State.eccErr_safe (s : State) (a : Nat) (req : Nat) :
    (State.eccErr s a req).safe = s.safe := by simp [State.eccErr]

@[simp ↓] theorem State.eccRun_safe (s : State) (a n req : Nat) :
    (State.eccRun s a n req).safe = s.safe := by simp [State.eccRun]

@[simp ↓] theorem parRecord_safe (req : Nat) (a : Word) (onResponse : Bool) (s : State) :
    (parRecord req a onResponse s).safe = s.safe := by simp [parRecord]

@[simp ↓] theorem State.mark_safe (s : State) (a : Nat) : (State.mark s a).safe = s.safe := by simp [State.mark]

@[simp ↓] theorem State.srcBytes_safe (s : State) (req a n : Nat) : (State.srcBytes s req a n).2.safe = s.safe := by
  unfold State.srcBytes
  repeat' first | (simp; done) | split | (dsimp only; split)

theorem ramStore_safe (s t : State) (a : Nat) (bs : List Byte) (h : ramStore s a bs = some t) : t.safe = s.safe := by
  unfold ramStore at h
  dsimp only at h
  split at h
  · cases h
  · cases h; simp

@[simp] theorem ramStore_getD_safe (s : State) (a : Nat) (bs : List Byte) : ((ramStore s a bs).getD s).safe = s.safe := by
  cases h : ramStore s a bs with
  | none => rfl
  | some t => exact ramStore_safe s t a bs h

@[simp ↓] theorem State.appWrite_safe (s : State) (req a : Nat) (bs : List Byte) :
    (State.appWrite s req a bs).safe = s.safe := by
  unfold State.appWrite
  dsimp only
  split
  · split
    · rename_i h; rw [ramStore_safe _ _ _ _ h, State.tagged_safe]
    · simp
  · simp

/-! ### Machine/Tls.lean -/

@[simp ↓] theorem tlsEnd_safe (n : Port) (rx : Bool) (res olen : Nat) (itype : Option Byte) (s : State) :
    (tlsEnd n rx res olen itype s).safe = s.safe := by simp [tlsEnd]

@[simp ↓] theorem tlsOk_safe (n : Port) (rx : Bool) (dst : Word) (out : List Byte) (itype : Option Byte) (s : State) :
    (tlsOk n rx dst out itype s).safe = s.safe := by simp [tlsOk]

@[simp ↓] theorem tlsTxDone_safe (n : Port) (o : TlsOp) (suite : Nat) (k : TlsKeys) (seq : Nat) (s : State) :
    (tlsTxDone n o suite k seq s).safe = s.safe := by simp [tlsTxDone]

@[simp ↓] theorem tlsRxDone_safe (n : Port) (o : TlsOp) (suite : Nat) (k : TlsKeys) (seq : Nat) (s : State) :
    (tlsRxDone n o suite k seq s).safe = s.safe := by
  unfold tlsRxDone
  repeat' first | (simp; done) | split | (dsimp only; split)

@[simp ↓] theorem tlsServe_safe (n : Port) (rx : Bool) (s : State) : (tlsServe n rx s).safe = s.safe := by
  unfold tlsServe
  repeat' first | (simp; done) | split | (dsimp only; split)

@[simp ↓] theorem tlsComplete_safe (n : Port) (rx : Bool) (s : State) : (tlsComplete n rx s).safe = s.safe := by
  unfold tlsComplete
  repeat' first | (simp; done) | split | (dsimp only; split)

/-! ### Machine/Checks.lean -/

@[simp ↓] theorem State.withParams_safe (s : State) (b : List (Nat × Word)) :
    (State.withParams s b).safe = s.safe := by simp [State.withParams]

/-! ### Machine/Fabric.lean -/

@[simp ↓] theorem restartParts_safe (ps : List (Fin 8)) (s : State) :
    (restartParts ps s).safe = s.safe := by simp [restartParts]

/-! ### Machine/DmaCtl.lean -/

@[simp ↓] theorem State.modDma_safe (s : State) (c : Fin 32) (f : DmaCh → DmaCh) :
    (State.modDma s c f).safe = s.safe := by simp [State.modDma]

@[simp ↓] theorem settleReq_safe (c : Fin 32) (s : State) : (settleReq c s).safe = s.safe := by simp [settleReq]

@[simp ↓] theorem requestAssert_safe (r : Fin 32) (s : State) : (requestAssert r s).safe = s.safe := by simp [requestAssert]

@[simp ↓] theorem requestWithdraw_safe (r : Fin 32) (s : State) : (requestWithdraw r s).safe = s.safe := by simp [requestWithdraw]

@[simp ↓] theorem delivered_safe (r : Nat) (s : State) : (delivered r s).safe = s.safe := by
  unfold delivered
  repeat' first | (simp; done) | split | (dsimp only; split)

@[simp ↓] theorem writeStatus_safe (c : Fin 32) (addr : Nat) (irq : Bool) (res : DmaResult) (bytes : Nat) (s : State) :
    (writeStatus c addr irq res bytes s).safe = s.safe := by simp [writeStatus]

@[simp ↓] theorem dmaHalt_safe (c : Fin 32) (s : State) : (dmaHalt c s).safe = s.safe := by simp [dmaHalt]

@[simp ↓] theorem dropRest_safe (r : Nat) (s : State) :
    (dropRest r s).safe = s.safe := by
  unfold dropRest
  repeat' first | (simp; done) | split | (dsimp only; split)

@[simp ↓] theorem dmaStop_safe (c : Fin 32) (s : State) : (dmaStop c s).safe = s.safe := by simp [dmaStop]

@[simp ↓] theorem fetchDesc_safe (a : Nat) (hit : Option Bool) (s : State) :
    ((fetchDesc a hit s).2.2).safe = s.safe := by
  unfold fetchDesc
  dsimp only
  split <;> simp

@[simp ↓] theorem loadDesc_safe (c : Fin 32) (hit : Option Bool) (s : State) : (loadDesc c hit s).safe = s.safe := by
  unfold loadDesc
  repeat' first | (simp; done) | split | (dsimp only; split)

@[simp ↓] theorem dmaFinish_safe (c : Fin 32) (hit : Option Bool) (s : State) :
    (dmaFinish c hit s).safe = s.safe := by
  unfold dmaFinish
  repeat' first | (simp; done) | split | (dsimp only; split)

@[simp ↓] theorem selectRequest_safe (c : Fin 32) (sel : BitVec 5) (stays : Bool) (s : State) :
    (selectRequest c sel stays s).safe = s.safe := by simp [selectRequest]

@[simp ↓] theorem setPrio_safe (c : Fin 32) (p : BitVec 2) (s : State) : (setPrio c p s).safe = s.safe := by simp [setPrio]

@[simp ↓] theorem dmaEnable_safe (c : Fin 32) (hit : Option Bool) (s : State) :
    (dmaEnable c hit s).safe = s.safe := by simp [dmaEnable]

@[simp ↓] theorem dmaDisable_safe (c : Fin 32) (s : State) : (dmaDisable c s).safe = s.safe := by
  unfold dmaDisable
  repeat' first | (simp; done) | split | (dsimp only; split)

@[simp ↓] theorem dmaAllOff_safe (s : State) : (dmaAllOff s).safe = s.safe := by simp [dmaAllOff]

@[simp ↓] theorem dmaAbort_safe (c : Fin 32) (s : State) : (dmaAbort c s).safe = s.safe := by
  unfold dmaAbort
  repeat' first | (simp; done) | split | (dsimp only; split)

@[simp ↓] theorem dmaKick_safe (c : Fin 32) (hit : Option Bool) (s : State) :
    (dmaKick c hit s).safe = s.safe := by simp [dmaKick]

@[simp ↓] theorem dmaClear_safe (s : State) : (dmaClear s).safe = s.safe := by simp [dmaClear]

/-! ### Machine/Modes.lean -/

@[simp ↓] theorem rollbackDom_safe (d : Fin 6) (s : State) : (rollbackDom d s).safe = s.safe := by simp [rollbackDom]

@[simp ↓] theorem rollbackOpen_safe (s : State) : (rollbackOpen s).safe = s.safe := by simp [rollbackOpen]

@[simp ↓] theorem portsSilent_safe (s : State) : (portsSilent s).safe = s.safe := by simp [portsSilent]

@[simp ↓] theorem trialFails_safe (s : State) : (trialFails s).safe = s.safe := by simp [trialFails]

@[simp ↓] theorem confirmClosed_safe (n : Port) (s : State) : (confirmClosed n s).safe = s.safe := by simp [confirmClosed]

/-! ### Machine/Sec.lean -/

@[simp ↓] theorem secQueue_safe (op : BitVec 6) (port : BitVec 4) (key : BitVec 6) (len : BitVec 16) (s : State) :
    (secQueue op port key len s).safe = s.safe := by simp [secQueue]

@[simp ↓] theorem gcmAux_safe (a : Word) (s : State) : ((gcmAux a s).2.2).safe = s.safe := by simp [gcmAux]

@[simp ↓] theorem putKey_safe (k : BitVec 6) (x : HostKey) (s : State) : (putKey k x s).safe = s.safe := by simp [putKey]

@[simp] theorem secFail_safe (r : SecRes) (s : State) : (SecOut.fail r s).s.safe = s.safe := rfl
@[simp] theorem secGenkey_safe (o : SecOp) (s : State) : (secGenkey o s).s.safe = s.safe := by
  unfold secGenkey
  (repeat' (first | with_reducible rfl | (simp; done) | split | (dsimp only; split) | refine (forAll_safe _ _ _ (fun _ _ => ?_)).trans ?_ | (dsimp only; refine (forAll_safe _ _ _ (fun _ _ => ?_)).trans ?_)))
@[simp] theorem secAes_safe (o : SecOp) (src : List Byte) (k : HostKey) (s : State) : (secAes o src k s).s.safe = s.safe := by
  unfold secAes
  (repeat' (first | with_reducible rfl | (simp; done) | split | (dsimp only; split) | refine (forAll_safe _ _ _ (fun _ _ => ?_)).trans ?_ | (dsimp only; refine (forAll_safe _ _ _ (fun _ _ => ?_)).trans ?_)))
@[simp] theorem secEc_safe (o : SecOp) (src : List Byte) (k : HostKey) (s : State) : (secEc o src k s).s.safe = s.safe := by
  unfold secEc
  (repeat' (first | with_reducible rfl | (simp; done) | split | (dsimp only; split) | refine (forAll_safe _ _ _ (fun _ _ => ?_)).trans ?_ | (dsimp only; refine (forAll_safe _ _ _ (fun _ _ => ?_)).trans ?_)))
@[simp] theorem secVerify_safe (o : SecOp) (src : List Byte) (s : State) : (secVerify o src s).s.safe = s.safe := by
  unfold secVerify
  (repeat' (first | with_reducible rfl | (simp; done) | split | (dsimp only; split) | refine (forAll_safe _ _ _ (fun _ _ => ?_)).trans ?_ | (dsimp only; refine (forAll_safe _ _ _ (fun _ _ => ?_)).trans ?_)))
@[simp] theorem secImport_safe (o : SecOp) (src : List Byte) (s : State) : (secImport o src s).s.safe = s.safe := by
  unfold secImport
  (repeat' (first | with_reducible rfl | (simp; done) | split | (dsimp only; split) | refine (forAll_safe _ _ _ (fun _ _ => ?_)).trans ?_ | (dsimp only; refine (forAll_safe _ _ _ (fun _ _ => ?_)).trans ?_)))
@[simp] theorem secAttest_safe (src : List Byte) (s : State) : (secAttest src s).s.safe = s.safe := by
  unfold secAttest
  (repeat' (first | with_reducible rfl | (simp; done) | split | (dsimp only; split) | refine (forAll_safe _ _ _ (fun _ _ => ?_)).trans ?_ | (dsimp only; refine (forAll_safe _ _ _ (fun _ _ => ?_)).trans ?_)))
@[simp] theorem secRun_safe (o : SecOp) (s : State) : (secRun o s).s.safe = s.safe := by
  unfold secRun
  (repeat' (first | with_reducible rfl | (simp; done) | split | (dsimp only; split) | refine (forAll_safe _ _ _ (fun _ _ => ?_)).trans ?_ | (dsimp only; refine (forAll_safe _ _ _ (fun _ _ => ?_)).trans ?_)))

@[simp ↓] theorem secComplete_safe (s : State) : (secComplete s).safe = s.safe := by
  unfold secComplete
  repeat' first | (simp; done) | split | (dsimp only; split)

@[simp ↓] theorem auditTamper_safe (s : State) : (auditTamper s).safe = s.safe := by
  unfold auditTamper
  repeat' first | (simp; done) | split | (dsimp only; split)

@[simp ↓] theorem tamper_safe (det : Word) (s : State) : (tamper det s).safe = s.safe := by simp [tamper]

/-! ### Machine/Upd.lean -/

@[simp ↓] theorem beginNew_safe (man : List Byte) (s : State) : (beginNew man s).safe = s.safe := by simp [beginNew]

@[simp ↓] theorem updBegin_safe (a : Vector Word 16) (s : State) : ((updBegin a s).s).safe = s.safe := by simp [updBegin]

@[simp ↓] theorem eraseStaging_safe (s : State) : (eraseStaging s).safe = s.safe := by simp [eraseStaging]

@[simp ↓] theorem beginDone_safe (ok : Bool) (s : State) : (beginDone ok s).safe = s.safe := by simp [beginDone]

@[simp ↓] theorem repairSector_safe (base size per : Nat) (sector : Nat) (s : State) :
    (repairSector base size per sector s).safe = s.safe := by simp [repairSector]

@[simp ↓] theorem repair_safe (k : Nat) (s : State) : (repair k s).safe = s.safe := by simp [repair]

@[simp ↓] theorem updSpore_safe (a : Vector Word 16) (s : State) : ((updSpore a s).s).safe = s.safe := by simp [updSpore]

@[simp ↓] theorem updMissing_safe (a : Vector Word 16) (s : State) : ((updMissing a s).s).safe = s.safe := by simp [updMissing]

@[simp ↓] theorem updVerify_safe (a_ : Vector Word 16) (s : State) : ((updVerify a_ s).s).safe = s.safe := by simp [updVerify]

@[simp ↓] theorem verifyDone_safe (ok : Bool) (s : State) : (verifyDone ok s).safe = s.safe := by simp [verifyDone]

@[simp ↓] theorem updActivate_safe (a : Vector Word 16) (s : State) : ((updActivate a s).s).safe = s.safe := by simp [updActivate]

@[simp ↓] theorem updCancel_safe (a : Vector Word 16) (s : State) : ((updCancel a s).s).safe = s.safe := by simp [updCancel]

@[simp ↓] theorem updConfirm_safe (a_ : Vector Word 16) (s : State) : ((updConfirm a_ s).s).safe = s.safe := by simp [updConfirm]

@[simp ↓] theorem reject_safe (reason hostcode : Nat) (s : State) :
    (reject reason hostcode s).safe = s.safe := by simp [reject]

@[simp ↓] theorem updReport_safe (a : Vector Word 16) (s : State) : ((updReport a s).s).safe = s.safe := by simp [updReport]

@[simp ↓] theorem updStatus_safe (a_ : Vector Word 16) (s : State) : ((updStatus a_ s).s).safe = s.safe := by simp [updStatus]

@[simp ↓] theorem windowWarning_safe (s : State) : (windowWarning s).safe = s.safe := by simp [windowWarning]

@[simp ↓] theorem windowExpiry_safe (s : State) : (windowExpiry s).safe = s.safe := by simp [windowExpiry]

@[simp ↓] theorem setOpen_safe (a_ : Vector Word 16) (s : State) : ((setOpen a_ s).s).safe = s.safe := by simp [setOpen]

@[simp ↓] theorem setOpenDone_safe (ok : Bool) (s : State) : (setOpenDone ok s).safe = s.safe := by simp [setOpenDone]

@[simp ↓] theorem State.norProgram_safe (s : State) (o : Nat) (l : List Byte) :
    (State.norProgram s o l).safe = s.safe := by simp [State.norProgram]

@[simp ↓] theorem setWrite_safe (a : Vector Word 16) (s : State) : ((setWrite a s).s).safe = s.safe := by
  unfold setWrite
  repeat' first | (simp; done) | split | (dsimp only; split)

@[simp ↓] theorem setCommit_safe (a : Vector Word 16) (s : State) : ((setCommit a s).s).safe = s.safe := by
  unfold setCommit
  repeat' first | (simp; done) | split | (dsimp only; split)

@[simp ↓] theorem keyRotate_safe (a : Vector Word 16) (s : State) : ((keyRotate a s).s).safe = s.safe := by simp [keyRotate]

@[simp ↓] theorem updClear_safe (s : State) : (updClear s).safe = s.safe := by simp [updClear]

/-! ### Machine/Display.lean -/

@[simp ↓] theorem railStep_safe (s : State) : (railStep s).safe = s.safe := by
  unfold railStep
  repeat' first | (simp; done) | split | (dsimp only; split)

@[simp ↓] theorem lowerRails_safe (s : State) : (lowerRails s).safe = s.safe := by
  unfold lowerRails
  repeat' first | (simp; done) | split | (dsimp only; split)

@[simp ↓] theorem fetchTarget_safe (r : Fin 16) (u : RunUpd) (s : State) : (fetchTarget r u s).2.safe = s.safe := by
  unfold fetchTarget
  repeat' first | (simp; done) | split | (dsimp only; split)

@[simp ↓] theorem beginUpdate_safe (r : Fin 16) (u : RunUpd) (s : State) :
    (beginUpdate r u s).safe = s.safe := by simp [beginUpdate]

@[simp ↓] theorem noteTemp_safe (s : State) : (noteTemp s).safe = s.safe := by simp [noteTemp]

@[simp ↓] theorem raiseRails_safe (s : State) : (raiseRails s).safe = s.safe := by simp [raiseRails]

@[simp ↓] theorem startPending_safe (r : Fin 16) (q : PendUpd) (band : Nat) (s : State) :
    (startPending r q band s).safe = s.safe := by simp [startPending]

@[simp ↓] theorem updateStart_safe (slot : Fin 4) (s : State) : (updateStart slot s).safe = s.safe := by
  unfold updateStart
  repeat' first | (simp; done) | split | (dsimp only; split)

@[simp ↓] theorem setPermit_safe (on : Bool) (s : State) : (setPermit on s).safe = s.safe := by
  unfold setPermit
  repeat' first | (simp; done) | split | (dsimp only; split)

@[simp ↓] theorem permitCheck_safe (s : State) : (permitCheck s).safe = s.safe := by simp [permitCheck]

@[simp ↓] theorem finishUpdate_safe (r : Fin 16) (u : RunUpd) (s : State) :
    (finishUpdate r u s).safe = s.safe := by simp [finishUpdate]

@[simp ↓] theorem followLater_safe (r : Fin 16) (m : BitVec 3) (u : RunUpd) (s : State) :
    (followLater r m u s).safe = s.safe := by simp [followLater]

@[simp ↓] theorem updateEnd_safe (r : Fin 16) (s : State) : (updateEnd r s).safe = s.safe := by
  unfold updateEnd
  repeat' first | (simp; done) | split | (dsimp only; split)

@[simp ↓] theorem updateRequest_safe (r : Fin 16) (mode : BitVec 3) (s : State) :
    (updateRequest r mode s).safe = s.safe := by simp [updateRequest]

@[simp ↓] theorem queueRedraw_safe (s : State) (r : Fin 16) : (queueRedraw s r).safe = s.safe := by simp [queueRedraw]

@[simp ↓] theorem queueRedraws_safe (s : State) : (queueRedraws s).safe = s.safe := by simp [queueRedraws]

@[simp ↓] theorem railFault_safe (rail : Fin 5) (s : State) : (railFault rail s).safe = s.safe := by simp [railFault]

@[simp ↓] theorem railRetry_safe (s : State) : (railRetry s).safe = s.safe := by simp [railRetry]

@[simp ↓] theorem dispClrcnt_safe (s : State) : (dispClrcnt s).safe = s.safe := by simp [dispClrcnt]

/-! ### Machine/SysCtl.lean -/

@[simp ↓] theorem thermal1_safe (s : State) : (thermal1 s).safe = s.safe := by simp [thermal1]

@[simp ↓] theorem degcfgWrite_safe (v : Word) (s : State) : (degcfgWrite v s).safe = s.safe := by simp [degcfgWrite]

@[simp ↓] theorem vcoreWrite_safe (v : Word) (s : State) : (vcoreWrite v s).safe = s.safe := by simp [vcoreWrite]

@[simp ↓] theorem capMeasured_safe (t : Nat) (vsup : BitVec 12) (s : State) :
    (capMeasured t vsup s).safe = s.safe := by simp [capMeasured]

@[simp ↓] theorem holdReady_safe (vsup vhold : BitVec 12) (s : State) :
    (holdReady vsup vhold s).safe = s.safe := by simp [holdReady]

@[simp ↓] theorem coreResume_safe (s : State) : (coreResume s).safe = s.safe := by simp [coreResume]

@[simp ↓] theorem meshClear_safe (s : State) : (meshClear s).safe = s.safe := by simp [meshClear]

/-! ### Machine/SafeCalls.lean -/

@[simp ↓] theorem safeBody_safe (inLockout outlet : Bool) (body : Vector Word 16 → State → Reply) (a : Vector Word 16) (s : State) (hbody : ∀ x0 s, ((body x0 s).s).safe = s.safe) :
    ((safeBody inLockout outlet body a s).s).safe = s.safe := by simp [safeBody, hbody]

@[simp ↓] theorem safeCall_safe (cmd : Nat) (inLockout outlet : Bool) (c : Call) (body : Vector Word 16 → State → Reply) (s : State) (hbody : ∀ x0 s, ((body x0 s).s).safe = s.safe) :
    (safeCall cmd inLockout outlet c body s).safe = s.safe := by simp [safeCall, hbody]

@[simp ↓] theorem readChkval_safe (a_ : Vector Word 16) (s : State) : ((readChkval a_ s).s).safe = s.safe := by simp [readChkval]

@[simp ↓] theorem linkKeyLoad_safe (a : Vector Word 16) (s : State) : ((linkKeyLoad a s).s).safe = s.safe := by
  unfold linkKeyLoad
  repeat' first | (simp; done) | split | (dsimp only; split)

/-! ### Machine/Thl.lean -/

@[simp ↓] theorem slotStart_safe (cmd : SlotCmd) (allowed : Bool) (k : Fin 2) (s : State) :
    (slotStart cmd allowed k s).safe = s.safe := by simp [slotStart]

@[simp ↓] theorem slotWriteCmd_safe (k : Fin 2) (s : State) : (slotWriteCmd k s).safe = s.safe := by simp [slotWriteCmd]

@[simp ↓] theorem slotSwitchCmd_safe (k : Fin 2) (s : State) : (slotSwitchCmd k s).safe = s.safe := by simp [slotSwitchCmd]

@[simp ↓] theorem State.freeBytes_safe (s : State) (n : Nat) : ((State.freeBytes s n).2).safe = s.safe := by simp [State.freeBytes]

@[simp ↓] theorem slotErased_safe (k : Fin 2) (ok : Bool) (s : State) :
    ((slotErased k ok s).1).safe = s.safe := by
  unfold slotErased
  repeat' first | (simp; done) | split | (dsimp only; split)

@[simp ↓] theorem slotWritten_safe (k : Fin 2) (ok : Bool) (s : State) :
    ((slotWritten k ok s).1).safe = s.safe := by
  unfold slotWritten
  repeat' first | (simp; done) | split | (dsimp only; split)

@[simp ↓] theorem slotVerified_safe (k : Fin 2) (ok : Bool) (s : State) :
    ((slotVerified k ok s).1).safe = s.safe := by simp [slotVerified]

@[simp ↓] theorem slotCommandDone_safe (ok : Bool) (s : State) : (slotCommandDone ok s).safe = s.safe := by
  unfold slotCommandDone
  repeat' first | (simp; done) | split | (dsimp only; split)

@[simp ↓] theorem stageEnd_safe (r : Nat) (c : List Byte) (s : State) : (stageEnd r c s).safe = s.safe := by simp [stageEnd]

@[simp ↓] theorem prStage_safe (s : State) : (prStage s).safe = s.safe := by simp [prStage]

@[simp ↓] theorem stagingDone_safe (s : State) : (stagingDone s).safe = s.safe := by simp [stagingDone]

@[simp ↓] theorem prDiscard_safe (s : State) : (prDiscard s).safe = s.safe := by simp [prDiscard]

@[simp ↓] theorem writeIn_safe (s : State) : (writeIn s).safe = s.safe := by simp [writeIn]

@[simp ↓] theorem State.modPart_safe (s : State) (p : Fin 8) (f : PartCnt → PartCnt) :
    (State.modPart s p f).safe = s.safe := by simp [State.modPart]

@[simp ↓] theorem scrubCorrect_safe (p : Fin 8) (s : State) : (scrubCorrect p s).safe = s.safe := by simp [scrubCorrect]

@[simp ↓] theorem thlClear_safe (s : State) : (thlClear s).safe = s.safe := by simp [thlClear]

@[simp ↓] theorem gSignal_safe (g : GSignal) (s : State) : (gSignal g s).safe = s.safe := by
  unfold gSignal
  repeat' first | (simp; done) | split | (dsimp only; split)

/-! ### Machine/Txn.lean -/

@[simp ↓] theorem place_safe (d : Fin 6) (a : Nat) (v : Word) (s : State) : (place d a v s).safe = s.safe := by
  unfold place
  repeat' first | (simp; done) | split | (dsimp only; split)

@[simp ↓] theorem rwtWrite_safe (a : Nat) (v : Word) (s : State) : (rwtWrite a v s).safe = s.safe := by
  unfold rwtWrite
  repeat' first | (simp; done) | split | (dsimp only; split)

@[simp ↓] theorem txnBody_safe (body : Vector Word 16 → State → Reply) (a : Vector Word 16) (s : State) (hbody : ∀ x0 s, ((body x0 s).s).safe = s.safe) :
    ((txnBody body a s).s).safe = s.safe := by simp [txnBody, hbody]

@[simp ↓] theorem txnBegin_safe (a : Vector Word 16) (s : State) : ((txnBegin a s).s).safe = s.safe := by
  unfold txnBegin
  repeat' first | (simp; done) | split | (dsimp only; split)

@[simp] theorem txnNamed_safe (s : State) (a : Vector Word 16) (f : Fin 6 → Reply)
    (hf : ∀ d, (f d).s.safe = s.safe) : (txnNamed s a f).s.safe = s.safe := by
  unfold txnNamed
  split
  · rfl
  · exact checks_safe _ _ _ (hf _)

@[simp ↓] theorem txnCommit_safe (a : Vector Word 16) (s : State) : ((txnCommit a s).s).safe = s.safe := by simp [txnCommit]

@[simp ↓] theorem txnRollback_safe (a : Vector Word 16) (s : State) : ((txnRollback a s).s).safe = s.safe := by simp [txnRollback]

@[simp ↓] theorem txnRenew_safe (a : Vector Word 16) (s : State) : ((txnRenew a s).s).safe = s.safe := by simp [txnRenew]

@[simp ↓] theorem txnPut_safe (a : Vector Word 16) (s : State) : ((txnPut a s).s).safe = s.safe := by
  unfold txnPut
  repeat' first | (simp; done) | split | (dsimp only; split)

@[simp ↓] theorem leaseExpiry_safe (d : Fin 6) (s : State) : (leaseExpiry d s).safe = s.safe := by simp [leaseExpiry]

@[simp ↓] theorem journalChanges_safe (l : List (Nat × Word × Word)) (s : State) :
    (journalChanges l s).safe = s.safe := by simp [journalChanges]

@[simp ↓] theorem auditChanges_safe (window : Nat) (reason : Byte) (l : List (Nat × Word × Word)) (s : State) :
    (auditChanges window reason l s).safe = s.safe := by simp [auditChanges]

@[simp ↓] theorem commitSlots_safe (l : List (Nat × Word × Word)) (s : State) :
    (commitSlots l s).safe = s.safe := by simp [commitSlots]

@[simp ↓] theorem commitChannels_safe (l : List (Nat × Word × Word)) (s : State) :
    (commitChannels l s).safe = s.safe := by simp [commitChannels]

@[simp ↓] theorem commitMeters_safe (reason : Byte) (l : List (Nat × Word × Word)) (s : State) :
    (commitMeters reason l s).safe = s.safe := by simp [commitMeters]

@[simp ↓] theorem commitMet_safe (reason : Byte) (l : List (Nat × Word × Word)) (s : State) :
    (commitMet reason l s).safe = s.safe := by simp [commitMet]

@[simp ↓] theorem commitTokenKeys_safe (reason : Byte) (ks : List (Nat × Option (BitVec 128))) (s : State) :
    (commitTokenKeys reason ks s).safe = s.safe := by simp [commitTokenKeys]

@[simp ↓] theorem commitBill_safe (reason : Byte) (ks : List (Nat × Option (BitVec 128))) (l : List (Nat × Word × Word)) (s : State) :
    (commitBill reason ks l s).safe = s.safe := by simp [commitBill]

@[simp ↓] theorem frontLight_safe (old : Nat) (s : State) : (frontLight old s).safe = s.safe := by simp [frontLight]

@[simp ↓] theorem endCommit_safe (d : Fin 6) (st : Status) (s : State) : (endCommit d st s).safe = s.safe := by
  unfold endCommit
  repeat' first | (simp; done) | split | (dsimp only; split)

@[simp ↓] theorem txnClear_safe (s : State) : (txnClear s).safe = s.safe := by simp [txnClear]

@[simp ↓] theorem compatWrite_safe (i : Fin 28) (req : BitVec 16) (s : State) :
    (compatWrite i req s).safe = s.safe := by
  unfold compatWrite
  repeat' first | (simp; done) | split | (dsimp only; split)

/-! ### Machine/Keys.lean -/

@[simp ↓] theorem keyFifoRead_safe (s : State) : (keyFifoRead s).safe = s.safe := by
  unfold keyFifoRead
  repeat' first | (simp; done) | split | (dsimp only; split)

/-! ### Machine/RegRead.lean -/

@[simp ↓] theorem multiWrap_safe (s : State) (req a : Nat) (m : MeterId) (exp : Bool) :
    ((multiWrap s req a m exp).2).safe = s.safe := by simp [multiWrap]

@[simp ↓] theorem rosLatch_safe (req a : Nat) (k : BlkKind) (n base o : Nat) (s : State) :
    (rosLatch req a k n base o s).safe = s.safe := by
  unfold rosLatch
  repeat' first | (simp; done) | split | (dsimp only; split)

@[simp ↓] theorem regRead_safe (req a : Nat) (s : State) : (regRead req a s).safe = s.safe := by
  unfold regRead
  repeat' first | (simp; done) | split | (dsimp only; split)

/-! ### Machine/EthMac.lean -/

@[simp ↓] theorem ethStore_safe (m : Fin 2) (f : List Byte) (s : State) : (ethStore m f s).safe = s.safe := by simp [ethStore]

@[simp ↓] theorem ethTransmit_safe (m : Fin 2) (s : State) : (ethTransmit m s).safe = s.safe := by
  unfold ethTransmit
  repeat' first | (simp; done) | split | (dsimp only; split)

@[simp ↓] theorem ethLink_safe (m : Fin 2) (up : Bool) (speed : Fin 3) (full : Bool) (s : State) :
    (ethLink m up speed full s).safe = s.safe := by simp [ethLink]

@[simp ↓] theorem ethClrcnt_safe (m : Fin 2) (s : State) : (ethClrcnt m s).safe = s.safe := by simp [ethClrcnt]

/-! ### Machine/TimeSet.lean -/

@[simp ↓] theorem setLegal_safe (ms : Nat) (s : State) : (setLegal ms s).safe = s.safe := by simp [setLegal]

@[simp ↓] theorem adjustSmall_safe (old : Nat) (adj : Int) (new : Nat) (reason : Nat) (s : State) :
    (adjustSmall old adj new reason s).safe = s.safe := by simp [adjustSmall]

@[simp ↓] theorem adjustNote_safe (adj : Int) (reason : Nat) (s : State) :
    (adjustNote adj reason s).safe = s.safe := by simp [adjustNote]

@[simp ↓] theorem adjustBig_safe (old : Nat) (adj : Int) (new : Nat) (reason : Nat) (s : State) :
    (adjustBig old adj new reason s).safe = s.safe := by simp [adjustBig]

@[simp ↓] theorem adjustFirst_safe (adj : Int) (new : Nat) (reason : Nat) (s : State) :
    (adjustFirst adj new reason s).safe = s.safe := by simp [adjustFirst]

@[simp] theorem setTime_safe (a : Vector Word 16) (s : State) : (setTime a s).s.safe = s.safe := by
  unfold setTime
  refine checks_safe _ _ _ ?_
  (repeat' (first | with_reducible rfl | (simp; done) | split | (dsimp only; split) | refine (forAll_safe _ _ _ (fun _ _ => ?_)).trans ?_ | (dsimp only; refine (forAll_safe _ _ _ (fun _ _ => ?_)).trans ?_)))

@[simp ↓] theorem readTime_safe (a_ : Vector Word 16) (s : State) : ((readTime a_ s).s).safe = s.safe := by simp [readTime]

@[simp ↓] theorem rtcTrim_safe (a : Vector Word 16) (s : State) : ((rtcTrim a s).s).safe = s.safe := by simp [rtcTrim]

/-! ### Machine/RegWrite.lean -/

@[simp ↓] theorem metCalls_safe (cmd : Nat) (a : Vector Word 16) (s : State) :
    ((metCalls cmd a s).s).safe = s.safe := by
  unfold metCalls
  repeat' first | (simp; done) | split | (dsimp only; split)

@[simp ↓] theorem billCalls_safe (cmd : Nat) (a : Vector Word 16) (s : State) :
    ((billCalls cmd a s).s).safe = s.safe := by
  unfold billCalls
  repeat' first | (simp; done) | split | (dsimp only; split)

@[simp ↓] theorem txnCalls_safe (cmd : Nat) (a : Vector Word 16) (s : State) :
    ((txnCalls cmd a s).s).safe = s.safe := by
  unfold txnCalls
  repeat' first | (simp; done) | split | (dsimp only; split)

@[simp ↓] theorem updCalls_safe (cmd : Nat) (a : Vector Word 16) (s : State) :
    ((updCalls cmd a s).s).safe = s.safe := by
  unfold updCalls
  repeat' first | (simp; done) | split | (dsimp only; split)

@[simp ↓] theorem writeTime_safe (o : Nat) (v : Word) (s : State) : (writeTime o v s).safe = s.safe := by
  unfold writeTime
  repeat' first | (simp; done) | split | (dsimp only; split)

@[simp ↓] theorem writeChcfg_safe (c : Fin 32) (v : Word) (s : State) : (writeChcfg c v s).safe = s.safe := by simp [writeChcfg]

@[simp ↓] theorem writeDma_safe (o : Nat) (v : Word) (s : State) : (writeDma o v s).safe = s.safe := by
  unfold writeDma
  repeat' first | (simp; done) | split | (dsimp only; split)

@[simp ↓] theorem writeSec_safe (o : Nat) (v : Word) (s : State) : (writeSec o v s).safe = s.safe := by
  unfold writeSec
  repeat' first | (simp; done) | split | (dsimp only; split)

@[simp ↓] theorem writeSlotctl_safe (v : Word) (s : State) : (writeSlotctl v s).safe = s.safe := by
  unfold writeSlotctl
  repeat' first | (simp; done) | split | (dsimp only; split)

@[simp ↓] theorem writeThl_safe (o : Nat) (v : Word) (s : State) : (writeThl o v s).safe = s.safe := by
  unfold writeThl
  repeat' first | (simp; done) | split | (dsimp only; split)

@[simp ↓] theorem writeEth_safe (m : Fin 2) (o : Nat) (v : Word) (s : State) :
    (writeEth m o v s).safe = s.safe := by simp [writeEth]

@[simp ↓] theorem writeCan_safe (b : Fin 3) (o : Nat) (v : Word) (s : State) :
    (writeCan b o v s).safe = s.safe := by simp [writeCan]

@[simp ↓] theorem setPar_safe (a mask : Nat) (v : Word) (s : State) : (setPar a mask v s).safe = s.safe := by simp [setPar]

@[simp ↓] theorem writeLoad_safe (o : Nat) (v : Word) (s : State) : (writeLoad o v s).safe = s.safe := by
  unfold writeLoad
  repeat' first | (simp; done) | split | (dsimp only; split)

@[simp ↓] theorem writeGpio_safe (o : Nat) (v : Word) (s : State) : (writeGpio o v s).safe = s.safe := by
  unfold writeGpio
  repeat' first | (simp; done) | split | (dsimp only; split)

@[simp ↓] theorem writeMesh_safe (o : Nat) (v : Word) (s : State) : (writeMesh o v s).safe = s.safe := by simp [writeMesh]

@[simp ↓] theorem writeIntc_safe (o : Nat) (v : Word) (s : State) : (writeIntc o v s).safe = s.safe := by simp [writeIntc]

@[simp ↓] theorem writePevt_safe (n : Port) (v : Word) (s : State) : (writePevt n v s).safe = s.safe := by simp [writePevt]

@[simp ↓] theorem writeLevt_safe (n : Port) (v : Word) (s : State) : (writeLevt n v s).safe = s.safe := by simp [writeLevt]

@[simp ↓] theorem writeTlscfg_safe (n : Port) (v : Word) (s : State) : (writeTlscfg n v s).safe = s.safe := by simp [writeTlscfg]

@[simp ↓] theorem writeVp_safe (n : Port) (o : Nat) (v : Word) (s : State) :
    (writeVp n o v s).safe = s.safe := by
  unfold writeVp
  repeat' first | (simp; done) | split | (dsimp only; split)

@[simp ↓] theorem writeDisp_safe (base o : Nat) (v : Word) (s : State) :
    (writeDisp base o v s).safe = s.safe := by
  unfold writeDisp
  repeat' first | (simp; done) | split | (dsimp only; split)

@[simp] theorem memWrite_safe (req a : Nat) (bs : List Byte) (s : State) : (memWrite req a bs s).safe = s.safe := by
  unfold memWrite
  split
  · split
    · rename_i t h; rw [State.busOk_safe]; exact ramStore_safe s t a bs h
    · simp
  · split <;> simp

/-! ### Machine/Dma.lean -/

@[simp] theorem regWords_safe (a : Nat) (fixed : Bool) (n : Nat) (s : State) :
    (regWords a fixed n s).2.1.safe = s.safe := by
  induction n generalizing a s with
  | zero => rfl
  | succ n ih =>
    unfold regWords
    repeat' first | with_reducible rfl | (simp [ih]; done) | split | (dsimp only; split)

@[simp ↓] theorem regTail_safe (a len : Nat) (t : List Byte × State × Option DmaResult) :
    (regTail a len t).2.1.safe = t.2.1.safe := by
  unfold regTail
  split <;> simp

@[simp ↓] theorem readSource_safe (a len : Nat) (fixed : Bool) (s : State) :
    (readSource a len fixed s).2.1.safe = s.safe := by
  unfold readSource
  repeat' first | (simp; done) | split | (dsimp only; split)

@[simp ↓] theorem indexAt_safe (w : Vector Word 8) (i : Nat) (s : State) :
    (indexAt w i s).2.1.safe = s.safe := by simp [indexAt]

@[simp ↓] theorem periphTake_safe (r n : Nat) (s : State) : ((periphTake r n s).2).safe = s.safe := by
  unfold periphTake
  repeat' first | (simp; done) | split | (dsimp only; split)

@[simp ↓] theorem periphPut_safe (r : Nat) (bs : List Byte) (s : State) : (periphPut r bs s).safe = s.safe := by simp [periphPut]

@[simp ↓] theorem burstData_safe (w : Vector Word 8) (r off len src : Nat) (s : State) :
    ((burstData w r off len src s).2.1).safe = s.safe := by
  unfold burstData
  repeat' first | (simp; done) | split | (dsimp only; split)

@[simp ↓] theorem dmaAge_safe (g : Fin 32) (s : State) : (dmaAge g s).safe = s.safe := by simp [dmaAge]

@[simp ↓] theorem State.modRun_safe (s : State) (c : Fin 32) (f : DmaRun → DmaRun) :
    (State.modRun s c f).safe = s.safe := by simp [State.modRun]

@[simp ↓] theorem burstFails_safe (c : Fin 32) (e : DmaResult) (s : State) :
    (burstFails c e s).safe = s.safe := by simp [burstFails]

@[simp ↓] theorem dmaPrefetch_safe (c : Fin 32) (hit : Option Bool) (s : State) :
    (dmaPrefetch c hit s).safe = s.safe := by simp [dmaPrefetch]

/-! ### Machine/Save.lean -/

@[simp ↓] theorem tornSlot_safe (s : State) : (tornSlot s).safe = s.safe := by
  unfold tornSlot
  repeat' first | (simp; done) | split | (dsimp only; split)

@[simp ↓] theorem tornErase_safe (s : State) : (tornErase s).safe = s.safe := by simp [tornErase]

@[simp ↓] theorem tornSettings_safe (s : State) : (tornSettings s).safe = s.safe := by simp [tornSettings]

@[simp ↓] theorem tornFlash_safe (s : State) : (tornFlash s).safe = s.safe := by simp [tornFlash]

@[simp ↓] theorem stopRunning_safe (s : State) : (stopRunning s).safe = s.safe := by simp [stopRunning]

@[simp ↓] theorem holdPart_safe (bits : BitVec 16) (s : State) : (holdPart bits s).safe = s.safe := by simp [holdPart]

@[simp ↓] theorem powerFailAudits_safe (s : State) : (powerFailAudits s).safe = s.safe := by simp [powerFailAudits]

@[simp ↓] theorem lastFine_safe (w : BitVec 64) (g : Fin 2) (s : State) :
    (lastFine w g s).safe = s.safe := by simp [lastFine]

@[simp ↓] theorem lastBits_safe (w : BitVec 64) (s : State) (b : FastBits) :
    (lastBits w s b).safe = s.safe := by simp [lastBits]

@[simp ↓] theorem lastSamples_safe (tail : List FastBits) (s : State) :
    (lastSamples tail s).safe = s.safe := by simp [lastSamples]

@[simp ↓] theorem lastBoundaries_safe (tail : List FastBits) (s : State) :
    (lastBoundaries tail s).safe = s.safe := by simp [lastBoundaries]

@[simp ↓] theorem saveMetering_safe (tail : List FastBits) (s : State) :
    (saveMetering tail s).safe = s.safe := by simp [saveMetering]

@[simp ↓] theorem meetFate_safe (s : State) (x : Fin 16 × Fate) : (meetFate s x).safe = s.safe := by
  unfold meetFate
  repeat' first | (simp; done) | split | (dsimp only; split)

@[simp ↓] theorem saveDisplay_safe (vhold : BitVec 12) (s : State) : (saveDisplay vhold s).safe = s.safe := by simp [saveDisplay]

@[simp ↓] theorem endEntries_safe (s : State) : (endEntries s).safe = s.safe := by simp [endEntries]

@[simp ↓] theorem dropPulses_safe (s : State) : (dropPulses s).safe = s.safe := by simp [dropPulses]

@[simp ↓] theorem portsErased_safe (s : State) : (portsErased s).safe = s.safe := by simp [portsErased]

@[simp ↓] theorem pilotsOff_safe (s : State) : (pilotsOff s).safe = s.safe := by simp [pilotsOff]

@[simp ↓] theorem cutClose_safe (s : State) : (cutClose s).safe = s.safe := by simp [cutClose]

@[simp ↓] theorem settle_safe (s : State) : (settle s).safe = s.safe := by simp [settle]

@[simp ↓] theorem loseTail_safe (s : State) : (loseTail s).safe = s.safe := by simp [loseTail]

/-! ### Machine/StartUp.lean -/

@[simp ↓] theorem atNs_safe (n : Nat) (s : State) : (atNs n s).safe = s.safe := by simp [atNs]

@[simp ↓] theorem causeBit_safe (n : Nat) (s : State) : (causeBit n s).safe = s.safe := by simp [causeBit]

@[simp ↓] theorem bootSupply_safe (u : StartUp) (s : State) : (bootSupply u s).safe = s.safe := by simp [bootSupply]

@[simp ↓] theorem bootTime_safe (old : Mode) (u : StartUp) (s : State) : (bootTime old u s).safe = s.safe := by simp [bootTime]

@[simp ↓] theorem swapAreas_safe (s : State) : (swapAreas s).safe = s.safe := by simp [swapAreas]

@[simp ↓] theorem activate_safe (s : State) : (activate s).safe = s.safe := by simp [activate]

@[simp ↓] theorem swapBack_safe (s : State) : (swapBack s).safe = s.safe := by simp [swapBack]

@[simp ↓] theorem provisionFkd_safe (s : State) : (provisionFkd s).safe = s.safe := by simp [provisionFkd]

@[simp ↓] theorem bootConfirmed_safe (s : State) : (bootConfirmed s).safe = s.safe := by simp [bootConfirmed]

@[simp ↓] theorem olderArea_safe (s : State) (a : SinterArea) : (olderArea s a).safe = s.safe := by
  unfold olderArea
  repeat' first | (simp; done) | split | (dsimp only; split)

@[simp ↓] theorem loseArea_safe (s : State) (a : SinterArea) : (loseArea s a).safe = s.safe := by
  unfold loseArea
  repeat' first | (simp; done) | split | (dsimp only; split)

@[simp ↓] theorem recovery_safe (u : StartUp) (rolled : Nat) (s : State) :
    (recovery u rolled s).safe = s.safe := by simp [recovery]

@[simp ↓] theorem provisionSkd_safe (k : Fin 2) (s : State) : (provisionSkd k s).safe = s.safe := by simp [provisionSkd]

@[simp ↓] theorem journalFs_safe (s : State) : (journalFs s).safe = s.safe := by simp [journalFs]

@[simp ↓] theorem gapEntries_safe (s : State) : (gapEntries s).safe = s.safe := by simp [gapEntries]

@[simp ↓] theorem restartSlices_safe (s : State) : (restartSlices s).safe = s.safe := by simp [restartSlices]

@[simp ↓] theorem bootBoundaries_safe (s : State) : (bootBoundaries s).safe = s.safe := by simp [bootBoundaries]

@[simp ↓] theorem bootStops_safe (s : State) : (bootStops s).safe = s.safe := by simp [bootStops]

@[simp ↓] theorem bootPart_safe (s : State) : (bootPart s).safe = s.safe := by simp [bootPart]

@[simp ↓] theorem lossEntries_safe (l : List SinterArea) (s : State) : (lossEntries l s).safe = s.safe := by simp [lossEntries]

@[simp ↓] theorem kernelStart_safe (u : StartUp) (s : State) : (kernelStart u s).safe = s.safe := by simp [kernelStart]

@[simp ↓] theorem bootKernel_safe (u : StartUp) (s : State) : (bootKernel u s).safe = s.safe := by simp [bootKernel]

@[simp ↓] theorem releaseCores_safe (s : State) : (releaseCores s).safe = s.safe := by simp [releaseCores]

@[simp ↓] theorem startWindow_safe (s : State) : (startWindow s).safe = s.safe := by simp [startWindow]

@[simp ↓] theorem portsListen_safe (s : State) : (portsListen s).safe = s.safe := by simp [portsListen]

/-! ### Machine/Idle.lean -/

@[simp ↓] theorem idle_safe (s : State) : (idle s).safe = s.safe := by simp [idle]

end Sys2Proof.Machine
end

