-- ==== Sys2Proof/Laws/KeepVp.lean ====
section
/-! SUPPORT. The operations that leave the vehicle ports as it is. -/

namespace Sys2Proof.Machine

@[simp ↓] theorem forAll_vp {α : Type} (l : List α) (f : State → α → State) (s : State)
    (h : ∀ s x, (f s x).vp = s.vp) : (forAll l f s).vp = s.vp := forAll_keeps State.vp l f s h

@[simp ↓] theorem ite_vp (c : Prop) [Decidable c] (a b : State) :
    (if c then a else b).vp = if c then a.vp else b.vp := apply_ite State.vp c a b

@[simp ↓] theorem checks_vp (s : State) (l : List (Bool × Status)) (k : Reply) (h : k.s.vp = s.vp) :
    (checks s l k).s.vp = s.vp := by
  induction l with
  | nil => exact h
  | cons x r ih => obtain ⟨b, st⟩ := x; cases b <;> simp [checks, ih]

/-! ### Machine/Ops.lean -/

@[simp ↓] theorem State.busOk_vp (s : State) (v : Word) : (State.busOk s v).vp = s.vp := by simp [State.busOk]

@[simp ↓] theorem State.busErr_vp (s : State) : (State.busErr s).vp = s.vp := by simp [State.busErr]

@[simp ↓] theorem State.decodeErr_vp (s : State) (a : Word) (req kind : Nat) :
    (State.decodeErr s a req kind).vp = s.vp := by simp [State.decodeErr]

@[simp ↓] theorem State.tagged_vp (s : State) : (State.tagged s).vp = s.vp := by simp [State.tagged]

@[simp ↓] theorem State.holeErr_vp (s : State) (req a n : Nat) : (State.holeErr s req a n).vp = s.vp := by
  unfold State.holeErr
  split <;> simp

@[simp ↓] theorem holdEngine_vp (s : State) : (holdEngine s).vp = s.vp := by simp [holdEngine]

@[simp ↓] theorem onBlock_vp (k : BlkKind) (n : Nat) (s : State) (f : State → State) (hf : ∀ s, (f s).vp = s.vp) :
    (onBlock k n s f).vp = s.vp := by simp [onBlock, hf]

@[simp ↓] theorem State.modRgn_vp (s : State) (r : Fin 16) (f : Region → Region) :
    (State.modRgn s r f).vp = s.vp := by simp [State.modRgn]

@[simp ↓] theorem State.modCh_vp (s : State) (n : ChanId) (f : Chan → Chan) :
    (State.modCh s n f).vp = s.vp := by simp [State.modCh]

@[simp ↓] theorem State.modM_vp (s : State) (m : MeterId) (f : Meter → Meter) :
    (State.modM s m f).vp = s.vp := by simp [State.modM]

@[simp ↓] theorem State.modEth_vp (s : State) (n : Fin 2) (f : Eth → Eth) : (State.modEth s n f).vp = s.vp := by simp [State.modEth]

@[simp ↓] theorem State.modCan_vp (s : State) (n : Fin 3) (f : Can → Can) : (State.modCan s n f).vp = s.vp := by simp [State.modCan]

@[simp ↓] theorem State.modLoad_vp (s : State) (n : Fin 10) (f : LoadCh → LoadCh) :
    (State.modLoad s n f).vp = s.vp := by simp [State.modLoad]

@[simp ↓] theorem State.modCoil_vp (s : State) (c : Fin 12) (f : Coil → Coil) :
    (State.modCoil s c f).vp = s.vp := by simp [State.modCoil]

@[simp ↓] theorem State.modOut_vp (s : State) (n : Port) (f : Outlet → Outlet) :
    (State.modOut s n f).vp = s.vp := by simp [State.modOut]

@[simp ↓] theorem State.modImd_vp (s : State) (g : Fin 6) (f : Imd → Imd) : (State.modImd s g f).vp = s.vp := by simp [State.modImd]

@[simp ↓] theorem State.modConn_vp (s : State) (k : Fin 16) (f : Conn → Conn) :
    (State.modConn s k f).vp = s.vp := by simp [State.modConn]

@[simp ↓] theorem State.modPair_vp (s : State) (j : Fin 8) (f : StopPair → StopPair) :
    (State.modPair s j f).vp = s.vp := by simp [State.modPair]

@[simp ↓] theorem State.modTxn_vp (s : State) (d : Fin 6) (f : TxnDom → TxnDom) :
    (State.modTxn s d f).vp = s.vp := by simp [State.modTxn]

@[simp ↓] theorem State.modCore_vp (s : State) (f : BillCore → BillCore) : (State.modCore s f).vp = s.vp := by simp [State.modCore]

@[simp ↓] theorem State.setSess_vp (s : State) (n : Port) (x : Option Session) :
    (State.setSess s n x).vp = s.vp := by simp [State.setSess]

@[simp ↓] theorem State.modSess_vp (s : State) (n : Port) (f : Session → Session) :
    (State.modSess s n f).vp = s.vp := by simp [State.modSess]

@[simp ↓] theorem State.setLofs_vp (s : State) (ms : Nat) : (State.setLofs s ms).vp = s.vp := by simp [State.setLofs]

@[simp ↓] theorem State.draw_vp (s : State) : ((State.draw s).2).vp = s.vp := by simp [State.draw]

@[simp ↓] theorem State.raise_vp (s : State) (n : Nat) : (State.raise s n).vp = s.vp := by simp [State.raise]

@[simp ↓] theorem State.evPut_vp (s : State) (typ source : Nat) (d0 d1 d2 : Word) :
    (State.evPut s typ source d0 d1 d2).vp = s.vp := by simp [State.evPut]

@[simp ↓] theorem State.evRoll_vp (s : State) : (State.evRoll s).vp = s.vp := by simp [State.evRoll]

@[simp ↓] theorem State.evSecond_vp (s : State) :
    (State.evSecond s).vp = s.vp := by simp [State.evSecond]

@[simp ↓] theorem State.evlog_vp (s : State) (typ source : Nat) (d0 d1 d2 : Word) :
    (State.evlog s typ source d0 d1 d2).vp = s.vp := by simp [State.evlog]

@[simp ↓] theorem State.statsCleared_vp (s : State) (block mask : Nat) :
    (State.statsCleared s block mask).vp = s.vp := by simp [State.statsCleared]

@[simp ↓] theorem State.audit_vp (s : State) (typ source reason : Nat) (item old new : Word) :
    (State.audit s typ source reason item old new).vp = s.vp := by simp [State.audit]

@[simp ↓] theorem State.raiseDem_vp (s : State) (n : Port) (cat cause : Nat) (reason : Byte) (why : Why) :
    (State.raiseDem s n cat cause reason why).vp = s.vp := by simp [State.raiseDem]

@[simp ↓] theorem State.demand_vp (s : State) (n : Port) (cat cause : Nat) (reason : Byte) :
    (State.demand s n cat cause reason).vp = s.vp := by simp [State.demand]

@[simp ↓] theorem State.setLedger_vp (s : State) (l : List (Option LedgerEntry)) :
    (State.setLedger s l).vp = s.vp := by simp [State.setLedger]

@[simp ↓] theorem State.flagSpan_vp (s : State) (n : Port) (bits : BitVec 16) :
    (State.flagSpan s n bits).vp = s.vp := by simp [State.flagSpan]

@[simp ↓] theorem State.flagSess_vp (s : State) (n : Port) (bits : BitVec 16) :
    (State.flagSess s n bits).vp = s.vp := by simp [State.flagSess]

@[simp ↓] theorem Reply.ok_vp (s : State) (res : List Word) : ((Reply.ok s res).s).vp = s.vp := by simp

@[simp ↓] theorem Reply.deny_vp (s : State) (st : Status) : ((Reply.deny s st).s).vp = s.vp := by simp

@[simp ↓] theorem Reply.later_vp (s : State) (p : Pending) : ((Reply.later s p).s).vp = s.vp := by simp

@[simp ↓] theorem State.setBox_vp (s : State) (i : MbxId) (x : Mailbox) : (State.setBox s i x).vp = s.vp := by simp [State.setBox]

@[simp ↓] theorem versions_vp (i : MbxId) (s : State) : ((versions i s).s).vp = s.vp := by simp [versions]

@[simp ↓] theorem answered_vp (i : MbxId) (r : Reply) : (answered i r).vp = r.s.vp := by
  unfold answered
  dsimp only
  split <;> simp

@[simp ↓] theorem ring_vp (i : MbxId) (body : Nat → Vector Word 16 → State → Reply) (s : State) (hbody : ∀ x0 x1 s, ((body x0 x1 s).s).vp = s.vp) :
    (ring i body s).vp = s.vp := by simp [ring, hbody]

@[simp ↓] theorem mbxCall_vp (i : MbxId) (cmd : Nat) (c : Call) (body : Vector Word 16 → State → Reply) (s : State) (hbody : ∀ x0 s, ((body x0 s).s).vp = s.vp) :
    (mbxCall i cmd c body s).vp = s.vp := by simp [mbxCall, hbody]

@[simp ↓] theorem mbxDone_vp (i : MbxId) (st : Status) (res : List Word) (s : State) :
    (mbxDone i st res s).vp = s.vp := by simp [mbxDone]

/-! ### Machine/Sampling.lean -/

@[simp ↓] theorem fastSample_vp (g : Fin 2) (bits miss : Vector (BitVec 16) 32) (s : State) :
    (fastSample g bits miss s).vp = s.vp := by simp [fastSample]

@[simp ↓] theorem selfCheck_vp (p : Fin 8) (s : State) : (selfCheck p s).vp = s.vp := by
  unfold selfCheck
  repeat' first | (simp; done) | split | (dsimp only; split) | refine (forAll_vp _ _ _ (fun _ _ => ?_)).trans ?_ |
    (dsimp only; refine (forAll_vp _ _ _ (fun _ _ => ?_)).trans ?_)

@[simp ↓] theorem tempTake_vp (s : State) : (tempTake s).vp = s.vp := by simp [tempTake]

@[simp ↓] theorem gainAll_vp (s : State) : (gainAll s).vp = s.vp := by simp [gainAll]

@[simp ↓] theorem resample_vp (g : Fin 2) (idx : Nat) (s : State) : (resample g idx s).vp = s.vp := by simp [resample]

@[simp ↓] theorem refFine_vp (g : Fin 2) (idx : Nat) (ref : ChanId) (s : State) :
    (refFine g idx ref s).vp = s.vp := by simp [refFine]

@[simp ↓] theorem resampFine_vp (g : Fin 2) (idx : Nat) (s : State) : (resampFine g idx s).vp = s.vp := by simp [resampFine]

@[simp ↓] theorem fineChannels_vp (g : Fin 2) (s : State) : (fineChannels g s).vp = s.vp := by simp [fineChannels]

@[simp ↓] theorem State.modAdc_vp (s : State) (a : Fin 4) (f : Adc → Adc) : (State.modAdc s a f).vp = s.vp := by simp [State.modAdc]

@[simp ↓] theorem rcFeed_vp (src : Nat) (v : Int) (w : Nat) (s : State) : (rcFeed src v w s).vp = s.vp := by simp [rcFeed]

@[simp ↓] theorem freshTemp_vp (src : Nat) (s : State) : (freshTemp src s).vp = s.vp := by simp [freshTemp]

@[simp ↓] theorem adcCoarse_vp (a : Fin 4) (bits : BitVec 16) (s : State) :
    (adcCoarse a bits s).vp = s.vp := by simp [adcCoarse]

@[simp ↓] theorem takeTemp_vp (src : Nat) (v : BitVec 24) (s : State) : (takeTemp src v s).vp = s.vp := by simp [takeTemp]

@[simp ↓] theorem adcFine_vp (a : Fin 4) (s : State) : (adcFine a s).vp = s.vp := by simp [adcFine]

@[simp ↓] theorem dwellStart_vp (a : Fin 4) (k : Nat) (s : State) : (dwellStart a k s).vp = s.vp := by simp [dwellStart]

@[simp ↓] theorem calibrate_vp (a : Fin 4) (s : State) : (calibrate a s).vp = s.vp := by simp [calibrate]

@[simp ↓] theorem storeGain_vp (a : Fin 4) (s : State) : (storeGain a s).vp = s.vp := by simp [storeGain]

@[simp ↓] theorem slotEnd_vp (a : Fin 4) (s : State) : (slotEnd a s).vp = s.vp := by simp [slotEnd]

@[simp ↓] theorem slotResync_vp (a : Fin 4) (changed : Nat → Bool) (s : State) :
    (slotResync a changed s).vp = s.vp := by simp [slotResync]

/-! ### Machine/Meters.lean -/

@[simp ↓] theorem rgwAll_vp (m : MeterId) (s : State) : (rgwAll m s).vp = s.vp := by simp [rgwAll]

@[simp ↓] theorem cutBounds_vp (m : MeterId) (inst : BitVec 64) (s : State) :
    (cutBounds m inst s).vp = s.vp := by simp [cutBounds]

@[simp ↓] theorem gapNow_vp (m : MeterId) (s : State) : (gapNow m s).vp = s.vp := by simp [gapNow]

@[simp ↓] theorem markGap_vp (m : MeterId) (s : State) : (markGap m s).vp = s.vp := by simp [markGap]

@[simp ↓] theorem validAgain_vp (m : MeterId) (s : State) : (validAgain m s).vp = s.vp := by simp [validAgain]

@[simp ↓] theorem rollover_vp (m : MeterId) (exp : Bool) (old : BitVec 160) (s : State) :
    (rollover m exp old s).vp = s.vp := by simp [rollover]

@[simp ↓] theorem pulseQueue_vp (m : MeterId) (s : State) : (pulseQueue m s).vp = s.vp := by simp [pulseQueue]

@[simp ↓] theorem pulseRestart_vp (q : Fin 8) (s : State) : (pulseRestart q s).vp = s.vp := by simp [pulseRestart]

@[simp ↓] theorem setPhseq_vp (m : MeterId) (v : BitVec 2) (s : State) : (setPhseq m v s).vp = s.vp := by simp [setPhseq]

@[simp ↓] theorem phaseStep_vp (m : MeterId) (s : State) : (phaseStep m s).vp = s.vp := by
  unfold phaseStep
  repeat' first | (simp; done) | split | (dsimp only; split)

@[simp ↓] theorem secondSums_vp (m : MeterId) (q : Int) (s : State) : (secondSums m q s).vp = s.vp := by simp [secondSums]

@[simp ↓] theorem bookQ_vp (m : MeterId) (s : State) : ((bookQ m s).2).vp = s.vp := by
  unfold bookQ
  repeat' first | (simp; done) | split | (dsimp only; split)

@[simp ↓] theorem snapTake_vp (m : MeterId) (inst : BitVec 64) (s : State) :
    (snapTake m inst s).vp = s.vp := by simp [snapTake]

@[simp ↓] theorem snapDone_vp (w : SnapWait) (s : State) :
    (snapDone w s).vp = s.vp := by simp [snapDone]

@[simp ↓] theorem snapEnd_vp (s : State) :
    (snapEnd s).vp = s.vp := by
  unfold snapEnd
  repeat' first | (simp; done) | split | (dsimp only; split)

@[simp ↓] theorem meterFine_vp (g : Fin 2) (m : MeterId) (s : State) : (meterFine g m s).vp = s.vp := by simp [meterFine]

@[simp ↓] theorem fineSample_vp (g : Fin 2) (s : State) : (fineSample g s).vp = s.vp := by simp [fineSample]

@[simp ↓] theorem powerCheck_vp (m : MeterId) (s : State) : (powerCheck m s).vp = s.vp := by simp [powerCheck]

@[simp ↓] theorem neutralCheck_vp (m : MeterId) (s : State) : (neutralCheck m s).vp = s.vp := by simp [neutralCheck]

@[simp ↓] theorem neutralFlags_vp (m : MeterId) (s : State) : (neutralFlags m s).vp = s.vp := by simp [neutralFlags]

@[simp ↓] theorem readAcc_vp (a : Vector Word 16) (s : State) : ((readAcc a s).s).vp = s.vp := by
  unfold readAcc
  repeat' first | (simp; done) | split | (dsimp only; split)

@[simp ↓] theorem freeWords_vp (place n : Nat) (s : State) : ((freeWords place n s).2).vp = s.vp := by simp [freeWords]

@[simp ↓] theorem readPq_vp (a : Vector Word 16) (s : State) : ((readPq a s).s).vp = s.vp := by
  unfold readPq
  repeat' first | (simp; done) | split | (dsimp only; split)

@[simp ↓] theorem readHarm_vp (a : Vector Word 16) (s : State) : ((readHarm a s).s).vp = s.vp := by
  unfold readHarm
  repeat' first | (simp; done) | split | (dsimp only; split)

@[simp ↓] theorem readBalance_vp (a : Vector Word 16) (s : State) : ((readBalance a s).s).vp = s.vp := by
  unfold readBalance
  repeat' first | (simp; done) | split | (dsimp only; split)

@[simp ↓] theorem clearStats_vp (mask : BitVec 6) (s : State) : (clearStats mask s).vp = s.vp := by simp [clearStats]

@[simp ↓] theorem clearStatsCall_vp (a : Vector Word 16) (s : State) : ((clearStatsCall a s).s).vp = s.vp := by simp [clearStatsCall]

/-! ### Machine/DispReq.lean -/

@[simp ↓] theorem State.putRequest_vp (s : State) (r : Fin 16) (q : PendUpd) :
    (State.putRequest s r q).vp = s.vp := by
  unfold State.putRequest
  repeat' first | (simp; done) | split | (dsimp only; split)

@[simp ↓] theorem State.legalReq_vp (s : State) (n : Port) : (State.legalReq s n).vp = s.vp := by
  unfold State.legalReq
  repeat' first | (simp; done) | split | (dsimp only; split)

/-! ### Machine/TimeBase.lean -/

@[simp ↓] theorem rtcMove_vp (n : Int) (s : State) : (rtcMove n s).vp = s.vp := by simp [rtcMove]

@[simp ↓] theorem rtcRun_vp (n : Nat) (s : State) : (rtcRun n s).vp = s.vp := by simp [rtcRun]

@[simp ↓] theorem rtcTick_vp (s : State) : (rtcTick s).vp = s.vp := by simp [rtcTick]

@[simp ↓] theorem refPeriod_vp (s : State) : (refPeriod s).vp = s.vp := by simp [refPeriod]

@[simp ↓] theorem rtcLoad_vp (s : State) : (rtcLoad s).vp = s.vp := by simp [rtcLoad]

@[simp ↓] theorem rtcReading_vp (t : BitVec 12) (n : Nat) (s : State) : (rtcReading t n s).vp = s.vp := by simp [rtcReading]

@[simp ↓] theorem refdevMeasure_vp (dev : BitVec 16) (s : State) : (refdevMeasure dev s).vp = s.vp := by simp [refdevMeasure]

@[simp ↓] theorem vbakMeasure_vp (v : Byte) (s : State) : (vbakMeasure v s).vp = s.vp := by simp [vbakMeasure]

@[simp ↓] theorem evlDropSecond_vp (s : State) : (evlDropSecond s).vp = s.vp := by simp [evlDropSecond]

@[simp ↓] theorem evlClrcnt_vp (s : State) : (evlClrcnt s).vp = s.vp := by simp [evlClrcnt]

/-! ### Machine/Billing.lean -/

@[simp ↓] theorem State.pushRecord_vp (s : State) (rtype : Nat) (flags : BitVec 16) (port : Option Port) (body : List Byte) :
    (State.pushRecord s rtype flags port body).vp = s.vp := by simp [State.pushRecord]

@[simp ↓] theorem State.journal_vp (s : State) (save : Bool) : (State.journal s save).vp = s.vp := by simp [State.journal]

@[simp ↓] theorem closeSlice_vp (m : MeterId) (s : State) : (closeSlice m s).vp = s.vp := by simp [closeSlice]

@[simp ↓] theorem closeSlices_vp (s : State) : (closeSlices s).vp = s.vp := by simp [closeSlices]

@[simp ↓] theorem meterEnable_vp (m : MeterId) (reason : Nat) (s : State) :
    (meterEnable m reason s).vp = s.vp := by simp [meterEnable]

@[simp ↓] theorem setTariff_vp (s : State) : (setTariff s).vp = s.vp := by simp [setTariff]

@[simp ↓] theorem balance_vp (durNs : Nat) (outage split : Bool) (s : State) :
    ((balance durNs outage split s).2.2).vp = s.vp := by
  unfold balance
  repeat' first | (simp; done) | split | (dsimp only; split)

@[simp ↓] theorem endPart_vp (bits : BitVec 16) (s : State) : ((endPart bits s).2).vp = s.vp := by simp [endPart]

@[simp ↓] theorem writeDemand_vp (c : ClosedPart) (count : Nat) (s : State) :
    (writeDemand c count s).vp = s.vp := by simp [writeDemand]

@[simp ↓] theorem openPart_vp (lt : Int) (bits : BitVec 16) (s : State) : (openPart lt bits s).vp = s.vp := by simp [openPart]

@[simp ↓] theorem closePart_vp (bits : BitVec 16) (next : Int) (s : State) :
    (closePart bits next s).vp = s.vp := by simp [closePart]

@[simp ↓] theorem demandClose_vp (at_ : Int) (s : State) : (demandClose at_ s).vp = s.vp := by simp [demandClose]

@[simp ↓] theorem writePeriod_vp (at_ : Int) (m : MeterId) (s : State) : (writePeriod at_ m s).vp = s.vp := by simp [writePeriod]

@[simp ↓] theorem periodClose_vp (at_ : Int) (s : State) : (periodClose at_ s).vp = s.vp := by simp [periodClose]

@[simp ↓] theorem tariffSwitch_vp (ms : Int) (s : State) : (tariffSwitch ms s).vp = s.vp := by simp [tariffSwitch]

@[simp ↓] theorem minuteBoundaries_vp (min : Int) (s : State) : (minuteBoundaries min s).vp = s.vp := by simp [minuteBoundaries]

@[simp ↓] theorem passBoundaries_vp (t0 t1 : Int) (s : State) : (passBoundaries t0 t1 s).vp = s.vp := by simp [passBoundaries]

@[simp ↓] theorem writeHeld_vp (s : State) : (writeHeld s).vp = s.vp := by simp [writeHeld]

@[simp ↓] theorem outageBoundaries_vp (t0 t1 : Int) (s : State) : (outageBoundaries t0 t1 s).vp = s.vp := by simp [outageBoundaries]

@[simp ↓] theorem dueDemand_vp (s : State) : (dueDemand s).vp = s.vp := by
  unfold dueDemand
  repeat' first | (simp; done) | split | (dsimp only; split)

@[simp ↓] theorem duePeriod_vp (s : State) : (duePeriod s).vp = s.vp := by
  unfold duePeriod
  repeat' first | (simp; done) | split | (dsimp only; split)

@[simp ↓] theorem dueBoundaries_vp (s : State) : (dueBoundaries s).vp = s.vp := by simp [dueBoundaries]

@[simp ↓] theorem cancelSession_vp (n : Port) (cause : Nat) (s : State) :
    (cancelSession n cause s).vp = s.vp := by
  unfold cancelSession
  repeat' first | (simp; done) | split | (dsimp only; split)

@[simp ↓] theorem openSession_vp (n : Port) (m : MeterId) (auth : Nat) (ext : List Byte) (token : Option Token) (s : State) :
    (openSession n m auth ext token s).vp = s.vp := by
  unfold openSession
  repeat' first | (simp; done) | split | (dsimp only; split)

@[simp ↓] theorem sessionOpen_vp (a : Vector Word 16) (s : State) : ((sessionOpen a s).s).vp = s.vp := by
  unfold sessionOpen
  repeat' first | (simp; done) | split | (dsimp only; split)

@[simp ↓] theorem sessionCancel_vp (a : Vector Word 16) (s : State) : ((sessionCancel a s).s).vp = s.vp := by
  unfold sessionCancel
  repeat' first | (simp; done) | split | (dsimp only; split)

@[simp ↓] theorem sessionStatus_vp (a : Vector Word 16) (s : State) : ((sessionStatus a s).s).vp = s.vp := by
  unfold sessionStatus
  repeat' first | (simp; done) | split | (dsimp only; split)

@[simp ↓] theorem markStart_vp (n : Port) (s : State) : (markStart n s).vp = s.vp := by simp [markStart]

@[simp ↓] theorem startCut_vp (n : Port) (s : State) : (startCut n s).vp = s.vp := by
  unfold startCut
  repeat' first | (simp; done) | split | (dsimp only; split)

@[simp ↓] theorem markStop_vp (n : Port) (reason : Byte) (s : State) : (markStop n reason s).vp = s.vp := by simp [markStop]

@[simp ↓] theorem stopValues_vp (n : Port) (s : State) : (stopValues n s).vp = s.vp := by
  unfold stopValues
  repeat' first | (simp; done) | split | (dsimp only; split)

@[simp ↓] theorem freezeStop_vp (n : Port) (reason : Byte) (s : State) : (freezeStop n reason s).vp = s.vp := by
  unfold freezeStop
  repeat' first | (simp; done) | split | (dsimp only; split)

@[simp ↓] theorem writeStop_vp (n : Port) (s : State) : (writeStop n s).vp = s.vp := by
  unfold writeStop
  repeat' first | (simp; done) | split | (dsimp only; split)

@[simp ↓] theorem stopCut_vp (n : Port) (s : State) : (stopCut n s).vp = s.vp := by simp [stopCut]

@[simp ↓] theorem markShift_vp (s : State) : (markShift s).vp = s.vp := by simp [markShift]

@[simp ↓] theorem adjustCut_vp (old : Nat) (adj : Int) (new : Nat) (s : State) :
    (adjustCut old adj new s).vp = s.vp := by simp [adjustCut]

@[simp ↓] theorem firstCut_vp (new : Nat) (s : State) : (firstCut new s).vp = s.vp := by simp [firstCut]

@[simp ↓] theorem backCut_vp (new : Nat) (s : State) : (backCut new s).vp = s.vp := by simp [backCut]

@[simp ↓] theorem commitCut_vp (cal part bp : Bool) (s : State) : (commitCut cal part bp s).vp = s.vp := by simp [commitCut]

@[simp ↓] theorem atBound_vp (k : BoundKind) (s : State) : (atBound k s).vp = s.vp := by
  unfold atBound
  repeat' first | (simp; done) | split | (dsimp only; split)

@[simp ↓] theorem keepBound_vp (s t : State) : (keepBound s t).vp = t.vp := by
  unfold keepBound
  split <;> simp

@[simp ↓] theorem asOf_vp (b : Bound) (f : State → State) (s : State) (hf : ∀ s, (f s).vp = s.vp) :
    (asOf b f s).vp = s.vp := by simp [asOf, hf]

@[simp ↓] theorem endBound_vp (b : Bound) (s : State) : (endBound b s).vp = s.vp := by simp [endBound]

@[simp ↓] theorem runBounds_vp (all : Bool) (n : Nat) (s : State) : (runBounds all n s).vp = s.vp := by
  induction n generalizing s with
  | zero => rfl
  | succ n ih =>
    unfold runBounds
    split
    · rfl
    · split <;> simp [ih]

@[simp ↓] theorem settleBounds_vp (s : State) : (settleBounds s).vp = s.vp := by simp [settleBounds]

@[simp ↓] theorem flushBounds_vp (s : State) : (flushBounds s).vp = s.vp := by simp [flushBounds]

@[simp ↓] theorem boundary_vp (k : BoundKind) (s : State) : (boundary k s).vp = s.vp := by simp [boundary]

@[simp ↓] theorem sessionStart_vp (n : Port) (s : State) : (sessionStart n s).vp = s.vp := by
  unfold sessionStart
  repeat' first | (simp; done) | split | (dsimp only; split)

@[simp ↓] theorem sessionStop_vp (n : Port) (reason : Byte) (s : State) :
    (sessionStop n reason s).vp = s.vp := by
  unfold sessionStop
  repeat' first | (simp; done) | split | (dsimp only; split)

@[simp ↓] theorem snapshot_vp (a : Vector Word 16) (s : State) : ((snapshot a s).s).vp = s.vp := by simp [snapshot]

@[simp ↓] theorem storeRecord_vp (r : Record) (s : State) : (storeRecord r s).vp = s.vp := by
  unfold storeRecord
  repeat' first | (simp; done) | split | (dsimp only; split)

@[simp ↓] theorem afterSign_vp (r : Record) (s : State) : (afterSign r s).vp = s.vp := by
  unfold afterSign
  repeat' first | (simp; done) | split | (dsimp only; split)

@[simp ↓] theorem signDone_vp (s : State) : (signDone s).vp = s.vp := by
  unfold signDone
  repeat' first | (simp; done) | split | (dsimp only; split)

/-! ### Machine/Records.lean -/

@[simp ↓] theorem readRecord_vp (a : Vector Word 16) (s : State) : ((readRecord a s).s).vp = s.vp := by
  unfold readRecord
  repeat' first | (simp; done) | split | (dsimp only; split)

@[simp ↓] theorem ackRecord_vp (a : Vector Word 16) (s : State) : ((ackRecord a s).s).vp = s.vp := by simp [ackRecord]

@[simp ↓] theorem readDemand_vp (a : Vector Word 16) (s : State) : ((readDemand a s).s).vp = s.vp := by
  unfold readDemand
  repeat' first | (simp; done) | split | (dsimp only; split)

@[simp ↓] theorem readOcmf_vp (a : Vector Word 16) (s : State) : ((readOcmf a s).s).vp = s.vp := by simp [readOcmf]

@[simp ↓] theorem ocmfDone_vp (s : State) : (ocmfDone s).vp = s.vp := by
  unfold ocmfDone
  repeat' first | (simp; done) | split | (dsimp only; split)

@[simp ↓] theorem readAudit_vp (a : Vector Word 16) (s : State) : ((readAudit a s).s).vp = s.vp := by
  unfold readAudit
  repeat' first | (simp; done) | split | (dsimp only; split)

@[simp ↓] theorem archiveBegin_vp (a : Vector Word 16) (s : State) : ((archiveBegin a s).s).vp = s.vp := by
  unfold archiveBegin
  repeat' first | (simp; done) | split | (dsimp only; split)

@[simp ↓] theorem sealDone_vp (s : State) : (sealDone s).vp = s.vp := by
  unfold sealDone
  repeat' first | (simp; done) | split | (dsimp only; split)

@[simp ↓] theorem archiveCommit_vp (a : Vector Word 16) (s : State) : ((archiveCommit a s).s).vp = s.vp := by
  unfold archiveCommit
  repeat' first | (simp; done) | split | (dsimp only; split)

@[simp ↓] theorem creditCheck_vp (n : Port) (s : State) : (creditCheck n s).vp = s.vp := by
  unfold creditCheck
  repeat' first | (simp; done) | split | (dsimp only; split)

/-! ### Machine/Tokens.lean -/

@[simp ↓] theorem State.modTok_vp (s : State) (f : Tokens → Tokens) : (State.modTok s f).vp = s.vp := by simp [State.modTok]

@[simp ↓] theorem endEntry_vp (port : Option Port) (code : Byte) (t : Option Token) (s : State) :
    (endEntry port code t s).vp = s.vp := by
  unfold endEntry
  repeat' first | (simp; done) | split | (dsimp only; split)

@[simp ↓] theorem countInvalid_vp (s : State) : (countInvalid s).vp = s.vp := by
  unfold countInvalid
  repeat' first | (simp; done) | split | (dsimp only; split)

@[simp ↓] theorem tokenDecode_vp (keys : List (BitVec 4)) (s : State) : (tokenDecode keys s).vp = s.vp := by
  unfold tokenDecode
  repeat' first | (simp; done) | split | (dsimp only; split)

@[simp ↓] theorem tokenKey_vp (k : BitVec 4) (s : State) : (tokenKey k s).vp = s.vp := by
  unfold tokenKey
  repeat' first | (simp; done) | split | (dsimp only; split)

@[simp ↓] theorem tokenStart_vp (s : State) : (tokenStart s).vp = s.vp := by simp [tokenStart]

@[simp ↓] theorem discardTokens_vp (s : State) : (discardTokens s).vp = s.vp := by simp [discardTokens]

@[simp ↓] theorem tokenResult_vp (a_ : Vector Word 16) (s : State) : ((tokenResult a_ s).s).vp = s.vp := by
  unfold tokenResult
  repeat' first | (simp; done) | split | (dsimp only; split)

@[simp ↓] theorem denyCode_vp (s : State) (code : Word) : ((denyCode s code).s).vp = s.vp := by simp [denyCode]

@[simp ↓] theorem bindToken_vp (n : Port) (m : MeterId) (t : Token) (ext : List Byte) (s : State) :
    ((bindToken n m t ext s).s).vp = s.vp := by simp [bindToken]

@[simp ↓] theorem tokenOpen_vp (a : Vector Word 16) (s : State) : ((tokenOpen a s).s).vp = s.vp := by
  unfold tokenOpen
  repeat' first | (simp; done) | split | (dsimp only; split)

@[simp ↓] theorem tokenDiscard_vp (a : Vector Word 16) (s : State) : ((tokenDiscard a s).s).vp = s.vp := by
  unfold tokenDiscard
  repeat' first | (simp; done) | split | (dsimp only; split)

@[simp ↓] theorem ledgerRead_vp (a : Vector Word 16) (s : State) : ((ledgerRead a s).s).vp = s.vp := by simp [ledgerRead]

@[simp ↓] theorem tokenKeyLoad_vp (a : Vector Word 16) (s : State) : ((tokenKeyLoad a s).s).vp = s.vp := by
  unfold tokenKeyLoad
  repeat' first | (simp; done) | split | (dsimp only; split)

@[simp ↓] theorem tokenKeyInfo_vp (a : Vector Word 16) (s : State) : ((tokenKeyInfo a s).s).vp = s.vp := by
  unfold tokenKeyInfo
  repeat' first | (simp; done) | split | (dsimp only; split)

/-! ### Machine/LoadSw.lean -/

@[simp ↓] theorem genPeriod_vp (g : Fin 2) (start : BitVec 64) (s : State) :
    (genPeriod g start s).vp = s.vp := by simp [genPeriod]

@[simp ↓] theorem genSync_vp (s : State) : (genSync s).vp = s.vp := by simp [genSync]

@[simp ↓] theorem openWindow_vp (n : Fin 10) (s : State) : (openWindow n s).vp = s.vp := by simp [openWindow]

@[simp ↓] theorem pulseStep_vp (s : State) : (pulseStep s).vp = s.vp := by simp [pulseStep]

@[simp ↓] theorem loadOne_vp (s : State) (n : Fin 10) : (loadOne s n).vp = s.vp := by simp [loadOne]

@[simp ↓] theorem loadAll_vp (s : State) : (loadAll s).vp = s.vp := by simp [loadAll]

@[simp ↓] theorem loadAt_vp (c : Nat) (s : State) : (loadAt c s).vp = s.vp := by
  unfold loadAt
  repeat' first | (simp; done) | split | (dsimp only; split)

@[simp ↓] theorem shedCh_vp (n : Fin 10) (s : State) : (shedCh n s).vp = s.vp := by simp [shedCh]

@[simp ↓] theorem shedOne_vp (s : State) : (shedOne s).vp = s.vp := by
  unfold shedOne
  repeat' first | (simp; done) | split | (dsimp only; split)

@[simp ↓] theorem budgetShed_vp (avg : BitVec 16) (s : State) : (budgetShed avg s).vp = s.vp := by simp [budgetShed]

@[simp ↓] theorem shedReenable_vp (s : State) : (shedReenable s).vp = s.vp := by
  unfold shedReenable
  repeat' first | (simp; done) | split | (dsimp only; split)

@[simp ↓] theorem shedAgain_vp (n : Fin 10) (was : Bool) (s : State) : (shedAgain n was s).vp = s.vp := by simp [shedAgain]

@[simp ↓] theorem loadCmd_vp (n : Fin 10) (cmd : BitVec 2) (s : State) : (loadCmd n cmd s).vp = s.vp := by simp [loadCmd]

@[simp ↓] theorem loadClrLatch_vp (n : Fin 10) (cool : Bool) (s : State) :
    (loadClrLatch n cool s).vp = s.vp := by simp [loadClrLatch]

@[simp ↓] theorem loadThermal_vp (n : Fin 10) (guard : Bool) (temp : BitVec 16) (s : State) :
    (loadThermal n guard temp s).vp = s.vp := by simp [loadThermal]

@[simp ↓] theorem loadRestart_vp (n : Fin 10) (s : State) : (loadRestart n s).vp = s.vp := by simp [loadRestart]

@[simp ↓] theorem deferredTurnOn_vp (s : State) : (deferredTurnOn s).vp = s.vp := by
  unfold deferredTurnOn
  repeat' first | (simp; done) | split | (dsimp only; split)

@[simp ↓] theorem loadSense_vp (ch : BitVec 4) (s : State) : (loadSense ch s).vp = s.vp := by simp [loadSense]

@[simp ↓] theorem senseTest_vp (s : State) : (senseTest s).vp = s.vp := by simp [senseTest]

@[simp ↓] theorem loadWdStart_vp (s : State) : (loadWdStart s).vp = s.vp := by simp [loadWdStart]

@[simp ↓] theorem loadWdExpire_vp (cause : BitVec 2) (s : State) : (loadWdExpire cause s).vp = s.vp := by simp [loadWdExpire]

@[simp ↓] theorem loadService_vp (resp : BitVec 16) (s : State) : (loadService resp s).vp = s.vp := by simp [loadService]

@[simp ↓] theorem loadWdrel_vp (s : State) : (loadWdrel s).vp = s.vp := by simp [loadWdrel]

@[simp ↓] theorem loadClrcnt_vp (s : State) : (loadClrcnt s).vp = s.vp := by simp [loadClrcnt]

/-! ### Machine/Link.lean -/

@[simp ↓] theorem sounding_vp (n : Port) (mac : BitVec 48) (run : BitVec 64) (groups : List Nat) (s : State) :
    (sounding n mac run groups s).vp = s.vp := by simp [sounding]

/-! ### Machine/Caldera.lean -/

@[simp ↓] theorem setLims_vp (n : Port) (vEv iEv : Nat) (s : State) : (setLims n vEv iEv s).vp = s.vp := by simp [setLims]

@[simp ↓] theorem formLims_vp (s : State) :
    (formLims s).vp = s.vp := by
  refine forAll_vp _ _ _ fun s n => ?_
  split <;> simp

@[simp ↓] theorem leaveUnproven_vp (s : State) :
    (leaveUnproven s).vp = s.vp := by simp [leaveUnproven]

@[simp ↓] theorem State.slogPut_vp (s : State) (typ source : Nat) (d0 d1 : Word) (prot : Bool) :
    (State.slogPut s typ source d0 d1 prot).vp = s.vp := by simp [State.slogPut]

@[simp ↓] theorem State.sfEvt_vp (s : State) (bit : Nat) : (State.sfEvt s bit).vp = s.vp := by simp [State.sfEvt]

@[simp ↓] theorem State.poolEvt_vp (s : State) (bit : Nat) : (State.poolEvt s bit).vp = s.vp := by simp [State.poolEvt]

@[simp ↓] theorem State.siEvt_vp (s : State) (bit : Nat) : (State.siEvt s bit).vp = s.vp := by simp [State.siEvt]

@[simp ↓] theorem releaseModule_vp (m : Fin 48) (s : State) : (releaseModule m s).vp = s.vp := by simp [releaseModule]

@[simp ↓] theorem releaseOutlet_vp (n : Port) (s : State) : (releaseOutlet n s).vp = s.vp := by simp [releaseOutlet]

@[simp ↓] theorem endClose_vp (c : Fin 12) (st : Status) (s : State) : (endClose c st s).vp = s.vp := by simp [endClose]

@[simp ↓] theorem countEm_vp (c : Fin 12) (amps : Nat) (s : State) : (countEm c amps s).vp = s.vp := by simp [countEm]

@[simp ↓] theorem coilOff_vp (c : Fin 12) (emergency : Bool) (s : State) :
    (coilOff c emergency s).vp = s.vp := by simp [coilOff]

@[simp ↓] theorem endDemands_vp (n : Port) (s : State) : (endDemands n s).vp = s.vp := by simp [endDemands]

@[simp ↓] theorem seqCheck_vp (s : State) : (seqCheck s).vp = s.vp := by simp [seqCheck]

@[simp ↓] theorem dropTies_vp (n : Port) (s : State) : (dropTies n s).vp = s.vp := by
  unfold dropTies
  split
  · rfl
  · rw [seqCheck_vp]
    refine forAll_vp _ _ _ fun s c => ?_
    split
    · split <;> simp
    · rfl

/-! ### Machine/CanBus.lean -/

@[simp ↓] theorem canReceive_vp (b : Fin 3) (f : CanFrame) (s : State) : (canReceive b f s).vp = s.vp := by simp [canReceive]

@[simp ↓] theorem canTimeout_vp (b : Fin 3) (s : State) : (canTimeout b s).vp = s.vp := by simp [canTimeout]

@[simp ↓] theorem sfLoad_vp (b : Fin 3) (e : Fin 16) (s : State) : (sfLoad b e s).vp = s.vp := by simp [sfLoad]

@[simp ↓] theorem sfClear_vp (b : Fin 3) (e : Fin 16) (s : State) : (sfClear b e s).vp = s.vp := by simp [sfClear]

@[simp ↓] theorem sfEntry_vp (b : Fin 3) (e : Fin 16) (s : State) : (sfEntry b e s).vp = s.vp := by simp [sfEntry]

@[simp ↓] theorem canRecov_vp (b : Fin 3) (s : State) : (canRecov b s).vp = s.vp := by simp [canRecov]

@[simp ↓] theorem canState_vp (b : Fin 3) (st : CanState) (s : State) : (canState b st s).vp = s.vp := by simp [canState]

@[simp ↓] theorem canRecovered_vp (b : Fin 3) (s : State) : (canRecovered b s).vp = s.vp := by simp [canRecovered]

@[simp ↓] theorem canErrors_vp (b : Fin 3) (tec rcc : Byte) (s : State) :
    (canErrors b tec rcc s).vp = s.vp := by simp [canErrors]

@[simp ↓] theorem canBusOff_vp (b : Fin 3) (s : State) : (canBusOff b s).vp = s.vp := by simp [canBusOff]

@[simp ↓] theorem canClrcnt_vp (b : Fin 3) (s : State) : (canClrcnt b s).vp = s.vp := by simp [canClrcnt]

@[simp ↓] theorem gpioSet_vp (f : Gpio → Gpio) (s : State) : (gpioSet f s).vp = s.vp := by simp [gpioSet]

/-! ### Machine/Irq.lean -/

@[simp ↓] theorem plicClaim_vp (ctx : Fin 8) (s : State) : (plicClaim ctx s).vp = s.vp := by simp [plicClaim]

@[simp ↓] theorem plicComplete_vp (ctx : Fin 8) (src : Word) (s : State) :
    (plicComplete ctx src s).vp = s.vp := by simp [plicComplete]

/-! ### Machine/Mem.lean -/

@[simp ↓] theorem State.ramWrite_vp (s : State) (a : Nat) (bs : List Byte) :
    (State.ramWrite s a bs).vp = s.vp := by simp [State.ramWrite]

@[simp ↓] theorem State.norWrite_vp (s : State) (o : Nat) (bs : List Byte) :
    (State.norWrite s o bs).vp = s.vp := by simp [State.norWrite]

@[simp ↓] theorem State.norErase_vp (s : State) (o n : Nat) : (State.norErase s o n).vp = s.vp := by simp [State.norErase]

@[simp ↓] theorem State.eccErrs_vp (s : State) (k a req : Nat) :
    (State.eccErrs s k a req).vp = s.vp := by simp [State.eccErrs]

@[simp ↓] theorem State.eccErr_vp (s : State) (a : Nat) (req : Nat) : (State.eccErr s a req).vp = s.vp := by simp [State.eccErr]

@[simp ↓] theorem State.eccRun_vp (s : State) (a n req : Nat) :
    (State.eccRun s a n req).vp = s.vp := by simp [State.eccRun]

@[simp ↓] theorem parRecord_vp (req : Nat) (a : Word) (onResponse : Bool) (s : State) :
    (parRecord req a onResponse s).vp = s.vp := by simp [parRecord]

@[simp ↓] theorem State.mark_vp (s : State) (a : Nat) : (State.mark s a).vp = s.vp := by simp [State.mark]

@[simp ↓] theorem State.srcBytes_vp (s : State) (req a n : Nat) : (State.srcBytes s req a n).2.vp = s.vp := by
  unfold State.srcBytes
  repeat' first | (simp; done) | split | (dsimp only; split)

theorem ramStore_vp (s t : State) (a : Nat) (bs : List Byte) (h : ramStore s a bs = some t) : t.vp = s.vp := by
  unfold ramStore at h
  dsimp only at h
  split at h
  · cases h
  · cases h; simp

@[simp] theorem ramStore_getD_vp (s : State) (a : Nat) (bs : List Byte) : ((ramStore s a bs).getD s).vp = s.vp := by
  cases h : ramStore s a bs with
  | none => rfl
  | some t => exact ramStore_vp s t a bs h

@[simp ↓] theorem State.appWrite_vp (s : State) (req a : Nat) (bs : List Byte) :
    (State.appWrite s req a bs).vp = s.vp := by
  unfold State.appWrite
  dsimp only
  split
  · split
    · rename_i h; rw [ramStore_vp _ _ _ _ h, State.tagged_vp]
    · simp
  · simp

/-! ### Machine/Tls.lean -/

/-! ### Machine/Checks.lean -/

@[simp ↓] theorem State.withParams_vp (s : State) (b : List (Nat × Word)) :
    (State.withParams s b).vp = s.vp := by simp [State.withParams]

/-! ### Machine/Fabric.lean -/

@[simp ↓] theorem restartParts_vp (ps : List (Fin 8)) (s : State) : (restartParts ps s).vp = s.vp := by simp [restartParts]

@[simp ↓] theorem recheck_vp (s : State) : (recheck s).vp = s.vp := by simp [recheck]

/-! ### Machine/DmaCtl.lean -/

@[simp ↓] theorem State.modDma_vp (s : State) (c : Fin 32) (f : DmaCh → DmaCh) :
    (State.modDma s c f).vp = s.vp := by simp [State.modDma]

@[simp ↓] theorem settleReq_vp (c : Fin 32) (s : State) : (settleReq c s).vp = s.vp := by simp [settleReq]

@[simp ↓] theorem requestAssert_vp (r : Fin 32) (s : State) : (requestAssert r s).vp = s.vp := by simp [requestAssert]

@[simp ↓] theorem requestWithdraw_vp (r : Fin 32) (s : State) : (requestWithdraw r s).vp = s.vp := by simp [requestWithdraw]

@[simp ↓] theorem fetchDesc_vp (a : Nat) (hit : Option Bool) (s : State) :
    ((fetchDesc a hit s).2.2).vp = s.vp := by
  unfold fetchDesc
  dsimp only
  split <;> simp

@[simp ↓] theorem dmaHalt_vp (c : Fin 32) (s : State) : (dmaHalt c s).vp = s.vp := by simp [dmaHalt]

@[simp ↓] theorem selectRequest_vp (c : Fin 32) (sel : BitVec 5) (stays : Bool) (s : State) :
    (selectRequest c sel stays s).vp = s.vp := by simp [selectRequest]

@[simp ↓] theorem setPrio_vp (c : Fin 32) (p : BitVec 2) (s : State) : (setPrio c p s).vp = s.vp := by simp [setPrio]

@[simp ↓] theorem dmaClear_vp (s : State) : (dmaClear s).vp = s.vp := by simp [dmaClear]

/-! ### Machine/Modes.lean -/

@[simp ↓] theorem abandonTie_vp (c : Fin 12) (s : State) : (abandonTie c s).vp = s.vp := by
  unfold abandonTie
  repeat' first | (simp; done) | split | (dsimp only; split)

@[simp ↓] theorem abandonCloses_vp (s : State) : (abandonCloses s).vp = s.vp := by simp [abandonCloses]

@[simp ↓] theorem endOos_vp (st : Status) (s : State) : (endOos st s).vp = s.vp := by
  unfold endOos
  repeat' first | (simp; done) | split | (dsimp only; split)

@[simp ↓] theorem rollbackDom_vp (d : Fin 6) (s : State) : (rollbackDom d s).vp = s.vp := by simp [rollbackDom]

@[simp ↓] theorem rollbackOpen_vp (s : State) : (rollbackOpen s).vp = s.vp := by simp [rollbackOpen]

@[simp ↓] theorem endPending_vp (cause : Nat) (s : State) : (endPending cause s).vp = s.vp := by simp [endPending]

@[simp ↓] theorem degradedStops_vp (s : State) : (degradedStops s).vp = s.vp := by simp [degradedStops]

@[simp ↓] theorem trialFails_vp (s : State) : (trialFails s).vp = s.vp := by simp [trialFails]

@[simp ↓] theorem safeState_vp (s : State) : (safeState s).vp = s.vp := by simp [safeState]

@[simp ↓] theorem confirmClosed_vp (n : Port) (s : State) : (confirmClosed n s).vp = s.vp := by simp [confirmClosed]

/-! ### Machine/Sec.lean -/

@[simp ↓] theorem secQueue_vp (op : BitVec 6) (port : BitVec 4) (key : BitVec 6) (len : BitVec 16) (s : State) :
    (secQueue op port key len s).vp = s.vp := by simp [secQueue]

@[simp ↓] theorem gcmAux_vp (a : Word) (s : State) : ((gcmAux a s).2.2).vp = s.vp := by simp [gcmAux]

@[simp ↓] theorem putKey_vp (k : BitVec 6) (x : HostKey) (s : State) : (putKey k x s).vp = s.vp := by simp [putKey]

@[simp] theorem secFail_vp (r : SecRes) (s : State) : (SecOut.fail r s).s.vp = s.vp := rfl
@[simp] theorem secGenkey_vp (o : SecOp) (s : State) : (secGenkey o s).s.vp = s.vp := by
  unfold secGenkey
  (repeat' (first | with_reducible rfl | (simp; done) | split | (dsimp only; split) | refine (forAll_vp _ _ _ (fun _ _ => ?_)).trans ?_ | (dsimp only; refine (forAll_vp _ _ _ (fun _ _ => ?_)).trans ?_)))
@[simp] theorem secAes_vp (o : SecOp) (src : List Byte) (k : HostKey) (s : State) : (secAes o src k s).s.vp = s.vp := by
  unfold secAes
  (repeat' (first | with_reducible rfl | (simp; done) | split | (dsimp only; split) | refine (forAll_vp _ _ _ (fun _ _ => ?_)).trans ?_ | (dsimp only; refine (forAll_vp _ _ _ (fun _ _ => ?_)).trans ?_)))
@[simp] theorem secEc_vp (o : SecOp) (src : List Byte) (k : HostKey) (s : State) : (secEc o src k s).s.vp = s.vp := by
  unfold secEc
  (repeat' (first | with_reducible rfl | (simp; done) | split | (dsimp only; split) | refine (forAll_vp _ _ _ (fun _ _ => ?_)).trans ?_ | (dsimp only; refine (forAll_vp _ _ _ (fun _ _ => ?_)).trans ?_)))
@[simp] theorem secVerify_vp (o : SecOp) (src : List Byte) (s : State) : (secVerify o src s).s.vp = s.vp := by
  unfold secVerify
  (repeat' (first | with_reducible rfl | (simp; done) | split | (dsimp only; split) | refine (forAll_vp _ _ _ (fun _ _ => ?_)).trans ?_ | (dsimp only; refine (forAll_vp _ _ _ (fun _ _ => ?_)).trans ?_)))
@[simp] theorem secImport_vp (o : SecOp) (src : List Byte) (s : State) : (secImport o src s).s.vp = s.vp := by
  unfold secImport
  (repeat' (first | with_reducible rfl | (simp; done) | split | (dsimp only; split) | refine (forAll_vp _ _ _ (fun _ _ => ?_)).trans ?_ | (dsimp only; refine (forAll_vp _ _ _ (fun _ _ => ?_)).trans ?_)))
@[simp] theorem secAttest_vp (src : List Byte) (s : State) : (secAttest src s).s.vp = s.vp := by
  unfold secAttest
  (repeat' (first | with_reducible rfl | (simp; done) | split | (dsimp only; split) | refine (forAll_vp _ _ _ (fun _ _ => ?_)).trans ?_ | (dsimp only; refine (forAll_vp _ _ _ (fun _ _ => ?_)).trans ?_)))
@[simp] theorem secRun_vp (o : SecOp) (s : State) : (secRun o s).s.vp = s.vp := by
  unfold secRun
  (repeat' (first | with_reducible rfl | (simp; done) | split | (dsimp only; split) | refine (forAll_vp _ _ _ (fun _ _ => ?_)).trans ?_ | (dsimp only; refine (forAll_vp _ _ _ (fun _ _ => ?_)).trans ?_)))

@[simp ↓] theorem secComplete_vp (s : State) : (secComplete s).vp = s.vp := by
  unfold secComplete
  repeat' first | (simp; done) | split | (dsimp only; split)

@[simp ↓] theorem auditTamper_vp (s : State) : (auditTamper s).vp = s.vp := by
  unfold auditTamper
  repeat' first | (simp; done) | split | (dsimp only; split)

@[simp ↓] theorem tamper_vp (det : Word) (s : State) : (tamper det s).vp = s.vp := by simp [tamper]

/-! ### Machine/Upd.lean -/

@[simp ↓] theorem beginNew_vp (man : List Byte) (s : State) : (beginNew man s).vp = s.vp := by simp [beginNew]

@[simp ↓] theorem updBegin_vp (a : Vector Word 16) (s : State) : ((updBegin a s).s).vp = s.vp := by simp [updBegin]

@[simp ↓] theorem eraseStaging_vp (s : State) : (eraseStaging s).vp = s.vp := by simp [eraseStaging]

@[simp ↓] theorem beginDone_vp (ok : Bool) (s : State) : (beginDone ok s).vp = s.vp := by simp [beginDone]

@[simp ↓] theorem repairSector_vp (base size per : Nat) (sector : Nat) (s : State) :
    (repairSector base size per sector s).vp = s.vp := by simp [repairSector]

@[simp ↓] theorem repair_vp (k : Nat) (s : State) : (repair k s).vp = s.vp := by simp [repair]

@[simp ↓] theorem updSpore_vp (a : Vector Word 16) (s : State) : ((updSpore a s).s).vp = s.vp := by simp [updSpore]

@[simp ↓] theorem updMissing_vp (a : Vector Word 16) (s : State) : ((updMissing a s).s).vp = s.vp := by simp [updMissing]

@[simp ↓] theorem updVerify_vp (a_ : Vector Word 16) (s : State) : ((updVerify a_ s).s).vp = s.vp := by simp [updVerify]

@[simp ↓] theorem verifyDone_vp (ok : Bool) (s : State) : (verifyDone ok s).vp = s.vp := by simp [verifyDone]

@[simp ↓] theorem updActivate_vp (a : Vector Word 16) (s : State) : ((updActivate a s).s).vp = s.vp := by simp [updActivate]

@[simp ↓] theorem updCancel_vp (a : Vector Word 16) (s : State) : ((updCancel a s).s).vp = s.vp := by simp [updCancel]

@[simp ↓] theorem updConfirm_vp (a_ : Vector Word 16) (s : State) : ((updConfirm a_ s).s).vp = s.vp := by simp [updConfirm]

@[simp ↓] theorem reject_vp (reason hostcode : Nat) (s : State) : (reject reason hostcode s).vp = s.vp := by simp [reject]

@[simp ↓] theorem updReport_vp (a : Vector Word 16) (s : State) : ((updReport a s).s).vp = s.vp := by simp [updReport]

@[simp ↓] theorem updStatus_vp (a_ : Vector Word 16) (s : State) : ((updStatus a_ s).s).vp = s.vp := by simp [updStatus]

@[simp ↓] theorem windowWarning_vp (s : State) : (windowWarning s).vp = s.vp := by simp [windowWarning]

@[simp ↓] theorem windowExpiry_vp (s : State) : (windowExpiry s).vp = s.vp := by simp [windowExpiry]

@[simp ↓] theorem setOpen_vp (a_ : Vector Word 16) (s : State) : ((setOpen a_ s).s).vp = s.vp := by simp [setOpen]

@[simp ↓] theorem setOpenDone_vp (ok : Bool) (s : State) : (setOpenDone ok s).vp = s.vp := by simp [setOpenDone]

@[simp ↓] theorem State.norProgram_vp (s : State) (o : Nat) (l : List Byte) :
    (State.norProgram s o l).vp = s.vp := by simp [State.norProgram]

@[simp ↓] theorem setWrite_vp (a : Vector Word 16) (s : State) : ((setWrite a s).s).vp = s.vp := by
  unfold setWrite
  repeat' first | (simp; done) | split | (dsimp only; split)

@[simp ↓] theorem setCommit_vp (a : Vector Word 16) (s : State) : ((setCommit a s).s).vp = s.vp := by
  unfold setCommit
  repeat' first | (simp; done) | split | (dsimp only; split)

@[simp ↓] theorem keyRotate_vp (a : Vector Word 16) (s : State) : ((keyRotate a s).s).vp = s.vp := by simp [keyRotate]

@[simp ↓] theorem updClear_vp (s : State) : (updClear s).vp = s.vp := by simp [updClear]

/-! ### Machine/Display.lean -/

@[simp ↓] theorem railStep_vp (s : State) : (railStep s).vp = s.vp := by
  unfold railStep
  repeat' first | (simp; done) | split | (dsimp only; split)

@[simp ↓] theorem lowerRails_vp (s : State) : (lowerRails s).vp = s.vp := by
  unfold lowerRails
  repeat' first | (simp; done) | split | (dsimp only; split)

@[simp ↓] theorem fetchTarget_vp (r : Fin 16) (u : RunUpd) (s : State) : (fetchTarget r u s).2.vp = s.vp := by
  unfold fetchTarget
  repeat' first | (simp; done) | split | (dsimp only; split)

@[simp ↓] theorem beginUpdate_vp (r : Fin 16) (u : RunUpd) (s : State) : (beginUpdate r u s).vp = s.vp := by simp [beginUpdate]

@[simp ↓] theorem noteTemp_vp (s : State) : (noteTemp s).vp = s.vp := by simp [noteTemp]

@[simp ↓] theorem raiseRails_vp (s : State) : (raiseRails s).vp = s.vp := by simp [raiseRails]

@[simp ↓] theorem startPending_vp (r : Fin 16) (q : PendUpd) (band : Nat) (s : State) :
    (startPending r q band s).vp = s.vp := by simp [startPending]

@[simp ↓] theorem updateStart_vp (slot : Fin 4) (s : State) : (updateStart slot s).vp = s.vp := by
  unfold updateStart
  repeat' first | (simp; done) | split | (dsimp only; split)

@[simp ↓] theorem setPermit_vp (on : Bool) (s : State) : (setPermit on s).vp = s.vp := by
  unfold setPermit
  repeat' first | (simp; done) | split | (dsimp only; split)

@[simp ↓] theorem permitCheck_vp (s : State) : (permitCheck s).vp = s.vp := by simp [permitCheck]

@[simp ↓] theorem finishUpdate_vp (r : Fin 16) (u : RunUpd) (s : State) : (finishUpdate r u s).vp = s.vp := by simp [finishUpdate]

@[simp ↓] theorem followLater_vp (r : Fin 16) (m : BitVec 3) (u : RunUpd) (s : State) :
    (followLater r m u s).vp = s.vp := by simp [followLater]

@[simp ↓] theorem updateEnd_vp (r : Fin 16) (s : State) : (updateEnd r s).vp = s.vp := by
  unfold updateEnd
  repeat' first | (simp; done) | split | (dsimp only; split)

@[simp ↓] theorem updateRequest_vp (r : Fin 16) (mode : BitVec 3) (s : State) :
    (updateRequest r mode s).vp = s.vp := by simp [updateRequest]

@[simp ↓] theorem queueRedraw_vp (s : State) (r : Fin 16) : (queueRedraw s r).vp = s.vp := by simp [queueRedraw]

@[simp ↓] theorem queueRedraws_vp (s : State) : (queueRedraws s).vp = s.vp := by simp [queueRedraws]

@[simp ↓] theorem railFault_vp (rail : Fin 5) (s : State) : (railFault rail s).vp = s.vp := by simp [railFault]

@[simp ↓] theorem railRetry_vp (s : State) : (railRetry s).vp = s.vp := by simp [railRetry]

@[simp ↓] theorem dispClrcnt_vp (s : State) : (dispClrcnt s).vp = s.vp := by simp [dispClrcnt]

/-! ### Machine/SafeFunctions.lean -/

@[simp ↓] theorem pairTick_vp (j : Fin 8) (s : State) : (pairTick j s).vp = s.vp := by simp [pairTick]

@[simp ↓] theorem connTick_vp (k : Fin 16) (s : State) : (connTick k s).vp = s.vp := by simp [connTick]

@[simp ↓] theorem tickInputs_vp (lv : BitVec 16) (lorst : Bool) (s : State) :
    (tickInputs lv lorst s).vp = s.vp := by simp [tickInputs]

@[simp ↓] theorem tickMeans_vp (s : State) : (tickMeans s).vp = s.vp := by simp [tickMeans]

@[simp ↓] theorem sf01_vp (n : Port) (s : State) : (sf01 n s).vp = s.vp := by simp [sf01]

@[simp ↓] theorem sf07_vp (n : Port) (s : State) : (sf07 n s).vp = s.vp := by
  unfold sf07
  repeat' first | (simp; done) | split | (dsimp only; split)

@[simp ↓] theorem outCounts_vp (n : Port) (s : State) : (outCounts n s).vp = s.vp := by simp [outCounts]

@[simp ↓] theorem setImd_vp (g : Fin 6) (st : ImdState) (s : State) : (setImd g st s).vp = s.vp := by simp [setImd]

@[simp ↓] theorem imdRestart_vp (g : Fin 6) (s : State) : (imdRestart g s).vp = s.vp := by simp [imdRestart]

@[simp ↓] theorem preCheck_vp (g : Fin 6) (s : State) : (preCheck g s).vp = s.vp := by simp [preCheck]

@[simp ↓] theorem imdSync_vp (s : State) : (imdSync s).vp = s.vp := by simp [imdSync]

@[simp ↓] theorem askPreCheck_vp (g : Fin 6) (s : State) : (askPreCheck g s).vp = s.vp := by simp [askPreCheck]

@[simp ↓] theorem weldTick_vp (c : Fin 12) (s : State) : (weldTick c s).vp = s.vp := by
  unfold weldTick
  repeat' first | (simp; done) | split | (dsimp only; split)

@[simp ↓] theorem prepareTie_vp (c : Fin 12) (s : State) : (prepareTie c s).vp = s.vp := by
  unfold prepareTie
  repeat' first | (simp; done) | split | (dsimp only; split)

@[simp ↓] theorem fallBack_vp (c : Fin 12) (s : State) : (fallBack c s).vp = s.vp := by simp [fallBack]

@[simp ↓] theorem closeTick_vp (c : Fin 12) (s : State) : (closeTick c s).vp = s.vp := by
  unfold closeTick
  repeat' first | (simp; done) | split | (dsimp only; split)

@[simp ↓] theorem tieOpenReq_vp (c : Fin 12) (commit : Bool) (s : State) :
    (tieOpenReq c commit s).vp = s.vp := by simp [tieOpenReq]

@[simp ↓] theorem autoOpen_vp (s : State) : (autoOpen s).vp = s.vp := by simp [autoOpen]

@[simp ↓] theorem enqueue_vp (c : Fin 12) (s : State) : (enqueue c s).vp = s.vp := by simp [enqueue]

@[simp ↓] theorem numberReq_vp (c : Fin 12) (s : State) : (numberReq c s).vp = s.vp := by simp [numberReq]

/-! ### Machine/SafeCoils.lean -/

@[simp ↓] theorem announceExpiry_vp (c : Fin 12) (s : State) : (announceExpiry c s).vp = s.vp := by
  unfold announceExpiry
  repeat' first | (simp; done) | split | (dsimp only; split)

@[simp ↓] theorem lockoutRetest_vp (c : Fin 12) (high pass : Bool) (s : State) :
    (lockoutRetest c high pass s).vp = s.vp := by simp [lockoutRetest]

@[simp ↓] theorem pulseInput_vp (i : Fin 16) (low : Bool) (s : State) : (pulseInput i low s).vp = s.vp := by simp [pulseInput]

@[simp ↓] theorem testPulse_vp (b : Bool) (low : BitVec 16) (s : State) : (testPulse b low s).vp = s.vp := by simp [testPulse]

@[simp ↓] theorem rearmEdge_vp (s : State) : (rearmEdge s).vp = s.vp := by
  unfold rearmEdge
  repeat' first | (simp; done) | split | (dsimp only; split)

@[simp ↓] theorem splitCheck_vp (g : Fin 6) (s : State) : (splitCheck g s).vp = s.vp := by simp [splitCheck]

@[simp ↓] theorem closedConfirmed_vp (c : Fin 12) (s : State) : (closedConfirmed c s).vp = s.vp := by simp [closedConfirmed]

@[simp ↓] theorem tieFail_vp (c : Fin 12) (s : State) : (tieFail c s).vp = s.vp := by simp [tieFail]

@[simp ↓] theorem fbCloseTimeout_vp (c : Fin 12) (s : State) : (fbCloseTimeout c s).vp = s.vp := by simp [fbCloseTimeout]

@[simp ↓] theorem tieTimeout_vp (c : Fin 12) (s : State) : (tieTimeout c s).vp = s.vp := by
  unfold tieTimeout
  repeat' first | (simp; done) | split | (dsimp only; split)

@[simp ↓] theorem grantTimeout_vp (c : Fin 12) (s : State) : (grantTimeout c s).vp = s.vp := by simp [grantTimeout]

/-! ### Machine/SafeMonitors.lean -/

@[simp ↓] theorem nextDwell_vp (g : Fin 6) (s : State) : (nextDwell g s).vp = s.vp := by simp [nextDwell]

@[simp ↓] theorem imdInvalid_vp (g : Fin 6) (d p : Dwell) (s : State) :
    (imdInvalid g d p s).vp = s.vp := by simp [imdInvalid]

@[simp ↓] theorem imdValue_vp (g : Fin 6) (r : Rat) (s : State) : (imdValue g r s).vp = s.vp := by
  unfold imdValue
  repeat' first | (simp; done) | split | (dsimp only; split)

@[simp ↓] theorem imdDwellEnd_vp (g : Fin 6) (s : State) : (imdDwellEnd g s).vp = s.vp := by
  unfold imdDwellEnd
  repeat' first | (simp; done) | split | (dsimp only; split)

@[simp ↓] theorem imdUnknown_vp (g : Fin 6) (s : State) : (imdUnknown g s).vp = s.vp := by simp [imdUnknown]

@[simp ↓] theorem tempStale_vp (n : Port) (k : Fin 2) (s : State) : (tempStale n k s).vp = s.vp := by simp [tempStale]

@[simp ↓] theorem hoursLimit_vp (s : State) : (hoursLimit s).vp = s.vp := by simp [hoursLimit]

/-! ### Machine/SafeFast.lean -/

@[simp ↓] theorem fastComps_vp (g : Fin 2) (n : Port) (s : State) : (fastComps g n s).vp = s.vp := by
  unfold fastComps
  repeat' first | (simp; done) | split | (dsimp only; split)

@[simp ↓] theorem fastTrip_vp (n : Port) (s : State) : (fastTrip n s).vp = s.vp := by
  unfold fastTrip
  repeat' first | (simp; done) | split | (dsimp only; split)

@[simp ↓] theorem fastOutlet_vp (g : Fin 2) (n : Port) (s : State) : (fastOutlet g n s).vp = s.vp := by simp [fastOutlet]

/-! ### Machine/SysCtl.lean -/

@[simp ↓] theorem thermal1_vp (s : State) : (thermal1 s).vp = s.vp := by simp [thermal1]

@[simp ↓] theorem degcfgWrite_vp (v : Word) (s : State) : (degcfgWrite v s).vp = s.vp := by simp [degcfgWrite]

@[simp ↓] theorem vcoreWrite_vp (v : Word) (s : State) : (vcoreWrite v s).vp = s.vp := by simp [vcoreWrite]

@[simp ↓] theorem capMeasured_vp (t : Nat) (vsup : BitVec 12) (s : State) :
    (capMeasured t vsup s).vp = s.vp := by simp [capMeasured]

@[simp ↓] theorem holdReady_vp (vsup vhold : BitVec 12) (s : State) : (holdReady vsup vhold s).vp = s.vp := by simp [holdReady]

@[simp ↓] theorem coreResume_vp (s : State) : (coreResume s).vp = s.vp := by simp [coreResume]

@[simp ↓] theorem meshClear_vp (s : State) : (meshClear s).vp = s.vp := by simp [meshClear]

/-! ### Machine/SafeReset.lean -/

@[simp ↓] theorem slogSelftest_vp (step : Byte) (s : State) : (slogSelftest step s).vp = s.vp := by simp [slogSelftest]

@[simp ↓] theorem restartSelftest_vp (step : Byte) (s : State) : (restartSelftest step s).vp = s.vp := by simp [restartSelftest]

@[simp ↓] theorem tieSplit_vp (ties : List (Fin 12)) (s : State) : (tieSplit ties s).vp = s.vp := by simp [tieSplit]

/-! ### Machine/SafeCalls.lean -/

@[simp ↓] theorem safeBody_vp (inLockout outlet : Bool) (body : Vector Word 16 → State → Reply) (a : Vector Word 16) (s : State) (hbody : ∀ x0 s, ((body x0 s).s).vp = s.vp) :
    ((safeBody inLockout outlet body a s).s).vp = s.vp := by simp [safeBody, hbody]

@[simp ↓] theorem safeCall_vp (cmd : Nat) (inLockout outlet : Bool) (c : Call) (body : Vector Word 16 → State → Reply) (s : State) (hbody : ∀ x0 s, ((body x0 s).s).vp = s.vp) :
    (safeCall cmd inLockout outlet c body s).vp = s.vp := by simp [safeCall, hbody]

@[simp ↓] theorem startClose_vp (n : Port) (c : Fin 12) (vEv iEv : Nat) (s : State) :
    (startClose n c vEv iEv s).vp = s.vp := by
  unfold startClose
  repeat' first | (simp; done) | split | (dsimp only; split)

@[simp ↓] theorem closeReq_vp (a : Vector Word 16) (s : State) : ((closeReq a s).s).vp = s.vp := by
  unfold closeReq
  repeat' first | (simp; done) | split | (dsimp only; split)

@[simp ↓] theorem stopCall_vp (a : Vector Word 16) (s : State) : ((stopCall a s).s).vp = s.vp := by simp [stopCall]

@[simp ↓] theorem setLimits_vp (a : Vector Word 16) (s : State) : ((setLimits a s).s).vp = s.vp := by
  unfold setLimits
  repeat' first | (simp; done) | split | (dsimp only; split)

@[simp ↓] theorem oosStops_vp (set : BitVec 8) (s : State) : (oosStops set s).vp = s.vp := by simp [oosStops]

@[simp ↓] theorem setOos_vp (a : Vector Word 16) (s : State) : ((setOos a s).s).vp = s.vp := by simp [setOos]

@[simp ↓] theorem contactorReplaced_vp (a : Vector Word 16) (s : State) :
    ((contactorReplaced a s).s).vp = s.vp := by
  unfold contactorReplaced
  repeat' first | (simp; done) | split | (dsimp only; split)

@[simp ↓] theorem readChkval_vp (a_ : Vector Word 16) (s : State) : ((readChkval a_ s).s).vp = s.vp := by simp [readChkval]

@[simp ↓] theorem linkKeyLoad_vp (a : Vector Word 16) (s : State) : ((linkKeyLoad a s).s).vp = s.vp := by
  unfold linkKeyLoad
  repeat' first | (simp; done) | split | (dsimp only; split)

@[simp ↓] theorem tripTest_vp (pass : BitVec 4) (a : Vector Word 16) (s : State) :
    ((tripTest pass a s).s).vp = s.vp := by
  unfold tripTest
  repeat' first | (simp; done) | split | (dsimp only; split)

@[simp ↓] theorem readSlog_vp (a : Vector Word 16) (s : State) : ((readSlog a s).s).vp = s.vp := by simp [readSlog]

@[simp ↓] theorem slogRelease_vp (a : Vector Word 16) (s : State) : ((slogRelease a s).s).vp = s.vp := by
  unfold slogRelease
  repeat' first | (simp; done) | split | (dsimp only; split)

/-! ### Machine/SafeLink.lean -/

@[simp ↓] theorem linkReport_vp (k : Fin 16) (s : State) : (linkReport k s).vp = s.vp := by simp [linkReport]

@[simp ↓] theorem setLink_vp (k : Fin 16) (st : LinkState) (s : State) : (setLink k st s).vp = s.vp := by simp [setLink]

@[simp ↓] theorem linkDemand_vp (n : Port) (cat : Nat) (why : Why) (s : State) :
    (linkDemand n cat why s).vp = s.vp := by simp [linkDemand]

@[simp ↓] theorem linkFail_vp (k : Fin 16) (s : State) : (linkFail k s).vp = s.vp := by simp [linkFail]

@[simp ↓] theorem linkConnect_vp (k : Fin 16) (s : State) : (linkConnect k s).vp = s.vp := by simp [linkConnect]

@[simp ↓] theorem sendPdu_vp (k : Fin 16) (ack : Bool) (payload : List Byte) (s : State) :
    (sendPdu k ack payload s).vp = s.vp := by simp [sendPdu]

@[simp ↓] theorem sendConnect_vp (k : Fin 16) (ack : Bool) (s : State) : (sendConnect k ack s).vp = s.vp := by simp [sendConnect]

@[simp ↓] theorem sendData_vp (k : Fin 16) (s : State) : (sendData k s).vp = s.vp := by simp [sendData]

@[simp ↓] theorem linkCycle_vp (k : Fin 16) (s : State) : (linkCycle k s).vp = s.vp := by
  unfold linkCycle
  repeat' first | (simp; done) | split | (dsimp only; split)

@[simp ↓] theorem linkWatchdog_vp (k : Fin 16) (s : State) : (linkWatchdog k s).vp = s.vp := by simp [linkWatchdog]

@[simp ↓] theorem dualMiss_vp (k : Fin 16) (x : Copy) (s : State) : (dualMiss k x s).vp = s.vp := by simp [dualMiss]

@[simp ↓] theorem dualPair_vp (k : Fin 16) (x : Copy) (s : State) : (dualPair k x s).vp = s.vp := by simp [dualPair]

@[simp ↓] theorem dualExpiry_vp (k : Fin 16) (s : State) : (dualExpiry k s).vp = s.vp := by
  unfold dualExpiry
  repeat' first | (simp; done) | split | (dsimp only; split)

@[simp ↓] theorem dualFirst_vp (k : Fin 16) (p : LinkPdu) (l : List Byte) (s : State) :
    (dualFirst k p l s).vp = s.vp := by simp [dualFirst]

@[simp ↓] theorem dualSecond_vp (k : Fin 16) (x : Copy) (l : List Byte) (s : State) :
    (dualSecond k x l s).vp = s.vp := by simp [dualSecond]

@[simp ↓] theorem acceptPdu_vp (k : Fin 16) (p : LinkPdu) (s : State) : ((acceptPdu k p s).2).vp = s.vp := by
  unfold acceptPdu
  repeat' first | (simp; done) | split | (dsimp only; split)

@[simp ↓] theorem firstCopy_vp (ty : Byte) (k : Fin 16) (p : LinkPdu) (conn open_ : Fin 16 → State → State) (s : State)
    (hconn : ∀ x0 s, (conn x0 s).vp = s.vp) (hopen_ : ∀ x0 s, (open_ x0 s).vp = s.vp) :
    (firstCopy ty k p conn open_ s).vp = s.vp := by
  unfold firstCopy
  repeat' first | (simp [hconn, hopen_]; done) | split | (dsimp only; split)

@[simp ↓] theorem receivePdu_vp (ty : Byte) (p : LinkPdu) (conn open_ : Fin 16 → State → State) (s : State) (hconn : ∀ x0 s, (conn x0 s).vp = s.vp) (hopen_ : ∀ x0 s, (open_ x0 s).vp = s.vp) :
    (receivePdu ty p conn open_ s).vp = s.vp := by
  unfold receivePdu
  repeat' first | (simp [hconn, hopen_]; done) | split | (dsimp only; split)

@[simp ↓] theorem takeSeq_vp (p : LinkPdu) (k : Fin 16) (s : State) : (takeSeq p k s).vp = s.vp := by simp [takeSeq]

@[simp ↓] theorem onConnect_vp (p : LinkPdu) (k : Fin 16) (s : State) : (onConnect p k s).vp = s.vp := by simp [onConnect]

@[simp ↓] theorem onData_vp (p : LinkPdu) (k : Fin 16) (s : State) : (onData p k s).vp = s.vp := by simp [onData]

@[simp ↓] theorem onPress_vp (k : Fin 16) (s : State) : (onPress k s).vp = s.vp := by simp [onPress]

@[simp ↓] theorem onRearm_vp (p : LinkPdu) (k : Fin 16) (s : State) : (onRearm p k s).vp = s.vp := by simp [onRearm]

/-! ### Machine/Thl.lean -/

@[simp ↓] theorem slotStart_vp (cmd : SlotCmd) (allowed : Bool) (k : Fin 2) (s : State) :
    (slotStart cmd allowed k s).vp = s.vp := by simp [slotStart]

@[simp ↓] theorem slotWriteCmd_vp (k : Fin 2) (s : State) : (slotWriteCmd k s).vp = s.vp := by simp [slotWriteCmd]

@[simp ↓] theorem slotSwitchCmd_vp (k : Fin 2) (s : State) : (slotSwitchCmd k s).vp = s.vp := by simp [slotSwitchCmd]

@[simp ↓] theorem State.freeBytes_vp (s : State) (n : Nat) : ((State.freeBytes s n).2).vp = s.vp := by simp [State.freeBytes]

@[simp ↓] theorem slotErased_vp (k : Fin 2) (ok : Bool) (s : State) : ((slotErased k ok s).1).vp = s.vp := by
  unfold slotErased
  repeat' first | (simp; done) | split | (dsimp only; split)

@[simp ↓] theorem slotWritten_vp (k : Fin 2) (ok : Bool) (s : State) : ((slotWritten k ok s).1).vp = s.vp := by
  unfold slotWritten
  repeat' first | (simp; done) | split | (dsimp only; split)

@[simp ↓] theorem slotVerified_vp (k : Fin 2) (ok : Bool) (s : State) :
    ((slotVerified k ok s).1).vp = s.vp := by simp [slotVerified]

@[simp ↓] theorem slotCommandDone_vp (ok : Bool) (s : State) : (slotCommandDone ok s).vp = s.vp := by
  unfold slotCommandDone
  repeat' first | (simp; done) | split | (dsimp only; split)

@[simp ↓] theorem stageEnd_vp (r : Nat) (c : List Byte) (s : State) : (stageEnd r c s).vp = s.vp := by simp [stageEnd]

@[simp ↓] theorem prStage_vp (s : State) : (prStage s).vp = s.vp := by simp [prStage]

@[simp ↓] theorem stagingDone_vp (s : State) : (stagingDone s).vp = s.vp := by simp [stagingDone]

@[simp ↓] theorem prDiscard_vp (s : State) : (prDiscard s).vp = s.vp := by simp [prDiscard]

@[simp ↓] theorem writeIn_vp (s : State) : (writeIn s).vp = s.vp := by simp [writeIn]

@[simp ↓] theorem State.modPart_vp (s : State) (p : Fin 8) (f : PartCnt → PartCnt) :
    (State.modPart s p f).vp = s.vp := by simp [State.modPart]

@[simp ↓] theorem scrubCorrect_vp (p : Fin 8) (s : State) : (scrubCorrect p s).vp = s.vp := by simp [scrubCorrect]

@[simp ↓] theorem thlClear_vp (s : State) : (thlClear s).vp = s.vp := by simp [thlClear]

@[simp ↓] theorem gSignal_vp (g : GSignal) (s : State) : (gSignal g s).vp = s.vp := by
  unfold gSignal
  repeat' first | (simp; done) | split | (dsimp only; split)

/-! ### Machine/Txn.lean -/

@[simp ↓] theorem place_vp (d : Fin 6) (a : Nat) (v : Word) (s : State) : (place d a v s).vp = s.vp := by
  unfold place
  repeat' first | (simp; done) | split | (dsimp only; split)

@[simp ↓] theorem rwtWrite_vp (a : Nat) (v : Word) (s : State) : (rwtWrite a v s).vp = s.vp := by
  unfold rwtWrite
  repeat' first | (simp; done) | split | (dsimp only; split)

@[simp ↓] theorem txnBody_vp (body : Vector Word 16 → State → Reply) (a : Vector Word 16) (s : State) (hbody : ∀ x0 s, ((body x0 s).s).vp = s.vp) :
    ((txnBody body a s).s).vp = s.vp := by simp [txnBody, hbody]

@[simp ↓] theorem txnBegin_vp (a : Vector Word 16) (s : State) : ((txnBegin a s).s).vp = s.vp := by
  unfold txnBegin
  repeat' first | (simp; done) | split | (dsimp only; split)

@[simp] theorem txnNamed_vp (s : State) (a : Vector Word 16) (f : Fin 6 → Reply)
    (hf : ∀ d, (f d).s.vp = s.vp) : (txnNamed s a f).s.vp = s.vp := by
  unfold txnNamed
  split
  · rfl
  · exact checks_vp _ _ _ (hf _)

@[simp ↓] theorem txnCommit_vp (a : Vector Word 16) (s : State) : ((txnCommit a s).s).vp = s.vp := by simp [txnCommit]

@[simp ↓] theorem txnRollback_vp (a : Vector Word 16) (s : State) : ((txnRollback a s).s).vp = s.vp := by simp [txnRollback]

@[simp ↓] theorem txnRenew_vp (a : Vector Word 16) (s : State) : ((txnRenew a s).s).vp = s.vp := by simp [txnRenew]

@[simp ↓] theorem txnPut_vp (a : Vector Word 16) (s : State) : ((txnPut a s).s).vp = s.vp := by
  unfold txnPut
  repeat' first | (simp; done) | split | (dsimp only; split)

@[simp ↓] theorem leaseExpiry_vp (d : Fin 6) (s : State) : (leaseExpiry d s).vp = s.vp := by simp [leaseExpiry]

@[simp ↓] theorem journalChanges_vp (l : List (Nat × Word × Word)) (s : State) :
    (journalChanges l s).vp = s.vp := by simp [journalChanges]

@[simp ↓] theorem auditChanges_vp (window : Nat) (reason : Byte) (l : List (Nat × Word × Word)) (s : State) :
    (auditChanges window reason l s).vp = s.vp := by simp [auditChanges]

@[simp ↓] theorem commitSlots_vp (l : List (Nat × Word × Word)) (s : State) :
    (commitSlots l s).vp = s.vp := by simp [commitSlots]

@[simp ↓] theorem commitChannels_vp (l : List (Nat × Word × Word)) (s : State) :
    (commitChannels l s).vp = s.vp := by simp [commitChannels]

@[simp ↓] theorem commitMeters_vp (reason : Byte) (l : List (Nat × Word × Word)) (s : State) :
    (commitMeters reason l s).vp = s.vp := by simp [commitMeters]

@[simp ↓] theorem commitMet_vp (reason : Byte) (l : List (Nat × Word × Word)) (s : State) :
    (commitMet reason l s).vp = s.vp := by simp [commitMet]

@[simp ↓] theorem commitTokenKeys_vp (reason : Byte) (ks : List (Nat × Option (BitVec 128))) (s : State) :
    (commitTokenKeys reason ks s).vp = s.vp := by simp [commitTokenKeys]

@[simp ↓] theorem commitBill_vp (reason : Byte) (ks : List (Nat × Option (BitVec 128))) (l : List (Nat × Word × Word)) (s : State) :
    (commitBill reason ks l s).vp = s.vp := by simp [commitBill]

@[simp ↓] theorem commitSafe_vp (ks : List (Nat × Option (BitVec 128))) (l : List (Nat × Word × Word)) (s : State) :
    (commitSafe ks l s).vp = s.vp := by simp [commitSafe]

@[simp ↓] theorem tieCloseReq_vp (c : Fin 12) (s : State) : (tieCloseReq c s).vp = s.vp := by simp [tieCloseReq]

@[simp ↓] theorem siteSequence_vp (was : List (Fin 48 × Nat)) (s : State) : (siteSequence was s).vp = s.vp := by simp [siteSequence]

@[simp ↓] theorem commitSite_vp (l : List (Nat × Word × Word)) (s : State) : (commitSite l s).vp = s.vp := by simp [commitSite]

@[simp ↓] theorem commitThl_vp (agree : Bool) (reason : Byte) (s : State) :
    ((commitThl agree reason s).2).vp = s.vp := by
  unfold commitThl
  repeat' first | (simp; done) | split | (dsimp only; split)

@[simp ↓] theorem frontLight_vp (old : Nat) (s : State) : (frontLight old s).vp = s.vp := by simp [frontLight]

@[simp ↓] theorem runCommit_vp (d : Fin 6) (agree : Bool) (s : State) :
    ((runCommit d agree s).2).vp = s.vp := by
  unfold runCommit
  repeat' first | (simp; done) | split | (dsimp only; split)

@[simp ↓] theorem endCommit_vp (d : Fin 6) (st : Status) (s : State) : (endCommit d st s).vp = s.vp := by
  unfold endCommit
  repeat' first | (simp; done) | split | (dsimp only; split)

@[simp ↓] theorem commitDone_vp (agree : Bool) (s : State) : (commitDone agree s).vp = s.vp := by
  unfold commitDone
  repeat' first | (simp; done) | split | (dsimp only; split)

@[simp ↓] theorem txnClear_vp (s : State) : (txnClear s).vp = s.vp := by simp [txnClear]

@[simp ↓] theorem compatWrite_vp (i : Fin 28) (req : BitVec 16) (s : State) :
    (compatWrite i req s).vp = s.vp := by
  unfold compatWrite
  repeat' first | (simp; done) | split | (dsimp only; split)

/-! ### Machine/Keys.lean -/

@[simp ↓] theorem freeKey_vp (k : BitVec 4) (s : State) : (freeKey k s).vp = s.vp := by simp [freeKey]

@[simp ↓] theorem keyFifoRead_vp (s : State) : (keyFifoRead s).vp = s.vp := by
  unfold keyFifoRead
  repeat' first | (simp; done) | split | (dsimp only; split)

/-! ### Machine/RegRead.lean -/

@[simp ↓] theorem multiWrap_vp (s : State) (req a : Nat) (m : MeterId) (exp : Bool) :
    ((multiWrap s req a m exp).2).vp = s.vp := by simp [multiWrap]

@[simp ↓] theorem rosLatch_vp (req a : Nat) (k : BlkKind) (n base o : Nat) (s : State) :
    (rosLatch req a k n base o s).vp = s.vp := by
  unfold rosLatch
  repeat' first | (simp; done) | split | (dsimp only; split)

@[simp ↓] theorem regRead_vp (req a : Nat) (s : State) : (regRead req a s).vp = s.vp := by
  unfold regRead
  repeat' first | (simp; done) | split | (dsimp only; split)

/-! ### Machine/EthMac.lean -/

@[simp ↓] theorem ethStore_vp (m : Fin 2) (f : List Byte) (s : State) : (ethStore m f s).vp = s.vp := by simp [ethStore]

@[simp ↓] theorem ethTransmit_vp (m : Fin 2) (s : State) : (ethTransmit m s).vp = s.vp := by
  unfold ethTransmit
  repeat' first | (simp; done) | split | (dsimp only; split)

@[simp ↓] theorem ethLink_vp (m : Fin 2) (up : Bool) (speed : Fin 3) (full : Bool) (s : State) :
    (ethLink m up speed full s).vp = s.vp := by simp [ethLink]

@[simp ↓] theorem ethClrcnt_vp (m : Fin 2) (s : State) : (ethClrcnt m s).vp = s.vp := by simp [ethClrcnt]

/-! ### Machine/TimeSet.lean -/

@[simp ↓] theorem setLegal_vp (ms : Nat) (s : State) : (setLegal ms s).vp = s.vp := by simp [setLegal]

@[simp ↓] theorem adjustSmall_vp (old : Nat) (adj : Int) (new : Nat) (reason : Nat) (s : State) :
    (adjustSmall old adj new reason s).vp = s.vp := by simp [adjustSmall]

@[simp ↓] theorem adjustNote_vp (adj : Int) (reason : Nat) (s : State) :
    (adjustNote adj reason s).vp = s.vp := by simp [adjustNote]

@[simp ↓] theorem adjustBig_vp (old : Nat) (adj : Int) (new : Nat) (reason : Nat) (s : State) :
    (adjustBig old adj new reason s).vp = s.vp := by simp [adjustBig]

@[simp ↓] theorem adjustFirst_vp (adj : Int) (new : Nat) (reason : Nat) (s : State) :
    (adjustFirst adj new reason s).vp = s.vp := by simp [adjustFirst]

@[simp] theorem setTime_vp (a : Vector Word 16) (s : State) : (setTime a s).s.vp = s.vp := by
  unfold setTime
  refine checks_vp _ _ _ ?_
  (repeat' (first | with_reducible rfl | (simp; done) | split | (dsimp only; split) | refine (forAll_vp _ _ _ (fun _ _ => ?_)).trans ?_ | (dsimp only; refine (forAll_vp _ _ _ (fun _ _ => ?_)).trans ?_)))

@[simp ↓] theorem readTime_vp (a_ : Vector Word 16) (s : State) : ((readTime a_ s).s).vp = s.vp := by simp [readTime]

@[simp ↓] theorem rtcTrim_vp (a : Vector Word 16) (s : State) : ((rtcTrim a s).s).vp = s.vp := by simp [rtcTrim]

/-! ### Machine/RegWrite.lean -/

@[simp ↓] theorem metCalls_vp (cmd : Nat) (a : Vector Word 16) (s : State) :
    ((metCalls cmd a s).s).vp = s.vp := by
  unfold metCalls
  repeat' first | (simp; done) | split | (dsimp only; split)

@[simp ↓] theorem billCalls_vp (cmd : Nat) (a : Vector Word 16) (s : State) :
    ((billCalls cmd a s).s).vp = s.vp := by
  unfold billCalls
  repeat' first | (simp; done) | split | (dsimp only; split)

@[simp ↓] theorem txnCalls_vp (cmd : Nat) (a : Vector Word 16) (s : State) :
    ((txnCalls cmd a s).s).vp = s.vp := by
  unfold txnCalls
  repeat' first | (simp; done) | split | (dsimp only; split)

@[simp ↓] theorem updCalls_vp (cmd : Nat) (a : Vector Word 16) (s : State) :
    ((updCalls cmd a s).s).vp = s.vp := by
  unfold updCalls
  repeat' first | (simp; done) | split | (dsimp only; split)

@[simp] theorem writeMbxIn_vp (i : MbxId) (o : Nat) (v : Word) (s : State) : (writeMbxIn i o v s).vp = s.vp := by
  have h (k : Nat) : (match i with
    | .bill => { s with bill.mbxin := putWord s.bill.mbxin k v }
    | .safe => { s with safe.mbxin := putWord s.safe.mbxin k v }
    | .upd => { s with upd.mbxin := putWord s.upd.mbxin k v }
    | _ => s).vp = s.vp := by cases i <;> rfl
  exact h _

@[simp ↓] theorem safeW1c_vp (o : Nat) (v : Word) (s : State) : (safeW1c o v s).vp = s.vp := by simp [safeW1c]

@[simp ↓] theorem writeTime_vp (o : Nat) (v : Word) (s : State) : (writeTime o v s).vp = s.vp := by
  unfold writeTime
  repeat' first | (simp; done) | split | (dsimp only; split)

@[simp ↓] theorem writeSec_vp (o : Nat) (v : Word) (s : State) : (writeSec o v s).vp = s.vp := by
  unfold writeSec
  repeat' first | (simp; done) | split | (dsimp only; split)

@[simp ↓] theorem writeSlotctl_vp (v : Word) (s : State) : (writeSlotctl v s).vp = s.vp := by
  unfold writeSlotctl
  repeat' first | (simp; done) | split | (dsimp only; split)

@[simp ↓] theorem writeThl_vp (o : Nat) (v : Word) (s : State) : (writeThl o v s).vp = s.vp := by
  unfold writeThl
  repeat' first | (simp; done) | split | (dsimp only; split)

@[simp ↓] theorem writeEth_vp (m : Fin 2) (o : Nat) (v : Word) (s : State) : (writeEth m o v s).vp = s.vp := by simp [writeEth]

@[simp ↓] theorem writeCan_vp (b : Fin 3) (o : Nat) (v : Word) (s : State) : (writeCan b o v s).vp = s.vp := by simp [writeCan]

@[simp ↓] theorem setPar_vp (a mask : Nat) (v : Word) (s : State) : (setPar a mask v s).vp = s.vp := by simp [setPar]

@[simp ↓] theorem writeLoad_vp (o : Nat) (v : Word) (s : State) : (writeLoad o v s).vp = s.vp := by
  unfold writeLoad
  repeat' first | (simp; done) | split | (dsimp only; split)

@[simp ↓] theorem writeGpio_vp (o : Nat) (v : Word) (s : State) : (writeGpio o v s).vp = s.vp := by
  unfold writeGpio
  repeat' first | (simp; done) | split | (dsimp only; split)

@[simp ↓] theorem writeMesh_vp (o : Nat) (v : Word) (s : State) : (writeMesh o v s).vp = s.vp := by simp [writeMesh]

@[simp ↓] theorem writeIntc_vp (o : Nat) (v : Word) (s : State) : (writeIntc o v s).vp = s.vp := by simp [writeIntc]

@[simp ↓] theorem writeDisp_vp (base o : Nat) (v : Word) (s : State) : (writeDisp base o v s).vp = s.vp := by
  unfold writeDisp
  repeat' first | (simp; done) | split | (dsimp only; split)

@[simp] theorem memWrite_vp (req a : Nat) (bs : List Byte) (s : State) : (memWrite req a bs s).vp = s.vp := by
  unfold memWrite
  split
  · split
    · rename_i t h; rw [State.busOk_vp]; exact ramStore_vp s t a bs h
    · simp
  · split <;> simp

/-! ### Machine/Dma.lean -/

@[simp] theorem regWords_vp (a : Nat) (fixed : Bool) (n : Nat) (s : State) :
    (regWords a fixed n s).2.1.vp = s.vp := by
  induction n generalizing a s with
  | zero => rfl
  | succ n ih =>
    unfold regWords
    repeat' first | with_reducible rfl | (simp [ih]; done) | split | (dsimp only; split)

@[simp ↓] theorem regTail_vp (a len : Nat) (t : List Byte × State × Option DmaResult) :
    (regTail a len t).2.1.vp = t.2.1.vp := by
  unfold regTail
  split <;> simp

@[simp ↓] theorem readSource_vp (a len : Nat) (fixed : Bool) (s : State) : (readSource a len fixed s).2.1.vp = s.vp := by
  unfold readSource
  repeat' first | (simp; done) | split | (dsimp only; split)

@[simp ↓] theorem indexAt_vp (w : Vector Word 8) (i : Nat) (s : State) : (indexAt w i s).2.1.vp = s.vp := by simp [indexAt]

@[simp ↓] theorem periphPut_vp (r : Nat) (bs : List Byte) (s : State) : (periphPut r bs s).vp = s.vp := by simp [periphPut]

@[simp ↓] theorem dmaAge_vp (g : Fin 32) (s : State) : (dmaAge g s).vp = s.vp := by simp [dmaAge]

@[simp ↓] theorem State.modRun_vp (s : State) (c : Fin 32) (f : DmaRun → DmaRun) :
    (State.modRun s c f).vp = s.vp := by simp [State.modRun]

@[simp ↓] theorem dmaPrefetch_vp (c : Fin 32) (hit : Option Bool) (s : State) :
    (dmaPrefetch c hit s).vp = s.vp := by simp [dmaPrefetch]

/-! ### Machine/SafeTick.lean -/

@[simp ↓] theorem releaseWaiting_vp (s : State) : (releaseWaiting s).vp = s.vp := by simp [releaseWaiting]

@[simp ↓] theorem rampTimeout_vp (n : Port) (s : State) : (rampTimeout n s).vp = s.vp := by
  unfold rampTimeout
  repeat' first | (simp; done) | split | (dsimp only; split)

/-! ### Machine/Save.lean -/

@[simp ↓] theorem dropCalls_vp (s : State) : (dropCalls s).vp = s.vp := by simp [dropCalls]

@[simp ↓] theorem tornSlot_vp (s : State) : (tornSlot s).vp = s.vp := by
  unfold tornSlot
  repeat' first | (simp; done) | split | (dsimp only; split)

@[simp ↓] theorem tornErase_vp (s : State) : (tornErase s).vp = s.vp := by simp [tornErase]

@[simp ↓] theorem tornSettings_vp (s : State) : (tornSettings s).vp = s.vp := by simp [tornSettings]

@[simp ↓] theorem tornFlash_vp (s : State) : (tornFlash s).vp = s.vp := by simp [tornFlash]

@[simp ↓] theorem dropOutputs_vp (s : State) : (dropOutputs s).vp = s.vp := by simp [dropOutputs]

@[simp ↓] theorem stopRunning_vp (s : State) : (stopRunning s).vp = s.vp := by simp [stopRunning]

@[simp ↓] theorem holdPart_vp (bits : BitVec 16) (s : State) : (holdPart bits s).vp = s.vp := by simp [holdPart]

@[simp ↓] theorem powerFailAudits_vp (s : State) : (powerFailAudits s).vp = s.vp := by simp [powerFailAudits]

@[simp ↓] theorem lastFine_vp (w : BitVec 64) (g : Fin 2) (s : State) : (lastFine w g s).vp = s.vp := by simp [lastFine]

@[simp ↓] theorem lastBits_vp (w : BitVec 64) (s : State) (b : FastBits) : (lastBits w s b).vp = s.vp := by simp [lastBits]

@[simp ↓] theorem lastSamples_vp (tail : List FastBits) (s : State) :
    (lastSamples tail s).vp = s.vp := by simp [lastSamples]

@[simp ↓] theorem lastBoundaries_vp (tail : List FastBits) (s : State) :
    (lastBoundaries tail s).vp = s.vp := by simp [lastBoundaries]

@[simp ↓] theorem saveMetering_vp (tail : List FastBits) (s : State) :
    (saveMetering tail s).vp = s.vp := by simp [saveMetering]

@[simp ↓] theorem meetFate_vp (s : State) (x : Fin 16 × Fate) : (meetFate s x).vp = s.vp := by
  unfold meetFate
  repeat' first | (simp; done) | split | (dsimp only; split)

@[simp ↓] theorem saveDisplay_vp (vhold : BitVec 12) (s : State) : (saveDisplay vhold s).vp = s.vp := by simp [saveDisplay]

@[simp ↓] theorem endEntries_vp (s : State) : (endEntries s).vp = s.vp := by simp [endEntries]

@[simp ↓] theorem dropPulses_vp (s : State) : (dropPulses s).vp = s.vp := by simp [dropPulses]

@[simp ↓] theorem cutClose_vp (s : State) : (cutClose s).vp = s.vp := by simp [cutClose]

@[simp ↓] theorem settle_vp (s : State) : (settle s).vp = s.vp := by simp [settle]

@[simp ↓] theorem loseTail_vp (s : State) : (loseTail s).vp = s.vp := by simp [loseTail]

/-! ### Machine/StartUp.lean -/

@[simp ↓] theorem atNs_vp (n : Nat) (s : State) : (atNs n s).vp = s.vp := by simp [atNs]

@[simp ↓] theorem causeBit_vp (n : Nat) (s : State) : (causeBit n s).vp = s.vp := by simp [causeBit]

@[simp ↓] theorem bootSupply_vp (u : StartUp) (s : State) : (bootSupply u s).vp = s.vp := by simp [bootSupply]

@[simp ↓] theorem bootTime_vp (old : Mode) (u : StartUp) (s : State) : (bootTime old u s).vp = s.vp := by simp [bootTime]

@[simp ↓] theorem swapAreas_vp (s : State) : (swapAreas s).vp = s.vp := by simp [swapAreas]

@[simp ↓] theorem activate_vp (s : State) : (activate s).vp = s.vp := by simp [activate]

@[simp ↓] theorem swapBack_vp (s : State) : (swapBack s).vp = s.vp := by simp [swapBack]

@[simp ↓] theorem provisionFkd_vp (s : State) : (provisionFkd s).vp = s.vp := by simp [provisionFkd]

@[simp ↓] theorem bootConfirmed_vp (s : State) : (bootConfirmed s).vp = s.vp := by simp [bootConfirmed]

@[simp ↓] theorem olderArea_vp (s : State) (a : SinterArea) : (olderArea s a).vp = s.vp := by
  unfold olderArea
  repeat' first | (simp; done) | split | (dsimp only; split)

@[simp ↓] theorem loseArea_vp (s : State) (a : SinterArea) : (loseArea s a).vp = s.vp := by
  unfold loseArea
  repeat' first | (simp; done) | split | (dsimp only; split)

@[simp ↓] theorem recovery_vp (u : StartUp) (rolled : Nat) (s : State) : (recovery u rolled s).vp = s.vp := by simp [recovery]

@[simp ↓] theorem provisionSkd_vp (k : Fin 2) (s : State) : (provisionSkd k s).vp = s.vp := by simp [provisionSkd]

@[simp ↓] theorem journalFs_vp (s : State) : (journalFs s).vp = s.vp := by simp [journalFs]

@[simp ↓] theorem install_vp (k : Fin 2) (l : Loaded) (s : State) : (install k l s).vp = s.vp := by simp [install]

@[simp ↓] theorem loadRest_vp (k : Fin 2) (l : Loaded) (s : State) : (loadRest k l s).2.vp = s.vp := by
  unfold loadRest
  repeat' first | (simp; done) | split | (dsimp only; split)

@[simp ↓] theorem loadFrom_vp (k : Fin 2) (s : State) : ((loadFrom k s).2).vp = s.vp := by
  unfold loadFrom
  repeat' first | (simp; done) | split | (dsimp only; split)

@[simp ↓] theorem gapEntries_vp (s : State) : (gapEntries s).vp = s.vp := by simp [gapEntries]

@[simp ↓] theorem restartSlices_vp (s : State) : (restartSlices s).vp = s.vp := by simp [restartSlices]

@[simp ↓] theorem bootBoundaries_vp (s : State) : (bootBoundaries s).vp = s.vp := by simp [bootBoundaries]

@[simp ↓] theorem bootStops_vp (s : State) : (bootStops s).vp = s.vp := by simp [bootStops]

@[simp ↓] theorem bootPart_vp (s : State) : (bootPart s).vp = s.vp := by simp [bootPart]

@[simp ↓] theorem lossEntries_vp (l : List SinterArea) (s : State) : (lossEntries l s).vp = s.vp := by simp [lossEntries]

@[simp ↓] theorem kernelStart_vp (u : StartUp) (s : State) : (kernelStart u s).vp = s.vp := by simp [kernelStart]

@[simp ↓] theorem bootKernel_vp (u : StartUp) (s : State) : (bootKernel u s).vp = s.vp := by simp [bootKernel]

@[simp ↓] theorem releaseCores_vp (s : State) : (releaseCores s).vp = s.vp := by simp [releaseCores]

@[simp ↓] theorem startWindow_vp (s : State) : (startWindow s).vp = s.vp := by simp [startWindow]

/-! ### Machine/Idle.lean -/

@[simp ↓] theorem idle_vp (s : State) : (idle s).vp = s.vp := by simp [idle]

end Sys2Proof.Machine
end

