-- ==== Sys2Proof/Laws/Load.lean ====
section
/-! SUPPORT. What bringing a load channel to its effective state does to the channels (R314, R317, R321). -/

namespace Sys2Proof.Machine

theorem openWindow_other (s : State) (n m : Fin 10) (h : m ≠ n) : (openWindow n s).load.ch[m] = s.load.ch[m] := by
  unfold openWindow
  split
  · exact vmod_other _ _ _ _ h
  · rfl

/-- An inrush window opens where the ball of a channel that awaits it is on; nothing else of the channel changes. -/
theorem openWindow_self (s : State) (n : Fin 10) : (openWindow n s).load.ch[n] =
    (let c := s.load.ch[n]
     if (c.await && ldBall s n) = true then { c with inrush := true, await := false } else c) := by
  unfold openWindow
  dsimp only
  split
  · exact vmod_self _ _ _
  · rfl

theorem openWindow_rest (s : State) (n : Fin 10) : openWindow n s = { s with load.ch := (openWindow n s).load.ch } := by
  unfold openWindow
  split <;> rfl

theorem loadOne_other (s : State) (n m : Fin 10) (h : m ≠ n) : (loadOne s n).load.ch[m] = s.load.ch[m] :=
  (openWindow_other _ n m h).trans (vmod_other _ _ _ _ h)

/-- The channel is brought to its effective state, and its inrush window opens where its ball is then on. -/
theorem loadOne_self (s : State) (n : Fin 10) : (loadOne s n).load.ch[n] =
    (let c := turnTo s.load.uvhold (ldEff s n) s.load.ch[n]
     if (c.await && ldBall (s.modLoad n (turnTo s.load.uvhold (ldEff s n))) n) = true then
       { c with inrush := true, await := false }
     else c) := by
  have h : (s.modLoad n (turnTo s.load.uvhold (ldEff s n))).load.ch[n] =
      turnTo s.load.uvhold (ldEff s n) s.load.ch[n] := vmod_self _ _ _
  rw [loadOne, openWindow_self, h]

/-- Everything else of the state is as before. -/
theorem loadOne_rest (s : State) (n : Fin 10) : loadOne s n = { s with load.ch := (loadOne s n).load.ch } := by
  rw [loadOne, openWindow_rest]
  rfl

end Sys2Proof.Machine
end

