-- ==== Sys2Proof/Laws/Modes.lean ====
section
/-! SUPPORT. What the mode transitions do to SYS, each said once (R27, R35, R38, R39, R42). -/

namespace Sys2Proof.Machine

/-- A transition sets MODE and PREV, and nothing else of SYS; a transition to the present mode is none. -/
theorem setMode_sys (m : Mode) (s : State) :
    (setMode m s).sys = if s.sys.mode = m then s.sys else { s.sys with prev := s.sys.mode, mode := m } := by
  by_cases h : s.sys.mode = m
  · simp [setMode, h]
  · unfold setMode
    rw [if_neg h, if_neg h]
    dsimp only
    rw [loadAll_sys, forAll_sys _ _ _ (fun _ _ => by simp)]
    split <;> split <;> simp [State.draw]

theorem setMode_mode (m : Mode) (s : State) : (setMode m s).sys.mode = m := by
  rw [setMode_sys]
  split
  · assumption
  · rfl

/-- Entry into DEGRADED: what it leaves of SYS. -/
theorem enterDegraded_sys (c : DegCause) (s : State) (h : s.sys.mode ≠ .degraded) :
    (enterDegraded c s).sys =
      { s.sys with prev := s.sys.mode, mode := .degraded, degCause := some c, degSince := s.time.sysNs,
                   coresRun := false, wdogRun := false } := by
  unfold enterDegraded
  simp [degradedEntry, setMode_sys, h]

/-- A trigger of DEGRADED in a working mode. -/
theorem degTrigger_enters {s : State} (c : DegCause)
    (h : s.sys.mode = .commission ∨ s.sys.mode = .service ∨ s.sys.mode = .maintain) :
    degTrigger c s = enterDegraded c s := by
  unfold degTrigger
  rcases h with h | h | h <;> rw [h]

theorem releaseCores_mode (s : State) : (releaseCores s).sys.mode = s.sys.mode := by
  unfold releaseCores
  split <;> rfl

end Sys2Proof.Machine
end

