-- ==== Sys2Proof/Tests/Slice0.lean ====
section
/-! SUPPORT. Tests of the model: the operands that no sender can form, worked values of the spec, and for each statement
concrete states and operands that meet its hypotheses. -/

set_option Elab.async false

namespace Sys2Proof.Machine

/-! ### A small running device

Outlet 0 with coil pair 0, its feedback at input 2, meter 0 and legal region 0; a tie at pair 1; the grid meter 1; a host
region 1; stop pair 0 at inputs 4 and 5 on outlet 0; connection 0 with CONNID 7; converter 0 with two slots; generator 0 of
the pulse outputs. -/

def testParams : List (Nat × Word) :=
  [(0x200A0100, 0x000A0C80), (0x200A0120, 0x200A0C80), (0x20200010, 0x05302530), (0x20200020, 0x80000000),
   (0x20200600, 0x82000000), (0x20200604, 0x00000000), (0x20200A00, 0x80000000), (0x20201000, 0x01000000),
   (0x20202000, 0x80000000), (0x20202100, 0xCA000000), (0x20240030, 0x801E0000), (0x20280108, 0xC0000000),
   (0x20280118, 0x80000000), (0x20300440, 0x40020000), (0x20300444, 0x80000000), (0x20300600, 0x80000000),
   (0x203008C0, 0x80400001), (0x20300900, 1), (0x20300908, 1), (0x20300A40, 0x8C000000), (0x20300A44, 7),
   (0x20300A4C, 5), (0x20300A54, 0x140)]

def up : State :=
  { State.reset with
    params := testParams
    sys.power := .running
    sys.mode := .service
    sys.coresRun := true
    sys.wdogRun := true
    sys.holdReady := true
    time.lvalid := true
    time.sysNs := 5000000000
    can := Vector.replicate 3 { Can.reset with en := true }
    eth := Vector.replicate 2 { Eth.reset 0x020000000001 with en := true, up := true }
    compat := Vector.replicate 28 { level := 0x100, locked := false } }

def inMode (m : Mode) : State := { up with sys.mode := m }

/-- A call with version 1. -/
def call (a : List Word) : Call := { sver := 1, args := a }

def upCoil (f : Coil → Coil) : State := { up with safe.coil := vmod up.safe.coil 0 f }
def upOut (f : Outlet → Outlet) : State := { up with safe.out := vmod up.safe.out 0 f }
def upConn (f : Conn → Conn) : State := { up with safe.conn := vmod up.safe.conn 0 f }
def upLink (f : Link → Link) : State := up.modLink 0 f
def upRgn (f : Region → Region) : State := up.modRgn 1 f
def upUpd (f : Upd → Upd) : State := { up with upd := f up.upd }
def upDma (f : DmaCh → DmaCh) : State := up.modDma 0 f
def upCan (f : Can → Can) : State := up.modCan 0 f
def upEth (f : Eth → Eth) : State := up.modEth 0 f
def upTxn (d : Fin 6) (f : TxnDom → TxnDom) : State := { up with txn.dom := vmod up.txn.dom d f }
def upMeter (f : Meter → Meter) : State := up.modM 0 f
def upBox (i : MbxId) (p : Pending) (s : State) : State := s.setBox i { s.box i with pend := true, what := some p }

/-- What a state after a command shows; false where the command is refused. -/
def after (c : Instr) (s : State) (f : State → Bool) : Bool :=
  match exec c s with
  | .next t => f t
  | .fault x => nomatch x
  | .refused _ => false

theorem up_answers_all : ∀ k : Fin 28, (up.compat[k]).level ≠ 0 := by decide

theorem canCall_up (i : MbxId) (a : List Word) : CanCall i (call a) up :=
  ⟨⟨rfl, by cases i <;> decide⟩, by cases i <;> decide, by cases i <;> decide, rfl, by cases i <;> decide⟩

theorem canCall_of_up {i : MbxId} {c : Call} {s : State} (h : s.sys = up.sys) (hm : s.mbx = up.mbx) (hk : s.compat = up.compat)
    (hc : c.sver = 1) : CanCall i c s := by
  obtain ⟨⟨h1, h2⟩, h3, h4, -, h5⟩ := canCall_up i c.args
  refine ⟨⟨?_, ?_⟩, ?_, ?_, hc, ?_⟩
  · unfold Runs; rw [h]; exact h1
  · unfold blkUp; rw [hk]; exact h2
  · unfold State.box; rw [hm]; exact h3
  · unfold State.box; rw [hm]; exact h4
  · unfold wholeRefused; rw [h]; exact h5

/-! ### Well-formedness: each check refuses an ill-formed command -/

theorem test_wf_refuses_long_pilot_samples :
    wellFormed (.pilotPeriodEnd 0 (List.replicate 1001 0)) = false := by
  simp [wellFormed, periodOk, -List.reduceReplicate]
theorem test_wf_refuses_sound_of_57_groups : wellFormed (.cmMnbcSoundInd 0 0 0 (List.replicate 57 0)) = false := by decide
theorem test_wf_refuses_overlong_frame :
    wellFormed (.frameReceive 0 .foreign (List.replicate 1523 0) []) = false := by simp [wellFormed, -List.reduceReplicate]

/-! ### Witnesses: states and operands that meet the hypotheses of the statements -/

def held : State := { up with sys.power := .held }

theorem witness_StepRunsFrontCommand : ({ up with pending := [.wdogExpiry] }).pending = .wdogExpiry :: [] := rfl
theorem witness_EmptyQueueIdlesOneReferencePeriod :
    (up.pending = [] ∧ Runs up ∧ up.bill.core.bounds = [] ∧ up.time.rtcSub < 100000000 - 131072 ∧ up.disp.rails = .down
      ∧ (∀ g : Fin 2, (up.load.gen[g]).on = false))
    ∧ ({ up with disp.rails := .up }).disp.rails = .up
    ∧ (held.pending = [] ∧ ¬ Runs held) := by unfold Runs; decide
theorem witness_StoppedDeviceIgnoresCommands : ¬ Runs held ∧ actsStopped .wdogExpiry = false
    ∧ ({ up with sys.power := .off }).sys.power ≠ .held ∧ nextStop (held.can[(0 : Fin 3)]) = none
    ∧ (let s := held.modCan 0 fun c => { c with released := 1, store := c.store.set 0 (some [0, 0, 0, 0]) }
      let c := s.can[(0 : Fin 3)]
      ¬ Runs s ∧ s.sys.power = .held ∧ nextStop c = some 0 ∧ c.store[(0 : Fin 16)] = some [0, 0, 0, 0] ∧ c.en = true
        ∧ c.state ≠ .busOff ∧ recFdf [0, 0, 0, 0] = false) := by unfold Runs; decide
theorem witness_CommandsLeaveQueueAlone : ∃ t, exec .thermalClear up = .next t := ⟨_, rfl⟩
theorem witness_MemoriesStayCanonicalAndInRange : MemInv up ∧ ∃ t, step up = .next t :=
  ⟨by unfold MemInv; decide, _, rfl⟩
theorem witness_OutputsStayOffWhileStopped : StoppedInv State.reset ∧ ∃ t, step State.reset = .next t :=
  ⟨fun _ => by unfold OutputsOff; decide, _, rfl⟩
theorem witness_OnlyNamedCommandsChangeTheMode :
    mayChangeSys (.canRecov 0) = false ∧ ∃ t, exec (.canRecov 0) up = .next t := ⟨rfl, _, rfl⟩
theorem witness_OnlyNamedCommandsChangeMetering :
    mayChangeMet (.canRecov 0) = false ∧ ∃ t, exec (.canRecov 0) up = .next t := ⟨rfl, _, rfl⟩
theorem witness_OnlyNamedCommandsChangeBilling :
    mayChangeBill (.canRecov 0) = false ∧ ∃ t, exec (.canRecov 0) up = .next t := ⟨rfl, _, rfl⟩
theorem witness_OnlyNamedCommandsChangeCaldera :
    mayChangeSafe (.canRecov 0) = false ∧ ∃ t, exec (.canRecov 0) up = .next t := ⟨rfl, _, rfl⟩
theorem witness_OnlyNamedCommandsChangePorts :
    mayChangeVp (.canRecov 0) = false ∧ ∃ t, exec (.canRecov 0) up = .next t := ⟨rfl, _, rfl⟩
theorem witness_ParametersChangeOnlyAtStartOrCommit :
    mayChangePar (.canRecov 0) = false ∧ ∃ t, exec (.canRecov 0) up = .next t := ⟨rfl, _, rfl⟩

def degr (c : DegCause) (hot : Bool) : State :=
  { inMode .degraded with sys.autorstEn := true, sys.degCause := some c, sys.hot := hot }

def start0 (vsup : BitVec 12) : StartUp :=
  { straps := 0, lorst := true, rtc := none, vsup := vsup, vhold := 1170, selftest := 0, romOk := true, hot := false, at3 := 1,
    at4 := 2, at5 := 3, at7 := 4, lost := [], older := [], wf := up.disp.wf, wfCrc := 0, spDiff := false }

/-- The warning of a held device has gone, with VSUP at 7.0 V; and, by a selected ball, it has not. -/
theorem witness_StartsRunTheSequenceOrEndInLockout_gone :
    (let s := { held with sys.pfwSrc := 1 }
    s.sys.power = .held ∧ pfwGone false (start0 700) s = true ∧ 700 ≤ (start0 700).vsup.toNat
      ∧ pfwGone true (start0 700) s = false)
    ∧ ¬ 700 ≤ (start0 699).vsup.toNat ∧ ({ start0 700 with selftest := 1 }).selftest ≠ 0
    ∧ (start0 700).selftest = 0 := by decide

theorem witness_StartsRunTheSequenceOrEndInLockout :
    (Runs (inMode .start) ∧ (inMode .start).sys.mode = .start) ∧ ({ up with sys.power := .off }).sys.power = .off
      ∧ ({ up with sys.power := .cut }).sys.power = .cut ∧ Runs up ∧ held.sys.power = .held
      ∧ (∀ x ∈ [degr .wdog true, degr .therm false], Runs x ∧ x.sys.mode = .degraded ∧ x.sys.autorstEn = true
        ∧ allSigned x = true ∧ (x.sys.degCause ≠ some .therm ∨ x.sys.hot = false))
      ∧ (let x := upUpd fun u => { u with st := .pending_, resetAct := true }
        Runs x ∧ x.upd.st = .pending_ ∧ x.upd.resetAct = true ∧ noSession x = true)
      ∧ (let x := upUpd fun u => { u with st := .rejected, resetRej := true }
        Runs x ∧ x.upd.st = .rejected ∧ x.upd.resetRej = true ∧ noSession x = true)
      ∧ (let x := { inMode .degraded with upd := { up.upd with st := .trial, resetDeg := true } }
        Runs x ∧ x.upd.st = .trial ∧ x.upd.resetDeg = true ∧ x.sys.mode = .degraded ∧ allSigned x = true) := by
  unfold Runs; decide

theorem witness_ModeAtTheEndOfStartUp : State.reset.sys.mode = .start
    ∧ ({ State.reset with sys.hot := true }).safe.latch = false ∧ ({ State.reset with sys.hot := true }).sys.hot = true := by
  decide

theorem up_answers (k : BlkKind) (n : Nat) : Answers k n up :=
  ⟨rfl, by
    have h := up_answers_all (blkIdx k n)
    simpa [blkUp, bne_iff_ne] using h⟩

theorem witness_SysWritesMeasurementsAndStages : Answers .sys 0 up ∧ Runs up
    ∧ ({ up with sys.capArm := true }).sys.capArm = true ∧ 200 < min 2000 (1200 - 100) :=
  ⟨up_answers _ _, rfl, rfl, by decide⟩

/-- In each mode that takes the triggers, the conditions of all five hold; the last two forms of the statement have theirs. -/
theorem witness_DegradedTriggersActByMode : (∀ m ∈ [Mode.commission, .service, .maintain, .lockout, .degraded],
      let s := inMode m
      Runs s ∧ s.sys.mode = m ∧ s.sys.wdogRun = true ∧ blkUp s .sys 0 = true
        ∧ (inSram 0x10000000 1 = true ∧ s.sys.coresRun = true ∧ s.sys.coresHalted = false))
    ∧ (0 : Word) ≠ 0xC0DE ∧ inSram 0x101FFFFF 1 = true ∧ inSram 0x10200000 1 = false
    ∧ ({ up with sys.wdogRun := false }).sys.wdogRun = false := by unfold Runs; decide

/-- The warning falls below 9.0 V by the comparator (THRESH 0), and by the ball alone. -/
theorem witness_PowerFailSaveAndRetention : Runs up ∧ kernelUp up = true ∧ held.sys.power = .held
    ∧ (let s := { up with sys.pfwSrc := 0, sys.pfwThresh := 0 }
      (s.sys.pfwSrc ≠ 1 ∧ (899 : BitVec 12).toNat < 900 + 25 * min 44 s.sys.pfwThresh.toNat)
        ∧ ¬ (900 : BitVec 12).toNat < 900 + 25 * min 44 s.sys.pfwThresh.toNat ∧ s.sys.pfwSrc = 0)
    ∧ (let s := { up with sys.pfwSrc := 1 }
      s.sys.pfwSrc ≠ 0 ∧ ¬ s.sys.pfwSrc ≠ 1)
    ∧ ({ up with sys.power := .off }).sys.power = .off := by unfold Runs; decide

theorem witness_PowerFailSaveAndRetention_balls : ({ up with sys.power := .cut }).sys.power = .cut ∧ (let s := inMode .start
   s.sys.mode = .start ∧ portOn s 0 = false ∧ (s.vp[(0 : Fin 8)].link).lstate = .off)
   ∧ portOn (up.modLink 0 fun l => { l with lstate := .idle }) 0 = false := by decide


/-- Each count at its limit, and one below it. -/
theorem witness_ChannelFaultsActOnTheirChannel : Runs up ∧ up.pb 0x20200020 31 = true ∧ up.pb (adBase 0) 31 = true
    ∧ up.pb (adBase 3) 31 = false
    ∧ (∀ k ∈ [14, 15], let c := { up.met.ch[(0 : Fin 32)] with subRun := k }
      ((manBit true true false c).2.lossDue = true ↔ k = 15))
    ∧ (∀ k ∈ [62, 63], let c := { up.met.ch[(0 : Fin 32)] with loss := true, goodRun := k }
      ((manBit true false false c).2.goodDue = true ↔ k = 63))
    ∧ (∀ k ∈ [98, 99], let c := { up.met.ch[(0 : Fin 32)] with run := k, lastBit := true }
      ((runBit 100 true c).stuckDue = true ↔ k = 99))
    ∧ (∀ k ∈ [62, 63], let c := { up.met.ch[(0 : Fin 32)] with stuck := true, noRun := k, run := 1, lastBit := false }
      ((runBit 100 true c).freeDue = true ↔ k = 63)) := by unfold Runs; decide

def pair0 (f : RPair → RPair) : State := { up with met.rp := vmod up.met.rp 0 f }

theorem witness_RangePairsSwitchAndCheckThemselves : Runs up ∧ (up.met.rp[(0 : Fin 8)]).blkN < 8192
    ∧ (let x := pair0 fun r => { r with high := true, downCnt := 125000 }
      ((x.met.rp[(0 : Fin 8)]).high && decide (125000 / grpDiv x (chGroup x (rpLr x 0)) ≤ (x.met.rp[(0 : Fin 8)]).downCnt)) = true)
    ∧ (let r := (pair0 fun r => { r with blkN := 8192, blkLow := false }).met.rp[(0 : Fin 8)]
      8192 ≤ r.blkN ∧ r.blkLow = false)
    ∧ (∀ dis ∈ [true, false], let x := pair0 fun r => { r with blkN := 8192, blkLow := true, sl := 8192 * 2 ^ 31, disagree := dis }
      let r := x.met.rp[(0 : Fin 8)]
      8192 ≤ r.blkN ∧ r.blkLow = true ∧ 8192 * 2 ^ (31 - rpShift x 0) ≤ 20 * r.sl ∧ (r.exceed + 1 < 3 ∨ r.disagree = dis)) := by
  unfold Runs; decide

def due (b : Bool) : State := { up with met.grp := vmod up.met.grp 0 fun g => { g with due := b } }

/-- Channel 0 takes its temperature from input 0, a PT1000 in slot 0 of converter 0, which has one or has none yet. -/
def tempSrc (last : Option (BitVec 24)) : State :=
  { up with
    params := bankSet (chBase 0 + 0xC) 0x10000000 (bankSet 0x20200610 0x04000000 testParams)
    met.ain := vmod up.met.ain 0 fun x => { x with last := last } }

theorem witness_SamplesAdvanceTheChain : Runs up ∧ ((due false).met.grp[(0 : Fin 2)]).due = false
    ∧ ((due true).met.grp[(0 : Fin 2)]).due = true
    ∧ (grpEn up 0 = true ∧ grpEn { up with params := [] } 0 = false) ∧ inGroup up 1 0 = false
    ∧ chTsrc up 0 = 0
    ∧ (let s := tempSrc (some 100)
      chTsrc s 0 ≠ 0 ∧ tempValid s (tsrcIdx (chTsrc s 0)) = true ∧ (s.met.ain[tsrcIdx (chTsrc s 0)]).last = some 100
        ∧ -4096 ≤ (100 : BitVec 24).toInt - chTcal s 0 ∧ (100 : BitVec 24).toInt - chTcal s 0 < 4096)
    ∧ tempValid (tempSrc none) (tsrcIdx (chTsrc (tempSrc none) 0)) = false := by unfold Runs; decide

/-- The last and another bit of a decimation, of a channel in group 0; values inside and outside 24 bits. -/
theorem witness_SamplesAdvanceTheChain_values : (∀ n ∈ [15, 14, 7], decide (n % 2 ^ 4 = 2 ^ 4 - 1) = decide (n = 15) ∧ decide (n % 16 = 15) = decide (n = 15))
    ∧ (let s := { up with params := bankSet (chBase 0) 0x40000000 testParams }
      inGroup s 0 0 = true ∧ grpK s 0 ≤ 7)
    ∧ (∀ x ∈ [(8388606 : Int), 8388607, 8388608, -8388608, -8388609], decide (satS 24 x = x) = decide (-8388608 ≤ x ∧ x ≤ 8388607)) := by
  decide

/-- Converter 0 in a slot, after so many bits, in a gain, with a fine value due or not. -/
def adc0 (slot bits gain : Nat) (isDue : Bool) : State :=
  { up with met.adc := vmod up.met.adc 0 fun c => { c with slot := slot, bits := bits, gain := gain, due := isDue } }

theorem witness_ConverterSlotsFollowTheirTable : Runs up ∧ up.pb (adBase 3) 31 = false ∧ up.pb (adBase 0) 31 = true
    ∧ 1 < adNslot up 0 ∧ slotSrc up 0 (up.met.adc[(0 : Fin 4)]).slot ≠ 15
    ∧ slotSrc { up with params := bankSet 0x20200614 0xF0000000 testParams } 0 1 = 15
    ∧ slotFixed up 0 (up.met.adc[(0 : Fin 4)]).slot = false
    ∧ (up.met.adc[(0 : Fin 4)]).due = false ∧ ((adc0 0 3198 6 true).met.adc[(0 : Fin 4)]).due = true
    ∧ (let c := (adc0 0 3198 6 true).met.adc[(0 : Fin 4)]
      3198 ≤ c.bits ∧ c.drops < 2 ∧ 0 < c.gain ∧ 31 ≤ c.bits)
    ∧ ((adc0 0 3197 6 true).met.adc[(0 : Fin 4)]).bits < 3198
    ∧ (let s := { up with params := bankSet 0x20200600 0x81000000 testParams }
      adNslot s 0 = 1 ∧ s.pb (adBase 0) 31 = true ∧ (s.met.adc[(0 : Fin 4)]).slot = 0) := by
  unfold Runs; decide

/-- After 32 ones, 16 more stand at the end of the coarse range; 16 zeros in their place do not. -/
theorem witness_ConverterSlotsFollowTheirTable_over : ∀ b ∈ [true, false],
    let c := (List.range 32).foldl (fun c _ => adcBit true c) { Adc.reset with gain := 6 }
    let fed := (List.range 16).foldl (fun c i => adcBit ((if b then 0xFFFF else 0x3333 : BitVec 16).getLsbD i) c) c
    31 ≤ fed.bits ∧ fed.bits < 3198 ∧ fed.drops < 2 ∧ 0 < fed.gain ∧ decide (9 * 32768 < 10 * fed.fast.natAbs) = b := by
  decide +kernel

/-- A due sample of group 0; with RGW set for the meter, whose currents are its own. -/
theorem witness_EveryFineSampleBooksItsEnergy : Runs (due true) ∧ ((due true).met.grp[(0 : Fin 2)]).due = true
    ∧ (mEn (due true) 0 = true ∧ mGroup (due true) 0 = 0 ∧ mRgw (due true) 0 = false) ∧ mEn (due true) 5 = false
    ∧ (let s := { due true with params := bankSet 0x20202000 0x84000000 testParams }
      mEn s 0 = true ∧ mGroup s 0 = 0 ∧ mRgw s 0 = true ∧ (mCurr s 0).Nodup
        ∧ ∀ k : MeterId, k ≠ 0 → mEn s k = true → mGroup s k = 0 → mRgw s k = true → ∀ c ∈ mCurr s k, c ∉ mCurr s 0) := by
  unfold Runs; decide

def sess0 (z : SessState) (tok : Option TokenKey) : Session :=
  { state := z, meter := 0, id := 1, auth := 0, extref := [], openNs := 0, pimp := Vector.replicate 16 0,
    pexp := Vector.replicate 16 0, tfee := Vector.replicate 16 0, sfee := 0, currency := 0, minor := 0, ltStart := 0,
    nsStart := 0, eiStart := 0, eeStart := 0, tariffS := 0, startSeq := 0, lines := [], flags := 0, lostAt := 0, lost := false,
    reason := none, ltStop := 0, eiStop := 0, eeStop := 0, durNs := 0, gapBound := 0, metered := false, credit := 0,
    token := tok }
def tkey : TokenKey := { kid := 0, iday := 1, serial := 2 }
def withSess (z : SessState) (tok : Option TokenKey) : State := up.setSess 0 (some (sess0 z tok))

theorem witness_MeterTimersActOnTheirMeter : Runs up ∧ mEn up 0 = true ∧ mEn up 5 = false
    ∧ (let s := upMeter fun x => { x with heldRun := 1000000 }
      let x := s.met.m[(0 : Fin 12)]
      mEn s 0 = true ∧ x.invalid = false ∧ holdLimit s (mGroup s 0) < x.heldRun)
    ∧ (let s := (withSess .running none).modM 0 fun x => { x with invalid := true }
      (s.met.m[(0 : Fin 12)]).invalid = true ∧ mEn s 0 = true ∧ mRole s 0 = 0 ∧ (s.sess (mPort s 0)).isSome = true)
    ∧ mEn up 1 = true ∧ mSeqEn up 1 = true
    ∧ (let s := { up with met.pls := vmod up.met.pls 0 fun p => { p with pend := 1 } }
      plsEn s 0 = true ∧ 0 < (s.met.pls[(0 : Fin 8)]).pend.toNat ∧ (s.met.pls[(0 : Fin 8)]).lastNs = none)
    ∧ plsEn up 7 = false := by
  unfold Runs; decide

theorem witness_MetReadCallsAnswer : (∀ a, CanCall .met (call a) up)
    ∧ (let a := callArgs .met (call [0, 1]) up
      a[0].toNat = 0 ∧ mEn up 0 = true ∧ a[1].toNat ≤ 1)
    ∧ 12 ≤ (callArgs .met (call [12, 0]) up)[0].toNat ∧ 2 ≤ (callArgs .met (call [0, 2]) up)[1].toNat
    ∧ (let a := callArgs .met (call [3]) up
      a[0].toNat < 4096 ∧ (∀ k : MeterId, (BitVec.ofNat 12 a[0].toNat).getLsbD k.val = true → mEn up k = true)
        ∧ BitVec.ofNat 12 a[0].toNat ≠ 0 ∧ up.met.snap.wait = none)
    ∧ BitVec.ofNat 12 (callArgs .met (call [0]) up)[0].toNat = 0
    ∧ ((upBox .met .snapshot up).box .met).what = some .snapshot
    ∧ (let a := callArgs .met (call [1, 2]) up
      a[0].toNat = 1 ∧ mEn up 1 = true ∧ a[1].toNat < (mVolt up 1).length)
    ∧ (let a := callArgs .met (call [0, 50, 1]) up
      a[0].toNat = 0 ∧ chRsmp up 0 = true ∧ 1 ≤ a[1].toNat ∧ a[1].toNat ≤ 50 ∧ 1 ≤ a[2].toNat ∧ a[2].toNat ≤ 15
        ∧ a[1].toNat + a[2].toNat ≤ 51 ∧ up.pb 0x20200020 31 = true)
    ∧ (callArgs .met (call [63]) up)[0].toNat < 64 ∧ (callArgs .met (call [63]) up)[0].toNat.testBit 3 = true :=
  ⟨canCall_up .met, by decide, by decide, by decide, by decide, by decide, by decide, by decide, by decide, by decide, by decide⟩

/-- Clock group 0 has given bits in the last two fast samples, and a sample of it before now is still to come. -/
def awaiting : State :=
  { up with met.grp := vmod up.met.grp 0 fun g => { g with lastNs := 4999999000, prevNs := 4999998000 } }

/-- A boundary that waits, before samples that came and after them; the last RTC share before a cycle completes. -/
def waiting (ns : Nat) : State :=
  let b : Bound := { ns := BitVec.ofNat 64 ns, lofs := 0, lvalid := false, hwm := 0, params := testParams,
                     acc := Vector.replicate 12 none, gaps := 0, what := .skip }
  { awaiting with bill.core.bounds := [b] }
theorem witness_EmptyQueueIdlesOneReferencePeriod_settles :
    (∀ n ∈ [4000000000, 4999999001], (waiting n).pending = [] ∧ (waiting n).bill.core.bounds ≠ []
      ∧ (waiting n).bill.core.bounds.all (fun b => allPast (refPeriod (waiting n)) b.ns.toNat) = decide (n = 4000000000)
      ∧ (waiting n).bill.core.bounds.map (·.what) = [.skip])
    ∧ (∀ n ∈ [100000000 - 131072, 99999999], ({ up with time.rtcSub := n }).time.rtcSub = n
      ∧ 100000000 - 131072 ≤ n ∧ n < 100000000) := by decide

def someBal : BalEval :=
  { start := 0, dur := 0, g := 0, o := 0, a := 0, l := 0, d := 0, fail := false, skipped := false, outage := false, split := false }

theorem witness_MetReadCallsAnswer_balance :
    ({ up with met.bal.hist := [someBal] }).met.bal.hist[(callArgs .met (call [0]) up)[0].toNat]? = some someBal := by decide

/-- A due sample at or after a snapshot's instant, and one before it; of both its meters, and of one in the other group. -/
def snapping (t : Nat) (mask : BitVec 12) : State :=
  let s := { due true with
    met.grp := vmod up.met.grp 0 fun g => { g with due := true, lastNs := 4999999000, prevNs := 4999998000 }
    met.snap.wait := some { t := BitVec.ofNat 64 t, mask := mask, acc := Vector.replicate 12 none } }
  s.setBox .met { s.box .met with busy := true, what := some .snapshot }

theorem witness_MetReadCallsAnswer_waits :
    (∀ x ∈ [(4999000000, 3), (4999999999, 3), (4999000000, (0x801 : BitVec 12))], let s := snapping x.1 x.2
      Runs s ∧ (s.met.grp[(0 : Fin 2)]).due = true ∧ (s.box .met).what = some .snapshot ∧ (s.box .met).pend = false
        ∧ decide (∀ k : MeterId, x.2.getLsbD k.val = true →
          mEn s k = true ∧ mGroup s k = 0 ∧ x.1 ≤ (sampleInst s 0).toNat) = decide (x = (4999000000, 3))) := by
  unfold Runs; decide

def lateIn (ms : Nat) : State := { up with time.lofs := BitVec.ofNat 64 (ms * 1000000) }

theorem witness_BoundariesCloseInTheirOrder : Runs up ∧ kernelUp up = true
    ∧ (Runs { up with sys.metFail := true } ∧ kernelUp { up with sys.metFail := true } = false)
    ∧ (∀ b ∈ awaiting.bill.core.bounds, b.ns ≠ awaiting.time.sysNs)
    ∧ (∀ t ∈ [lateIn 1800000000000, { awaiting with time.lofs := (lateIn 1800000000000).time.lofs }],
      Runs t ∧ kernelUp t = true ∧ (demandDue t).isSome = true)
    ∧ quiet (lateIn 1800000000000) = true ∧ (gridMeter (lateIn 1800000000000)).isSome = true
    ∧ (gridMeter { up with params := [] }).isSome = false
    ∧ (let x := { lateIn 1800000000000 with bill.core.due := BitVec.ofNat 64 (2 ^ 62) }
      Runs x ∧ demandDue x = none)
    ∧ (periodDue { lateIn 1800000000000 with params := bankSet 0x20240010 0x1000 testParams }).isSome = true
    ∧ periodDue { lateIn 1800000000000 with time.lvalid := false } = none
    ∧ quiet up = true ∧ switchDue up = false ∧ switchDue { up with bill.core.ti := 3 } = true
    ∧ (let x := { awaiting with
        params := bankSet 0x20240010 0x1000 testParams, bill.core.ti := 3, time.lofs := (lateIn 1800000000000).time.lofs }
      quiet x = false ∧ (periodDue x).isSome = true ∧ switchDue x = true) := by
  unfold Runs; decide

/-- A part of so many ns that ends at the present instant, with the balance on. -/
def judgedPart (ns : Nat) : State :=
  { lateIn 1800000000000 with
    params := testParams.take 4 ++ [(0x20200030, 0x80000000), (0x20200034, 0x46509C40), (0x20200038, 0x07D00032)] ++ testParams.drop 4
    time.sysNs := BitVec.ofNat 64 ns
    met.m := vmod (vmod up.met.m 0 fun x => { x with imp := BitVec.ofNat 160 (1795004000000000 * 2 ^ 64) }) 1
      fun x => { x with imp := BitVec.ofNat 160 (1873950000000000 * 2 ^ 64) } }

theorem witness_BoundariesCloseInTheirOrder_balance : (∀ ns ∈ [59999999999, 60000000000], let s := judgedPart ns
      Runs s ∧ kernelUp s = true ∧ quiet s = true ∧ (demandDue s).isSome = true ∧ gridMeter s = some 1 ∧ balEn s = true
        ∧ balSkips s (s.now - s.bill.core.part.ns.toNat) = decide (ns = 59999999999))
    ∧ balEn up = false := by unfold Runs; decide +kernel

def opened : State := withSess .opened none
def rec0 (t : Byte) (q : Word) (n : Option (Fin 8)) : Record := { rtype := t, seq := q, body := [1], sig := [], acked := false, port := n }
def aud (q : Word) : AuditEntry :=
  { seq := q, lt := 0, typ := 0, source := 0, reason := 0, item := 0, old := 0, new := 0, chain := 0 }

theorem witness_SessionsOpenCancelAndStop : (∀ a, CanCall .bill (call a) up)
    ∧ (let a := callArgs .bill (call [0, 3]) up
      a[0].toNat = 0 ∧ outletMeter up 0 = some 0 ∧ up.sys.mode ≠ .lockout ∧ up.sys.mode ≠ .commission ∧ a[1].toNat = 3)
    ∧ (let s := up.modRgn 0 fun g => { g with drawn := true }
      ∀ b ∈ openChecks s 0 0, b.1 = false)
    ∧ ((opened.sess 0).map (·.state)) = some .opened ∧ (((withSess .running none).sess 0).map (·.state)) = some .running
    ∧ (let s := withSess .running (some tkey)
      Runs s ∧ (s.sess 0).any (fun x => x.state == .running && x.token.isSome) = true)
    ∧ (let s := withSess .running (some tkey)
      let x := sess0 .running (some tkey)
      let p := ((s.met.m[x.meter]).mpwr.toInt).toNat
      let ti := s.bill.core.ti.toFin
      let r := creditReserve p (tRamp s 0 + 500) (x.pimp[ti]).toNat (x.tfee[ti]).toNat
      (x.credit : Int) * 10000 - costNow s x ≤ r
        ∧ r < (({ x with credit := 65535 } : Session).credit : Int) * 10000 - costNow s { x with credit := 65535 }) :=
  ⟨canCall_up .bill, by decide, by decide, by decide, by decide, by unfold Runs; decide, by decide⟩

/-- Outlet 0 with a pair in a state and its new feedback, a session, and import counted on its meter. -/
def feedback0 (st : ConState) (deb : Bool) (x : Session) : State :=
  { up.setSess 0 (some x) with
    safe.coil := vmod up.safe.coil 0 fun c => { c with st := st, drive := .hold }
    safe.si := vmod up.safe.si 2 fun i => { i with deb := deb, run := 4 }
    met.m := vmod up.met.m 0 fun m => { m with imp := BitVec.ofNat 160 (12345000000000000 * 2 ^ 64) } }

/-- A confirmed close of an OPENED session, and a confirmed opening of a RUNNING one, with no boundary at the instant. -/
theorem witness_SessionsOpenCancelAndStop_confirmed : (∀ x ∈ [(ConState.closing, true, sess0 .opened none), (.opening, false, { sess0 .running none with metered := true })],
      let s := feedback0 x.1 x.2.1 x.2.2
      Runs s ∧ role s 0 = 1 ∧ coilEn s 0 = true ∧ clamp 4 40 (s.pf (siA (fbIn s 0)) 7 0) ≤ (s.safe.si[fbIn s 0]).run
        ∧ (∀ k : Fin 12, k ≠ 0 → fbIn s k ≠ fbIn s 0) ∧ s.sess (conPort s 0) = some x.2.2
        ∧ (s.safe.coil[(0 : Fin 12)]).st = x.1 ∧ (s.safe.si[fbIn s 0]).deb = x.2.1 ∧ s.safe.oosReq = none
        ∧ mRole s 0 = 0 ∧ mPort s 0 = conPort s 0
        ∧ (quiet s = true ∧ demandDue s = none ∧ periodDue s = none ∧ switchDue s = false)
        ∧ 0 < (sliceNow s 0).1 ∧ (sliceNow s 0).2.1 = 0)
    ∧ (sess0 .opened none).metered = false ∧ (sess0 .running none).lines = [] := by unfold Runs; decide

def signed (t : Byte) (n : Option (Fin 8)) : State := { up with bill.signing := [rec0 t 4 n] }
def stored (t : Byte) : State := { up with bill.store := [rec0 t 4 none], bill.demand := [rec0 3 9 none] }

theorem witness_RecordsAreSignedStoredAndRead : Runs up ∧ kernelUp up = true ∧ up.bill.signing = []
    ∧ (∃ r rest, (signed 3 none).bill.signing = r :: rest ∧ r.rtype = 3)
    ∧ (∃ r rest, (signed 1 none).bill.signing = r :: rest ∧ r.rtype = 1 ∧ (signed 1 none).bill.store.length < 1024)
    ∧ (let s := { withSess .stopping none with bill.signing := [rec0 2 4 (some 0)] }
      (s.bill.signing.map fun r => (r.rtype, r.port)) = [(2, some 0)] ∧ (s.sess 0).any (fun x => x.state == .stopping) = true)
    ∧ CanCall .bill (call [4]) (stored 2) ∧ (heldRecord (stored 2) (callArgs .bill (call [4]) (stored 2))[0]).isSome = true
    ∧ heldRecord (stored 2) (callArgs .bill (call [5]) (stored 2))[0] = none
    ∧ (∃ r ∈ (stored 2).bill.store, r.seq = (callArgs .bill (call [4]) (stored 2))[0] ∧ r.rtype = 2)
    ∧ (∀ r ∈ (stored 2).bill.store, r.seq ≠ (callArgs .bill (call [9]) (stored 2))[0])
    ∧ (let a := callArgs .bill (call [0]) (stored 2)
      a[0].toNat < 2880 ∧ ((stored 2).bill.demand[a[0].toNat]?).isSome = true)
    ∧ (let s := upBox .bill .readOcmf { stored 2 with bill.ocmfPend := some 4 }
      Runs s ∧ isPending s .bill .readOcmf = true ∧ s.bill.ocmfPend = some 4
        ∧ (s.bill.store.find? (fun r => r.seq == 4)).isSome = true) :=
  ⟨rfl, rfl, rfl, ⟨_, _, rfl, rfl⟩, ⟨_, _, rfl, rfl, by decide⟩, by decide, canCall_of_up rfl rfl rfl rfl, by decide, by decide,
    ⟨rec0 2 4 none, by decide, by decide⟩, by decide, by decide, by unfold Runs; decide⟩

def audited : State := { up with bill.audit := [aud 2, aud 1], bill.auditSeq := 3 }

theorem witness_AuditLogIsReadAndArchived : CanCall .met (call [1, 64]) audited
    ∧ (let a := callArgs .met (call [1, 64]) audited
      (auditOldest audited).findIdx? (fun e => e.seq == a[0]) = some 0 ∧ 1 ≤ a[1].toNat ∧ a[1].toNat ≤ 64)
    ∧ (auditOldest audited).findIdx? (fun e => e.seq == (callArgs .met (call [9, 1]) audited)[0]) = none
    ∧ (callArgs .met (call [1, 0]) audited)[1].toNat < 1 ∧ 64 < (callArgs .met (call [1, 65]) audited)[1].toNat
    ∧ (audited.bill.audit.getLast?).isSome = true ∧ (∃ x ∈ audited.bill.audit, x.seq = (callArgs .met (call [2]) audited)[0])
    ∧ audited.bill.sealPend = none ∧ audited.bill.seal_ = none
    ∧ (let z : Seal := { first := 1, last := 2, digest := [], sig := [] }
      let s := { audited with bill.seal_ := some z }
      s.bill.seal_ = some z ∧ z.last = (callArgs .met (call [2]) s)[0] ∧ z.last ≠ (callArgs .met (call [1]) s)[0]
        ∧ s.bill.lostCnt = 0 ∧ s.auditUsed ≤ 4096)
    ∧ (let s := upBox .met .archive { audited with bill.sealPend := some (1, 2) }
      Runs s ∧ s.bill.sealPend = some (1, 2) ∧ isPending s .met .archive = true) :=
  ⟨canCall_of_up rfl rfl rfl rfl, by decide, by decide, by decide, by decide, by decide, ⟨aud 2, by decide, by decide⟩, rfl, rfl,
    by decide, by unfold Runs; decide⟩

theorem witness_LegalTimeIsSetAndRead : (∀ a, CanCall .met (call a) up)
    ∧ (let a := callArgs .met (call [5000, 0]) up
      let new : Nat := a[0].toNat + a[1].toNat * 2 ^ 32
      let adj : Int := (new : Int) - up.legalMs
      new < 4294967296000 ∧ up.time.lvalid = true ∧ adj.natAbs ≤ tlimit up.par * 1000)
    ∧ (callArgs .met (call [0, 999]) up)[0].toNat + (callArgs .met (call [0, 999]) up)[1].toNat * 2 ^ 32 < 4294967296000
    ∧ ({ up with bill.audit := List.replicate 4096 (aud 1) }).auditFull = true ∧ up.auditFull = false
    ∧ (let a := callArgs .met (call [0xFFFFF448, 0xFFFFFF9C, 35]) up;
      (-3000 : Int) ≤ a[0].toInt ∧ a[0].toInt ≤ 3000 ∧ -100 ≤ a[1].toInt ∧ a[1].toInt ≤ 0 ∧ 15 ≤ a[2].toInt ∧ a[2].toInt ≤ 35)
    ∧ CanCall .met (call [0, 0, 15]) (inMode .maintain) ∧ (inMode .maintain).sys.mode = .maintain ∧ up.sys.mode ≠ .maintain
    ∧ 3000 < (callArgs .met (call [3001, 0, 15]) up)[0].toInt :=
  ⟨canCall_up .met, by decide, by decide, by simp only [State.auditFull, State.auditUsed, List.length_replicate]; decide, by decide, by decide,
    by unfold CanCall Answers Runs; decide, rfl, by decide, by decide⟩

/-- Small adjustments up to the limit and beyond it, alone and with what the interval has had. -/
theorem witness_LegalTimeIsSetAndRead_sums : (∀ x ∈ [(0, 30), (0, 31), (25000, 5), (25000, 6)], let s := { up with bill.core.adjSum := x.1 }
      let a := callArgs .met (call [5000 + 1000 * BitVec.ofNat 32 x.2, 0]) s
      let new : Nat := a[0].toNat + a[1].toNat * 2 ^ 32
      let adj : Int := (new : Int) - s.legalMs
      let sum := if s.bill.core.adjInt.toInt = lastDemand s.par s.legalMs then s.bill.core.adjSum else 0
      new < 4294967296000 ∧ s.auditFull = false ∧ s.time.lvalid = true
        ∧ decide (tlimit s.par * 1000 < adj.natAbs ∨ tlimit s.par * 1000 < sum + adj.natAbs) = decide (x ∈ [(0, 31), (25000, 6)])) := by decide

def keypad : State := { up with sys.straps := 2 }
def entering (ks : List (BitVec 4)) : State := { keypad with bill.tok.entry := true, bill.tok.keys := ks }

theorem witness_KeysGoWhereTheEntryInProgressSends : Runs keypad ∧ keypadOn up = false
    ∧ (keypadOn keypad = true ∧ keypad.gpio.held = none ∧ keypad.safe.entry = none ∧ keypad.bill.tok.entry = false
      ∧ keypad.pb 0x20240030 31 = true)
    ∧ keyCode 0 3 = 0xA ∧ keyCode 2 3 = 0xC ∧ keyCode 3 0 = 0xE ∧ keyCode 3 3 = 0xD ∧ keyCode 3 2 = 0xF ∧ keyCode 0 0 = 1
    ∧ ({ keypad with sys.mode := .commission }).sys.mode = .commission
    ∧ ({ keypad with gpio.fifo := [0, 1, 2, 3, 4, 5, 6] }).gpio.fifo.length < 8
    ∧ ¬ ({ keypad with gpio.fifo := [0, 1, 2, 3, 4, 5, 6, 7] }).gpio.fifo.length < 8
    ∧ ((entering [1]).bill.tok.entry = true ∧ (entering [1]).bill.tok.keys ≠ [] ∧ (entering [1]).bill.tok.keys.length < 21
      ∧ (entering [1]).bill.tok.lockedAt = none ∧ (entering [1]).bill.tok.keys.length ≠ 21)
    ∧ (let s := entering (1 :: List.replicate 20 0)
      s.bill.tok.keys.length = 21 ∧ (candidates s ((s.bill.tok.keys.drop 1).map (·.toNat))).length ≠ 1
        ∧ entryPort s.bill.tok.keys = some 0)
    ∧ ((entering []).bill.tok.keys = [] ∧ keyCode 3 1 = 0 ∧ keyCode 2 2 = 9 ∧ keyCode 2 1 = 8 ∧ keyCode 1 3 = 0xB)
    ∧ ({ entering [1] with bill.tok.lockedAt := some 0 }).bill.tok.lockedAt ≠ none
    ∧ (∀ star ∈ [true, false], let e : Entry := { digits := [1], star := star }
      let s := { keypad with safe.entry := some e }
      keypadOn s = true ∧ s.gpio.held = none ∧ s.safe.entry = some e ∧ e.star = star)
    ∧ (keyCode 1 1).toNat ≤ 5 ∧ ¬ (keyCode 1 2).toNat ≤ 5
    ∧ keypad.gpio.fifo = [] ∧ ({ keypad with gpio.fifo := [15] }).gpio.fifo = 15 :: [] ∧ blkUp keypad .gpio 0 = true
    ∧ blkUp { keypad with compat := Vector.replicate 28 { level := 0, locked := false } } .gpio 0 = false := by
  unfold Runs; decide

def tok0 : Token := { key := tkey, credit := 100 }
def pendingTok : State :=
  { up.modRgn 0 fun g => { g with drawn := true } with bill.tok.pendTok := up.bill.tok.pendTok.set 0 (some (tok0, 0)) }

theorem witness_TokenCallsBindEachTokenOnce : (∀ a, CanCall .bill (call a) up) ∧ up.sys.mode ≠ .lockout
    ∧ up.sys.mode ≠ .commission ∧ (callArgs .bill (call [0]) up)[0].toNat = 0 ∧ up.bill.tok.pendTok[(7 : Fin 8)] = none
    ∧ (let s := pendingTok
      CanCall .bill (call [0]) s ∧ s.bill.tok.pendTok[(0 : Fin 8)] = some (tok0, 0) ∧ outletMeter s 0 = some 0
        ∧ inLedger s tkey = false ∧ ledgerUsed s < 8192 ∧ ∀ b ∈ openChecks s 0 0, b.1 = false)
    ∧ inLedger { pendingTok with bill.tok.ledger := [some { key := tkey, spent := false, credit := 0, id := 0, lt := 0 }] } tkey
      = true
    ∧ up.bill.tok.lastCode = none
    ∧ (let s := { up with bill.tok.lastCode := some 0, bill.tok.lastPort := some 0, bill.tok.lastTok := some tok0 }
      CanCall .bill (call []) s ∧ s.bill.tok.lastCode = some 0 ∧ s.bill.tok.lastPort = some 0)
    ∧ (let a := callArgs .bill (call [8191, 64]) up
      a[0].toNat < 8192 ∧ 1 ≤ a[1].toNat ∧ a[1].toNat ≤ 64)
    ∧ 8192 ≤ (callArgs .bill (call [8192, 1]) up)[0].toNat ∧ 64 < (callArgs .bill (call [0, 65]) up)[1].toNat
    ∧ (callArgs .bill (call [7, 1]) up)[0].toNat < 8 ∧ (callArgs .bill (call [7, 1]) up)[1] = 1
    ∧ ((upTxn 2 fun d => { d with st := .open_ }).txn.dom[(2 : Fin 6)]).st = .open_
    ∧ (up.txn.dom[(2 : Fin 6)]).st ≠ .open_ :=
  ⟨canCall_up .bill, by decide, by decide, by decide, by decide,
    ⟨canCall_of_up rfl rfl rfl rfl, by decide, by decide, by decide, by decide, by decide⟩, by decide, rfl,
    ⟨canCall_of_up rfl rfl rfl rfl, rfl, rfl⟩, by decide, by decide, by decide, by decide, by decide, by decide, by decide⟩

/-- A blob of slot 0 for any shared secret that the transport key gives with the generator's point: its tag over 16 bytes. -/
def keyHead : List Byte := [1, 1, 0, 16]
def pointG : List Byte := 3 :: beBytes 32 p256.gx
def keyBlob (z : List Byte) : List Byte :=
  let okm := hkdf256 (serialBytes up) z keyHead 44
  (keyHead ++ pointG ++ List.replicate 16 0)
    ++ gcmTag (okm.take 32) (okm.drop 32) (keyHead ++ pointG) (List.replicate 16 0)

theorem pointG_opens : ecDecompress p256 pointG = some (p256.gx, p256.gy) := by decide +kernel

theorem keyBlob_opens (z : List Byte)
    (hz : ecdh p256 (Config.ttk up.sec.gen) p256.gx p256.gy = some z) : ∃ k, k.length = 16
      ∧ blobOpen p256 (Config.ttk up.sec.gen) 1 (serialBytes up) (keyBlob z) = some (0, k) := by
  let okm := hkdf256 (serialBytes up) z keyHead 44
  have hk : (okm.take 32).length = 32 := by
    rw [List.length_take, hkdf256_length _ _ _ _ (by decide)]; rfl
  have hp : (keyHead ++ pointG ++ List.replicate 16 0).length = 53 := by decide +kernel
  have ht : (gcmTag (okm.take 32) (okm.drop 32) (keyHead ++ pointG) (List.replicate 16 0)).length = 16 :=
    gcmTag_length hk _ _ _
  have cut : ∀ a n, a + n ≤ 53 → slice (keyBlob z) a n = slice (keyHead ++ pointG ++ List.replicate 16 0) a n := by
    intro a n h
    have hd : ∀ l : List Byte, ((keyHead ++ pointG ++ List.replicate 16 0 ++ l).drop a).take n
        = ((keyHead ++ pointG ++ List.replicate 16 0).drop a).take n := fun l => by
      rw [List.drop_append_of_le_length (by omega), List.take_append_of_le_length (by rw [List.length_drop]; omega)]
    simp only [slice, keyBlob, hd]
  have h4 : (keyBlob z).take 4 = keyHead := by
    rw [keyBlob, List.take_append_of_le_length (by omega)]; decide +kernel
  have h0 : leAt (keyBlob z) 0 1 = 1 := by rw [leAt, cut _ _ (by omega)]; decide +kernel
  have h1 : leAt (keyBlob z) 1 1 = 1 := by rw [leAt, cut _ _ (by omega)]; decide +kernel
  have h2 : leAt (keyBlob z) 2 1 = 0 := by rw [leAt, cut _ _ (by omega)]; decide +kernel
  have h3 : leAt (keyBlob z) 3 1 = 16 := by rw [leAt, cut _ _ (by omega)]; decide +kernel
  have he : slice (keyBlob z) 4 33 = pointG := by rw [cut _ _ (by omega)]; decide +kernel
  have hc : slice (keyBlob z) 37 16 = List.replicate 16 0 := by rw [cut _ _ (by omega)]; decide +kernel
  have hg : slice (keyBlob z) 53 16 = gcmTag (okm.take 32) (okm.drop 32) (keyHead ++ pointG) (List.replicate 16 0) := by
    rw [slice, keyBlob, List.drop_left' hp, List.take_of_length_le (Nat.le_of_eq ht), ht]
    simp
  refine ⟨gcmCrypt (okm.take 32) (okm.drop 32) (List.replicate 16 0), gcmCrypt_block_length hk rfl _, ?_⟩
  have hl : p256.len = 32 := rfl
  simp only [blobOpen, h4, h0, h1, h2, h3, hl, he, pointG_opens, hz, hc, hg, gcmDec]
  rw [if_neg (by decide), if_pos rfl]
  rfl

theorem witness_TokenCallsBindEachTokenOnce_blob (z : List Byte)
    (hz : ecdh p256 (Config.ttk up.sec.gen) p256.gx p256.gy = some z) :
    let s := { upTxn 2 (fun d => { d with st := .open_ }) with bill.mbxin := keyBlob z }
    CanCall .bill (call [0, 0]) s ∧ (callArgs .bill (call [0, 0]) s)[1] = 0 ∧ s.sec.zeroised = false
      ∧ (s.txn.dom[(2 : Fin 6)]).st = .open_
      ∧ ∃ k, k.length = 16 ∧ blobOpen p256 (Config.ttk s.sec.gen) 1 (serialBytes s) s.bill.mbxin = some (0, k) :=
  ⟨canCall_of_up rfl rfl rfl rfl, rfl, rfl, rfl, keyBlob_opens z hz⟩

def pend0 (legal : Bool) : PendUpd :=
  { mode := 1, legal := legal, initFirst := false, redraw := false, mark := false, order := 0, src := 0x10000000 }
def run0 : RunUpd :=
  { mode := 1, next := none, legal := false, redraw := false, mark := false, src := 0, frames := 1, band := 0, startNs := 0,
    order := 0, target := .mixed }
def shown : State := { upRgn fun g => { g with pend := some (pend0 false) } with disp.wf.limits := [-20, 60] }

theorem witness_DisplayUpdatesStartRunAndEnd : Answers .disp 0 up ∧ Runs shown
    ∧ (rgnEn up 1 = true ∧ rgnLegal up 1 = false ∧ (1 : BitVec 3) ≠ 6 ∧ up.disp.pfwBlock = false
      ∧ (up.disp.rgn[(1 : Fin 16)]).pend = none)
    ∧ rgnLegal up 0 = true ∧ nextPending up 0 = none
    ∧ (shown.disp.pfwBlock = false ∧ shown.disp.wftBad = false ∧ shown.disp.railFault = false ∧ shown.disp.retry = false
      ∧ slotBusy shown 0 = false ∧ nextPending shown 0 = some 1 ∧ (activeBand shown).isSome = true ∧ shown.disp.rails = .down
      ∧ (shown.disp.rgn[(1 : Fin 16)]).pend = some (pend0 false))
    ∧ ({ shown with disp.rails := .up }).disp.rails = .up ∧ anyRunning { shown with disp.rails := .up } = false
    ∧ (∀ r ∈ [Rails.rising 0 0, .rising 3 0, .rising 4 0, .falling 4 0, .falling 0 0], let s := { shown with disp.rails := r }
      s.disp.rails = r ∧ s.pending = [] ∧ s.bill.core.bounds = [] ∧ (0 : BitVec 64).toNat + 3000000 ≤ s.now ∧ s.now + 40 < 2 ^ 64)
    ∧ (let s := upRgn fun g => { g with run := some run0 }
      (s.disp.rgn[(1 : Fin 16)]).run = some run0 ∧ run0.next = none)
    ∧ (∀ legal ∈ [true, false], let u := { run0 with next := some 1, legal := legal }
      let s := { upRgn (fun g => { g with run := some u }) with disp.wf.limits := [-20, 60] }
      (s.disp.rgn[(1 : Fin 16)]).run = some u ∧ (activeBand s).isSome = true ∧ legalWaits s 1 = false
        ∧ (s.disp.rgn[(1 : Fin 16)]).pend = none)
    ∧ (activeBand up).isSome = false
    ∧ legalWaits (up.modRgn 0 fun g => { g with pend := some (pend0 true) }) 1 = true
    ∧ ((pend0 false).initFirst || ((shown.modRgn 1 fun g => { g with needInit := false }).disp.rgn[(1 : Fin 16)]).needInit) = false
    ∧ (let s := { upRgn (fun g => { g with damaged := true }) with disp.retry := true }
      s.disp.retry = true ∧ s.disp.railFault = false ∧ s.disp.pfwBlock = false ∧ rgnEn s 1 = true
        ∧ (s.disp.rgn[(1 : Fin 16)]).damaged = true)
    ∧ (let s := withSess .running none
      (s.sess 0).any (fun x => x.state == .running) = true ∧ legalRegion s 0 = some 0 ∧ s.disp.pfwBlock = false) :=
  ⟨up_answers _ _, rfl, by decide⟩

theorem witness_PilotPeriodsMeasureThenObey : Runs up ∧ Answers .vp 7 up
    ∧ (∀ b ∈ [true, false], ((up.modPilot 0 fun p => { p with cutShort := b }).vp[(0 : Fin 8)]).pilot.cutShort = b)
    ∧ (let p := ((up.modPilot 0 fun p => { p with cutShort := false }).vp[(0 : Fin 8)]).pilot
      proxCodes p.effMode p.effDuty.toNat (List.replicate 1000 7) ≠ [])
    ∧ (pilotOverride (inMode .lockout) 0).getD (hostMode (up.vp[(0 : Fin 8)]).pilot) = .f
    ∧ (up.vp[(0 : Fin 8)]).pilot.senseFault.on = false :=
  ⟨rfl, up_answers _ _, by decide, by decide +kernel, by decide, by decide⟩

/-- A port in PWM that stays in it, with a high plateau of a whole period's samples or with none; and one that leaves F. -/
theorem witness_PilotPeriodsMeasureThenObey_classes :
    let s := up.modPilot 0 fun p => { p with effMode := .pwm, effDuty := 500, mode := 2, cutShort := false }
    let p := s.vp[(0 : Fin 8)].pilot
    (p.cutShort = false ∧ p.effMode ≠ .f ∧ p.eng.cls ≠ .f ∧ (pilotOverride s 0).getD (hostMode p) ≠ .f)
    ∧ (up.vp[(0 : Fin 8)].pilot).effMode = .f
    ∧ (plateau s 0 (highSamples p.effMode 20 500 (List.replicate 1000 2048))).isSome = true
    ∧ plateau s 0 (highSamples p.effMode 20 500 []) = none := by decide +kernel

def run1 (dec : Bool) : SlacRun :=
  { mac := 9, run := 3, announced := 10, starts := 1, snd := Vector.replicate 8 0, sum := Vector.replicate 8 0, decided := dec }
def matching : State := { upLink (fun l => { l with lstate := .idle }) with slac.runs := [run1 false] }
def enabled (s : State) : State := { s with compat := s.compat.set (blkIdx .vp 0) { level := 0x100, locked := true } }
def ambiguous : State := upLink fun l => { l with ambigMacs := [9, 8] }

theorem witness_SlacRunsAreDecidedOnce : Runs matching ∧ (List.replicate 58 0).length = 58
    ∧ (List.replicate 57 0).length ≠ 58
    ∧ (isPlc matching 0 = true ∧ listens matching 0 = true ∧ (mmeLimit matching 0).1 = true)
    ∧ (let s := (matching.modPilot 0 fun p => { p with effMode := .pwm, effDuty := 100, state := .b })
      isCandidate s 0 = true ∧ isPlc s 0 = true ∧ listens s 0 = true)
    ∧ listens up 0 = false
    ∧ (findRun matching 9 3).any (fun r => !r.decided) = true ∧ (findRun matching 9 4).all (fun r => r.decided) = true
    ∧ ((findRun { matching with slac.runs := [run1 true] } 9 3).map (·.decided)) = some true
    ∧ 9 ∈ (ambiguous.vp[(0 : Fin 8)].link).ambigMacs ∧ blkUp ambiguous .vp 0 = true
    ∧ (up.vp[(0 : Fin 8)].link).ambigMacs = [] := by
  unfold Runs; decide

/-- A run that port 0 alone heard, one that ports 0 and 1 heard alike, and one of an ambiguous vehicle. -/
def heardBy (l : List Nat) : SlacRun := { run1 false with snd := Vector.ofFn fun i => l.getD i.val 0 }
def deciding (l : List Nat) : State :=
  { matching.modPilot 0 fun p => { p with effMode := .pwm, effDuty := 100, state := .b } with slac.runs := [heardBy l] }
theorem witness_SlacRunsAreDecidedOnce_best :
    (findRun (deciding [5]) 9 3 = some (heardBy [5]) ∧ (heardBy [5]).decided = false ∧ isCandidate (deciding [5]) 0 = true
      ∧ ∀ k : Fin 8, ((deciding [5]).vp[slacPort (deciding [5])].link).minsnd.toNat ≤ (heardBy [5]).snd[k] ↔ k = 0)
    ∧ (let s := deciding [5, 5]
      let r := heardBy [5, 5]
      (s.vp[slacPort s].link).minsnd.toNat ≤ r.snd[(1 : Fin 8)] ∧ isPlc s 1 = true
        ∧ ¬ attenOf r 0 + (s.vp[slacPort s].link).margin.toNat ≤ attenOf r 1)
    ∧ (let s := (deciding [5]).modLink 0 fun l => { l with ambigMacs := [9] }
      9 ∈ (s.vp[(0 : Fin 8)].link).ambigMacs) := by decide

theorem witness_AssignedPortsMatchThenChooseRobustMode :
    (let s := upLink fun l => { l with lstate := .assigned, assigned := some (9, 3), rspSeen := true }
    Runs s ∧ isPlc s 0 = true ∧ listens s 0 = true ∧ (mmeLimit s 0).1 = true ∧ (s.vp[(0 : Fin 8)].link).lstate = .assigned
      ∧ (s.vp[(0 : Fin 8)].link).assigned = some (9, 3) ∧ (s.vp[(0 : Fin 8)].link).rspSeen = true)
    ∧ (let l := ((upLink fun l => { l with lstate := .matched, xrWait := true, xr6 := true }).vp[(0 : Fin 8)]).link
      l.lstate = .matched ∧ l.xrWait = true ∧ l.xr6 = true)
    ∧ (up.vp[(0 : Fin 8)].link).xrWait = false ∧ (up.vp[(0 : Fin 8)].link).xr6 = false := by
  unfold Runs; decide

/-- A window that holds the port's own messages, one that has ended, and one that SWDEFER ignores; a port not enabled. -/
theorem witness_AssignedPortsMatchThenChooseRobustMode_windows : (∀ x ∈ [(true, 5000000001), (true, 5000000000), (false, 5000000001)],
      let s := enabled (upLink fun l => { l with swdefer := x.1, windows := [(0, x.2)] })
      let l := s.vp[(0 : Fin 8)].link
      portOn s 0 = true ∧ ((l.swdefer = true ∧ ∃ w ∈ l.windows, s.now < w.2) ↔ x = (true, 5000000001))) ∧ portOn up 0 = false := by decide

/-- A broadcast of so many bytes with a type, from another station. -/
def bcast (n : Nat) (ty : Byte) : List Byte := List.replicate 6 0xFF ++ List.replicate 6 1 ++ [ty, 0] ++ List.replicate (n - 14) 0

theorem witness_FramesAreStoredSentOrCounted_frames :
    (∀ n ∈ [64, 1522], (bcast n 8).length = n ∧ isSlacMme (bcast n 8) = false ∧ isMmeFrame (bcast n 8) = false
      ∧ beNat (slice (bcast n 8) 0 6) = 2 ^ 48 - 1)
    ∧ ¬ (64 ≤ (bcast 63 8).length) ∧ ¬ ((bcast 1523 8).length ≤ 1522) := by decide +kernel
theorem witness_FramesAreStoredSentOrCounted_taken (f : List Byte) (h : beNat (slice f 0 6) = 2 ^ 48 - 1) :
    takesDest 0 up.draw.1 f = true := by simp [takesDest, h]

theorem witness_FramesAreStoredSentOrCounted : Runs matching
    ∧ listens up 0 = false ∧ listens matching 0 = true ∧ (matching.vp[(0 : Fin 8)].link).rxStore.length < 8
    ∧ 8 ≤ ((upLink fun l => { l with rxStore := List.replicate 8 [] }).vp[(0 : Fin 8)].link).rxStore.length
    ∧ 0 < ((upLink fun l => { l with rxSince := 1 }).vp[(0 : Fin 8)].link).rxSince
    ∧ (let s := enabled (upLink fun l => { l with lstate := .linkUp, pushes := [{ slot := 0, len := 60, cap := 0 }] })
      let l := s.vp[(0 : Fin 8)].link
      (nextPush (isPlc s 0) l.pushes).isSome = true ∧ mayTransmit s 0 10000 = true ∧ l.pushes.any (fun p => p.slot == 0) = true
        ∧ l.lstate = .linkUp)
    ∧ nextPush (isPlc up 0) (up.vp[(0 : Fin 8)].link).pushes = none
    ∧ blkUp up .vp 0 = true
    ∧ (let l := up.vp[(0 : Fin 8)].link
      l.pushes.any (fun p => p.slot == 0) = false ∧ 60 ≤ field (60 : Word) 10 0 ∧ field (1522 : Word) 10 0 ≤ 1522
        ∧ isSlacMme (slotBytes l.slots[(0 : Fin 8)] 60) = false) :=
  ⟨rfl, by decide⟩

/-- A frame of 10 µs held back by a window that is open, and by one that has ended meanwhile; a 10BASE-T1S port that serves. -/
theorem witness_FramesAreStoredSentOrCounted_windows :
    (let s := upLink fun l => { l with swdefer := true, winHeard := [(4999990000, 4999999000, 5000009000)] }
    (s.vp[(0 : Fin 8)].link).swdefer = true ∧ isPlc s 0 = true
      ∧ ∃ x ∈ (s.vp[(0 : Fin 8)].link).winHeard, x.1 + 10000 ≤ s.now ∧ x.2.1 < s.now ∧ s.now < x.2.2 + 10000)
    ∧ (let s := upLink fun l => { l with swdefer := true, winHeard := [(4999990000, 4999980000, 4999990001)] }
      ∃ x ∈ (s.vp[(0 : Fin 8)].link).winHeard, x.1 + 10000 ≤ s.now ∧ x.2.1 < s.now ∧ s.now < x.2.2 + 10000)
    ∧ (let s := { enabled ((upLink fun l => { l with lstate := .linkDown }).modPilot 0 fun p => { p with state := .b }) with
        params := bankSet 0x20100100 0x80000000 testParams }
      isPlc s 0 = false ∧ (s.vp[(0 : Fin 8)].pilot).state.serves = true ∧ (s.vp[(0 : Fin 8)].pilot).ovr ≠ some .f
        ∧ (s.vp[(0 : Fin 8)].link).lstate = .linkDown ∧ listens s 0 = true ∧ s.sys.mode ≠ .degraded ∧ portOn s 0 = true)
    ∧ (let s := upLink fun l => { l with lstate := .idle, mmeSec := 5, mmeCnt := 128 }
      listens s 0 = true ∧ (mmeLimit s 0).1 = false) := by decide

/-- A management message of 64 bytes. -/
def mme64 : List Byte := List.replicate 6 0xFF ++ List.replicate 6 1 ++ [0x88, 0xE1] ++ List.replicate 50 0
theorem witness_FramesAreStoredSentOrCounted_mme : mme64.length = 64 ∧ isMmeFrame mme64 = true := by decide +kernel

theorem witness_RecordEngineKeepsItsDirectionsApart : Answers .vp 0 up ∧ Runs up
    ∧ ((up.vp[(0 : Fin 8)].tls).tx.stopped = false ∧ (up.vp[(0 : Fin 8)].tls).tx.queue.length < 3
      ∧ (up.vp[(0 : Fin 8)].tls).rx.stopped = false ∧ (up.vp[(0 : Fin 8)].tls).rx.queue.length < 3)
    ∧ (let o : TlsOp := { src := 0x10000000, dst := 0x10000100, len := 4, ctype := 23 }
      let s := up.modTls 0 fun t => { t with en := true, tx := { t.tx with queue := [o, o, o], stopped := true } }
      (s.vp[(0 : Fin 8)].tls).tx.queue = o :: [o, o] ∧ (s.vp[(0 : Fin 8)].tls).rx.queue = []
        ∧ (s.vp[(0 : Fin 8)].tls).tx.keys = none ∧ 3 ≤ (s.vp[(0 : Fin 8)].tls).tx.queue.length
        ∧ (s.vp[(0 : Fin 8)].tls).tx.stopped = true ∧ engineAt s = some 0 ∧ engineAt s ≠ some 1)
    ∧ (up.vp[(0 : Fin 8)].tls).tx.queue.length < 3 ∧ kernelSigns (signed 3 none) = true
    ∧ (let o : TlsOp := { src := 0x10000000, dst := 0x10000100, len := 4, ctype := 23 }
      let s := (signed 3 none).modTls 0 fun t => { t with en := true, tx := { t.tx with queue := [o] } }
      let r := { s with sec.tlsRun := some 0 }
      tlsTurn s = some 0 ∧ kernelSigns s = true ∧ engineAt s = none ∧ r.sec.tlsRun = some 0 ∧ tlsWaits r 0 = true
        ∧ engineAt r = some 0) :=
  ⟨up_answers _ _, rfl, by decide⟩

def paired (f : StopPair → StopPair) : State := { up with safe.pair := vmod up.safe.pair 0 f }
def window0 (weld : Bool) : WeldWin := { le10 := weld, ge60 := true, lo := 0, hi := 50, any := true }

theorem witness_LatchingFaultsLockOutAndDropEveryCoil : Runs up
    ∧ up.sys.mode = .service ∧ (inMode .commission).sys.mode = .commission ∧ (inMode .maintain).sys.mode = .maintain
    ∧ (inMode .degraded).sys.mode = .degraded ∧ portMute up 0 = false ∧ portMute up 5 = true
    ∧ ((upCoil fun x => { x with drive := .pullIn }).safe.coil[(0 : Fin 12)]).drive = .pullIn
    ∧ ((upCoil fun x => { x with drive := .hold }).safe.coil[(0 : Fin 12)]).drive = .hold
    ∧ up.pb (0x20300900 + 8 * 0) 0 = true ∧ testDeferred up 0 = false ∧ up.pb (0x20300900 + 8 * 11) 0 = false
    ∧ (let s := paired fun p => { p with diff := 8000 }
      stopEn s 0 = true ∧ (s.safe.pair[(0 : Fin 8)]).fired = false
        ∧ clamp 4 8000 (s.pf (siA (stopIn s 0)) 28 16) ≤ (s.safe.pair[(0 : Fin 8)]).diff)
    ∧ stopEn up 7 = false
    ∧ (let s := { up with
        safe.coil := vmod up.safe.coil 0 fun x => { x with st := .opening, fbo := true }
        safe.si := vmod up.safe.si 2 fun x => { x with deb := false } }
      (s.safe.coil[(0 : Fin 12)]).fbo = true ∧ (s.safe.si[fbIn s 0]).deb = false ∧ (s.safe.coil[(0 : Fin 12)]).welded = false)
    ∧ (up.safe.coil[(0 : Fin 12)]).fbo = false
    ∧ (let w := window0 true
      let s := upCoil fun x => { x with win := some w }
      (s.safe.coil[(0 : Fin 12)]).win = some w ∧ (s.safe.coil[(0 : Fin 12)]).welded = false
        ∧ (acrossOf s 0).isSome = true ∧ (∀ ch : ChanId, thr s ch 50 ≤ w.hi - w.lo)
        ∧ (w.any = true ∧ w.le10 = true ∧ w.ge60 = true)) := by
  unfold Runs; decide +kernel

def debounced : State := { up with safe.si := vmod up.safe.si 2 fun x => { x with deb := true, run := 4 } }

theorem witness_ContactorsCloseAndOpenInSteps : Runs up ∧ closeMode up = true ∧ closeMode (inMode .commission) = false
    ∧ ((upCoil fun x => { x with ph := .annClose }).safe.coil[(0 : Fin 12)]).ph = .annClose
    ∧ ((upCoil fun x => { x with ph := .annOpen }).safe.coil[(0 : Fin 12)]).ph = .annOpen
    ∧ (up.safe.coil[(0 : Fin 12)]).ph = .none ∧ (up.safe.coil[(0 : Fin 12)]).run < 10
    ∧ (let x := (upCoil fun x => { x with ph := .conds, run := 10 }).safe.coil[(0 : Fin 12)]
      10 ≤ x.run ∧ x.tie = none ∧ x.ph = .conds)
    ∧ ((upCoil fun x => { x with drive := .pullIn }).safe.coil[(0 : Fin 12)]).drive = .pullIn
    ∧ (let s := { debounced with safe.coil := vmod up.safe.coil 0 fun x => { x with st := .closing } }
      role s 0 = 1 ∧ coilEn s 0 = true ∧ (s.safe.coil[(0 : Fin 12)]).st = .closing ∧ (s.safe.si[fbIn s 0]).deb = true
        ∧ clamp 4 40 (s.pf (siA (fbIn s 0)) 7 0) ≤ (s.safe.si[fbIn s 0]).run
        ∧ ∀ k : Fin 12, k ≠ 0 → fbIn s k ≠ fbIn s 0)
    ∧ (up.safe.si[(15 : Fin 16)]).run < clamp 4 40 (up.pf (siA 15) 7 0)
    ∧ (∀ st ∈ [ConState.opening, .open_],
      let s := { debounced with safe.coil := vmod up.safe.coil 0 fun x => { x with st := st, fbo := true } }
      (s.safe.coil[(0 : Fin 12)]).fbo = true ∧ (s.safe.coil[(0 : Fin 12)]).st = st ∧ (s.safe.si[fbIn s 0]).deb = true)
    ∧ (up.safe.coil[(0 : Fin 12)]).win = none ∧ (window0 false).le10 = false
    ∧ (let y : TieOp := { open_ := false, commit := false, cmd := false, join := [] }
      ((upCoil fun x => { x with tie := some y }).safe.coil[(0 : Fin 12)]).tie = some y ∧ y.cmd = false)
    ∧ (let r : Ramp := { i0 := [], k := 4 * tRampMs up 0 }
      ((upOut fun o => { o with ramp := some r }).safe.out[(0 : Fin 8)]).ramp = some r ∧ outletCoil up 0 = some 0
        ∧ 4 * tRampMs up 0 ≤ r.k ∧ 0 < 4 * tRampMs up 0)
    ∧ up.pb (0x20300900 + 8 * 0) 0 = true ∧ testDeferred up 0 = false
    ∧ (let x := (upCoil fun x => { x with coilf := true }).safe.coil[(0 : Fin 12)]
      x.coilf = true ∧ x.drive = .off)
    ∧ (inMode .lockout).sys.mode = .lockout
    ∧ up.pf (siA 0) 31 30 ≠ 1
    ∧ ({ up with params := bankSet 0x20300980 0x40000000 testParams }).pf (siA 0) 31 30 = 1
    ∧ (0xFFFF : BitVec 16).getLsbD 0 = true ∧ (0 : BitVec 16).getLsbD 0 = false
    ∧ up.safe.rain.fell = none ∧ ({ up with safe.rain.fell := some (800, 1) }).safe.rain.fell = some (800, 1) := by
  unfold Runs; decide

theorem witness_OnlyAnAnnouncedCloseDrivesACoil : after (.coilAnnounceExpiry 0) (upCoil fun x => { x with ph := .annClose }) (fun t =>
      decide ((t.safe.coil[(0 : Fin 12)]).drive = .pullIn)) = true
    ∧ after (.pullinEnd 0) (upCoil fun x => { x with drive := .pullIn }) (fun t =>
      decide ((t.safe.coil[(0 : Fin 12)]).drive = .hold)) = true := by decide +kernel

def live0 : State := upCoil fun x => { x with st := .closed }
def withImd (f : Imd → Imd) : State := { up with safe.imd := vmod up.safe.imd 0 f }

theorem witness_MonitorsRaiseExactlyTheirDemand : Runs up ∧ outEn up 0 = true ∧ outEn up 7 = false
    ∧ (∀ k ∈ [3, 4], ((upOut fun o => { o with runs := [{ bad := k, good := 0, barred := false }] }).safe.out[(0 : Fin 8)]).runs.any
      (fun r => decide (4 ≤ r.bad)) = decide (k = 4))
    ∧ (let s := live0.modPilot 0 fun p => { p with disagree := 100 }
      outletLive s 0 = true ∧ pilotDisagrees s 0 = true)
    ∧ outletLive up 0 = false
    ∧ (tSlots up 0).any (fun p => p.1 == 0) = true
    ∧ (let i := (up.safe.imd[(0 : Fin 6)])
      (i.active && i.st == .unknown) = false ∧ (i.active = false ∨ i.ticks < tdwTicks up 0))
    ∧ (let i := ((withImd fun i => { i with active := true, st := .unknown }).safe.imd[(0 : Fin 6)])
      (i.active && i.st == .unknown) = true)
    ∧ (let s := { live0 with safe.imd := vmod up.safe.imd 0 fun i => { i with active := true, st := .unknown } }
      0 ∈ outletsOf s (groupOf s 0) ∧ outletLive s 0 = true)
    ∧ (∀ n ∈ [0, 1], let s := withImd fun i => { i with active := true, n := n, ticks := 400, dw := [] }
      let i := s.safe.imd[(0 : Fin 6)]
      i.active = true ∧ tdwTicks s 0 ≤ i.ticks ∧ i.n = n ∧ i.dw = [])
    ∧ (risoOf (imdGm up 0) 400 { on := false, up := 237, un := -475 } { on := true, up := 112, un := -600 }).isSome = true
    ∧ ((up.can[(0 : Fin 3)]).en = true ∧ (up.can[(0 : Fin 3)]).state ≠ .busOff)
    ∧ hoursOf up < 8760 ∧ 8760 ≤ hoursOf { up with safe.hours0 := 8760 }
    ∧ up.safe.stDue = false ∧ ({ up with safe.stDue := true }).safe.stDue = true
    ∧ up.safe.entry = none
    ∧ (let e : Entry := { digits := [0, 0, 0, 0, 0, 0, 0, 7], star := false }
      let s := { up with safe.entry := some e, safe.chk := 7 }
      s.safe.entry = some e ∧ s.safe.blocked = false ∧ e.digits.length = 8 ∧ entryValue e.digits = s.safe.chk)
    ∧ ({ up with safe.blocked := true }).safe.blocked = true
    ∧ up.safe.restarting = false ∧ ({ up with safe.restarting := true }).safe.restarting = true
    ∧ up.safe.lorst.fell = none
    ∧ (let s := { inMode .lockout with safe.latch := true, safe.stDone := some 1, safe.lorst.fell := some (800, 2) }
      s.safe.lorst.fell = some (800, 2) ∧ s.safe.latch = true ∧ s.sys.mode = .lockout ∧ s.safe.restarting = false
        ∧ s.safe.halted = false ∧ s.safe.stDone = some 1 ∧ persisting s = 0) := by
  unfold Runs; decide +kernel

/-- A LORST pulse whose causes have gone, and one of which one persists; and one that fell before the self-test ended. -/
theorem witness_MonitorsRaiseExactlyTheirDemand_lorst : (∀ c ∈ [(0 : BitVec 10), 2],
    let s := { inMode .lockout with safe.latch := true, safe.causes := c, safe.stDone := some 1, safe.lorst.fell := some (800, 2) }
    decide (persisting s = 0) = decide (c = 0))
    ∧ (∀ u, ({ up with safe.stDone := some 2, safe.lorst.fell := some (800, 2) }).safe.stDone = some u → 2 ≤ u) := by
  refine ⟨by decide +kernel, ?_⟩
  rintro u ⟨⟩
  decide

/-- Two dwells that differ in nothing, in a pre-check and outside one. -/
theorem witness_MonitorsRaiseExactlyTheirDemand_invalid : ∀ b ∈ [true, false],
    let s := withImd fun i => { i with
      active := true, on := true, n := 1, ticks := 400, up := 237, un := -475, pre := if b then .running else .idle
      dw := [{ on := false, up := 237, un := -475 }] }
    let i := s.safe.imd[(0 : Fin 6)]
    i.active = true ∧ tdwTicks s 0 ≤ i.ticks ∧ i.n ≠ 0 ∧ i.dw ≠ []
      ∧ risoOf (imdGm s 0) ((s.pf (imdA 0) 15 0 : Nat) : Rat) { on := false, up := 237, un := -475 }
        { on := i.on, up := i.up / (i.n : Rat), un := i.un / (i.n : Rat) } = none ∧ decide (i.pre = .running) = b := by decide +kernel

/-- The last 64 ticks have taken 16 ms and d more. -/
def refState (d : Nat) : State :=
  { up with safe.refAt := List.replicate 63 0 ++ [BitVec.ofNat 64 (5000000000 - 16000000 - d)] }

theorem witness_StopInputsDemandOnEveryTick : Runs up ∧ up.safe.restarting = false ∧ up.safe.halted = false
    ∧ stopEn up 0 = true ∧ 0 ∈ stopMask up 0 ∧ stopIn up 0 = 4 ∧ (0 : BitVec 16).getLsbD 4 = false
    ∧ (0x0010 : BitVec 16).getLsbD 5 = false
    ∧ ({ up with safe.restarting := true }).safe.restarting = true ∧ ({ up with safe.halted := true }).safe.halted = true
    ∧ (∀ d ∈ [0, 320000, 320001], refOff (refState d) = decide (d = 320001))
    ∧ refOff up = false
    ∧ outletCoil live0 0 = some 0 ∧ (live0.safe.coil[(0 : Fin 12)]).st = .closed
    ∧ ((upCoil fun x => { x with st := .closing }).safe.coil[(0 : Fin 12)]).st = .closing := by
  unfold Runs; decide +kernel

/-- An OPENED session after a SITE commit; and one of an AC outlet that meets R252. -/
def sited : State := { opened with safe.sited := true }
def acReady : State :=
  let s : State := { sited with params := bankSet 0x20300600 0xC0000000 (bankSet 0x2030060C 0xFF000000 testParams) }
  let o := fun o : Outlet =>
    { o with rcOk := 400, runs := (safeChans s 0).map fun _ => { bad := 0, good := 0, barred := false } }
  { s with safe.out := vmod s.safe.out 0 o }.modPilot 0 fun p => { p with cal := { p.cal with cls := .c } }

theorem witness_SafeCallsActWithinTheirConditions_ac : isAc acReady 0 = true ∧ closeForbidden acReady 0 0 = false
    ∧ outletCoil acReady 0 = some 0 ∧ outEn acReady 0 = true := by decide +kernel

theorem witness_SafeCallsActWithinTheirConditions : (∀ a, CanCall .safe (call a) up ∧ up.sys.mode ≠ .lockout
      ∧ up.sys.mode ≠ .commission)
    ∧ (callArgs .safe (call [0, 0xFFFFFFFF, 7]) up)[0].toNat = 0 ∧ outletCoil up 0 = some 0 ∧ outEn up 0 = true
    ∧ closeForbidden sited 0 0 = false ∧ closeForbidden opened 0 0 = true :=
  ⟨fun a => ⟨canCall_up .safe a, by decide, by decide⟩, by decide⟩

theorem witness_SafeCallsActWithinTheirConditions_stop :
    (callArgs .safe (call [255, 2]) up)[0].toNat < 256 ∧ (callArgs .safe (call [255, 2]) up)[1] = 2
    ∧ 256 ≤ (callArgs .safe (call [256, 1]) up)[0].toNat ∧ (callArgs .safe (call [1, 3]) up)[1] ≠ 2
    ∧ (let s := upOut fun o => { o with lims := some (9, 9) }
      stopRuns s 0 = false ∧ (s.safe.out[(0 : Fin 8)]).lims = some (9, 9)
        ∧ (callArgs .safe (call [0, 9, 9]) s)[1].toNat ≤ 9)
    ∧ (let s := upOut fun o => { o with lims := some (9, 9), dems := [{ cat := 1, cause := 0, why := .ends }] }
      stopRuns s 0 = true ∧ (s.safe.out[(0 : Fin 8)]).lims = some (9, 9)
        ∧ 9 < (callArgs .safe (call [0, 10, 9]) s)[1].toNat ∧ (callArgs .safe (call [0, 9, 9]) s)[2].toNat ≤ 9) := by decide

theorem witness_SafeCallsActWithinTheirConditions_service :
    closeMode up = true ∧ closeMode (inMode .degraded) = false ∧ up.sys.needAuditRead = false
    ∧ closeMode { inMode .maintain with sys.oos := 3, sys.needAuditRead := true } = true
    ∧ (callArgs .safe (call [1]) up)[0].toNat = 1 ∧ (callArgs .safe (call [3]) up)[0].toNat = 3
    ∧ (3 : BitVec 8) &&& ~~~1 ≠ 0 ∧ (3 : BitVec 8) &&& ~~~3 = 0
    ∧ ((3 : BitVec 8) ≠ 0 ∧ (3 : BitVec 8) &&& 2 &&& ~~~1 ≠ 0 ∧ (3 : BitVec 8) &&& 2 &&& ~~~2 = 0)
    ∧ (let s := { inMode .maintain with sys.oos := 3, sys.needAuditRead := true }
      s.sys.mode = .maintain ∧ staysMaintain s = true ∧ staysMaintain (inMode .maintain) = false)
    ∧ role up 0 = 1 ∧ role up 1 = 2 ∧ replaceRefused up 0 = true
    ∧ replaceRefused { inMode .maintain with sys.oos := 1 } 0 = false := by decide

theorem witness_SafeCallsActWithinTheirConditions_keysAndTests :
    (callArgs .safe (call [15, 1]) up)[0].toNat < 16 ∧ (callArgs .safe (call [15, 1]) up)[1] = 1
    ∧ ((upTxn 3 fun d => { d with st := .open_ }).txn.dom[(3 : Fin 6)]).st = .open_ ∧ (up.txn.dom[(3 : Fin 6)]).st ≠ .open_
    ∧ (let s := { inMode .maintain with sys.oos := 1 }
      outEn s 0 = true ∧ s.sys.mode = .maintain ∧ s.sys.oos.getLsbD 0 = true ∧ outletCoil s 0 = some 0
        ∧ (s.safe.coil[(0 : Fin 12)]).st = .open_)
    ∧ (callArgs .safe (call [0, 64]) up)[1].toNat ≤ 64 ∧ 64 < (callArgs .safe (call [0, 65]) up)[1].toNat := by decide

def slog0 (ret : Bool) : SlogEntry :=
  { seq := 4, lt := 0, typ := 0, p := true, tv := false, source := 0, d0 := 0, d1 := 0, mode := 0, chain := 0, prot := true,
    returned := ret }
def slogged (ret : Bool) : State := { up with safe.slog := [slog0 ret] }

theorem witness_SafeCallsActWithinTheirConditions_log :
    (∀ b ∈ [true, false], ((slogged b).safe.slog.find? (fun e => e.seq == (callArgs .safe (call [4, 1]) (slogged b))[0])
        = some (slog0 b)) ∧ (slog0 b).returned = b ∧ (slogged b).safe.latch = false)
    ∧ (slogged true).safe.slog.reverse.dropWhile (fun e => e.seq != 4) ≠ []
    ∧ (slogged true).safe.slog.reverse.dropWhile (fun e => e.seq != 5) = [] := by decide

def pdu (body : List Byte) (q : BitVec 16) (crc : Word) : LinkPdu :=
  { net := 0, mac := 5, connid := 7, seq := q, flags := 0, tstamp := 0, body := body, crc := crc }
def linked (st : LinkState) : State := upConn fun c => { c with st := st }
def crcOf (ty : Byte) (p : LinkPdu) : Word := wd (crc32c (virtualHeader up 0 false ++ rxBytes ty p))
def sealed_ (ty : Byte) (body : List Byte) : LinkPdu := { pdu body 1 0 with crc := crcOf ty (pdu body 1 0) }

/-- A connection of both networks that holds a first copy of the other one, and one that may reset with a press held. -/
def dual (waits : Bool) : State :=
  { linked .open_ with
    params := bankSet (connA 0) 0xC8000000 testParams
    safe.conn := vmod up.safe.conn 0 fun c => { c with st := .open_, copies := [{ net := 1, pdu := rxBytes 0x02 (pdu [0] 1 0), waits := waits }] } }
def pressed (causes : BitVec 10) : State :=
  { linked .open_ with
    params := bankSet (connA 0) 0x9C000000 testParams
    sys.mode := .lockout
    safe.conn := vmod up.safe.conn 0 fun c => { c with st := .open_, press := some 2, key := some 5 }
    safe.tick := 802
    safe.latch := true
    safe.causes := causes
    safe.stDone := some 1 }

/-- A command message with its tag under the key 5, and its CRC. -/
def tagged (ty : Byte) : LinkPdu :=
  let bare (b : List Byte) : LinkPdu := { pdu b 1 0 with flags := 2 }
  let l := rxBytes ty (bare (List.replicate 9 0))
  let p := bare (0 :: (cmac (beBytes 16 5) (virtualHeader up 0 false ++ l.take (l.length - 8))).take 8)
  { p with crc := crcOf ty p }

theorem witness_LinkMessagesActOnlyWhenAccepted_copies :
    (∀ b ∈ [true, false], connDual (dual b) 0 = true
      ∧ dualOther (dual b) 0 (pdu [0] 1 0) = some { net := 1, pdu := rxBytes 0x02 (pdu [0] 1 0), waits := b }
      ∧ pduConn (dual b) (pdu [0] 1 0) = some 0)
    ∧ dualOther (dual true) 0 (pdu [0] 2 0) = none ∧ rxBytes 0x02 (pdu [0] 1 0) ≠ rxBytes 0x02 (pdu [1] 1 0)
    ∧ pduConn (linked .open_) (pdu (List.replicate 64 0) 1 0) = some 0
    ∧ (acceptPdu 0 (pdu [0] 0 0) (linked .open_)).1 = false := by decide +kernel

theorem witness_LinkMessagesActOnlyWhenAccepted_reset : Runs (pressed 0)
    ∧ ((pressed 0).safe.conn[(0 : Fin 16)]).press = some 2 ∧ (pressed 0).pb (connA 0) 27 = true
    ∧ ((pressed 0).safe.latch = true ∧ (pressed 0).sys.mode = .lockout ∧ (pressed 0).safe.restarting = false
      ∧ (pressed 0).safe.halted = false ∧ (pressed 0).safe.stDone = some 1 ∧ 800 ≤ (pressed 0).safe.tick - 2)
    ∧ persisting (pressed 0) = 0 ∧ persisting (pressed 2) ≠ 0
    ∧ (∀ ty ∈ [(0x03 : Byte), 0x04, 0x05, 0x06], pduCrcOk (pressed 0) 0 ty (tagged ty) = true ∧ tagOk (pressed 0) 0 ty (tagged ty) = true
      ∧ (acceptPdu 0 (tagged ty) (pressed 0)).1 = true) := by unfold Runs; decide +kernel

/-- A CONNECT that starts a sequence and one that acknowledges; one that neither starts one nor passes the checks. -/
theorem witness_LinkMessagesActOnlyWhenAccepted_connect :
    (({ pdu [0] 1 0 with flags := 4 }).flags.getLsbD 2 = true)
    ∧ ((linked .connecting).safe.conn[(0 : Fin 16)]).ref = none
    ∧ ((upConn fun c => { c with st := .connecting, acked := true }).safe.conn[(0 : Fin 16)]).acked = true
    ∧ ((upConn fun c => { c with st := .connecting, ref := some (0, 0) }).safe.conn[(0 : Fin 16)]).ref ≠ none
    ∧ (acceptPdu 0 (pdu [0] 0 0) (upConn fun c => { c with st := .connecting, ref := some (0, 0) })).1 = false := by
  decide +kernel

theorem witness_LinkMessagesActOnlyWhenAccepted : Runs (linked .open_)
    ∧ pduConn (linked .open_) { pdu [] 1 0 with connid := 8 } = none
    ∧ (∀ st ∈ [LinkState.closed, .connecting, .open_, .failed], pduConn (linked st) (pdu [0] 1 0) = some 0
      ∧ ((linked st).safe.conn[(0 : Fin 16)]).st = st)
    ∧ connDual (linked .open_) 0 = false ∧ pduCrcOk (linked .open_) 0 0x02 (pdu [0] 1 0) = false
    ∧ (∀ ty ∈ [(0x01 : Byte), 0x02], pduCrcOk (linked .open_) 0 ty (sealed_ ty [1, 1, 0, 0, 0, 0, 0, 0]) = true
      ∧ tagOk (linked .open_) 0 ty (sealed_ ty [1, 1, 0, 0, 0, 0, 0, 0]) = true)
    ∧ (leAt (sealed_ 0x01 [1, 1, 0, 0, 0, 0, 0, 0]).body 0 1 ≤ 1 ∧ 1 ≤ leAt (sealed_ 0x01 [1, 1, 0, 0, 0, 0, 0, 0]).body 1 1)
    ∧ ¬ leAt [(2 : Byte), 2] 0 1 ≤ 1
    ∧ (acceptPdu 0 (sealed_ 0x02 [0]) (linked .open_)).1 = true
    ∧ up.pb (connA 0 + 0x14) 8 = true ∧ up.pf (connA 0 + 0x14) 7 6 = 1 ∧ (BitVec.ofNat 8 (leAt [(0 : Byte)] 0 1)).getLsbD 0 = false
    ∧ ((linked .open_).safe.conn[(0 : Fin 16)]).press = none
    ∧ connEn up 0 = true ∧ connEn up 15 = false
    ∧ ((linked .open_).safe.conn[(0 : Fin 16)]).copies.find? (·.waits) = none
    ∧ (((dual true).safe.conn[(0 : Fin 16)]).copies.find? (·.waits)).isSome = true := by
  unfold Runs; decide +kernel

def ld (f : LoadCh → LoadCh) : State := { up with load.ch := vmod up.load.ch 0 f }

theorem witness_LoadChannelTakesItsEffectiveState :
    ldEff up 0 = false ∧ ldEff (ld fun c => { c with on := true }) 0 = false
    ∧ (∀ on ∈ [true, false], let s := ld fun c => { c with cmd := 1, on := on }
      ldEff s 0 = true ∧ (s.load.ch[(0 : Fin 10)]).on = on ∧ s.load.uvhold = false ∧ (s.load.ch[(0 : Fin 10)]).defer ≠ .turnOn)
    ∧ (∀ cmd ∈ [(1 : BitVec 2), 2], let s := ld fun c => { c with cmd := cmd, on := true, await := true }
      ldEff s 0 = true ∧ (s.load.ch[(0 : Fin 10)]).await = true ∧ ldBall s 0 = decide (cmd = 1))
    ∧ (let s := { ld (fun c => { c with cmd := 1 }) with load.uvhold := true }
      ldEff s 0 = true ∧ (s.load.ch[(0 : Fin 10)]).on = false ∧ s.load.uvhold = true) := by decide

theorem witness_LoadChannelTakesItsEffectiveState_deferred : ∀ d ∈ [Deferred.turnOn, .restart, .clear], let s := ld fun c => { c with cmd := 1, defer := d }
      ldEff s 0 = true ∧ (s.load.ch[(0 : Fin 10)]).on = false ∧ (s.load.ch[(0 : Fin 10)]).defer ≠ .none := by decide

theorem witness_LoadWritesTakeEffect : Answers .load 0 up ∧ up.load.uvhold = false
    ∧ ({ up with load.uvhold := true }).load.uvhold = true ∧ ldCald up 0 = false
    ∧ ldCald { up with params := bankSet (ldA 0) 0x20000000 testParams } 0 = true := ⟨up_answers _ _, by decide⟩

def watched (wait : Nat) : State :=
  { up with load.wdEn := true, load.wdOpen := 10, load.wdClose := 50, load.wdLast := BitVec.ofNat 64 (5000000000 - wait) }

/-- The last instant before the window, its first and last, and the first one after it. -/
theorem witness_LoadWritesTakeEffect_watchdog : ∀ w ∈ [9999999, 10000000, 50000000, 50000001],
    let s := watched w
    blkUp s .load 0 = true ∧ s.sys.power = .running ∧ s.load.wdEn = true
      ∧ decide (s.now < s.load.wdLast.toNat + 1000000 * s.load.wdOpen.toNat) = decide (w = 9999999)
      ∧ decide (s.load.wdLast.toNat + 1000000 * s.load.wdClose.toNat < s.now) = decide (w = 50000001) := by decide

theorem witness_LoadFaultsStayOnTheirChannel : Runs up
    ∧ (let s := ld fun c => { c with tsd := true, cmd := 1 }
      (s.load.ch[(0 : Fin 10)]).tsd = true ∧ (s.load.ch[(0 : Fin 10)]).latch = false
        ∧ (ldAsked s 0 && (ldCald s 0 || !(s.load.ch[(0 : Fin 10)]).shed)) = true ∧ s.load.uvhold = false)
    ∧ (let s := ld fun c => { c with tsd := true }
      (ldAsked s 0 && (ldCald s 0 || !(s.load.ch[(0 : Fin 10)]).shed)) = false)
    ∧ (∀ m : Fin 10, (up.load.ch[m]).defer = .none)
    ∧ (let s := ld fun c => { c with defer := .turnOn }
      s.load.uvhold = false ∧ (s.load.ch[(0 : Fin 10)]).defer ≠ .none ∧ ∀ m : Fin 10, m < 0 → (s.load.ch[m]).defer = .none) := by
  unfold Runs; decide

theorem witness_LoadFaultsStayOnTheirChannel_deferred : ∀ d ∈ [Deferred.none, .clear], let s := { ld (fun c => { c with tsd := true, cmd := 1, defer := d }) with load.uvhold := true }
      (s.load.ch[(0 : Fin 10)]).tsd = true ∧ (s.load.ch[(0 : Fin 10)]).latch = false ∧ s.load.uvhold = true
        ∧ (ldAsked s 0 && (ldCald s 0 || !(s.load.ch[(0 : Fin 10)]).shed)) = true := by decide

theorem witness_BudgetShedsOneChannelAtATime : Runs up ∧ up.safe.q = []
    ∧ (∀ sh ∈ [true, false], let s := { up with sys.shedding := sh, sys.limit := 3000 }
      decide (s.sys.limit.toNat < (3000 : BitVec 16).toNat ∨ (s.sys.shedding = true ∧ s.sys.limit.toNat ≤ (3000 : BitVec 16).toNat))
        = sh)
    ∧ ({ up with sys.limit := 3000 }).sys.limit.toNat < (3001 : BitVec 16).toNat
    ∧ (let s := ld fun c => { c with on := true }
      (s.load.ch[(0 : Fin 10)]).on = true ∧ ldCald s 0 = false
        ∧ ∀ m : Fin 10, m ≠ 0 → (s.load.ch[m]).on = true → ldCald s m = false →
          ldPri s 0 < ldPri s m ∨ (ldPri s 0 = ldPri s m ∧ m < 0))
    ∧ failSafe up = false
    ∧ (let s := { inMode .degraded with
        load.ch := vmod up.load.ch 1 fun c => { c with shed := true }
        sys.imeas := 0
        sys.limit := 2000 }
      failSafe s = true ∧ s.sys.imeas.toNat + 500 < s.sys.limit.toNat ∧ (s.load.ch[(1 : Fin 10)]).shed = true
        ∧ ∀ m : Fin 10, m ≠ 1 → (s.load.ch[m]).shed = true → ldPri s m < ldPri s 1)
    ∧ (let s := { upCoil (fun x => { x with ph := .queued }) with sys.imeas := 12000 }
      (s.safe.coil[(0 : Fin 12)]).ph = .queued ∧ grantFits s = false)
    ∧ (up.safe.coil[(0 : Fin 12)]).ph ≠ .queued := by
  unfold Runs; decide

def slotState (f : Thl → Thl) : State := { up with thl := f up.thl }

theorem witness_SlotsAndPatchesChangeByTheirCommands : Answers .thl 0 up ∧ Runs up
    ∧ slotAccepts { inMode .maintain with thl.act := 0 } 1 = true ∧ slotAccepts up 0 = false
    ∧ slotWriteFits up = true
    ∧ switchAllowed { inMode .maintain with thl.verified := up.thl.verified.set 1 true } 1 = true
    ∧ up.thl.pr ≠ .staging ∧ (up.txn.dom[(5 : Fin 6)]).st ≠ .open_
    ∧ ((upTxn 5 fun d => { d with st := .open_ }).txn.dom[(5 : Fin 6)]).st = .open_
    ∧ up.thl.cmd = none
    ∧ (∀ c ∈ [SlotCmd.erase, .write, .verify, .switch], (slotState fun x => { x with cmd := some c }).thl.cmd = some c)
    ∧ (slotState fun x => { x with pr := .staging }).thl.pr = .staging ∧ up.sys.mode = .service
    ∧ (1 : Fin 8) ≠ 0 ∧ (7 : Fin 8) ≠ 1 ∧ (1 : BitVec 32).getLsbD 0 = true
    ∧ ginOwner up 0 = none ∧ sourceOwner up 0 = none ∧ ballOwner up 0 = none :=
  ⟨up_answers _ _, rfl, by decide⟩

/-- Where the site image's port map gives them to a G partition, a bit, a source and a ball have an owner. -/
theorem witness_SlotsAndPatchesChangeByTheirCommands_owners (m : List Byte) (hm : m.isEmpty = false)
    (hg : (gPart (Config.portGin m 0)).isSome = true) (hs : (gPart (Config.portSource m 0).1).isSome = true)
    (hb : (gPart (Config.portBall m 39)).isSome = true) : let s := slotState fun x => { x with portMap := m }
    ginOwner s 0 ≠ none ∧ sourceOwner s 0 ≠ none ∧ ballOwner s 39 ≠ none := by
  have hu : mpUses (slotState fun x => { x with portMap := m }) 39 = false :=
    (show mpUses up 39 = false by decide)
  have hp : (slotState fun x => { x with portMap := m }).thl.portMap = m := rfl
  simp only [ginOwner, sourceOwner, ballOwner, hp, hu, hm, Bool.or_self, Bool.false_eq_true, if_false, ne_eq]
  exact ⟨Option.isSome_iff_ne_none.mp hg, Option.isSome_iff_ne_none.mp hs, Option.isSome_iff_ne_none.mp hb⟩

def txnOpen (d : Fin 6) : State := upTxn d fun x => { x with st := .open_, id := 5 }

theorem witness_TransactionsCommitWholeOrNotAtAll : (∀ a, CanCall .txn (call a) up) ∧ up.sys.mode ≠ .lockout
    ∧ (callArgs .txn (call [0, 0, 1]) up)[0].toNat = 0 ∧ txnAdmits up 0 = true ∧ (up.txn.dom[(0 : Fin 6)]).st = .idle
    ∧ (let s := txnOpen 0
      (s.txn.dom[(0 : Fin 6)]).st = .open_ ∧ (s.txn.dom[(0 : Fin 6)]).id = (callArgs .txn (call [0, 5]) s)[1]
        ∧ txnAdmits s 0 = true ∧ (s.txn.dom[(0 : Fin 6)]).id ≠ (callArgs .txn (call [0, 6]) s)[1])
    ∧ 6 ≤ (callArgs .txn (call [6, 5]) up)[0].toNat
    ∧ (let s := txnOpen 2
      let a := callArgs .txn (call [2, 5, 0x20240014, 0x000A003C]) s
      a[2].toNat % 4 = 0 ∧ domMask s 2 a[2].toNat ≠ 0 ∧ a[3].toNat &&& reservedMask a[2].toNat = 0)
    ∧ (let x := (txnOpen 0).txn.dom[(0 : Fin 6)]
      x.shadow.length < shadowCap 0)
    ∧ (let x := (upTxn 4 fun x => { x with st := .open_, shadow := List.replicate 128 (0, 0) }).txn.dom[(4 : Fin 6)]
      x.st = .open_ ∧ ¬ (x.shadow.any (fun p => p.1 == 0x20280010) = true ∨ x.shadow.length < shadowCap 4))
    ∧ (∀ st ∈ [TxnState.queued, .committing], ((upTxn 0 fun x => { x with st := st }).txn.dom[(0 : Fin 6)]).st = st)
    ∧ up.txn.queue = [] ∧ (0 : Fin 6) ∉ ([1] : List (Fin 6))
    ∧ (runCommit 5 true (txnOpen 5)).1 = .done ∧ (runCommit 0 true (upTxn 0 fun x => { x with ovf := true })).1 = .badArg
    ∧ (up.txn.dom[(0 : Fin 6)]).st ≠ .open_
    ∧ (∀ k : Fin 28, (up.compat[k]).locked = false ∧ (blockMap[k.val]?).isSome = true) :=
  ⟨canCall_up .txn, by decide +kernel⟩

/-- A commit of one BILL word with one token key: it is DONE, and another word stands in no shadow. -/
def billOne : State :=
  { upTxn 2 fun x => { x with st := .committing, shadow := [(0x20240014, 60)], keys := [(1, some 7)] } with
    params := bankSet 0x20242000 0x80000000 (bankSet 0x20242800 0x80840000 testParams) }
theorem witness_TransactionsCommitWholeOrNotAtAll_done : (runCommit 2 true billOne).1 = .done
    ∧ (let x := { billOne with txn.queue := [2] }.txn.dom[(2 : Fin 6)]
      x.shadow.filter (fun p => p.1 == 0x20240014) = [(0x20240014, 60)] ∧ x.shadow.filter (fun p => p.1 == 0x20240018) = []
        ∧ x.keys.filter (fun p => p.1 % 8 == 1 % 8) = [(1, some 7)] ∧ (x.shadow.map (·.1)).Pairwise (· < ·))
    ∧ ({ up with safe.conn := up.safe.conn }).txn.dom[(3 : Fin 6)].keys = []
    ∧ ((upTxn 3 fun x => { x with keys := [(15, none)] }).txn.dom[(3 : Fin 6)].keys.filter (fun p => p.1 % 16 == 15 % 16))
      = [(15, none)] := by decide +kernel

/-! DMA: channel 0 with a ring of one descriptor at 0x10000000 that moves 16 bytes from 0x10000100 to 0x10000200. -/

def descWords (own : Bool) : Vector Word 8 :=
  #v[0x80008000, 0x10000100, 0x10000200, 0x00010010, 0, 0, 0, if own then 0x80000000 else 0]
def descBytes (own : Bool) : List Byte := wordsBytes (descWords own).toList
def ring0 (own : Bool) : State :=
  (upDma fun x => { x with ring := 0x800000, rlen := 1, reqsel := 0 }).ramWrite 0x10000000 (descBytes own)
def runs0 (granted : Nat) (fl : List DmaBurst) : State :=
  (ring0 true).modDma 0 fun x => { x with
    en := true
    st := .running
    run := some { addr := 0x10000000, w := descWords true, granted := granted, bytes := 0, flight := fl, late := false, err := none } }
def burst0 : DmaBurst := { off := 0, data := [1, 2, 3, 4], dst := 0x10000200, late := false }

theorem witness_DmaChannelsRunTheirDescriptors : Answers .dma 0 up ∧ Runs up
    ∧ ((runs0 0 []).dma.ch[(0 : Fin 32)]).en = true ∧ (up.dma.ch[(0 : Fin 32)]).en = false
    ∧ enableRefused up 0 = true ∧ enableRefused (ring0 true) 0 = false
    ∧ ((readDesc (ring0 true) 0x10000000).2 = none ∧ bitAt (readDesc (ring0 true) 0x10000000).1[7] 31 = true
      ∧ descBad 0 (readDesc (ring0 true) 0x10000000).1 = false)
    ∧ bitAt (readDesc (ring0 false) 0x10000000).1[7] 31 = false ∧ descBad 0 ((descWords true).set 3 0) = true
    ∧ ((ring0 true).modDma 0 fun x => { x with st := .waitDesc }).dma.ch[(0 : Fin 32)].st = .waitDesc
    ∧ (let s := up.modCan 0 fun c => { c with rxFifo := [[]] }
      periphReady s 13 = true ∧ periphReady up 13 = false ∧ (13 : Fin 32) ≠ 0)
    ∧ inFlight (runs0 0 []) < 64 ∧ dmaChoice (runs0 0 []) = some 0 ∧ dSafe (descWords true) = true ∧ dMode (descWords true) = 0
    ∧ dSfix (descWords true) = false ∧ dDfix (descWords true) = false
    ∧ (let n := nextBurst (descWords true) 0
      inSram (wrap32 (0x10000100 + n.1)) n.2 = true ∧ poisoned (runs0 0 []) (wrap32 (0x10000100 + n.1)) n.2 = false
        ∧ inDma (wrap32 (0x10000200 + n.1)) = false ∧ inDma (wrap32 (0x10000200 + n.1) + n.2 - 1) = false)
    ∧ (∀ k, dmaReady up k = false)
    ∧ ((runs0 16 [burst0]).dma.ch[(0 : Fin 32)]).run.isSome = true ∧ dTotal (descWords true) ≤ 16
    ∧ dStop (descWords true) = true ∧ reqTx 0 = false ∧ inSram burst0.dst burst0.data.length = true
    ∧ poisoned (runs0 16 [burst0]) burst0.dst burst0.data.length = false
    ∧ inSram 0x10000000 32 = true ∧ poisoned up 0x10000000 32 = false
    ∧ dDfix (descWords true) = false ∧ burst0.late = false ∧ inSafe (wd burst0.dst).toNat = false
    ∧ inSafe 0x2030FFFF = true ∧ inSafe 0x20310000 = false
    ∧ portMute up 5 = true ∧ portMute up 0 = false :=
  ⟨up_answers _ _, rfl, by decide⟩

/-- Channel 0 paced by CAN0's receive FIFO, which holds a record. -/
def paced0 : State :=
  { (runs0 0 []).modCan 0 fun c => { c with rxFifo := [List.replicate 16 0] } with
    dma.ch := vmod (runs0 0 []).dma.ch 0 fun x => { x with reqsel := 13 }
    dma.req := BitVec.ofNat 32 (2 ^ 13) }
theorem witness_DmaChannelsRunTheirDescriptors_paced : inFlight paced0 < 64 ∧ dmaChoice paced0 = some 0 ∧ reqRx (paced0.dma.ch[(0 : Fin 32)]).reqsel.toNat = true
    ∧ ((paced0.dma.ch[(0 : Fin 32)]).run.map (·.flight)) = some [] ∧ dMode (descWords true) = 0 ∧ dDfix (descWords true) = false
    ∧ (let n := nextBurst (descWords true) 0
      inDma (wrap32 (0x10000200 + n.1)) = false ∧ inDma (wrap32 (0x10000200 + n.1) + n.2 - 1) = false)
    ∧ (let s := (runs0 0 []).modLink 3 fun l => { l with rxStore := [[1], [2]], rxOff := 1 }
      let x := { (s.dma.ch[(0 : Fin 32)]) with reqsel := 4 }
      x.en = true ∧ x.reqsel.toNat = (3 : Port).val + 1) := by decide +kernel

/-- A write of an address outside LOAD, at its edges; a burst that goes to one. -/
theorem witness_ParametersChangeOnlyAtStartOrCommit_writes :
    (∀ a ∈ [0x2009FFFC, 0x200B0000], a < 0x200A0000 ∨ 0x200B0000 ≤ a) ∧ ¬ (0x200A0000 < 0x200A0000 ∨ 0x200B0000 ≤ 0x200A0000)
    ∧ (∃ t, exec (.registerWrite 0 0x2009FFFC .word 0) up = .next t) ∧ (∃ t, exec (.rwtShadowWrite 0x200B0000 0) up = .next t)
    ∧ (runs0 16 [burst0]).dma.ch[(0 : Fin 32)].run.any (fun d => d.flight == [burst0]) = true ∧ burst0.dst < 0x200A0000
    ∧ (∀ i : Nat, i < 1 → wrap32 (burst0.dst + 4 * i) < 0x200A0000)
    ∧ ∃ t, exec (.dmaBurstDone 0 none) (runs0 16 [burst0]) = .next t :=
  ⟨by decide, by decide, ⟨_, rfl⟩, ⟨_, rfl⟩, by decide, by decide, by decide, ⟨_, rfl⟩⟩

theorem witness_EventLogTakes64EntriesOfATypeASecond_vbak : Runs up ∧ 20 * (119 : Byte).toNat < 2400 ∧ 2400 ≤ 20 * (120 : Byte).toNat
    ∧ 20 * (124 : Byte).toNat < 2500 ∧ 2500 ≤ 20 * (125 : Byte).toNat ∧ up.time.evlCounts = [] := by unfold Runs; decide

theorem witness_EventLogTakes64EntriesOfATypeASecond :
    (let s := { up with
      time.evlSec := 5
      time.evlCounts := [{ typ := 5, written := 64, dropped := 0 }, { typ := 6, written := 63, dropped := 0 }] }
    s.time.evlSec = s.now / 1000000000
      ∧ (s.time.evlCounts.find? fun c => c.typ == 5) = some { typ := 5, written := 64, dropped := 0 }
      ∧ (s.time.evlCounts.find? fun c => c.typ == 6) = some { typ := 6, written := 63, dropped := 0 }
      ∧ (s.time.evlCounts.find? fun c => c.typ == 7) = none)
    ∧ ({ up with time.evlSec := 4 }).time.evlSec < up.now / 1000000000
    ∧ ({ up with time.evlDrop := 65535 }).time.evlDrop = 65535 ∧ Runs up
    ∧ (up.time.evlCounts.filter fun (x : EvCount) => decide (0 < x.dropped)) = []
    ∧ (({ up with time.evlCounts := [{ typ := 5, written := 64, dropped := 1 }] }).time.evlCounts.filter
        fun (x : EvCount) => decide (0 < x.dropped)) ≠ [] := by unfold Runs; decide

theorem witness_ClocksAndRegisterAccessesAnswer : Runs up ∧ (500#16).toInt.natAbs ≤ 500 ∧ 500 < (501#16).toInt.natAbs
    ∧ blkUp up .time 0 = true ∧ ¬ up.now / 1000000000 ≤ up.time.evlSec
    ∧ (let s := { up with time.evlSec := 5, time.evlCounts := [{ typ := 5, written := 64, dropped := 0 }] }
      s.now / 1000000000 ≤ s.time.evlSec
        ∧ s.time.evlCounts.find? (fun x => x.typ == 0x0005) = some { typ := 5, written := 64, dropped := 0 })
    ∧ inSram 0x10000000 4 = true ∧ inSram 0x101FFFFC 4 = true ∧ poisoned up 0x101FFFFC 4 = false
    ∧ blkAt 0x30000000 = none ∧ up.appRead 0x30000000 4 = none
    ∧ inside 0x0BFFFFFC 4 norBase norSize = true ∧ inside 0x1FFFC 4 0 0x20000 = true
    ∧ inside 0x181FFFFC 4 sinterBase 0x200000 = true
    ∧ (blkAt 0x20010010).map (·.1) = some 1 ∧ AccSize.byte ≠ .word ∧ 0x20010012 % 4 ≠ 0
    ∧ hasWord .time 0x3C = false ∧ hasWord .time 0x10 = true ∧ hasWord .time 0x14 = true
    ∧ (({ up with compat := Vector.replicate 28 { level := 0, locked := false } }).compat[(1 : Fin 28)]).level = 0
    ∧ isWindow .time = false ∧ hasWord .time 0 = true
    ∧ isWindow .met = true ∧ hasWord .met 0x180 = true ∧ writeWindow .met 0x20200000 0x140C 0 up = none
    ∧ (up.compat[(1 : Fin 28)]).level ≠ 0 ∧ rosLow .time 0x10 = true ∧ rosHigh .time 0x10 = false
    ∧ rosLow .met 0x201C = true ∧ shortOf 0x201C = none
    ∧ portMute up 5 = true ∧ (∀ q ∈ [0, 4, 6, 9], portMute up q = false) :=
  ⟨rfl, by decide⟩

/-- The registers whose writes the statement shows. -/
theorem witness_ClocksAndRegisterAccessesAnswer_writes : ∀ x ∈ [0x20060044, 0x20060048, 0x2006004C, 0x20060064, 0x20060068, 0x20060200, 0x20040024, 0x20040028, 0x2004002C,
    0x20100194, 0x20100198, 0x20000014, 0x2002001C, 0x20060088, 0x200B0024, 0x200C0024, 0x20030028, 0x2006008C, 0x200A0018,
    0x20000010, 0x20020014, 0x20040030, 0x20060014, 0x200C0014], (blkAt x).any (fun b => blkUp up b.2.kind b.2.n) = true := by decide

theorem witness_InterruptsAreClaimedOnceByPriority : Runs up ∧ bestSrc up 0 = 0
    ∧ (let s := { up with
        intc.raised := BitVec.ofNat 256 (2 ^ 122)
        intc.prio := up.intc.prio.set 122 7
        intc.enable := up.intc.enable.set 0 (BitVec.ofNat 256 (2 ^ 122)) }
      bestSrc s 0 = 122 ∧ (s.intc.enable[(0 : Fin 8)]).getLsbD 122 = true ∧ blkUp s .intc 0 = true)
    ∧ blkUp { up with compat := Vector.replicate 28 { level := 0, locked := false } } .intc 0 = false := by
  unfold Runs; decide +kernel

/-! ### A quicker way to evaluate ECDSA, equal to the model's -/

theorem powModGo_eq (m : Nat) (hm : 1 < m) : ∀ f a e, e < 2 ^ f → powModGo f m a e = a ^ e % m := by
  intro f
  induction f with
  | zero => intro a e h; obtain rfl : e = 0 := by simpa using h
            simp [powModGo, Nat.mod_eq_of_lt hm]
  | succ f ih =>
    intro a e h
    have he : e / 2 < 2 ^ f := by rw [Nat.pow_succ] at h; omega
    simp only [powModGo, ih _ _ he]
    rw [← Nat.pow_mod, ← Nat.pow_two, ← Nat.pow_mul]
    split <;> rename_i h2
    · rw [Nat.mul_mod, Nat.mod_mod, ← Nat.mul_mod, ← Nat.pow_succ', show (2 * (e / 2)).succ = e by omega]
    · rw [show 2 * (e / 2) = e by omega]

def powFast (m : Nat) : Nat → Nat → Nat → Nat
  | 0, _, _ => 1
  | f + 1, a, e => a ^ (e % 16) * powFast m f (a ^ 16 % m) (e / 16) % m

theorem powFast_eq (m : Nat) (hm : 1 < m) : ∀ f a e, e < 16 ^ f → powFast m f a e = a ^ e % m := by
  intro f
  induction f with
  | zero => intro a e h; obtain rfl : e = 0 := by simpa using h
            simp [powFast, Nat.mod_eq_of_lt hm]
  | succ f ih =>
    intro a e h
    have he : e / 16 < 16 ^ f := by rw [Nat.pow_succ] at h; omega
    rw [powFast, ih _ _ he, ← Nat.pow_mod, ← Nat.pow_mul, Nat.mul_mod, Nat.mod_mod, ← Nat.mul_mod, ← Nat.pow_add,
      show e % 16 + 16 * (e / 16) = e by omega]

set_option exponentiation.threshold 500 in
theorem invMod_fast (m a : Nat) (hm : 1 < m) (h : m < 2 ^ 400) : invMod m a = powFast m 100 (a % m) (m - 2) := by
  rw [invMod, powModGo_eq m hm _ _ _ (by omega), powFast_eq m hm _ _ _ (by
    rw [show (16 : Nat) ^ 100 = 2 ^ 400 by decide]; omega)]

def addFast (c : Curve) : Option (Nat × Nat) → Option (Nat × Nat) → Option (Nat × Nat)
  | none, q => q
  | p, none => p
  | some (x1, y1), some (x2, y2) =>
    if x1 = x2 ∧ (y1 + y2) % c.p = 0 then none
    else
      let l := if x1 = x2 then (3 * x1 * x1 + c.p - 3) * powFast c.p 100 (2 * y1 % c.p) (c.p - 2) % c.p
        else subMod c.p y2 y1 * powFast c.p 100 (subMod c.p x2 x1 % c.p) (c.p - 2) % c.p
      let x3 := subMod c.p (l * l) (x1 + x2)
      some (x3, subMod c.p (l * subMod c.p x1 x3) y1)

def mulFast (c : Curve) : Nat → Nat → Option (Nat × Nat) → Option (Nat × Nat)
  | 0, _, _ => none
  | f + 1, k, q =>
    let r := mulFast c f (k / 2) (addFast c q q)
    if k % 2 = 1 then addFast c q r else r

theorem addFast_eq (c : Curve) (h1 : 1 < c.p) (h2 : c.p < 2 ^ 400) (x y) : ecAdd c x y = addFast c x y := by
  rcases x with _ | ⟨a, b⟩ <;> rcases y with _ | ⟨d, e⟩ <;> simp only [ecAdd, addFast, invMod_fast _ _ h1 h2]

theorem mulFast_eq (c : Curve) (h1 : 1 < c.p) (h2 : c.p < 2 ^ 400) : ∀ f k q, ecMulGo c f k q = mulFast c f k q := by
  intro f
  induction f with
  | zero => intros; rfl
  | succ f ih => intros; simp only [ecMulGo, mulFast, ih, addFast_eq c h1 h2]

def ecdsaFast (c : Curve) (x y : Nat) (h sig : List Byte) : Bool :=
  let r := beNat (sig.take c.len)
  let s := beNat (sig.drop c.len)
  if sig.length ≠ 2 * c.len ∨ r = 0 ∨ c.n ≤ r ∨ s = 0 ∨ c.n ≤ s ∨ !onCurve c x y then false
  else
    let w := powFast c.n 100 (s % c.n) (c.n - 2)
    match addFast c (mulFast c 384 (hashNum c h * w % c.n) (ecG c)) (mulFast c 384 (r * w % c.n) (some (x, y))) with
    | some (v, _) => v % c.n == r
    | none => false

theorem ecdsaFast_eq (c : Curve) (h1 : 1 < c.p) (h2 : c.p < 2 ^ 400) (h3 : 1 < c.n) (h4 : c.n < 2 ^ 400)
    (x y : Nat) (h sig : List Byte) : ecdsaVerify c x y h sig = ecdsaFast c x y h sig := by
  simp only [ecdsaVerify, ecdsaFast, ecMul, invMod_fast _ _ h3 h4, mulFast_eq _ h1 h2, addFast_eq _ h1 h2]
  all_goals
    split
    · rfl
    · generalize addFast c _ _ = z
      rcases z with _ | ⟨v, w⟩ <;> rfl

theorem sigOk384_fast (key msg sig : List Byte) : sigOk384 key msg sig
    = (slice key 0 1 == [0x04] && onCurve p384 (beNat (slice key 1 48)) (beNat (slice key 49 48))
      && ecdsaFast p384 (beNat (slice key 1 48)) (beNat (slice key 49 48)) (sha384 msg) sig) := by
  rw [sigOk384, ecdsaFast_eq p384 (by decide +kernel) (by decide +kernel) (by decide +kernel) (by decide +kernel)]

/-! ### Updates

A container of one spore: its header, one block digest of zeros, the generator of P-384 as key, and a signature by the private
key 1. tag0 is the tag of a spore of zeros under it, tagF that of a spore of FFH under a header that names one spore and no more; the CEK is of zeros. -/

def keyG : List Byte := [4] ++ beBytes 48 p384.gx ++ beBytes 48 p384.gy

def man1 : List Byte :=
  [0x43, 0x5A, 0x55, 0x50, 1, 0, 1, 0] ++ leBytes 4 0x481600B1 ++ leBytes 4 1 ++ List.replicate 112 0 ++ List.replicate 48 0
    ++ keyG ++ beBytes 48 0x08D999057BA3D2D969260045C55B97F089025959A6F434D651D207D19FB96E9E4FE0E86EBE0E64F85B96A9C75295DF61
    ++ beBytes 48 0xA5AA33B7713DA5A28DDBE5D3C9A649A391E5A4A5B2D1E839EEBC959D77668113346834AF6E82FE2984C3521EF6D466D6

def tag0 : List Byte := beBytes 16 46784126272920098731543608150104519297
def tagF : List Byte := beBytes 16 171255169007478513309862931525986356769

/-- An update in a state, with a header that names one spore staged, and a key. -/
def upSt (st : UpdState) (f : Upd → Upd) : State :=
  (upUpd fun u => f { u with st := st, cekStaged := some (kwWrap 0 0) }).norWrite (stgMan + 12) [1, 0, 0, 0]

/-- A staged spore record at the start of the SRAM. -/
def sporeIn (k : Nat) (tag : List Byte) (s : State) : State :=
  (s.ramWrite 0x10000000 (leBytes 4 k)).ramWrite 0x10000404 tag

theorem ramWrite_of {a : Nat} {l : List Byte} (h : inSram a l.length = true) (s : State) :
    s.ramWrite a l = { s with sram := memPut sramBlank a l s.sram } := by simp only [State.ramWrite, h, if_true]

theorem man1_fits : inSram 0x10000000 man1.length = true := by decide +kernel

/-- A BEGIN of the container in any state of an update: every check passes once the envelope opens and the signature is the
key's. -/
theorem begin_passes (f : Upd → Upd) (h1 : (envelope (upUpd f)).isSome = true) (h2 : (f up.upd).minsvn = 0)
    (h3 : mfSigOk man1 = true) :
    let s := (upUpd f).ramWrite 0x10000000 man1
    (beginCheck s 369 (s.ramRead 0x10000000 369)).1 = 0 := by
  have hw := ramWrite_of man1_fits (upUpd f)
  have hr : ((upUpd f).ramWrite 0x10000000 man1).ramRead 0x10000000 369 = man1 := by
    have : ((upUpd f).ramWrite 0x10000000 man1).sram = (up.ramWrite 0x10000000 man1).sram := by
      rw [hw, ramWrite_of man1_fits]; rfl
    simp only [State.ramRead, this]
    decide +kernel
  have hf : mfFormatOk man1 = true := by decide +kernel
  have hl : mfLength man1 = 369 := by decide +kernel
  have he : envelope ((upUpd f).ramWrite 0x10000000 man1) = envelope (upUpd f) := by rw [hw]; rfl
  have hk : mfKeyOk ((upUpd f).ramWrite 0x10000000 man1) man1 = true := by rw [hw]; rfl
  have hm : (((upUpd f).ramWrite 0x10000000 man1).upd.minsvn) = 0 := by rw [hw]; exact h2
  obtain ⟨x, hx⟩ := Option.isSome_iff_exists.mp h1
  simp only [hr, beginCheck, hf, hl, he, hx, hk, h3, hm]
  simp

theorem witness_UpdatesMoveThroughTheirStates : (∀ a f, CanCall .upd (call a) (upUpd f)) ∧ (∀ f, Runs (upUpd f))
    ∧ (let s := up
      ∀ n ∈ [369, 12609], inSram 0x10000000 n = true ∧ (beginCheck s n (s.ramRead 0x10000000 n)).1 ≠ 0)
    ∧ (∀ st ∈ [UpdState.pending_, .trial], beginBarred (upUpd fun u => { u with st := st }) = true)
    ∧ beginBarred (upUpd fun u => { u with st := .rejected, swapBack := true }) = true
    ∧ (∀ st ∈ [UpdState.idle, .rejected, .verified, .downloading, .complete],
      beginBarred (upUpd fun u => { u with st := st }) = false)
    ∧ (up.upd.st ≠ .downloading ∧ (upSt .downloading fun u => { u with eraseDue := true }).upd.eraseDue = true)
    ∧ (let s := upSt .downloading id
      s.upd.st = .downloading ∧ s.upd.eraseDue = false ∧ inSram 0x10000000 1044 = true
        ∧ hasStaged s = true ∧ stagedSpores s ≤ 1 ∧ 0 < stagedSpores s ∧ (0 : Nat) < 16384 ∧ sporeSet s 0 = false)
    ∧ hasStaged up = false ∧ (hasStaged (upSt .complete id) = true ∧ (upSt .complete id).upd.st ≠ .downloading)
    ∧ sporeSet (upSt .downloading fun u => { u with map := 1 }) 0 = true
    ∧ (upSt .complete id).upd.st = .complete ∧ (upSt .verified id).upd.st = .verified ∧ (upSt .trial id).upd.st = .trial
    ∧ (inMode .commission).sys.mode = .commission ∧ up.sys.mode = .service ∧ (upSt .pending_ id).upd.st = .pending_
    ∧ (callArgs .upd (call [0x10000000, 369]) up)[1] = 369 ∧ (callArgs .upd (call [0, 64]) up)[1] = 64
    ∧ isPending up .upd .updBegin = false
    ∧ (let s := upBox .upd .updBegin (upSt .erasing id)
      isPending s .upd .updBegin = true ∧ s.upd.st = .erasing)
    ∧ (let s := upSt .verifying fun u => { u with map := 1 }
      s.upd.st = .verifying ∧ missingCnt s = 0)
    ∧ isPending (upBox .upd .updVerify (upSt .verifying id)) .upd .updVerify = true
    ∧ (let s := upSt .trial fun u => { u with winFrom := some 0 }
      s.upd.st = .trial ∧ s.upd.winFrom.isSome = true)
    ∧ blkUp up .upd 0 = true := by
  refine ⟨fun a f => canCall_of_up rfl rfl rfl rfl, fun f => rfl, ?_⟩
  refine ⟨?_, by decide, by decide, by decide, by decide +kernel, ?_⟩
  · intro s n hn
    refine ⟨by revert n; decide, ?_⟩
    have hf : mfFormatOk (s.ramRead 0x10000000 n) = false := by revert n; decide +kernel
    simp [beginCheck, hf]
  · decide +kernel

theorem witness_UpdatesMoveThroughTheirStates_poisoned : ∀ n ∈ [369, 1044, 12609],
    inSram 0x10000000 n = true ∧ poisoned up 0x10000000 n = false
      ∧ poisoned { up with mesh.poison := [0x10000008] } 0x10000000 n = true := by decide

theorem witness_UpdCancelAbandonsOrWithdraws : let s := upUpd fun u => { u with st := .downloading }
   s.upd.st = .downloading ∧ (callArgs .upd (call [1]) s)[0] = 1 ∧ (callArgs .upd (call []) s)[0] = 0 ∧ up.upd.st = .idle
     ∧ (upUpd fun u => { u with st := .pending_ }).upd.st = .pending_ := by decide

/-- A spore with its tag is good, one with another tag is not; of stored spores the same. -/
theorem witness_sporesOpen :
    (sporeOpen 0 man1 0 (List.replicate 1024 0) tag0).isSome = true
    ∧ (sporeOpen 0 man1 0 (List.replicate 1024 0) tagF).isSome = false := by decide +kernel

theorem witness_sporeRecords : ∀ t ∈ [tag0, tagF],
    let r := (sporeIn 0 t up).ramRead 0x10000000 1044
    leAt r 0 4 = 0 ∧ slice r 4 1024 = List.replicate 1024 0 ∧ slice r 1028 16 = t := by decide +kernel

/-- In VERIFYING, the one spore as stored: blank with its tag, or blank without one. -/
def allIn (tag : List Byte) : State := (upSt .verifying fun u => { u with map := 1 }).norWrite stgTags tag

theorem allIn_cek (tag : List Byte) : stagedCek (allIn tag) = some 0 := by
  have h : (allIn tag).upd.cekStaged = some (kwWrap 0 0) := by
    unfold allIn upSt State.norWrite
    split <;> split <;> rfl
  simp [stagedCek, h, kwWrap_kwWrap]

theorem badSpores_of {s : State} {c : BitVec 256} (h : stagedCek s = some c) :
    badSpores s = (List.range (stagedSpores s)).filter fun k =>
      (sporeOpen c (stagedMan s) k (sporeCt s k) (sporeTag s k)).isNone := by simp [badSpores, h]

theorem witness_badSpores : (∀ t ∈ [tagF, tag0], missingCnt (allIn t) = 0 ∧ (allIn t).upd.st = .verifying)
    ∧ badSpores (allIn tagF) = [] ∧ badSpores (allIn tag0) ≠ [] := by
  rw [badSpores_of (allIn_cek tagF), badSpores_of (allIn_cek tag0)]
  decide +kernel

/-! ### Settings, keys and operations -/

/-- A rotation of FKD for this device: the new digest of zeros, the key, its signature. -/
def rotMsg : List Byte := List.replicate 57 0 ++ keyG ++ beBytes 48 0x08D999057BA3D2D969260045C55B97F089025959A6F434D651D207D19FB96E9E4FE0E86EBE0E64F85B96A9C75295DF61 ++ beBytes 48 0x063C714FF7F02CE1E1A7A67E79A4EB353A7A60B6731467F449E07F45A758AE16A6D159DD200F635D6008E5ADB0692E5F

theorem rotMsg_signed : sigOk384 (slice rotMsg 57 97) (rotMsg.take 154) (rotMsg.drop 154) = true := by
  rw [sigOk384_fast]; decide +kernel

def rotState : State := { up.ramWrite 0x10000000 rotMsg with sys.mode := .maintain, sec.fkd := some (sha384 keyG) }

def opened1 : State := upUpd fun u => { u with opened := some true }

def secOp (op : BitVec 6) (key : BitVec 6) : SecOp :=
  { op := op, port := 0xF, key := key, len := 16, src := 0x10000000, dst := 0x10000100, aux := 0x10000200 }
def queued (op : BitVec 6) (key : BitVec 6) : State :=
  { up with
    sec.queue := [secOp op key]
    sec.hk := (up.sec.hk.set 0 (some (hostKey 3 5 false))).set 1 (some (hostKey 1 5 false)) }
def queuedLen (op : BitVec 6) (key : BitVec 6) (len : BitVec 16) : State :=
  { queued op key with sec.queue := [{ secOp op key with len := len }] }

theorem witness_SettingsKeysAndOperationsKeepTheirRules : (∀ a f, CanCall .upd (call a) (upUpd f)) ∧ Runs up
    ∧ (4 : Nat) ≤ 4096 ∧ ¬ (setSize - 32 < 0x7EFE0 + 4096) ∧ setSize - 32 < 0x7FFE0 + 4
    ∧ up.upd.opened = none ∧ opened1.upd.opened = some true ∧ inSram 0x10000000 4096 = true
    ∧ ¬ (65535 < 65535 ∨ setSize - 32 < 0x7FFE0)
    ∧ (let m := rotState.ramRead 0x10000000 250
      m = rotMsg ∧ inSram 0x10000000 250 = true ∧ leAt m 0 1 = 0 ∧ slice m 1 8 = serialBytes rotState
        ∧ rotState.sys.mode = .maintain ∧ rotState.sec.fkd = some (sha384 (slice m 57 97)))
    ∧ leAt (up.ramRead 0x10000000 250) 0 1 ≠ (1 : Word).toNat
    ∧ isPending up .upd .setOpen = false ∧ isPending (upBox .upd .setOpen up) .upd .setOpen = true
    ∧ Answers .sec 0 up
    ∧ (up.sec.queue.filter fun o => o.port == 3).length < 2 ∧ (0 : Nat) < 4
    ∧ up.sec.queue = []
    ∧ (∀ op ∈ [(1 : BitVec 6), 2, 3, 6, 7], ∀ k ∈ [(0 : BitVec 6), 15],
      nextTag (queued op k) = some 0xF ∧ (queued op k).sec.queue.find? (fun o => o.port == 0xF) = some (secOp op k)
        ∧ inSram 0x10000000 16 = true)
    ∧ (queued 3 15).sec.hk[(Fin.ofNat 16 15 : Fin 16)] = none
    ∧ held.sys.power ≠ .running := by
  refine ⟨fun a f => canCall_of_up rfl rfl rfl rfl, rfl, ?_⟩
  refine ⟨by decide, by decide, by decide, rfl, rfl, by decide, by decide, by decide +kernel, by decide +kernel, by decide,
    by decide, up_answers _ _, by decide⟩

theorem witness_SettingsKeysAndOperationsKeepTheirRules_operations : Runs (queued 4 0)
    ∧ (queued 4 0).sec.hk[(Fin.ofNat 16 0 : Fin 16)] = some (hostKey 3 5 false)
    ∧ (queued 7 1).sec.hk[(Fin.ofNat 16 1 : Fin 16)] = some (hostKey 1 5 false)
    ∧ (hostKey 3 5 false).typ = 3 ∧ (hostKey 1 5 false).typ = 1 := ⟨rfl, rfl, rfl, rfl, rfl⟩

/-- The operation stands alone in the queue at a length that it takes, with its input in correct memory. -/
abbrev takesLen (x : BitVec 6 × BitVec 16) : Prop :=
  let s := queuedLen x.1 1 x.2
  nextTag s = some 0xF ∧ s.sec.queue.find? (fun o => o.port == 0xF) = some { secOp x.1 1 with len := x.2 }
    ∧ inSram 0x10000000 x.2.toNat = true ∧ poisoned s 0x10000000 x.2.toNat = false

/-- Each operation at a length that it takes, at both edges where it has two. -/
theorem witness_SettingsKeysAndOperationsKeepTheirRules_lengths :
    ([(4, 16), (5, 16), (5, 15), (7, 48), (7, 47), (8, 32), (8, 48), (9, 65), (9, 64), (10, 1), (10, 3), (10, 4), (11, 100),
      (12, 8), (13, 32), (13, 31)].all fun x => decide (takesLen x)) = true := by decide +kernel

/-- The memory that the operations read; GENKEY's types. -/
theorem witness_SettingsKeysAndOperationsKeepTheirRules_inputs :
    leAt (up.ramRead 0x10000200 16) 12 4 ≤ 65536 ∧ inSram 0x10000200 193 = true ∧ poisoned up 0x10000200 193 = false
    ∧ 2 * (curveOf 1).len + 1 = 65 ∧ BitVec.ofNat 3 4 ≠ (3 : BitVec 3) ∧ 3 < (BitVec.ofNat 3 4 : BitVec 3).toNat
    ∧ leAt (up.ramRead 0x10000000 65) 0 1 ≠ 4 ∧ (16 : Nat) ≤ (16 : BitVec 6).toNat ∧ (5 : Nat) < 2 ^ 384 := by decide +kernel

/-! ### Host interfaces -/

def frame (n : Nat) (ty : Byte) : List Byte := (List.replicate 12 0xFF ++ [ty, 0]) ++ List.replicate (n - 14) 0
def canF (fd : Bool) : CanFrame :=
  { ide := false, fdf := fd, brs := false, esi := false, rtr := false, id := 5, dlc := 8, data := List.replicate 8 1 }

theorem witness_EthernetFrames :
    (∀ n ∈ [64, 1522], (frame n 8).length = n ∧ ethType (frame n 8) ≠ safeType up ∧ ethType (frame n 0) = safeType up)
    ∧ (frame 63 8).length < 64 ∧ 1522 < (frame 1523 8).length
    ∧ (up.eth[(0 : Fin 2)]).en = true ∧ ethAccepts (up.eth[(0 : Fin 2)]) (frame 64 8) = true
    ∧ ((upEth fun e => { e with en := false }).eth[(0 : Fin 2)]).en = false
    ∧ (up.eth[(0 : Fin 2)]).rxFifo.length < 4
    ∧ 4 ≤ ((upEth fun e => { e with rxFifo := [[], [], [], []] }).eth[(0 : Fin 2)]).rxFifo.length
    ∧ ((upEth fun e => { e with safeTx := [[]] }).eth[(0 : Fin 2)]).safeTx = [[]]
    ∧ (up.eth[(0 : Fin 2)]).safeTx = [] ∧ (up.eth[(0 : Fin 2)]).txFifo.length < 2048 := by decide +kernel

theorem witness_EthernetTransmit : ∀ ty ∈ [(8 : Byte), 0],
    let r := [60, 0] ++ List.replicate 14 0 ++ frame 60 ty ++ List.replicate 1972 0
    2048 ≤ r.length ∧ ((up.eth[(0 : Fin 2)]).up && ethTxOk up r) = decide (ty = 8) := by decide +kernel

theorem witness_HostInterfacesCarryTheirFrames : Runs up
    ∧ (let c := up.can[(0 : Fin 3)]
      c.en = true ∧ c.state ≠ .busOff ∧ ¬ ((canF true).fdf = true ∧ c.fden = false) ∧ c.rxFifo.length < 8
        ∧ nextStop c = none ∧ c.txq = [] ∧ c.state = .active)
    ∧ ((upCan fun c => { c with fden := false }).can[(0 : Fin 3)]).fden = false ∧ (canF true).fdf = true
    ∧ 8 ≤ ((upCan fun c => { c with rxFifo := List.replicate 8 [] }).can[(0 : Fin 3)]).rxFifo.length
    ∧ blkUp up .can 0 = true := by unfold Runs; decide

theorem witness_HostInterfacesCarryTheirFrames_canSent :
    (∀ fd ∈ [true, false],
      let c := (upCan fun c => { c with txq := [[0, 0, 0, 0x40, 0, 0, 0, 0]], fden := fd }).can[(0 : Fin 3)]
      canNext c = some (none, [0, 0, 0, 0x40, 0, 0, 0, 0])
        ∧ decide (c.en = true ∧ c.state ≠ .busOff ∧ ¬ (recFdf [0, 0, 0, 0x40, 0, 0, 0, 0] = true ∧ c.fden = false)) = fd)
    ∧ (∀ e ∈ [(0 : Fin 16), 15],
      let c := (upCan fun c => { c with store := c.store.set e (some [0, 0, 0, 0]), released := BitVec.ofNat 16 (2 ^ e.val) }).can[(0 : Fin 3)]
      nextStop c = some e ∧ c.store[e] = some [0, 0, 0, 0] ∧ recFdf [0, 0, 0, 0] = false) := by decide

theorem witness_HostInterfacesCarryTheirFrames_states :
    (let c := (upCan fun c => { c with state := .busOff }).can[(0 : Fin 3)]
    c.state = .busOff ∧ c.arecov = true)
    ∧ (let s := upCan fun c => { c with state := .busOff, arecov := false }
      (s.can[(0 : Fin 3)]).state = .busOff ∧ (s.can[(0 : Fin 3)]).arecov = false ∧ (s.can[(0 : Fin 3)]).recovering = false)
    ∧ ((upCan fun c => { c with en := false }).can[(0 : Fin 3)]).en = false
    ∧ (let s := { up with sys.straps := 2, gpio.dir := 1 }
      gpOwner s 0 ≠ 0 ∧ s.gpio.dir.getLsbD 0 = true)
    ∧ (∀ m ∈ [Mode.degraded, .service], decide ((inMode m).sys.mode ≠ .degraded) = decide (m = .service)) := by decide

/-- Without an image no pin is the fabric's, and GPIO drives it. -/
theorem witness_HostInterfacesCarryTheirFrames_pin :
    let s := { up with gpio.dir := 1 }
    gpOwner s 0 = 0 ∧ s.gpio.dir.getLsbD 0 = true := by decide

/-- A record with BRS and DLC 9, as FD 12 bytes and as classic CAN 8. -/
theorem test_can_frame : ∀ fd : Bool,
    let f := canFrame .active (leBytes 4 (2 ^ 29 + 5 + if fd then 2 ^ 30 else 0) ++ leBytes 4 (9 * 2 ^ 28) ++ List.replicate 72 7)
    f.ide = false ∧ f.fdf = fd ∧ f.brs = fd ∧ f.id = 5 ∧ f.dlc = 9 ∧ f.data.length = if fd then 12 else 8 := by decide +kernel

/-! ### Published vectors of the algorithms that the spec names

The expected results are those of the standards' own examples: CRC-32C of "123456789", FIPS 197 C.1, FIPS 180-4 "abc",
SP 800-38B, the GCM specification's case 2, RFC 5869 A.1. -/

theorem test_crc32c_check_value : crc32c ("123456789".toList.map fun c => BitVec.ofNat 8 c.toNat) = 0xE3069283 := by
  decide +kernel
theorem test_aes128 : aesEnc (beBytes 16 0x000102030405060708090A0B0C0D0E0F) (beBytes 16 0x00112233445566778899AABBCCDDEEFF)
    = beBytes 16 0x69C4E0D86A7B0430D8CDB78070B4C55A := by decide +kernel
theorem test_sha256_abc : beNat (sha256 [0x61, 0x62, 0x63])
    = 0xBA7816BF8F01CFEA414140DE5DAE2223B00361A396177A9CB410FF61F20015AD := by decide +kernel
theorem test_sha384_abc : beNat (sha384 [0x61, 0x62, 0x63])
    = 0xCB00753F45A35E8BB5A03D699AC65007272C32AB0EDED1631A8B605A43FF5BED8086072BA1E7CC2358BAECA134C825A7 := by decide +kernel
theorem test_cmac_empty : beNat (cmac (beBytes 16 0x2B7E151628AED2A6ABF7158809CF4F3C) [])
    = 0xBB1D6929E95937287FA37D129B756746 := by decide +kernel
theorem test_gcm_case_2 : (gcmEnc (List.replicate 16 0) (List.replicate 12 0) [] (List.replicate 16 0))
    = (beBytes 16 0x0388DACE60B6A392F328C2B971B2FE78, beBytes 16 0xAB6E47D42CEC13BDF53A67B21257BDDF) := by decide +kernel
theorem test_hkdf_rfc5869 : beNat (hkdf256 (beBytes 13 0x000102030405060708090A0B0C) (List.replicate 22 0x0B)
    (beBytes 10 0xF0F1F2F3F4F5F6F7F8F9) 42)
    = 0x3CB25F25FAACD57A90434F64D0362F2A2D2D0A90CF1A5A4C5DB02D56ECC4C5BF34007208D5B887185865 := by decide +kernel
theorem test_p256_doubled : (ecMul p256 2 (ecG p256)).map (·.1)
    = some 0x7CF27B188D034F7E8A52380304B51AC3C08969E277F21B35A60B48FC47669978 := by decide +kernel

/-! ### Worked examples of the spec -/

/-- Chapter 09: outlet 8 (VP7) with GAIN 16,384 and OFS 0. -/
def pilot7 : State := { up with params := [(0x20170028, 0x40000000)] }
theorem test_pilot_millivolts : [3165, 2793, 559].map (pilotMv pilot7 7) = [8999, 6002, -11996] := by decide
theorem test_proximity_resistance : ppRes 10000 738 = 219 := by decide

/-- Chapter 07: IDAY 1,895 is 2025-03-10, and the reserve of step 5. -/
theorem test_issue_day : dateOf 1895 = { y := 2025, m := 3, d := 10 } := by decide
theorem test_credit_reserve : creditReserve 22000 1000 4500 0 = 2750 := by decide

/-- Chapter 06: the two lines of the stop record, and the amount billed. -/
def busSess : Session := { sess0 .running none with pimp := (Vector.replicate 16 4500).set 1 5500, minor := 2 }
theorem test_slice_prices : (priceSlice busSess 0 0 144000000 0 0).map (·.ecost) = [64800000]
    ∧ (priceSlice busSess 1 0 32 0 0).map (·.ecost) = [18] := by decide
theorem test_billed : billedOf 2 64800018 = 6480 := by decide

/-- Chapter 05: KE of M3, and the views of its import at the end of the session. -/
def m3 : State :=
  { up with params := [(0x20200010, 0x05700570), (0x2020230C, 125000), (0x20202310, 75000)] }
theorem test_ke : keOf m3 3 = 873813333333 := by decide +kernel
theorem test_views : let a : BitVec 160 := BitVec.ofNat 160 (31894377000000000 * 2 ^ 64 + 5)
    legalView a = 31894377000 ∧ shortView a = 318943770 := by decide +kernel

/-- Chapter 05: the 17:45 interval. The outlet meters stand for 1,795.004 kWh, the grid meter for 1,873.950 kWh. -/
def balState : State :=
  { up with
    params := testParams.take 4 ++ [(0x20200034, 0x46509C40), (0x20200038, 0x07D00032)] ++ testParams.drop 4
    met.m := vmod (vmod up.met.m 0 fun x => { x with imp := BitVec.ofNat 160 (1795004000000000 * 2 ^ 64) }) 1
      fun x => { x with imp := BitVec.ofNat 160 (1873950000000000 * 2 ^ 64) } }
theorem test_balance_terms : let s := balState
    let t := balTerms s 1 900000000000
    let u : Int := 2 ^ 64 * 3600 * 10 ^ 6
    gridMeter s = some 1 ∧ t.l = 76300160000000 * u ∧ t.d = 2645840000000 * u ∧ t.tol = 11369750000000 * u := by
  decide +kernel

/-- Chapter 03: the warning during a legal redraw. The panel draws 6,123 mW per million pixels on 464 × 352 pixels. -/
def redraw (left : Nat) : State × RunUpd :=
  ({ up with
      params := [(0x20280104, 0x01D00160)]
      sys.capMeas := 2050
      sys.capNom := 2200
      disp.wf.power := List.replicate 8 (List.replicate 16 6123) },
   { mode := 2, band := 0, frames := 38, startNs := BitVec.ofNat 64 (5000000000 + left * 1000000 - 38 * frameNs), legal := true,
     src := 0, next := none, redraw := false, mark := false, order := 0, target := .mixed })
theorem test_hold_up_energy : displayBudget (redraw 0).1 2350 = 500456250000000000 - 10 ^ 16 := by decide +kernel
theorem test_redraw_fates : (∀ t ∈ [(250, Fate.continues), (380, Fate.parks)],
    let x := redraw t.1
    timeLeft x.1 x.2 = t.1 * 1000000 ∧ fates x.1 (displayBudget x.1 2350) 0 [(0, x.2)] = [(0, t.2)]) := by decide +kernel

/-- Chapter 12: the pre-check on segment B. Conductances in mS, resistances in kΩ. -/
theorem test_insulation : risoOf (1 / 2000) 400
    { on := false, up := 712 * 75 / 225, un := -(712 * 150 / 225) }
    { on := true, up := 712 * 75 / 475, un := -(712 * 400 / 475) } = some 800 := by decide +kernel

/-- Chapter 18: the descriptor of 1,000 bytes with OVLSAFE and BURST 6. -/
theorem test_overlap_order : let w : Vector Word 8 := #v[0x0000E000, 0x10000100, 0x10000200, 0x000103E8, 0, 0, 0, 0x80000000]
    [0, 256, 512, 768].map (nextBurst w) = [(744, 256), (488, 256), (232, 256), (0, 232)] := by decide

/-- Chapter 20: last_seq 65,530 and SEQ 3 lie 9 apart, so 8 are lost. -/
theorem test_link_distance : let s := upConn fun c => { c with st := .open_, rxseq := 65530 }
    let r := acceptPdu 0 { pdu [] 3 0 with tstamp := 5000000 } s
    r.1 = true ∧ (r.2.safe.conn[(0 : Fin 16)]).lost = 8 ∧ (r.2.safe.conn[(0 : Fin 16)]).rxseq = 3 := by decide +kernel

/-- Chapter 10: runs X and Y of the two buses; VP1 and VP2 are candidates, VP0 is not. -/
def twoBuses (mac : BitVec 48) (snd sum : List Nat) : State :=
  let at_ := fun (l : List Nat) (n : Nat) => l.getD n 0
  let v : Port → State → State := fun n s => { s with vp := vmod s.vp n fun x =>
    { x with pilot := { x.pilot with effMode := .pwm, effDuty := 100, state := .b }, link := { x.link with lstate := .sounding } } }
  { v 1 (v 2 up) with
    slac.runs := [{ mac := mac, run := 1, announced := 10, starts := 7, snd := Vector.ofFn fun i => at_ snd i.val,
                    sum := Vector.ofFn fun i => at_ sum i.val, decided := false }] }
theorem test_run_y_is_assigned : after (.slacWindowClose 7 1) (twoBuses 7 [0, 10, 10] [0, 17516, 12122]) (fun t =>
    let l := (t.vp[(2 : Fin 8)]).link
    l.lstate == .assigned && l.atten == 209 && l.mrg == 93 && l.result == 1) = true := by decide +kernel
theorem test_run_x_is_deferred : after (.slacWindowClose 7 1) (twoBuses 7 [4, 8, 6] [9512, 11275, 9779]) (fun t =>
    let l := (t.vp[(2 : Fin 8)]).link
    l.lstate != .assigned && l.result == 3 && l.mrg == 38 && l.deferCnt == 1
      && ((t.vp[(1 : Fin 8)]).link).deferCnt == 1) = true := by decide +kernel

/-- A port leaves OFF when START ends: PLC ports are IDLE. -/
theorem test_ports_leave_off : ∀ n : Fin 8, ((portsListen up).vp[n]).link.lstate = .idle := by decide +kernel

end Sys2Proof.Machine
end

section

namespace Sys2Proof.Machine

/-! What O58 needs: the event log and the clocks; the block map; what each register reads and on what of the state it depends;
reads and writes of registers, of SRAM and of the other memories; and the statement from them. -/

/-! ### The event log and the clocks (R412, R416, R417, R422, R425) -/

/-- A state without what an event-log entry writes: the ring, its numbers and the counts of the second. -/
def unlogged (s : State) : State :=
  { s with
    time.evl := []
    time.evlSeq := 0
    time.evlNext := 0
    time.evlTail := 0
    time.evlCounts := []
    time.evlSec := 0 }

theorem evRoll_unlogged (s : State) : unlogged s.evRoll = unlogged s :=
  forAll_keeps unlogged _ _ s fun _ _ => rfl

theorem evSecond_unlogged (s : State) : unlogged s.evSecond = unlogged s := by
  unfold State.evSecond
  split
  · rfl
  · exact evRoll_unlogged s

/-- What agrees but for the log's entries differs in TIME only. -/
theorem onlyTime_of_unlogged {s t : State} (h : unlogged t = unlogged s) : t = { s with time := t.time } := by
  have h' : { unlogged t with time := t.time } = { unlogged s with time := t.time } :=
    congrArg (fun u => { u with time := t.time }) h
  exact h'

theorem sysNs_of_unlogged {s t : State} (h : unlogged t = unlogged s) : t.time.sysNs = s.time.sysNs :=
  (congrArg (fun u => u.time.sysNs) h :)

theorem evlDrop_of_unlogged {s t : State} (h : unlogged t = unlogged s) : t.time.evlDrop = s.time.evlDrop :=
  (congrArg (fun u => u.time.evlDrop) h :)

/-- Whether the event log has taken its 64 entries of a TYPE in this second (R425). -/
def TypeFull (s : State) (typ : Nat) : Prop :=
  s.now / 1000000000 ≤ s.time.evlSec
    ∧ ∃ x, s.time.evlCounts.find? (fun x => x.typ == typ) = some x ∧ 64 ≤ x.written

theorem evCount_dropped_iff (typ : Nat) (l : List EvCount) :
    (evCount typ l).1 = false ↔ ∃ x, l.find? (fun x => x.typ == typ) = some x ∧ 64 ≤ x.written := by
  induction l with
  | nil => simp [evCount]
  | cons c r ih =>
    unfold evCount
    by_cases hc : c.typ = typ
    · by_cases hw : c.written < 64
      · simp [hc, hw]
      · simp [hc, hw]; omega
    · simpa [hc] using ih

theorem evCount_evSecond (s : State) (typ : Nat) :
    (evCount typ s.evSecond.time.evlCounts).1 = false ↔ TypeFull s typ := by
  unfold TypeFull State.evSecond
  split
  next h => simp [h, evCount_dropped_iff]
  next h => simp [h, State.evRoll, evCount]

/-- An entry beyond 64 of its TYPE in the second is dropped and counted. -/
theorem evlog_dropped {s : State} {typ : Nat} (h : TypeFull s typ) (src : Nat) (d0 d1 d2 : Word) :
    s.evlog typ src d0 d1 d2 = { s with
      time.evlCounts := (evCount typ s.time.evlCounts).2
      time.evlDrop := satInc s.time.evlDrop } := by
  have hd := (evCount_evSecond s typ).mpr h
  have hs : s.evSecond = s := by rw [State.evSecond, if_pos h.1]
  rw [hs] at hd
  simp [State.evlog, hs, hd]

/-- Any other entry is written, in a state that differs from the one before in the log only. -/
theorem evlog_written {s : State} {typ : Nat} (h : ¬ TypeFull s typ) (src : Nat) (d0 d1 d2 : Word) :
    ∃ u, unlogged u = unlogged s ∧ s.evlog typ src d0 d1 d2 = u.evPut typ src d0 d1 d2 := by
  have hw : (evCount typ s.evSecond.time.evlCounts).1 = true := by
    rw [← evCount_evSecond] at h
    simpa using h
  refine ⟨{ s.evSecond with time.evlCounts := (evCount typ s.evSecond.time.evlCounts).2 }, evSecond_unlogged s, ?_⟩
  simp [State.evlog, hw]

theorem evlog_onlyTime (s : State) (typ src : Nat) (d0 d1 d2 : Word) :
    let t := s.evlog typ src d0 d1 d2
    t = { s with time := t.time } ∧ t.time.refdev = s.time.refdev ∧ t.time.refdevE = s.time.refdevE
      ∧ t.time.sysNs = s.time.sysNs := by
  by_cases h : TypeFull s typ
  · rw [evlog_dropped h]
    exact ⟨rfl, rfl, rfl, rfl⟩
  · obtain ⟨u, hu, he⟩ := evlog_written h src d0 d1 d2
    have hp : unlogged (u.evPut typ src d0 d1 d2) = unlogged s := hu
    rw [he]
    exact ⟨onlyTime_of_unlogged hp, (congrArg (fun u => u.time.refdev) hp :), (congrArg (fun u => u.time.refdevE) hp :),
      sysNs_of_unlogged hp⟩

theorem refdevMeasure_within {dev : BitVec 16} (h : dev.toInt.natAbs ≤ 500) (s : State) :
    refdevMeasure dev s = { s with time.refdev := dev } := by
  simp [refdevMeasure, Nat.not_lt.mpr h]

theorem refdevMeasure_beyond {dev : BitVec 16} (h : 500 < dev.toInt.natAbs) (s : State) :
    refdevMeasure dev s =
      State.evlog { s with time.refdev := dev, time.refdevE := true } 0x000C 0xFF (wdI dev.toInt) 0 0 := by
  simp [refdevMeasure, h]

/-- The clear action empties EVL_DROP and then writes its own entry, which the limit of its TYPE can drop (R422, R425). -/
theorem evlClrcnt_written {s : State} (h : ¬ TypeFull s 0x0005) :
    (evlClrcnt s).time.evlDrop = 0 ∧ ∃ e l, (evlClrcnt s).time.evl = e :: l ∧ e.typ = 0x0005 ∧ e.d0 = 0x544D := by
  obtain ⟨u, hu, he⟩ := evlog_written (s := { s with time.evlDrop := 0 }) h 0xFF (wd 0x544D) (wd 0) 0
  rw [evlClrcnt, State.statsCleared, he]
  exact ⟨(evlDrop_of_unlogged hu :), _, _, rfl, rfl, rfl⟩

theorem evlClrcnt_dropped {s : State} (h : TypeFull s 0x0005) :
    (evlClrcnt s).time.evlDrop = 1 ∧ (evlClrcnt s).time.evl = s.time.evl := by
  rw [evlClrcnt, State.statsCleared, evlog_dropped (s := { s with time.evlDrop := 0 }) h]
  exact ⟨rfl, rfl⟩

/-- The RTC as one count of its cycles. -/
def rtcCount (s : State) : Int := ((s.time.rtcSec.toNat * 32768 + s.time.rtcFrac.toNat : Nat) : Int)

theorem rtcMove_count (n : Int) (s : State) : rtcCount (rtcMove n s) = (rtcCount s + n) % 2 ^ 47 := by
  have hc : ∀ c : Nat, c < 2 ^ 47 → c / 32768 % 2 ^ 32 * 32768 + c % 2 ^ 15 = c := by omega
  have h0 : 0 ≤ (rtcCount s + n) % (2 ^ 47 : Nat) := Int.emod_nonneg _ (by decide)
  have h1 : (rtcCount s + n) % (2 ^ 47 : Nat) < (2 ^ 47 : Nat) := Int.emod_lt_of_pos _ (by decide)
  have ht : rtcCount (rtcMove n s) = (((wd (((rtcCount s + n) % (2 ^ 47 : Nat)).toNat / 32768)).toNat * 32768
      + (BitVec.ofNat 15 ((rtcCount s + n) % (2 ^ 47 : Nat)).toNat).toNat : Nat) : Int) := rfl
  rw [ht, wd, BitVec.toNat_ofNat, BitVec.toNat_ofNat, hc _ (by omega), Int.toNat_of_nonneg h0]
  rfl

/-- A reading runs the RTC by the cycles since the last one and by the whole cycles of the accumulator (R416). -/
theorem rtcReading_eq (r : BitVec 12) (n : Nat) (s : State) :
    let acc := s.time.rtcAcc + rtcCorr s r.toInt * ((s.time.rtcGap + n : Nat) : Int)
    rtcReading r n s = rtcMove (acc.tdiv rtcCycle) { rtcRun n s with
      time.temp := r
      time.rtcAcc := acc - acc.tdiv rtcCycle * rtcCycle
      time.rtcGap := 0 } := rfl

theorem rtcReading_count (r : BitVec 12) (n : Nat) (s : State) :
    rtcCount (rtcReading r n s) = (rtcCount s + n
      + (s.time.rtcAcc + rtcCorr s r.toInt * ((s.time.rtcGap + n : Nat) : Int)).tdiv rtcCycle) % 2 ^ 47 := by
  have hrun : rtcCount (rtcRun n s) = (rtcCount s + n) % 2 ^ 47 := rtcMove_count n _
  rw [rtcReading_eq, rtcMove_count]
  show (rtcCount (rtcRun n s) + _) % _ = _
  rw [hrun, Int.emod_add_emod]

/-- Less than one whole cycle stays in the accumulator. -/
theorem rtcRest_lt (acc : Int) : (acc - acc.tdiv rtcCycle * rtcCycle).natAbs < rtcCycle.natAbs := by
  have h : acc - acc.tdiv rtcCycle * rtcCycle = acc.tmod rtcCycle := by
    rw [Int.tmod_def, Int.mul_comm]
  rw [h, Int.natAbs_tmod]
  exact Nat.mod_lt _ (by decide)

/-! ### The block map (R428, R429) -/

theorem blockMap_range : ∀ b ∈ blockMap, 0x20000000 ≤ b.base ∧ b.base % 4 = 0 ∧ b.base + b.size ≤ 2 ^ 32 := by decide

theorem blockMap_size : ∀ b ∈ blockMap, b.kind ≠ .can → b.size = 0x10000 := by decide

theorem thl_base : ∀ b ∈ blockMap, b.kind = .thl → b.base = 0x20060000 := by decide

theorem sec_base : ∀ b ∈ blockMap, b.kind = .sec → b.base = 0x20040000 := by decide

theorem vp0_base : ∀ b ∈ blockMap, b.kind = .vp → (Fin.ofNat 8 b.n : Port) = 0 → b.base = 0x20100000 := by decide

/-- A block found at an address stands in the map, holds the address, and has that index. -/
theorem blkAt_spec {a : Nat} {i : Fin 28} {b : BlkInst} (h : blkAt a = some (i, b)) :
    b ∈ blockMap ∧ b.base ≤ a ∧ a < b.base + b.size ∧ blkIdx b.kind b.n = i := by
  have hidx : ∀ p ∈ blockMap.zipIdx, blkIdx p.1.kind p.1.n = Fin.ofNat 28 p.2 := by decide
  simp only [blkAt, Option.map_eq_some_iff, Prod.mk.injEq] at h
  obtain ⟨p, hp, hi, rfl⟩ := h
  have hin := List.find?_some hp
  simp only [Bool.and_eq_true, decide_eq_true_eq] at hin
  have hm := List.mem_of_find?_eq_some hp
  exact ⟨List.fst_mem_of_mem_zipIdx hm, hin.1, hin.2, (hidx p hm).trans hi⟩

/-- Whether an indexed block holds an address: what `blkAt` looks for. -/
def blkHolds (a : Nat) (p : BlkInst × Nat) : Bool := decide (p.1.base ≤ a) && decide (a < p.1.base + p.1.size)

/-- The blocks' address ranges are disjoint (R428, R429). -/
theorem blkAt_in {b : BlkInst} {j : Nat} (hp : (b, j) ∈ blockMap.zipIdx) {a : Nat} (h1 : b.base ≤ a)
    (h2 : a < b.base + b.size) : blkAt a = some (Fin.ofNat 28 j, b) := by
  have hdis : ∀ x ∈ blockMap.zipIdx, ∀ y ∈ blockMap.zipIdx, x.1.base < y.1.base + y.1.size →
      y.1.base < x.1.base + x.1.size → x.2 = y.2 := by decide
  have hsome : (blockMap.zipIdx.find? (blkHolds a)).isSome := List.find?_isSome.mpr ⟨(b, j), hp, by simp [blkHolds, h1, h2]⟩
  obtain ⟨⟨c, k⟩, hf⟩ := Option.isSome_iff_exists.mp hsome
  have hc := List.find?_some hf
  have hm := List.mem_of_find?_eq_some hf
  simp only [blkHolds, Bool.and_eq_true, decide_eq_true_eq] at hc
  obtain rfl : j = k := hdis _ hp _ hm (by dsimp only; omega) (by dsimp only; omega)
  rw [List.mk_mem_zipIdx_iff_getElem?] at hp hm
  obtain rfl : b = c := Option.some.inj (hp.symm.trans hm)
  exact congrArg (Option.map _) hf

theorem blkAt_add {a k : Nat} {i : Fin 28} {b : BlkInst} (h : blkAt a = some (i, b)) (hk : a + k < b.base + b.size) :
    blkAt (a + k) = some (i, b) := by
  obtain ⟨-, hle, -, -⟩ := blkAt_spec h
  simp only [blkAt, Option.map_eq_some_iff, Prod.mk.injEq] at h
  obtain ⟨⟨c, j⟩, hf, rfl, rfl⟩ := h
  exact blkAt_in (List.mem_of_find?_eq_some hf) (Nat.le_add_right_of_le hle) hk

theorem blkAt_below {a : Nat} (h : a < 0x20000000) : blkAt a = none := by
  cases hb : blkAt a with
  | none => rfl
  | some p =>
    obtain ⟨hm, hle, -, -⟩ := blkAt_spec (i := p.1) (b := p.2) hb
    obtain ⟨hbase, -, -⟩ := blockMap_range _ hm
    omega

/-! ### Words -/

theorem wd_toNat {m : Nat} (c : BitVec m) : wd c.toNat = c.setWidth 32 := BitVec.ofNat_toNat 32 c

theorem wd_self (a : Word) : wd a.toNat = a := (wd_toNat a).trans (BitVec.setWidth_eq a)

/-! ### The RW registers that the statement shows, and what every other register reads -/

/-- The RW registers of the statement, each by its address with the word that stands in it. -/
def storeVal (s : State) (x : Nat) : Option Word :=
  match x with
  | 0x20060044 => some s.thl.progSrc
  | 0x20060048 => some (s.thl.progLen.setWidth 32)
  | 0x2006004C => some (s.thl.progOfs.setWidth 32)
  | 0x20060064 => some s.thl.prSrc
  | 0x20060068 => some (s.thl.prLen.setWidth 32)
  | 0x20060200 => some s.thl.gout
  | 0x20040024 => some s.sec.src
  | 0x20040028 => some s.sec.dst
  | 0x2004002C => some s.sec.aux
  | 0x20100194 => some (s.vp[(0 : Fin 8)]).tls.src
  | 0x20100198 => some (s.vp[(0 : Fin 8)]).tls.dst
  | _ => none

/-- A state without the registers of `storeVal`, the bus response and the settling of COMPAT. -/
def blanked (s : State) : State :=
  { s with
    bus := { err := false, data := 0 }
    compat := s.compat.map fun c => { c with locked := false }
    thl.progSrc := 0
    thl.progLen := 0
    thl.progOfs := 0
    thl.prSrc := 0
    thl.prLen := 0
    thl.gout := 0
    sec.src := 0
    sec.dst := 0
    sec.aux := 0
    vp := vmod s.vp 0 fun v => { v with tls.src := 0, tls.dst := 0 } }

/-- What a register reads, by its address. -/
def regOf (s : State) (x : Nat) : Word :=
  match blkAt x with
  | some (_, b) => regView s b.kind b.n b.base (x - b.base)
  | none => 0

theorem blanked_vp (s : State) (n : Port) :
    (blanked s).vp[n] = if n = 0 then { s.vp[n] with tls.src := 0, tls.dst := 0 } else s.vp[n] :=
  (vmod_get s.vp 0 n _).trans (by split <;> simp_all)

@[simp] theorem blanked_pilot (s : State) (n : Port) : ((blanked s).vp[n]).pilot = (s.vp[n]).pilot := by
  rw [blanked_vp]
  split <;> rfl

@[simp] theorem blanked_link (s : State) (n : Port) : ((blanked s).vp[n]).link = (s.vp[n]).link := by
  rw [blanked_vp]
  split <;> rfl

/-! The offset within a family is generalised, so that comparing the two views does not evaluate it. -/

theorem viewTxn_blanked (s : State) (o : Nat) : viewTxn (blanked s) o = viewTxn s o := by
  unfold viewTxn
  generalize rel 0x200 0x10 o = domOff
  rfl

theorem viewLoad_blanked (s : State) (o : Nat) : viewLoad (blanked s) o = viewLoad s o := by
  unfold viewLoad
  generalize rel 0x100 0x20 o = chOff
  rfl

theorem viewAcc_blanked (s : State) (m : MeterId) (o : Nat) : viewAcc (blanked s) m o = viewAcc s m o := by
  unfold viewAcc
  generalize o / 16 = group
  rfl

theorem viewMeter_blanked (s : State) (m : MeterId) (o : Nat) : viewMeter (blanked s) m o = viewMeter s m o := by
  unfold viewMeter
  rw [viewAcc_blanked]
  rfl

theorem viewMet_blanked (s : State) (o : Nat) : viewMet (blanked s) o = viewMet s o := by
  unfold viewMet
  rw [viewMeter_blanked]
  generalize rel 0x400 0x10 o = rpOff
  generalize rel 0xA00 0x10 o = plsOff
  generalize rel 0x1000 0x20 o = chanOff
  generalize rel 0x3100 0x20 o = snapOff
  rfl

theorem viewThl_blanked (s : State) {o : Nat} (h : o ∉ [0x44, 0x48, 0x4C, 0x64, 0x68, 0x200]) :
    viewThl (blanked s) o = viewThl s o := by
  simp only [List.mem_cons, List.not_mem_nil, or_false, not_or] at h
  obtain ⟨hsrc, hlen, hofs, hpsrc, hplen, hgout⟩ := h
  unfold viewThl
  simp only [if_neg hsrc, if_neg hlen, if_neg hofs, if_neg hpsrc, if_neg hplen, if_neg hgout]
  generalize rel 0x20 0x10 o = slotOff
  generalize rel 0x100 0x10 o = partOff
  rfl

theorem viewSec_blanked (s : State) {o : Nat} (h : o ∉ [0x24, 0x28, 0x2C]) : viewSec (blanked s) o = viewSec s o := by
  simp only [List.mem_cons, List.not_mem_nil, or_false, not_or] at h
  obtain ⟨hsrc, hdst, haux⟩ := h
  unfold viewSec
  simp only [if_neg hsrc, if_neg hdst, if_neg haux]
  rfl

theorem levelVp_blanked (s : State) (n : Port) (j : Nat) : levelVp (blanked s).vp[n] j = levelVp s.vp[n] j := by
  rw [blanked_vp]
  split <;> rfl

theorem pendingSrc_blanked (s : State) (i : Nat) : pendingSrc (blanked s) i = pendingSrc s i := by
  unfold pendingSrc srcLevel
  rw [levelVp_blanked]
  rfl

theorem viewIntc_blanked (s : State) (o : Nat) : viewIntc (blanked s) o = viewIntc s o := by
  unfold viewIntc
  simp only [pendingSrc_blanked]
  rfl

theorem iLim_blanked (s : State) (n : Port) : iLim (blanked s) n = iLim s n := by
  unfold iLim
  rw [blanked_pilot]
  rfl

theorem viewOut_blanked (s : State) (n : Port) (o : Nat) : viewOut (blanked s) n o = viewOut s n o := by
  unfold viewOut
  rw [iLim_blanked]
  rfl

theorem viewSafe_blanked (s : State) (o : Nat) : viewSafe (blanked s) o = viewSafe s o := by
  unfold viewSafe
  rw [viewOut_blanked]
  generalize rel 0x700 0x10 o = outOff
  generalize rel 0xC40 0x20 o = connOff
  rfl

theorem viewPilot_blanked (s : State) (n : Port) (o : Nat) : viewPilot (blanked s) n o = viewPilot s n o := by
  unfold viewPilot
  rw [blanked_pilot]

theorem isCandidate_blanked (s : State) (n : Port) : isCandidate (blanked s) n = isCandidate s n := by
  unfold isCandidate
  simp only [blanked_pilot, blanked_link]
  rfl

theorem viewLink_blanked (s : State) (n : Port) (o : Nat) : viewLink (blanked s) n o = viewLink s n o := by
  unfold viewLink
  rw [blanked_link, isCandidate_blanked]
  rfl

theorem viewVp_blanked (s : State) {n : Port} {o : Nat} (h : n = 0 → o ∉ [0x194, 0x198]) :
    viewVp (blanked s) n o = viewVp s n o := by
  unfold viewVp
  rw [viewPilot_blanked, viewLink_blanked, blanked_link, blanked_vp]
  split
  next hn =>
    have ho := h hn
    refine ite_congr rfl (fun _ => rfl) fun _ => ite_congr rfl (fun _ => rfl) fun _ => ite_congr rfl (fun _ => rfl) fun _ => ?_
    split
    · rfl
    · rfl
    · simp at ho
    · simp at ho
    · rfl
    · rfl
  next => rfl

/-- No block's view reads what `blanked` empties, but for the registers of `storeVal` themselves. -/
theorem viewBlk_blanked (s : State) (k : BlkKind) (n o : Nat)
    (hthl : k = .thl → o ∉ [0x44, 0x48, 0x4C, 0x64, 0x68, 0x200]) (hsec : k = .sec → o ∉ [0x24, 0x28, 0x2C])
    (hvp : k = .vp → (Fin.ofNat 8 n : Port) = 0 → o ∉ [0x194, 0x198]) : viewBlk (blanked s) k n o = viewBlk s k n o := by
  cases k with
  | txn => exact viewTxn_blanked s o
  | sec => exact viewSec_blanked s (hsec rfl)
  | thl => exact viewThl_blanked s (hthl rfl)
  | load => exact viewLoad_blanked s o
  | intc => exact viewIntc_blanked s o
  | vp => exact viewVp_blanked s (hvp rfl)
  | met => exact viewMet_blanked s o
  | safe => exact viewSafe_blanked s o
  | sys | time | dma | upd | eth | can | gpio | mesh | bill | disp => rfl

theorem regView_blanked {s : State} {k : BlkKind} {n base o : Nat} (h : viewBlk (blanked s) k n o = viewBlk s k n o) :
    regView (blanked s) k n base o = regView s k n base o := by
  have hl : ((blanked s).compat[blkIdx k n]).level = (s.compat[blkIdx k n]).level := by simp [blanked]
  unfold regView
  rw [h, hl]
  rfl

theorem ne_of_storeVal {s : State} {x a : Nat} (h : storeVal s x = none) (ha : (storeVal s a).isSome) : x ≠ a := by
  rintro rfl
  simp [h] at ha

theorem storeVal_offsets (s : State) :
    (∀ o ∈ [0x44, 0x48, 0x4C, 0x64, 0x68, 0x200], (storeVal s (0x20060000 + o)).isSome)
      ∧ (∀ o ∈ [0x24, 0x28, 0x2C], (storeVal s (0x20040000 + o)).isSome)
      ∧ ∀ o ∈ [0x194, 0x198], (storeVal s (0x20100000 + o)).isSome := by
  simp only [List.forall_mem_cons]
  simp [storeVal]

theorem regOf_blanked {s : State} {x : Nat} (h : storeVal s x = none) : regOf (blanked s) x = regOf s x := by
  obtain ⟨othl, osec, ovp⟩ := storeVal_offsets s
  unfold regOf
  split
  next hb =>
    obtain ⟨hm, hle, -, -⟩ := blkAt_spec hb
    refine regView_blanked (viewBlk_blanked s _ _ _ (fun hk ho => ?_) (fun hk ho => ?_) fun hk hn ho => ?_)
    · exact ne_of_storeVal h (othl _ ho) (by have hbase := thl_base _ hm hk; omega)
    · exact ne_of_storeVal h (osec _ ho) (by have hbase := sec_base _ hm hk; omega)
    · exact ne_of_storeVal h (ovp _ ho) (by have hbase := vp0_base _ hm hk hn; omega)
  next => rfl

/-- A register of its own bits only: a word other than IDENT and COMPAT, outside the windows and the stop-frame store, and no
parameter. -/
def plainReg (b : BlkInst) (o : Nat) : Bool :=
  o % 4 == 0 && hasWord b.kind o && o != 0 && o != 4 && !stopStore b.kind o && !isWindow b.kind && parMask b.kind o == 0

theorem regOf_plain {x : Nat} {i : Fin 28} {b : BlkInst} (s : State) (hb : blkAt x = some (i, b))
    (hp : plainReg b (x - b.base) = true) : regOf s x = wd (viewBlk s b.kind b.n (x - b.base)) := by
  simp only [plainReg, Bool.and_eq_true, bne_iff_ne, beq_iff_eq] at hp
  obtain ⟨⟨⟨⟨⟨-, h0⟩, h4⟩, -⟩, -⟩, hm⟩ := hp
  simp [regOf, hb, regView, h0, h4, hm]

theorem regOf_shows {m : Nat} {c : BitVec m} {x : Nat} {i : Fin 28} {b : BlkInst} {s : State} (hb : blkAt x = some (i, b))
    (hp : plainReg b (x - b.base) = true) (hv : viewBlk s b.kind b.n (x - b.base) = c.toNat) : regOf s x = c.setWidth 32 := by
  rw [regOf_plain s hb hp, hv, wd_toNat]

theorem regOf_shows_word {c : Word} {x : Nat} {i : Fin 28} {b : BlkInst} {s : State} (hb : blkAt x = some (i, b))
    (hp : plainReg b (x - b.base) = true) (hv : viewBlk s b.kind b.n (x - b.base) = c.toNat) : regOf s x = c := by
  rw [regOf_shows hb hp hv, BitVec.setWidth_eq]

/-- A register of `storeVal` shows the word that stands in it. -/
theorem regOf_store {s : State} {x : Nat} {w : Word} (h : storeVal s x = some w) : regOf s x = w := by
  unfold storeVal at h
  split at h <;> cases h
  · exact regOf_shows_word (i := 6) (b := blockMap[6]) rfl rfl rfl
  · exact regOf_shows (i := 6) (b := blockMap[6]) rfl rfl rfl
  · exact regOf_shows (i := 6) (b := blockMap[6]) rfl rfl rfl
  · exact regOf_shows_word (i := 6) (b := blockMap[6]) rfl rfl rfl
  · exact regOf_shows (i := 6) (b := blockMap[6]) rfl rfl rfl
  · exact regOf_shows_word (i := 6) (b := blockMap[6]) rfl rfl rfl
  · exact regOf_shows_word (i := 4) (b := blockMap[4]) rfl rfl rfl
  · exact regOf_shows_word (i := 4) (b := blockMap[4]) rfl rfl rfl
  · exact regOf_shows_word (i := 4) (b := blockMap[4]) rfl rfl rfl
  · exact regOf_shows_word (i := 16) (b := blockMap[16]) rfl rfl rfl
  · exact regOf_shows_word (i := 16) (b := blockMap[16]) rfl rfl rfl

/-- Two states that differ in the registers of `storeVal` at most show the same at every address whose register agrees. -/
theorem regOf_congr {s t : State} {x : Nat} (hc : blanked t = blanked s) (hv : storeVal t x = storeVal s x) :
    regOf t x = regOf s x := by
  cases h : storeVal s x with
  | none => rw [← regOf_blanked h, ← regOf_blanked (hv.trans h), hc]
  | some w => rw [regOf_store h, regOf_store (hv.trans h)]

theorem vmod_vmod {α : Type} {n : Nat} (v : Vector α n) (i : Fin n) (f g : α → α) :
    vmod (vmod v i f) i g = vmod v i (g ∘ f) := by
  simp [vmod]

/-- The low m bits of a written word, with the reserved ones 0. -/
theorem setWidth_setWidth_and {m : Nat} (hm : m ≤ 32) (v : Word) : (v.setWidth m).setWidth 32 = v &&& wd (2 ^ m - 1) := by
  have hle : 2 ^ m ≤ 2 ^ 32 := Nat.pow_le_pow_right (by decide) hm
  have hpos : 0 < 2 ^ m := Nat.two_pow_pos m
  have hmod : v.toNat % 2 ^ m < 2 ^ m := Nat.mod_lt _ hpos
  refine BitVec.eq_of_toNat_eq ?_
  rw [wd, BitVec.toNat_and, BitVec.toNat_setWidth, BitVec.toNat_setWidth, BitVec.toNat_ofNat,
    Nat.mod_eq_of_lt (a := 2 ^ m - 1) (by omega), Nat.and_two_pow_sub_one_eq_mod, Nat.mod_eq_of_lt (by omega)]

theorem clear_setWidth {m : Nat} (hm : m ≤ 32) (c : BitVec m) (v : Word) :
    (c &&& ~~~(v.setWidth m)).setWidth 32 = c.setWidth 32 &&& ~~~(v &&& wd (2 ^ m - 1)) := by
  rw [← setWidth_setWidth_and hm]
  ext i hi
  by_cases h : i < m
  · simp [h]
  · simp [BitVec.getLsbD_of_ge c i (Nat.not_lt.mp h)]

/-! ### THL_EVT -/

theorem append_toNat {m n : Nat} (x : BitVec m) (y : BitVec n) : (x ++ y).toNat = x.toNat * 2 ^ n + y.toNat := by
  rw [BitVec.toNat_append, ← Nat.shiftLeft_add_eq_or_of_lt y.isLt, Nat.shiftLeft_eq]

/-- THL_EVT as a word (R341). -/
def thlEvt (t : Thl) : Word :=
  t.parErr ++ t.uncorr ++ t.corrEvt ++ 0#6 ++ BitVec.ofBool t.prDone ++ BitVec.ofBool t.slotDone

theorem viewThl_evt (s : State) : viewThl s 0x88 = (thlEvt s.thl).toNat := by
  have hb : ∀ b : Bool, (BitVec.ofBool b).toNat = b2n b := by decide
  show pk _ = _
  simp only [thlEvt, append_toNat, hb, pk, at_, List.map_cons, List.map_nil, List.sum_cons, List.sum_nil, BitVec.toNat_ofNat]
  omega

theorem getLsbD_append_low {m n i : Nat} (x : BitVec m) {y : BitVec n} (h : i < n) : (x ++ y).getLsbD i = y.getLsbD i := by
  rw [BitVec.getLsbD_append, if_pos h]

theorem getLsbD_append_high {m n : Nat} (x : BitVec m) (y : BitVec n) (k : Nat) : (x ++ y).getLsbD (n + k) = x.getLsbD k := by
  rw [BitVec.getLsbD_append, if_neg (by omega), Nat.add_sub_cancel_left]

theorem thlEvt_slotDone (t : Thl) : (thlEvt t).getLsbD 0 = t.slotDone :=
  (getLsbD_append_low _ (by decide)).trans (by simp)

theorem thlEvt_prDone (t : Thl) : (thlEvt t).getLsbD 1 = t.prDone :=
  (getLsbD_append_high _ _ 0).trans ((getLsbD_append_low _ (by decide)).trans (by simp))

theorem thlEvt_unused (t : Thl) {k : Nat} (h : k < 6) : (thlEvt t).getLsbD (2 + k) = false := by
  rw [thlEvt, show 2 + k = 1 + (1 + k) by omega, getLsbD_append_high, getLsbD_append_high, getLsbD_append_low _ h]
  exact BitVec.getLsbD_zero

theorem thlEvt_corrEvt (t : Thl) {k : Nat} (h : k < 8) : (thlEvt t).getLsbD (8 + k) = t.corrEvt.getLsbD k := by
  rw [thlEvt, show 8 + k = 1 + (1 + (6 + k)) by omega, getLsbD_append_high, getLsbD_append_high, getLsbD_append_high,
    getLsbD_append_low _ h]

theorem thlEvt_uncorr (t : Thl) {k : Nat} (h : k < 8) : (thlEvt t).getLsbD (16 + k) = t.uncorr.getLsbD k := by
  rw [thlEvt, show 16 + k = 1 + (1 + (6 + (8 + k))) by omega, getLsbD_append_high, getLsbD_append_high, getLsbD_append_high,
    getLsbD_append_high, getLsbD_append_low _ h]

theorem thlEvt_parErr (t : Thl) (k : Nat) : (thlEvt t).getLsbD (24 + k) = t.parErr.getLsbD k := by
  rw [thlEvt, show 24 + k = 1 + (1 + (6 + (8 + (8 + k)))) by omega, getLsbD_append_high, getLsbD_append_high,
    getLsbD_append_high, getLsbD_append_high, getLsbD_append_high]

/-- The mask of the flags of THL_EVT holds the three upper bytes. -/
theorem thlEvt_mask : ∀ k < 8, (0xFFFFFF03 : Word).getLsbD (8 + k) = true ∧ (0xFFFFFF03 : Word).getLsbD (16 + k) = true
    ∧ (0xFFFFFF03 : Word).getLsbD (24 + k) = true := by decide

/-- A bit below 32 is a flag, an unused bit or a bit of one of the three upper bytes. -/
theorem thlEvt_field {i : Nat} (h : i < 32) :
    i = 0 ∨ i = 1 ∨ (∃ k < 6, i = 2 + k) ∨ ∃ k < 8, i = 8 + k ∨ i = 16 + k ∨ i = 24 + k := by
  by_cases h8 : i < 8
  · by_cases h2 : i < 2
    · omega
    · exact .inr (.inr (.inl ⟨i - 2, by omega, by omega⟩))
  · exact .inr (.inr (.inr ⟨i % 8, by omega, by omega⟩))

/-- A flag written as 1 is cleared, in each of the fields of THL_EVT. -/
theorem thlEvt_clear (t : Thl) (v : Word) :
    thlEvt { t with
      parErr := t.parErr &&& ~~~(v.extractLsb' 24 8)
      uncorr := t.uncorr &&& ~~~(v.extractLsb' 16 8)
      corrEvt := t.corrEvt &&& ~~~(v.extractLsb' 8 8)
      prDone := t.prDone && !bitAt v 1
      slotDone := t.slotDone && !bitAt v 0 } = thlEvt t &&& ~~~(v &&& 0xFFFFFF03) := by
  refine BitVec.eq_of_getLsbD_eq fun i hi => ?_
  rw [BitVec.getLsbD_and, BitVec.getLsbD_not, BitVec.getLsbD_and]
  obtain rfl | rfl | ⟨k, hk, rfl⟩ | ⟨k, hk, rfl | rfl | rfl⟩ := thlEvt_field hi
  · have hmask : (0xFFFFFF03 : Word).getLsbD 0 = true := by decide
    rw [thlEvt_slotDone, thlEvt_slotDone, hmask]
    simp [bitAt]
  · have hmask : (0xFFFFFF03 : Word).getLsbD 1 = true := by decide
    rw [thlEvt_prDone, thlEvt_prDone, hmask]
    simp [bitAt]
  · rw [thlEvt_unused _ hk, thlEvt_unused _ hk, Bool.false_and]
  · rw [thlEvt_corrEvt _ hk, thlEvt_corrEvt _ hk, (thlEvt_mask k hk).1]
    simp [hk, hi]
  · rw [thlEvt_uncorr _ hk, thlEvt_uncorr _ hk, (thlEvt_mask k hk).2.1]
    simp [hk, hi]
  · rw [thlEvt_parErr, thlEvt_parErr, (thlEvt_mask k hk).2.2]
    simp [hk, hi]

/-! ### Reads and writes of a requester -/

theorem exec_rosLowRead (q : Fin 10) (a : Word) (size : AccSize) (s : State) :
    exec (.rosLowRead q a size) s = execRosLowRead q a size s := rfl

theorem exec_registerWrite (q : Fin 10) (a : Word) (size : AccSize) (v : Word) (s : State) :
    exec (.registerWrite q a size v) s = execRegisterWrite q a size v s := rfl

/-- An access of a requester that is not muted holds its tag, and PEAK shows it (R363, R448). -/
theorem exec_read {s : State} {q : Fin 10} (h : Runs s) (hm : ¬ portMute s q.val = true) (a : Word) (size : AccSize) :
    exec (.rosLowRead q a size) s = .next (busRead q.val a.toNat size s.tagged) := by
  rw [exec_rosLowRead, execRosLowRead, live_running h, if_neg hm]

theorem exec_write {s : State} {q : Fin 10} (h : Runs s) (hm : ¬ portMute s q.val = true) (a : Word) (size : AccSize) (v : Word) :
    exec (.registerWrite q a size v) s = .next (busWrite q.val a.toNat size v s.tagged) := by
  rw [exec_registerWrite, execRegisterWrite, live_running h, if_neg hm]

/-- The debug port's accesses are ignored while it is muted (R448). -/
theorem exec_muted {s : State} {q : Fin 10} (h : Runs s) (hm : portMute s q.val = true) (a v : Word) (size : AccSize) :
    exec (.rosLowRead q a size) s = .next s ∧ exec (.registerWrite q a size v) s = .next s := by
  rw [exec_rosLowRead, exec_registerWrite, execRosLowRead, execRegisterWrite, live_running h,
    live_running h, if_pos hm, if_pos hm]
  exact ⟨rfl, rfl⟩

/-- The state in which a block's register takes a write: its COMPAT is settled (R358). -/
def settled (k : BlkKind) (n : Nat) (s : State) : State :=
  { s with compat := vmod s.compat (blkIdx k n) fun c => { c with locked := true } }

theorem blanked_settled (k : BlkKind) (n : Nat) (s : State) : blanked (settled k n s) = blanked s := by
  have h : (settled k n s).compat.map (fun c => { c with locked := false }) = s.compat.map fun c => { c with locked := false } := by
    ext j hj
    simp only [settled, vmod, Vector.getElem_map, Vector.getElem_set]
    split <;> simp_all
  unfold blanked
  rw [h]
  rfl

theorem blkUp_iff {s : State} {x : Nat} {i : Fin 28} {b : BlkInst} (hb : blkAt x = some (i, b)) :
    (∃ j c, blkAt x = some (j, c) ∧ blkUp s c.kind c.n = true) ↔ blkUp s b.kind b.n = true := by
  constructor
  · rintro ⟨j, c, hc, hu⟩
    obtain ⟨rfl, rfl⟩ := Prod.mk.inj (Option.some.inj (hb.symm.trans hc))
    exact hu
  · exact fun hu => ⟨i, b, hb, hu⟩

/-- A word write to a plain register of a block that answers: its tag, the block's own write with COMPAT settled, and the bus
response. -/
theorem registerWrite_plain {s : State} {q : Fin 10} {x : Nat} {i : Fin 28} {b : BlkInst} (h : Runs s)
    (hm : ¬ portMute s q.val = true) (hb : blkAt x = some (i, b)) (hp : plainReg b (x - b.base) = true)
    (hu : blkUp s b.kind b.n = true) (v : Word) :
    exec (.registerWrite q (BitVec.ofNat 32 x) .word v) s = .next
      { writeBlk b.kind b.n b.base (x - b.base) v (settled b.kind b.n s.tagged) with bus := { err := false, data := 0 } } := by
  obtain ⟨hmem, hle, hlt, hi⟩ := blkAt_spec hb
  obtain ⟨-, hbase, htop⟩ := blockMap_range b hmem
  have hx : (BitVec.ofNat 32 x).toNat = x := Nat.mod_eq_of_lt (by omega)
  have hl : ¬ (s.tagged.compat[i]).level = 0 := by
    have hc : s.tagged.compat = s.compat := rfl
    simpa [blkUp, hi, hc] using hu
  simp only [plainReg, Bool.and_eq_true, bne_iff_ne, beq_iff_eq, Bool.not_eq_true'] at hp
  obtain ⟨⟨⟨⟨⟨⟨hal, hw⟩, h0⟩, h4⟩, hst⟩, hwin⟩, -⟩ := hp
  rw [exec_write h hm, hx]
  have hreg : regWrite q.val x v s.tagged = onBlock b.kind b.n s.tagged (writeBlk b.kind b.n b.base (x - b.base) v) := by
    simp only [regWrite, hb]
    rw [if_neg (by omega), if_neg (by simp [hw]), if_neg h4, if_neg (by simp [h0]),
      if_neg (by simp only [hl, hst]; simp), if_neg (by simp [hwin])]
  rw [busWrite, hb, Option.isSome_some, if_pos rfl, if_pos rfl, hreg, onBlock_up (by exact hu), State.tagged_tagged]
  rfl

/-! ### Register accesses that are turned away -/

section
variable {req a : Nat} {s : State} {i : Fin 28} {b : BlkInst} (hb : blkAt a = some (i, b))
include hb

theorem busRead_word : busRead req a .word s = regRead req a s := by simp [busRead, hb]

theorem busWrite_word (v : Word) : busWrite req a .word v s = regWrite req a v s := by simp [busWrite, hb]

theorem busRead_part {size : AccSize} (h : size ≠ .word) : busRead req a size s = s.decodeErr (wd a) req 5 := by
  simp [busRead, hb, h]

theorem busWrite_part {size : AccSize} (h : size ≠ .word) (v : Word) : busWrite req a size v s = s.decodeErr (wd a) req 5 := by
  simp [busWrite, hb, h]

theorem regRead_unaligned (h : a % 4 ≠ 0) : regRead req a s = s.decodeErr (wd a) req 5 := by
  simp [regRead, hb, h]

theorem regWrite_unaligned (h : a % 4 ≠ 0) (v : Word) : regWrite req a v s = s.decodeErr (wd a) req 5 := by
  simp [regWrite, hb, h]

theorem regRead_noWord (h : a % 4 = 0) (hw : hasWord b.kind (a - b.base) = false) :
    regRead req a s = s.decodeErr (wd a) req 4 := by
  simp [regRead, hb, h, hw]

theorem regWrite_noWord (h : a % 4 = 0) (hw : hasWord b.kind (a - b.base) = false) (v : Word) :
    regWrite req a v s = s.decodeErr (wd a) req 4 := by
  simp [regWrite, hb, h, hw]

theorem regRead_noLevel (h : a % 4 = 0) (hw : hasWord b.kind (a - b.base) = true) (hl : (s.compat[i]).level = 0)
    (h0 : a - b.base ≠ 0) (h4 : a - b.base ≠ 4) : regRead req a s = s.busErr := by
  simp only [regRead, hb]
  rw [if_neg (by omega), if_neg (by simp [hw]), if_pos ⟨h0, h4, hl⟩]

theorem regWrite_noLevel (h : a % 4 = 0) (hw : hasWord b.kind (a - b.base) = true) (hl : (s.compat[i]).level = 0)
    (h4 : a - b.base ≠ 4) (h0 : a - b.base ≠ 0 ∨ isWindow b.kind = true) (v : Word) : regWrite req a v s = s.busErr := by
  simp only [regWrite, hb]
  rw [if_neg (by omega), if_neg (by simp [hw]), if_neg h4, if_neg (by rintro ⟨hz, hn⟩; simp_all), if_pos (.inl hl)]

/-- A write to IDENT of a block outside the windows settles its COMPAT and does no more (R5, R358). -/
theorem regWrite_ident (h : a % 4 = 0) (hw : hasWord b.kind (a - b.base) = true) (h0 : a - b.base = 0)
    (hwin : isWindow b.kind = false) (v : Word) :
    regWrite req a v s = { s.busOk 0 with compat := vmod s.compat i fun x => { x with locked := true } } := by
  simp only [regWrite, hb]
  rw [if_neg (by omega), if_neg (by simp [hw]), if_neg (by omega), if_pos (by simp [h0, hwin])]

theorem regWrite_windowRefuses (h : a % 4 = 0) (hw : hasWord b.kind (a - b.base) = true) (h4 : a - b.base ≠ 4)
    (hwin : isWindow b.kind = true) {v : Word} (hno : writeWindow b.kind b.base (a - b.base) v s = none) :
    regWrite req a v s = s.busErr := by
  simp only [regWrite, hb]
  rw [if_neg (by omega), if_neg (by simp [hw]), if_neg h4, if_neg (by simp [hwin]), if_pos hwin, hno, ite_self]

end

/-! ### ROS -/

theorem lookupD_latchSet {β : Type} (k : Nat × Nat) (v d : β) (l : List ((Nat × Nat) × β)) :
    lookupD k d (latchSet k v l) = v := by
  simp [latchSet, lookupD]

theorem rosLow_bound {k : BlkKind} {o : Nat} (h : rosLow k o = true) : k ≠ .can ∧ o ≠ 0 ∧ o + 4 < 0x10000 := by
  cases k <;> simp [rosLow, rowHas] at h <;> refine ⟨by decide, ?_, ?_⟩ <;> omega

theorem rosHigh_succ {k : BlkKind} {o : Nat} (h : rosLow k o = true) : rosHigh k (o + 4) = true := by
  simp [rosHigh, h]

/-- The read of a low word latches the higher one for its requester (R6, R103). -/
theorem regRead_rosLow {req a : Nat} {s : State} {i : Fin 28} {b : BlkInst} (hb : blkAt a = some (i, b)) (h : a % 4 = 0)
    (hw : hasWord b.kind (a - b.base) = true) (hl : ¬ (s.compat[i]).level = 0)
    (hlow : rosLow b.kind (a - b.base) = true) (hhigh : rosHigh b.kind (a - b.base) = false)
    (hs : b.kind = .met → shortOf (a - b.base) = none) :
    regRead req a s = State.busOk { s with ros := latchSet (req, a + 4) (regView s b.kind b.n b.base (a - b.base + 4)) s.ros }
      (regView s b.kind b.n b.base (a - b.base)) := by
  have hlatch : rosLatch req a b.kind b.n b.base (a - b.base) s
      = { s with ros := latchSet (req, a + 4) (regView s b.kind b.n b.base (a - b.base + 4)) s.ros } := by
    have hn : (if b.kind = .met then shortOf (a - b.base) else none) = none := by
      split
      next hk => exact hs hk
      next => rfl
    simp only [rosLatch, hn]
  simp only [regRead, hb]
  rw [if_neg (by omega), if_neg (by simp [hw]), if_neg fun hn => hl hn.2.2, if_neg (by simp [hhigh]), if_pos hlow, hlatch]

theorem regRead_rosHigh {req a : Nat} {s : State} {i : Fin 28} {b : BlkInst} (hb : blkAt a = some (i, b)) (h : a % 4 = 0)
    (hw : hasWord b.kind (a - b.base) = true) (hl : ¬ (s.compat[i]).level = 0)
    (hhigh : rosHigh b.kind (a - b.base) = true) : regRead req a s = s.busOk (lookupD (req, a) 0 s.ros) := by
  simp only [regRead, hb]
  rw [if_neg (by omega), if_neg (by simp [hw]), if_neg fun hn => hl hn.2.2, if_pos hhigh]

/-! ### Memory cells (R428) -/

theorem leNat_leBytes (n v : Nat) : leNat (leBytes n v) = v % 256 ^ n := by
  induction n generalizing v with
  | zero => simp [leBytes, leNat, Nat.mod_one]
  | succ n ih =>
    show v % 256 + 256 * leNat (leBytes n (v / 256)) = _
    rw [ih, Nat.pow_succ', Nat.mod_mul]

theorem memWalk_above {d : Byte} {n a : Nat} {l : List Host.Cell} (h : ∀ x ∈ l, a < x.1) :
    memWalk d (n + 1) a l = d :: memWalk d n (a + 1) l := by
  cases l with
  | nil => rfl
  | cons x r =>
    have hx := h x List.mem_cons_self
    simp [memWalk, show ¬ x.1 = a by omega]

theorem memWalk_cellsFrom {d : Byte} (bs : List Byte) (a : Nat) {r : List Host.Cell} (h : ∀ x ∈ r, a + bs.length ≤ x.1) :
    memWalk d bs.length a (cellsFrom d a bs ++ r) = bs := by
  induction bs generalizing a with
  | nil => rfl
  | cons b bs ih =>
    simp only [List.length_cons] at h
    have ih' := ih (a + 1) fun x hx => by have := h x hx; omega
    by_cases hb : b = d
    · have habove : ∀ x ∈ cellsFrom d (a + 1) bs ++ r, a < x.1 := by
        intro x hx
        rcases List.mem_append.mp hx with hx | hx
        · have := (cellsFrom_mem hx).1; omega
        · have := h x hx; omega
      rw [cellsFrom, if_pos hb, List.length_cons, memWalk_above habove, ih', hb]
    · simp only [cellsFrom, if_neg hb, List.length_cons, List.cons_append, memWalk]
      rw [if_pos trivial, ih']

theorem dropWhile_of_forall_not {α : Type} {p : α → Bool} {l : List α} (h : ∀ x ∈ l, ¬ p x = true) : l.dropWhile p = l := by
  cases l with
  | nil => rfl
  | cons x l => exact List.dropWhile_cons_of_neg (h x List.mem_cons_self)

/-- Bytes just written read back. -/
theorem memRead_memPut (d : Byte) (a : Nat) (bs : List Byte) (l : List Host.Cell) :
    memRead d a bs.length (memPut d a bs l) = bs := by
  have hlow : ∀ x ∈ l.filter (fun x => x.1 < a), decide (x.1 < a) = true := fun x hx => (List.mem_filter.mp hx).2
  have hhigh : ∀ x ∈ l.filter (fun x => a + bs.length ≤ x.1), a + bs.length ≤ x.1 := fun x hx => by
    simpa using (List.mem_filter.mp hx).2
  have hstay : ∀ x ∈ cellsFrom d a bs ++ l.filter (fun x => a + bs.length ≤ x.1), ¬ decide (x.1 < a) = true := by
    intro x hx
    rw [decide_eq_true_eq]
    rcases List.mem_append.mp hx with hx | hx
    · have := (cellsFrom_mem hx).1; omega
    · have := hhigh x hx; omega
  rw [memRead, memPut, List.append_assoc, List.dropWhile_append_of_pos hlow,
    dropWhile_of_forall_not hstay]
  exact memWalk_cellsFrom bs a hhigh

theorem lookupD_append_none {α : Type} {k : Nat} {d : α} {l r : List (Nat × α)} (h : ∀ x ∈ l, x.1 ≠ k) :
    lookupD k d (l ++ r) = lookupD k d r := by
  induction l with
  | nil => rfl
  | cons x l ih =>
    obtain ⟨hx, hl⟩ := List.forall_mem_cons.mp h
    simp [lookupD, hx, ih hl]

theorem lookupD_filter_keeps {α : Type} {k : Nat} {d : α} {p : Nat × α → Bool} (hp : ∀ x, x.1 = k → p x = true)
    (l r : List (Nat × α)) (hr : ∀ x ∈ r, x.1 ≠ k) : lookupD k d (l.filter p ++ r) = lookupD k d l := by
  induction l with
  | nil => simpa [lookupD] using lookupD_append_none (r := []) (d := d) hr
  | cons x l ih =>
    by_cases hx : x.1 = k
    · simp [List.filter_cons_of_pos (hp x hx), lookupD, hx]
    · by_cases hpx : p x = true
      · simp [List.filter_cons_of_pos hpx, lookupD, hx, ih]
      · simp [List.filter_cons_of_neg hpx, lookupD, hx, ih]

/-- Every byte outside a write is as before. -/
theorem memGet_memPut_other {d : Byte} {a x : Nat} {bs : List Byte} (l : List Host.Cell) (h : x < a ∨ a + bs.length ≤ x) :
    memGet d x (memPut d a bs l) = memGet d x l := by
  have hmid : ∀ y ∈ cellsFrom d a bs, y.1 ≠ x := fun y hy => by have := (cellsFrom_mem hy).1; omega
  unfold memGet memPut
  rcases h with h | h
  · rw [List.append_assoc, lookupD_filter_keeps (fun y hy => by simpa [hy] using h)]
    intro y hy
    rcases List.mem_append.mp hy with hy | hy
    · exact hmid y hy
    · have := (List.mem_filter.mp hy).2
      simp only [decide_eq_true_eq] at this
      omega
  · rw [lookupD_append_none, ← List.append_nil (l.filter _),
      lookupD_filter_keeps (fun y hy => by simpa [hy] using h) _ _ (by simp)]
    intro y hy
    rcases List.mem_append.mp hy with hy | hy
    · have := (List.mem_filter.mp hy).2
      simp only [decide_eq_true_eq] at this
      omega
    · exact hmid y hy

/-! ### RW registers -/

/-- A write to a register of `storeVal` puts its low k bits there, and leaves what every other register shows. -/
def StoresAt (v : Word) (x k : Nat) (b : BlkInst) : Prop :=
  ∀ u : State, let t := writeBlk b.kind b.n b.base (x - b.base) v u
    blanked t = blanked u ∧ storeVal t x = some ((v.setWidth k).setWidth 32) ∧ ∀ y, y ≠ x → storeVal t y = storeVal u y

/-- The RW words of THL and SEC, each with its width. -/
theorem storesAt_thl_sec (v : Word) : ∀ r ∈ [((0x20060044, 32, 6) : Nat × Nat × Fin 28), (0x20060048, 23, 6),
    (0x2006004C, 22, 6), (0x20060064, 32, 6), (0x20060068, 19, 6), (0x20060200, 32, 6), (0x20040024, 32, 4), (0x20040028, 32, 4),
    (0x2004002C, 32, 4)], StoresAt v r.1 r.2.1 blockMap[r.2.2] := by
  simp only [List.forall_mem_cons, List.not_mem_nil, false_implies, implies_true, and_true]
  refine ⟨?_, ?_, ?_, ?_, ?_, ?_, ?_, ?_, ?_⟩
  all_goals
    refine fun u => ⟨rfl, rfl, fun y hy => ?_⟩
    unfold storeVal
    split
    any_goals rfl
    exact absurd rfl hy

theorem modTls_tls (u : State) (n : Port) (f : Tls → Tls) : ((u.modTls n f).vp[n]).tls = f (u.vp[n]).tls :=
  congrArg Vp.tls (vmod_self u.vp n _)

theorem blanked_modTls (u : State) (f : Tls → Tls)
    (hf : ∀ t, { f t with src := 0, dst := 0 } = { t with src := 0, dst := 0 }) : blanked (u.modTls 0 f) = blanked u := by
  have h : vmod (vmod u.vp 0 fun v => { v with tls := f v.tls }) 0 (fun v => { v with tls.src := 0, tls.dst := 0 })
      = vmod u.vp 0 fun v => { v with tls.src := 0, tls.dst := 0 } := by
    rw [vmod_vmod]
    exact congrArg (vmod u.vp 0) (funext fun v => congrArg (fun t => { v with tls := t }) (hf v.tls))
  show ({ blanked u with vp := _ } : State) = blanked u
  exact congrArg (fun w => { blanked u with vp := w }) h

theorem storesAt_tlsSrc (v : Word) : StoresAt v 0x20100194 32 blockMap[16] := by
  intro u
  have ht := modTls_tls u 0 fun t => { t with src := v }
  refine ⟨blanked_modTls u (fun t => { t with src := v }) fun _ => rfl, ?_, fun y hy => ?_⟩
  · exact congrArg (fun t => some t.src) ht
  · unfold storeVal
    split
    case h_10 => exact absurd rfl hy
    case h_11 => exact congrArg (fun t => some t.dst) ht
    all_goals rfl

theorem storesAt_tlsDst (v : Word) : StoresAt v 0x20100198 32 blockMap[16] := by
  intro u
  have ht := modTls_tls u 0 fun t => { t with dst := v }
  refine ⟨blanked_modTls u (fun t => { t with dst := v }) fun _ => rfl, ?_, fun y hy => ?_⟩
  · exact congrArg (fun t => some t.dst) ht
  · unfold storeVal
    split
    case h_11 => exact absurd rfl hy
    case h_10 => exact congrArg (fun t => some t.src) ht
    all_goals rfl

theorem storeVal_settled (k : BlkKind) (n : Nat) (s : State) (x : Nat) : storeVal (settled k n s) x = storeVal s x := rfl

theorem storeVal_bus (s : State) (b : Bus) (x : Nat) : storeVal { s with bus := b } x = storeVal s x := rfl

theorem blanked_bus (s : State) (b : Bus) : blanked { s with bus := b } = blanked s := rfl

/-- A word write to a RW register shows the value's defined bits and changes no other register (R5, R6). -/
theorem registerWrite_stores {s : State} {q : Fin 10} {x k : Nat} {v : Word} {i : Fin 28} {b : BlkInst} (h : Runs s)
    (hm : ¬ portMute s q.val = true) (hb : blkAt x = some (i, b)) (hp : plainReg b (x - b.base) = true)
    (hu : ∃ j c, blkAt x = some (j, c) ∧ blkUp s c.kind c.n = true) (hk : k ≤ 32) (hs : StoresAt v x k b) :
    ∃ t, exec (.registerWrite q (BitVec.ofNat 32 x) .word v) s = .next t ∧ t.bus = { err := false, data := 0 }
      ∧ regOf t x = v &&& wd (2 ^ k - 1) ∧ ∀ y, y % 4 = 0 → y ≠ x → regOf t y = regOf s.tagged y := by
  obtain ⟨hc, hx, ho⟩ := hs (settled b.kind b.n s.tagged)
  refine ⟨_, registerWrite_plain h hm hb hp ((blkUp_iff hb).mp hu) v, rfl, ?_, fun y _ hy => regOf_congr ?_ ?_⟩
  · exact (regOf_store ((storeVal_bus _ _ x).trans hx)).trans (setWidth_setWidth_and hk v)
  · rw [blanked_bus, hc, blanked_settled]
  · rw [storeVal_bus, ho y hy, storeVal_settled]

theorem stores_shown {s : State} {q : Fin 10} (h : Runs s) (hm : ¬ portMute s q.val = true) (v : Word) :
    ∀ p ∈ [((0x20060044, 0xFFFFFFFF) : Nat × Nat), (0x20060048, 0x7FFFFF), (0x2006004C, 0x3FFFFF),
      (0x20060064, 0xFFFFFFFF), (0x20060068, 0x7FFFF), (0x20060200, 0xFFFFFFFF), (0x20040024, 0xFFFFFFFF),
      (0x20040028, 0xFFFFFFFF), (0x2004002C, 0xFFFFFFFF), (0x20100194, 0xFFFFFFFF), (0x20100198, 0xFFFFFFFF)],
      (∃ j c, blkAt p.1 = some (j, c) ∧ blkUp s c.kind c.n = true) →
      ∃ t, exec (.registerWrite q (BitVec.ofNat 32 p.1) .word v) s = .next t ∧ t.bus = { err := false, data := 0 }
        ∧ regOf t p.1 = v &&& wd p.2 ∧ ∀ y, y % 4 = 0 → y ≠ p.1 → regOf t y = regOf s.tagged y := by
  have hall := storesAt_thl_sec v
  simp only [List.forall_mem_cons, List.not_mem_nil, false_implies, implies_true, and_true] at hall ⊢
  obtain ⟨hsrc, hlen, hofs, hpsrc, hplen, hgout, hssrc, hsdst, hsaux⟩ := hall
  refine ⟨?_, ?_, ?_, ?_, ?_, ?_, ?_, ?_, ?_, ?_, ?_⟩ <;> intro hu
  · exact registerWrite_stores (k := 32) h hm rfl rfl hu (by decide) hsrc
  · exact registerWrite_stores (k := 23) h hm rfl rfl hu (by decide) hlen
  · exact registerWrite_stores (k := 22) h hm rfl rfl hu (by decide) hofs
  · exact registerWrite_stores (k := 32) h hm rfl rfl hu (by decide) hpsrc
  · exact registerWrite_stores (k := 19) h hm rfl rfl hu (by decide) hplen
  · exact registerWrite_stores (k := 32) h hm rfl rfl hu (by decide) hgout
  · exact registerWrite_stores (k := 32) h hm rfl rfl hu (by decide) hssrc
  · exact registerWrite_stores (k := 32) h hm rfl rfl hu (by decide) hsdst
  · exact registerWrite_stores (k := 32) h hm rfl rfl hu (by decide) hsaux
  · exact registerWrite_stores (k := 32) h hm rfl rfl hu (by decide) (storesAt_tlsSrc v)
  · exact registerWrite_stores (k := 32) h hm rfl rfl hu (by decide) (storesAt_tlsDst v)

/-! ### W1C flags, triggers and read-only words -/

/-- A write to a W1C register clears the flags written as 1 in what the register shows, and leaves the parameters. -/
def ClearsAt (v : Word) (x m : Nat) (b : BlkInst) : Prop :=
  ∀ u : State, let t := writeBlk b.kind b.n b.base (x - b.base) v u
    wd (viewBlk t b.kind b.n (x - b.base)) = wd (viewBlk u b.kind b.n (x - b.base)) &&& ~~~(v &&& wd m)
      ∧ t.params = u.params

theorem wd_clear {m : Nat} (hm : m ≤ 32) (c : BitVec m) (v : Word) :
    wd (c &&& ~~~(v.setWidth m)).toNat = wd c.toNat &&& ~~~(v &&& wd (2 ^ m - 1)) := by
  rw [wd_toNat, wd_toNat, clear_setWidth hm]

theorem clearsAt_rstCause (v : Word) : ClearsAt v 0x20000014 0x1FFF blockMap[0] := fun u =>
  ⟨wd_clear (m := 13) (by decide) u.sys.rstCause v, rfl⟩

theorem clearsAt_dmaEvt (v : Word) : ClearsAt v 0x2002001C 0xFFFFFFFF blockMap[2] := fun u =>
  ⟨wd_clear (m := 32) (by decide) u.dma.evt v, rfl⟩

theorem clearsAt_thlEvt (v : Word) : ClearsAt v 0x20060088 0xFFFFFF03 blockMap[6] := by
  refine fun u => ⟨?_, rfl⟩
  show wd (viewThl (writeThl 0x88 v u) 0x88) = wd (viewThl u 0x88) &&& _
  rw [viewThl_evt, viewThl_evt, wd_self, wd_self]
  exact thlEvt_clear u.thl v

theorem clearsAt_gpioEvt (v : Word) : ClearsAt v 0x200B0024 0xFF blockMap[13] := fun u =>
  ⟨wd_clear (m := 8) (by decide) u.gpio.evt v, rfl⟩

theorem clearsAt_meshEvt {v : Word} (h : v.getLsbD 31 = false) : ClearsAt v 0x200C0024 0xF blockMap[14] := by
  intro u
  have hw : writeMesh 0x24 v u = { u with mesh.evt := u.mesh.evt &&& ~~~(v.setWidth 4) } := by
    unfold writeMesh bitAt
    rw [h]
    rfl
  show wd (viewMesh (writeMesh 0x24 v u) 0x24) = wd (viewMesh u 0x24) &&& _ ∧ (writeMesh 0x24 v u).params = u.params
  rw [hw]
  exact ⟨wd_clear (m := 4) (by decide) u.mesh.evt v, rfl⟩

/-- A word write to a W1C register clears the flags written as 1 (R6). -/
theorem registerWrite_clears {s : State} {q : Fin 10} {x m : Nat} {v : Word} {i : Fin 28} {b : BlkInst} (h : Runs s)
    (hm : ¬ portMute s q.val = true) (hb : blkAt x = some (i, b)) (hp : plainReg b (x - b.base) = true)
    (hu : ∃ j c, blkAt x = some (j, c) ∧ blkUp s c.kind c.n = true) (hs : ClearsAt v x m b)
    (hv : viewBlk (settled b.kind b.n s.tagged) b.kind b.n (x - b.base) = viewBlk s.tagged b.kind b.n (x - b.base))
    (hv' : ∀ u c, viewBlk { u with bus := c } b.kind b.n (x - b.base) = viewBlk u b.kind b.n (x - b.base)) :
    ∃ t, exec (.registerWrite q (BitVec.ofNat 32 x) .word v) s = .next t ∧ t.bus = { err := false, data := 0 }
      ∧ regOf t x = regOf s.tagged x &&& ~~~(v &&& wd m) ∧ t.params = s.params := by
  obtain ⟨hc, hpar⟩ := hs (settled b.kind b.n s.tagged)
  refine ⟨_, registerWrite_plain h hm hb hp ((blkUp_iff hb).mp hu) v, rfl, ?_, hpar⟩
  rw [regOf_plain _ hb hp, regOf_plain _ hb hp, hv', hc, hv]

theorem flags_clear {s : State} {q : Fin 10} (h : Runs s) (hm : ¬ portMute s q.val = true) (v : Word) :
    ∀ p ∈ [((0x20000014, 0x1FFF) : Nat × Nat), (0x2002001C, 0xFFFFFFFF), (0x20060088, 0xFFFFFF03), (0x200B0024, 0xFF),
      (0x200C0024, 0xF)], (∃ j c, blkAt p.1 = some (j, c) ∧ blkUp s c.kind c.n = true) →
      (p.1 = 0x200C0024 → v.getLsbD 31 = false) →
      ∃ t, exec (.registerWrite q (BitVec.ofNat 32 p.1) .word v) s = .next t ∧ t.bus = { err := false, data := 0 }
        ∧ regOf t p.1 = regOf s.tagged p.1 &&& ~~~(v &&& wd p.2) ∧ t.params = s.params := by
  simp only [List.forall_mem_cons, List.not_mem_nil, false_implies, implies_true, and_true]
  refine ⟨?_, ?_, ?_, ?_, ?_⟩ <;> intro hu hbit
  · exact registerWrite_clears h hm rfl rfl hu (clearsAt_rstCause v) rfl fun _ _ => rfl
  · exact registerWrite_clears h hm rfl rfl hu (clearsAt_dmaEvt v) rfl fun _ _ => rfl
  · exact registerWrite_clears h hm rfl rfl hu (clearsAt_thlEvt v) rfl fun _ _ => rfl
  · exact registerWrite_clears h hm rfl rfl hu (clearsAt_gpioEvt v) rfl fun _ _ => rfl
  · exact registerWrite_clears h hm rfl rfl hu (clearsAt_meshEvt (hbit trivial)) rfl fun _ _ => rfl

/-- A taken write that performs nothing. -/
theorem registerWrite_keeps {s : State} {q : Fin 10} {x : Nat} {v : Word} {i : Fin 28} {b : BlkInst} (h : Runs s)
    (hm : ¬ portMute s q.val = true) (hb : blkAt x = some (i, b)) (hp : plainReg b (x - b.base) = true)
    (hu : ∃ j c, blkAt x = some (j, c) ∧ blkUp s c.kind c.n = true)
    (hw : ∀ u, writeBlk b.kind b.n b.base (x - b.base) v u = u) :
    ∃ t, exec (.registerWrite q (BitVec.ofNat 32 x) .word v) s = .next t
      ∧ t = { s.tagged with compat := t.compat, bus := { err := false, data := 0 } } := by
  refine ⟨_, registerWrite_plain h hm hb hp ((blkUp_iff hb).mp hu) v, ?_⟩
  rw [hw]
  rfl

theorem constants_keep {s : State} {q : Fin 10} (h : Runs s) (hm : ¬ portMute s q.val = true) (v : Word) :
    ∀ x ∈ [(0x20000010 : Nat), 0x20020014, 0x20040030, 0x20060014, 0x200C0014],
      (∃ j c, blkAt x = some (j, c) ∧ blkUp s c.kind c.n = true) →
      ∃ t, exec (.registerWrite q (BitVec.ofNat 32 x) .word v) s = .next t
        ∧ t = { s.tagged with compat := t.compat, bus := { err := false, data := 0 } } := by
  simp only [List.forall_mem_cons, List.not_mem_nil, false_implies, implies_true, and_true]
  refine ⟨?_, ?_, ?_, ?_, ?_⟩ <;> exact fun hu => registerWrite_keeps h hm rfl rfl hu fun _ => rfl

/-- A trigger written with bit 31 is its command. -/
theorem registerWrite_triggers {s : State} {q : Fin 10} {x : Nat} {v : Word} {i : Fin 28} {b : BlkInst}
    {f : State → State} (h : Runs s) (hm : ¬ portMute s q.val = true) (hb : blkAt x = some (i, b))
    (hp : plainReg b (x - b.base) = true)
    (hu : ∃ j c, blkAt x = some (j, c) ∧ blkUp s c.kind c.n = true)
    (hw : ∀ u, writeBlk b.kind b.n b.base (x - b.base) v u = if bitAt v 31 then f u else u) :
    (v.getLsbD 31 = true → exec (.registerWrite q (BitVec.ofNat 32 x) .word v) s = access b.kind b.n s f)
      ∧ (v.getLsbD 31 = false → ∃ t, exec (.registerWrite q (BitVec.ofNat 32 x) .word v) s = .next t
        ∧ t = { s.tagged with compat := t.compat, bus := { err := false, data := 0 } }) := by
  refine ⟨fun hv => ?_, fun hv => registerWrite_keeps h hm hb hp hu fun u => ?_⟩
  · have hup := (blkUp_iff hb).mp hu
    rw [registerWrite_plain h hm hb hp hup, access_taken ⟨h, hup⟩, hw, bitAt, hv, if_pos rfl]
    rfl
  · rw [hw, bitAt, hv]
    rfl

theorem exec_txnClrcnt (s : State) : exec .txnClrcnt s = access .txn 0 s txnClear := rfl

theorem exec_thlClrcnt (s : State) : exec .thlClrcnt s = access .thl 0 s thlClear := rfl

theorem exec_loadClrcnt (s : State) : exec .loadClrcnt s = access .load 0 s loadClrcnt := rfl

theorem triggers_perform {s : State} {q : Fin 10} (h : Runs s) (hm : ¬ portMute s q.val = true) (v : Word) :
    ∀ p ∈ [((0x20030028, .txnClrcnt) : Nat × Instr), (0x2006008C, .thlClrcnt), (0x200A0018, .loadClrcnt)],
      (∃ j c, blkAt p.1 = some (j, c) ∧ blkUp s c.kind c.n = true) →
      (v.getLsbD 31 = true → exec (.registerWrite q (BitVec.ofNat 32 p.1) .word v) s = exec p.2 s)
      ∧ (v.getLsbD 31 = false → ∃ t, exec (.registerWrite q (BitVec.ofNat 32 p.1) .word v) s = .next t
        ∧ t = { s.tagged with compat := t.compat, bus := { err := false, data := 0 } }) := by
  simp only [List.forall_mem_cons, List.not_mem_nil, false_implies, implies_true, and_true, exec_txnClrcnt,
    exec_thlClrcnt, exec_loadClrcnt]
  refine ⟨?_, ?_, ?_⟩ <;> intro hu
  · exact registerWrite_triggers (b := blockMap[3]) h hm rfl rfl hu fun _ => rfl
  · exact registerWrite_triggers (b := blockMap[6]) h hm rfl rfl hu fun _ => rfl
  · exact registerWrite_triggers (b := blockMap[12]) h hm rfl rfl hu fun _ => rfl

/-! ### Accesses to the memories (R8, R367, R394) -/

theorem inSram_below {a n : Nat} (h : inSram a n = true) : a < 0x20000000 := by
  simp only [inSram, inside, Bool.and_eq_true, decide_eq_true_eq] at h
  have htop : sramBase + sramSize < 0x20000000 := by decide
  omega

theorem busRead_memory {req a : Nat} {size : AccSize} {s : State} (h : blkAt a = none) :
    busRead req a size s = memWordRead req a size.bytes s := by
  simp [busRead, h]

theorem busWrite_memory {req a : Nat} {size : AccSize} {s : State} (h : blkAt a = none) (v : Word) :
    busWrite req a size v s = memWrite req a ((leBytes 4 v.toNat).take size.bytes) s := by
  simp [busWrite, h]

theorem busRead_hole {req a : Nat} {size : AccSize} {s : State} (h : blkAt a = none) (ha : s.appRead a size.bytes = none) :
    busRead req a size s = s.decodeErr (wd a) req 4 := by
  rw [busRead_memory h, memWordRead, ha]

/-- A correct word of SRAM is read as it stands (R367). -/
theorem busRead_sram {req a : Nat} {s : State} (h : inSram a 4 = true) (hp : poisoned s a 4 = false) :
    busRead req a .word s = s.busOk (wd (leNat (s.ramRead a 4))) := by
  rw [busRead_memory (blkAt_below (inSram_below h))]
  simp [memWordRead, State.appRead, AccSize.bytes, h, hp]

/-- SRAM takes a run of bytes; a word written whole is no longer uncorrectable (R367). -/
def sramPut (a : Nat) (bs : List Byte) (s : State) : State :=
  { s with
    sram := memPut sramBlank a bs s.sram
    mesh.poison := s.mesh.poison.filter fun w => !(decide (a ≤ w) && decide (w + 8 ≤ a + bs.length)) }

/-- A write to SRAM that touches no uncorrectable word is taken. -/
theorem ramStore_good {s : State} {a : Nat} {bs : List Byte} (h : inSram a bs.length = true)
    (hp : poisoned s a bs.length = false) : ramStore s a bs = some (sramPut a bs s) := by
  have hno : (s.mesh.poison.any fun w => decide (w < a + bs.length) && decide (a < w + 8)
      && !(decide (a ≤ w) && decide (w + 8 ≤ a + bs.length))) = false := by
    simp only [poisoned, List.any_eq_false] at hp ⊢
    exact fun w hw hc => hp w hw (Bool.and_eq_true _ _ ▸ hc).1
  unfold ramStore
  dsimp only
  rw [hno, State.ramWrite, if_pos h]
  rfl

theorem poisoned_sramPut {s : State} {a n : Nat} (b : Nat) (bs : List Byte) (hp : poisoned s a n = false) :
    poisoned (sramPut b bs s) a n = false := by
  simp only [poisoned, List.any_eq_false] at hp ⊢
  exact fun w hw => hp w (List.mem_filter.mp hw |>.1)

theorem busWrite_sram {req a : Nat} {s : State} (h : inSram a 4 = true) (hp : poisoned s a 4 = false) (v : Word) :
    busWrite req a .word v s = (sramPut a (leBytes 4 v.toNat) s).busOk 0 := by
  have hlen : (leBytes 4 v.toNat).length = 4 := leBytes_length 4 _
  have htake : (leBytes 4 v.toNat).take AccSize.word.bytes = leBytes 4 v.toNat :=
    List.take_of_length_le (Nat.le_of_eq hlen)
  rw [busWrite_memory (blkAt_below (inSram_below h)), htake, memWrite, hlen, if_pos h,
    ramStore_good (by rwa [hlen]) (by rwa [hlen])]

/-- Flash, ROM and the Sinter window take no writes (R8, R394, R428). -/
theorem busWrite_refused {req a : Nat} {size : AccSize} {s : State} (h : inside a size.bytes norBase norSize = true
    ∨ inside a size.bytes 0 0x20000 = true ∨ inside a size.bytes sinterBase 0x200000 = true) (v : Word) :
    busWrite req a size v s = s.busErr := by
  have hlen : ((leBytes 4 v.toNat).take size.bytes).length = size.bytes := by
    rw [List.length_take, leBytes_length]
    cases size <;> rfl
  have hpos : 0 < size.bytes := by cases size <;> decide
  have hs : inSram a size.bytes = false ∧ a < 0x20000000 := by
    simp only [inside, Bool.and_eq_true, decide_eq_true_eq] at h
    simp only [inSram, inside, Bool.and_eq_false_iff, decide_eq_false_iff_not]
    have hn : norBase + norSize ≤ sramBase := by decide
    have hr : 0 + 0x20000 ≤ sramBase := by decide
    have hs : sramBase + sramSize ≤ sinterBase := by decide
    have ht : sinterBase + 0x200000 ≤ 0x20000000 := by decide
    omega
  rw [busWrite_memory (blkAt_below hs.2), memWrite, hlen, if_neg (by simp [hs.1]), if_pos (by simpa [or_assoc] using h)]

/-- The word last written to SRAM is read. -/
theorem ramRead_sramPut (a : Nat) (v : Word) (s : State) :
    wd (leNat ((sramPut a (leBytes 4 v.toNat) s).ramRead a 4)) = v := by
  have hback := memRead_memPut sramBlank a (leBytes 4 v.toNat) s.sram
  rw [leBytes_length] at hback
  rw [State.ramRead, sramPut, hback, leNat_leBytes, Nat.mod_eq_of_lt (show v.toNat < 256 ^ 4 from v.isLt), wd_self]

theorem sram_word_reads_back {s : State} {q q' : Fin 10} {a : Word} (h : Runs s) (hm : ¬ portMute s q.val = true)
    (hm' : portMute s q'.val = false) (hin : inSram a.toNat 4 = true) (hp : poisoned s a.toNat 4 = false) (v : Word) :
    exec (.rosLowRead q a .word) s = .next { s.tagged with bus := { err := false, data := wd (leNat (s.ramRead a.toNat 4)) } }
      ∧ ∃ t, exec (.registerWrite q' a .word v) s = .next t
        ∧ exec (.rosLowRead q a .word) t = .next { t.tagged with bus := { err := false, data := v } }
        ∧ ∀ x, (x < a.toNat ∨ a.toNat + 4 ≤ x) → memGet sramBlank x t.sram = memGet sramBlank x s.sram := by
  have hm'' : ¬ portMute s q'.val = true := by simp [hm']
  have hpt : poisoned s.tagged a.toNat 4 = false := hp
  refine ⟨?_, (sramPut a.toNat (leBytes 4 v.toNat) s.tagged).busOk 0, ?_, ?_, fun x hx => ?_⟩
  · rw [exec_read h hm, busRead_sram hin hpt]
    rfl
  · rw [exec_write h hm'', busWrite_sram hin hpt]
  · generalize ht : (sramPut a.toNat (leBytes 4 v.toNat) s.tagged).busOk 0 = t
    have hrun : Runs t := ht ▸ h
    have hmt : ¬ portMute t q.val = true := ht ▸ hm
    have hgood : poisoned t.tagged a.toNat 4 = false := ht ▸ poisoned_sramPut a.toNat (leBytes 4 v.toNat) hp
    have hv : wd (leNat (t.tagged.ramRead a.toNat 4)) = v := ht ▸ ramRead_sramPut a.toNat v s
    rw [exec_read hrun hmt, busRead_sram hin hgood, hv]
    rfl
  · exact memGet_memPut_other s.sram (by rwa [leBytes_length])

/-! ### The parts of the statement -/

theorem clocks_answer (s : State) (dev : BitVec 16) (h : Runs s) :
    exec .rtcLoad s = .next { s with
        time.rtcSec := wd (s.legalNs / 1000000000).toNat
        time.rtcFrac := 0 }
      ∧ (dev.toInt.natAbs ≤ 500 → exec (.refdevMeasure dev) s = .next { s with time.refdev := dev })
      ∧ (500 < dev.toInt.natAbs → ∃ t, exec (.refdevMeasure dev) s = .next t ∧ t = { s with time := t.time }
        ∧ t.time.refdev = dev ∧ t.time.refdevE = true ∧ t.time.sysNs = s.time.sysNs)
      ∧ (blkUp s .time 0 = true → ∃ t, exec .evlClrcnt s = .next t
          ∧ (¬ TypeFull s 0x0005 → t.time.evlDrop = 0 ∧ ∃ e l, t.time.evl = e :: l ∧ e.typ = 0x0005 ∧ e.d0 = 0x544D)
          ∧ (TypeFull s 0x0005 → t.time.evlDrop = 1 ∧ t.time.evl = s.time.evl)) := by
  have hload : exec .rtcLoad s = live s rtcLoad := rfl
  have hdev : exec (.refdevMeasure dev) s = live s (refdevMeasure dev) := rfl
  have hclr : exec .evlClrcnt s = access .time 0 s evlClrcnt := rfl
  refine ⟨?_, fun hd => ?_, fun hd => ?_, fun hu => ?_⟩
  · rw [hload, live_running h]
    rfl
  · rw [hdev, live_running h, refdevMeasure_within hd]
  · rw [hdev, live_running h, refdevMeasure_beyond hd]
    exact ⟨_, rfl, evlog_onlyTime _ _ _ _ _ _⟩
  · rw [hclr, access_taken ⟨h, hu⟩]
    exact ⟨_, rfl, fun hf => evlClrcnt_written hf, fun hf => evlClrcnt_dropped hf⟩

theorem compReading_answers (s : State) (r : BitVec 12) (n : Nat) :
    ∃ t, exec (.rtcCompReading r n) s = .next t ∧ t = { s with time := t.time } ∧
      let acc := s.time.rtcAcc + rtcCorr s r.toInt * ((s.time.rtcGap + n : Nat) : Int)
      t.time.temp = r ∧ t.time.rtcAcc = acc - acc.tdiv rtcCycle * rtcCycle ∧ t.time.rtcAcc.natAbs < rtcCycle.natAbs
        ∧ rtcCount t = (rtcCount s + n + acc.tdiv rtcCycle) % 2 ^ 47 ∧ t.time.rtcGap = 0 ∧ t.time.sysNs = s.time.sysNs :=
  ⟨rtcReading r n s, rfl, rfl, rfl, rfl, rtcRest_lt _, rtcReading_count r n s, rfl, rfl⟩

/-- An access to a register space that its width, its address or its block's map turns away (R3, R358, R364). -/
theorem accesses_refused {s : State} {q : Fin 10} {a : Word} {i : Fin 28} {b : BlkInst} (h : Runs s)
    (hm : ¬ portMute s q.val = true) (hb : blkAt a.toNat = some (i, b)) (v : Word) (size : AccSize) :
    (size ≠ .word → exec (.registerWrite q a size v) s = .next (s.tagged.decodeErr a q.val 5)
        ∧ exec (.rosLowRead q a size) s = .next (s.tagged.decodeErr a q.val 5))
      ∧ (a.toNat % 4 ≠ 0 → exec (.rosLowRead q a .word) s = .next (s.tagged.decodeErr a q.val 5)
        ∧ exec (.registerWrite q a .word v) s = .next (s.tagged.decodeErr a q.val 5))
      ∧ (a.toNat % 4 = 0 → hasWord b.kind (a.toNat - b.base) = false →
        exec (.rosLowRead q a .word) s = .next (s.tagged.decodeErr a q.val 4)
          ∧ exec (.registerWrite q a .word v) s = .next (s.tagged.decodeErr a q.val 4)) := by
  refine ⟨fun hsz => ?_, fun hal => ?_, fun hal hw => ?_⟩
  · rw [exec_write h hm, exec_read h hm, busWrite_part hb hsz, busRead_part hb hsz, wd_self]
    exact ⟨rfl, rfl⟩
  · rw [exec_write h hm, exec_read h hm, busWrite_word hb, busRead_word hb, regWrite_unaligned hb hal,
      regRead_unaligned hb hal, wd_self]
    exact ⟨rfl, rfl⟩
  · rw [exec_write h hm, exec_read h hm, busWrite_word hb, busRead_word hb, regWrite_noWord hb hal hw,
      regRead_noWord hb hal hw, wd_self]
    exact ⟨rfl, rfl⟩

/-- A block without a level answers IDENT and COMPAT alone; a write to IDENT settles COMPAT only; a window takes no write to a
word that is not among those it takes (R5, R16, R358). -/
theorem words_refused {s : State} {q : Fin 10} {a : Word} {i : Fin 28} {b : BlkInst} (h : Runs s)
    (hm : ¬ portMute s q.val = true) (hb : blkAt a.toNat = some (i, b)) (v : Word) (hal : a.toNat % 4 = 0)
    (hw : hasWord b.kind (a.toNat - b.base) = true) :
    let o := a.toNat - b.base
    ((s.compat[i]).level = 0 →
        (o ≠ 0 → o ≠ 4 → exec (.rosLowRead q a .word) s = .next s.tagged.busErr)
          ∧ (o ≠ 4 → (o ≠ 0 ∨ isWindow b.kind = true) → exec (.registerWrite q a .word v) s = .next s.tagged.busErr))
      ∧ (o = 0 → isWindow b.kind = false → exec (.registerWrite q a .word v) s = .next
          { s.tagged.busOk 0 with compat := vmod s.compat i fun x => { x with locked := true } })
      ∧ (o ≠ 4 → isWindow b.kind = true → writeWindow b.kind b.base o v s.tagged = none →
        exec (.registerWrite q a .word v) s = .next s.tagged.busErr) := by
  refine ⟨fun hl => ⟨fun h0 h4 => ?_, fun h4 h0 => ?_⟩, fun h0 hwin => ?_, fun h4 hwin hno => ?_⟩
  · rw [exec_read h hm, busRead_word hb, regRead_noLevel (s := s.tagged) hb hal hw hl h0 h4]
  · rw [exec_write h hm, busWrite_word hb, regWrite_noLevel (s := s.tagged) hb hal hw hl h4 h0]
  · rw [exec_write h hm, busWrite_word hb, regWrite_ident hb hal hw h0 hwin]
    rfl
  · rw [exec_write h hm, busWrite_word hb, regWrite_windowRefuses hb hal hw h4 hwin hno]

/-- Outside the blocks: what nothing decodes, and the memories that take no write (R8, R364, R428). -/
theorem memories_refuse {s : State} {q : Fin 10} {a : Word} {size : AccSize} (h : Runs s) (hm : ¬ portMute s q.val = true)
    (v : Word) :
    (blkAt a.toNat = none → s.appRead a.toNat size.bytes = none →
        exec (.rosLowRead q a size) s = .next (s.tagged.decodeErr a q.val 4))
      ∧ ((inside a.toNat size.bytes norBase norSize = true ∨ inside a.toNat size.bytes 0 0x20000 = true
          ∨ inside a.toNat size.bytes sinterBase 0x200000 = true) →
        exec (.registerWrite q a size v) s = .next s.tagged.busErr) := by
  refine ⟨fun hb ha => ?_, fun hin => ?_⟩
  · have ha' : s.tagged.appRead a.toNat size.bytes = none := ha
    rw [exec_read h hm, busRead_hole hb ha', wd_self]
  · rw [exec_write h hm, busWrite_refused hin]

/-- The low word's read latches the higher word, which the requester's next read of it answers whatever came between
(R6, R103). -/
theorem rosLow_latches {s : State} {q : Fin 10} {a : Word} {i : Fin 28} {b : BlkInst} (h : Runs s)
    (hm : ¬ portMute s q.val = true) (hb : blkAt a.toNat = some (i, b)) (hal : a.toNat % 4 = 0)
    (hw : hasWord b.kind (a.toNat - b.base) = true) (hw4 : hasWord b.kind (a.toNat - b.base + 4) = true)
    (hl : (s.compat[i]).level ≠ 0) (hlow : rosLow b.kind (a.toNat - b.base) = true)
    (hs : b.kind = .met → shortOf (a.toNat - b.base) = none) (hhigh : rosHigh b.kind (a.toNat - b.base) = false) :
    ∃ t, exec (.rosLowRead q a .word) s = .next t
      ∧ t.bus = { err := false, data := regView s.tagged b.kind b.n b.base (a.toNat - b.base) }
      ∧ ∀ u : State, Runs u → portMute u q.val = false → u.ros = t.ros → (u.compat[i]).level ≠ 0 →
        exec (.rosLowRead q (a + 4) .word) u
        = .next { u.tagged with bus := { err := false, data := regView s.tagged b.kind b.n b.base (a.toNat - b.base + 4) } } := by
  obtain ⟨hmem, hle, -, -⟩ := blkAt_spec hb
  obtain ⟨hcan, -, hofs⟩ := rosLow_bound hlow
  have hsize := blockMap_size b hmem hcan
  obtain ⟨-, -, htop⟩ := blockMap_range b hmem
  have ha : (a + 4).toNat = a.toNat + 4 := by
    rw [BitVec.toNat_add]
    exact Nat.mod_eq_of_lt (by show a.toNat + 4 < 2 ^ 32; omega)
  have hb4 : blkAt (a.toNat + 4) = some (i, b) := blkAt_add hb (by omega)
  have ho4 : a.toNat + 4 - b.base = a.toNat - b.base + 4 := by omega
  refine ⟨_, (exec_read h hm a .word).trans (congrArg _ ((busRead_word hb).trans
    (regRead_rosLow hb hal hw hl hlow hhigh hs))), rfl, fun u hu hmu hros hlu => ?_⟩
  rw [exec_read hu (by simp [hmu]), ha, busRead_word hb4,
    regRead_rosHigh (s := u.tagged) hb4 (by omega) (by rwa [ho4]) hlu (by rw [ho4]; exact rosHigh_succ hlow)]
  show Host.Outcome.next (State.busOk u.tagged (lookupD (q.val, a.toNat + 4) 0 u.ros)) = _
  rw [hros]
  exact congrArg (fun w => Host.Outcome.next (State.busOk u.tagged w)) (lookupD_latchSet _ _ _ _)

/-- Settles O58: the clocks and the RTC's reading; the writes shown, by their access code; the accesses to SRAM; and the
refused accesses and the ROS latches. -/
theorem clocksAndRegisterAccessesAnswer : Obligations.ClocksAndRegisterAccessesAnswer := by
  refine ⟨clocks_answer, compReading_answers, fun s q q' a v size h => ?_⟩
  intro n now bare noted mute view up stores flags triggers constants write kept
  refine ⟨fun hm => ⟨stores_shown h hm v, flags_clear h hm v, triggers_perform h hm v, constants_keep h hm v⟩,
    fun hm => exec_muted h hm a v size, fun hm hm' hin hp => sram_word_reads_back h hm hm' hin hp v,
    fun hm => (memories_refuse h hm v).1, fun hm => (memories_refuse h hm v).2, fun i b hb hm => ?_⟩
  obtain ⟨hpart, hunaligned, hno⟩ := accesses_refused h hm hb v size
  exact ⟨hpart, hunaligned, hno, fun hal hw => (words_refused h hm hb v hal hw).1,
    fun hal hw => (words_refused h hm hb v hal hw).2.1, fun hal hw => (words_refused h hm hb v hal hw).2.2,
    fun hal hw hw4 hl hlow hs hhigh => rosLow_latches h hm hb hal hw hw4 hl hlow hs hhigh⟩
end Sys2Proof.Machine
end
